-- ==== Sys2Proof/Word.lean ====
section
/-! DEFINITION. The word types of the device (R4, R5): byte, half-word, word, double word, instruction word, operand line. -/

namespace Sys2Proof

/-- 8 bits (R5). -/
abbrev Byte := BitVec 8
/-- 16 bits (R5). -/
abbrev Half := BitVec 16
/-- 32 bits (R5). -/
abbrev Word := BitVec 32
/-- 64 bits (R5); also the width of a tile instruction word. -/
abbrev DWord := BitVec 64
/-- 1,024 bits: a vector register, an operand-store line, the data of a message. -/
abbrev Line := BitVec 1024
/-- A logical tile number, y * 64 + x (R5). -/
abbrev TileNo := BitVec 11
/-- A panel, command processor or intake window number. -/
abbrev PanelNo := BitVec 4
/-- A BAR0 byte address (64 MiB, R35). -/
abbrev Bar0Addr := BitVec 26
/-- An HBM device byte address (39 bits, R276). -/
abbrev HbmAddr := BitVec 39

/-- A Bool as a bit. -/
def bit (b : Bool) : Nat := if b then 1 else 0

end Sys2Proof
end

