-- ==== Sys2Proof/Syntax.lean ====
section
/-! DEFINITION. The commands the block takes: one constructor of `Instr` per row of the command table, in the table's order, those without operands last.
A tile instruction carries the tile that issues it and the fields of its instruction word (R128 to R161); every other command
carries the data that comes with it from outside (an address, a value, a unit number, what the event found). -/

namespace Sys2Proof

/-- A 6-bit register code (R129, R130). -/
abbrev Reg6 := BitVec 6

/-- The fields of a format S word (R131). -/
structure ScalarOps where
  d : Reg6
  a : Reg6
  b : Reg6
  i : Bool
  imm : Word
  deriving DecidableEq, Repr

/-- The addressing fields of a format M word (R137). -/
structure MAddr where
  am : BitVec 2
  ptr : BitVec 3
  mod : BitVec 3
  imm : Word
  deriving DecidableEq, Repr

/-- The fields of `mstream` and `mfold` (R153). -/
structure StreamOps where
  mm1 : BitVec 5
  nm1 : BitVec 5
  len : Half
  bfmt : BitVec 3
  bl16 : Bool
  asrc : Bool
  areg : BitVec 4
  bsrc : BitVec 2
  bptr : BitVec 3
  cont : Bool
  deriving DecidableEq, Repr

/-- The fields of `vqb` (R149). -/
structure QbOps where
  tgt : BitVec 4
  af : Bool
  pl : Bool
  pn : BitVec 2
  pf : Bool
  co : BitVec 2
  half : Bool
  b16 : Bool
  deriving DecidableEq, Repr

/-- A host access of a channel of cluster 8 without translation (R270): the channel and the address. -/
structure PageFault where
  chan : BitVec 6
  addr : DWord
  deriving DecidableEq, Repr

/-- A 64-byte request at an HBM controller (R277): its master, direction, address and write data. -/
structure HbmReq where
  master : Byte
  write : Bool
  addr : HbmAddr
  data : List Byte
  deriving DecidableEq, Repr


/-- The commands of the block: one constructor per row of the command table. -/
inductive Instr where
  /-- REGISTER_WRITE (R10): A host write to a BAR0 register field that has no row of its own takes effect according to its access code. -/
  | registerWrite (addr : Bar0Addr) (wide : Bool) (val : DWord)
  /-- RC_READ (R10): A read of an RC field returns its value and then clears the field, keeping any event that falls in the same cycle. -/
  | rcRead (addr : Bar0Addr) (wide : Bool)
  /-- LOWER_HALF_READ (R8): A read of the lower register of a wide field returns the lower part and latches the upper part into the shared holding copy. -/
  | lowerHalfRead (addr : Bar0Addr)
  /-- UPPER_HALF_READ (R8): A read of the upper register of a wide field returns the holding copy and empties it, or returns the current upper part when the copy is empty. -/
  | upperHalfRead (addr : Bar0Addr)
  /-- LOWER_HALF_WRITE (R8): A write to the lower register of a wide field is held, and replaces any earlier held write. -/
  | lowerHalfWrite (addr : Bar0Addr) (val : Word)
  /-- UPPER_HALF_WRITE (R8): A write to the upper register of a wide field commits both halves together, or the upper half alone when no lower write is held. -/
  | upperHalfWrite (addr : Bar0Addr) (val : Word)
  /-- UNASSIGNED_ACCESS (R9): An access to an unassigned offset, reserved range or unopened window completes normally and is recorded as an unassigned-access event in the error log. -/
  | unassignedAccess (addr : Bar0Addr) (write : Bool) (val : Word)
  /-- PROFILE_WRITE (R32): A write to MGT_PROFILE selects the latency or availability profile and sets SPARES_LEFT; the write is discarded while any panel is defined. -/
  | profileWrite (val : Word)
  /-- NOP (R139): The nop instruction does nothing. -/
  | nop (t : TileNo)
  /-- HALT (R139): The halt instruction stops issue, and completion follows once all work has drained. -/
  | halt (t : TileNo)
  /-- RTI (R124): The rti instruction restores the program counter and flags from ipc and iflags, and resumes 3 ic later. -/
  | rti (t : TileNo)
  /-- BR (R139): The br instruction branches after two delay slots when COND holds in flags. -/
  | br (t : TileNo) (cond : BitVec 4) (target : BitVec 12)
  /-- BAL (R139): The bal instruction writes the return address to sD and branches. -/
  | bal (t : TileNo) (d : Reg6) (target : BitVec 12)
  /-- JR (R139): The jr instruction branches to the address held in sA. -/
  | jr (t : TileNo) (a : Reg6)
  /-- REP (R113): The rep instruction opens a repeat level, or skips the body when the count is 0. -/
  | rep (t : TileNo) (cs : Bool) (sreg : BitVec 4) (stop : BitVec 12) (imm : Word)
  /-- RBRK (R114): The rbrk instruction closes the innermost n repeat levels. -/
  | rbrk (t : TileNo) (n : BitVec 3)
  /-- SETF (R139): The setf instruction ORs a mask into flags. -/
  | setf (t : TileNo) (mask : BitVec 18)
  /-- CLRF (R139): The clrf instruction clears the bits of a mask in flags. -/
  | clrf (t : TileNo) (mask : BitVec 18)
  /-- ADD (R141): The scalar add instruction adds and sets Z, N, C and V. -/
  | add (t : TileNo) (o : ScalarOps)
  /-- SUB (R141): The scalar sub instruction subtracts and sets Z, N, C and V. -/
  | sub (t : TileNo) (o : ScalarOps)
  /-- AND (R141): The scalar and instruction forms a bitwise AND. -/
  | and (t : TileNo) (o : ScalarOps)
  /-- OR (R141): The scalar or instruction forms a bitwise OR. -/
  | or (t : TileNo) (o : ScalarOps)
  /-- XOR (R141): The scalar xor instruction forms a bitwise XOR. -/
  | xor (t : TileNo) (o : ScalarOps)
  /-- SHL (R141): The scalar shl instruction shifts left. -/
  | shl (t : TileNo) (o : ScalarOps)
  /-- SHR (R141): The scalar shr instruction shifts right logically. -/
  | shr (t : TileNo) (o : ScalarOps)
  /-- SRA (R141): The scalar sra instruction shifts right arithmetically. -/
  | sra (t : TileNo) (o : ScalarOps)
  /-- MOV (R141): The scalar mov instruction copies a register or an immediate into D. -/
  | mov (t : TileNo) (d : Reg6) (b : Reg6) (i : Bool) (imm : Word)
  /-- CMP (R141): The cmp instruction sets the flags as sub does, without writing a destination. -/
  | cmp (t : TileNo) (a : Reg6) (b : Reg6) (i : Bool) (imm : Word)
  /-- MIN (R141): The scalar min instruction takes the signed minimum. -/
  | min (t : TileNo) (o : ScalarOps)
  /-- MAX (R141): The scalar max instruction takes the signed maximum. -/
  | max (t : TileNo) (o : ScalarOps)
  /-- MUL (R141): The scalar mul instruction writes the low 32 bits of a signed product after 3 slots. -/
  | mul (t : TileNo) (o : ScalarOps)
  /-- PMOD (R141): The pmod instruction applies the post-modify update to a pointer. -/
  | pmod (t : TileNo) (d : Reg6) (b : Reg6) (i : Bool) (imm : Word)
  /-- MVS (R142): The mvs instruction copies 32 bits between a general register and a special register. -/
  | mvs (t : TileNo) (dir : Bool) (gen : Reg6) (spr : Reg6)
  /-- SETSP (R142): The setsp instruction writes an immediate into a special register. -/
  | setsp (t : TileNo) (spr : Reg6) (imm : Word)
  /-- LDSP (R142): The ldsp instruction loads a special register from the operand store. -/
  | ldsp (t : TileNo) (spr : Reg6) (m : MAddr)
  /-- STSP (R142): The stsp instruction stores a special register into the operand store. -/
  | stsp (t : TileNo) (spr : Reg6) (m : MAddr)
  /-- LD (R143): The ld instruction loads a 32-bit word from the operand store. -/
  | ld (t : TileNo) (d : Reg6) (m : MAddr)
  /-- ST (R143): The st instruction stores a word into the operand store by read-modify-write. -/
  | st (t : TileNo) (r : Reg6) (m : MAddr)
  /-- VLD (R143): The vld instruction loads 128 bytes over X or Y into a vector register. -/
  | vld (t : TileNo) (d : Reg6) (bus : Bool) (m : MAddr)
  /-- VST (R143): The vst instruction stores a vector register into 128 bytes of the operand store. -/
  | vst (t : TileNo) (r : Reg6) (m : MAddr)
  /-- VADD (R145): The vadd instruction adds lanes in floating point. -/
  | vadd (t : TileNo) (ty : BitVec 4) (d a b : Reg6)
  /-- VSUB (R145): The vsub instruction subtracts lanes in floating point. -/
  | vsub (t : TileNo) (ty : BitVec 4) (d a b : Reg6)
  /-- VMUL (R145): The vmul instruction multiplies lanes in floating point. -/
  | vmul (t : TileNo) (ty : BitVec 4) (d a b : Reg6)
  /-- VFMA (R145): The vfma instruction computes a fused multiply-add in each lane with one rounding. -/
  | vfma (t : TileNo) (ty : BitVec 4) (d a b c : Reg6)
  /-- VMIN (R145): The vmin instruction takes the minimumNumber of each lane. -/
  | vmin (t : TileNo) (ty : BitVec 4) (d a b : Reg6)
  /-- VMAX (R145): The vmax instruction takes the maximumNumber of each lane. -/
  | vmax (t : TileNo) (ty : BitVec 4) (d a b : Reg6)
  /-- VIADD (R145): The viadd instruction adds integer lanes with wrapping. -/
  | viadd (t : TileNo) (d a b : Reg6)
  /-- VISUB (R145): The visub instruction subtracts integer lanes with wrapping. -/
  | visub (t : TileNo) (d a b : Reg6)
  /-- VAND (R145): The vand instruction forms a bitwise AND of lanes. -/
  | vand (t : TileNo) (d a b : Reg6)
  /-- VOR (R145): The vor instruction forms a bitwise OR of lanes. -/
  | vor (t : TileNo) (d a b : Reg6)
  /-- VXOR (R145): The vxor instruction forms a bitwise XOR of lanes. -/
  | vxor (t : TileNo) (d a b : Reg6)
  /-- VSHL (R145): The vshl instruction shifts lanes left. -/
  | vshl (t : TileNo) (d a b : Reg6)
  /-- VSHR (R145): The vshr instruction shifts lanes right, logically or arithmetically. -/
  | vshr (t : TileNo) (arith : Bool) (d a b : Reg6)
  /-- VCMP (R146): The vcmp instruction writes an all-ones or zero mask in each lane from a comparison. -/
  | vcmp (t : TileNo) (ty rel : BitVec 4) (d a b : Reg6)
  /-- VMOV (R145): The vmov instruction copies a vector register. -/
  | vmov (t : TileNo) (d a : Reg6)
  /-- VSEL (R145): The vsel instruction selects each lane from A or B by the mask in C. -/
  | vsel (t : TileNo) (d a b c : Reg6)
  /-- VBCAST (R145): The vbcast instruction copies a scalar register into every lane. -/
  | vbcast (t : TileNo) (d a : Reg6)
  /-- VGET (R145): The vget instruction copies one lane into a scalar register. -/
  | vget (t : TileNo) (d a : Reg6) (lane : BitVec 5)
  /-- VROT (R145): The vrot instruction rotates the lanes by k. -/
  | vrot (t : TileNo) (d a b : Reg6) (k : BitVec 5)
  /-- VCVT (R147): The vcvt instruction converts each lane between formats, scaled by 2^SCL. -/
  | vcvt (t : TileNo) (src dst : BitVec 4) (scl : BitVec 8) (d a : Reg6)
  /-- VQB (R80): The vqb instruction quantizes a vector register into a block record, with optional pleats, pockets and promotion. -/
  | vqb (t : TileNo) (d a : Reg6) (q : QbOps)
  /-- VTACK (R150): The vtack instruction adds pocket corrections to binary32 lanes with a single rounding. -/
  | vtack (t : TileNo) (d a b : Reg6) (py my : BitVec 3)
  /-- VTAP (R151): The vtap instruction runs one filter tap per lane and writes the delay line. -/
  | vtap (t : TileNo) (ty : BitVec 4) (d : Reg6) (px mx py my : BitVec 3)
  /-- MSTREAM (R153): The mstream instruction queues a normal-mode matrix stream. -/
  | mstream (t : TileNo) (w : StreamOps)
  /-- MFOLD (R153): The mfold instruction queues a fold-mode matrix stream, or raises MODE_ERR when Ks breaks the block rule. -/
  | mfold (t : TileNo) (w : StreamOps)
  /-- STREAM_START (R55): A waiting stream starts, continuing the executing stream or taking its first plane after it. -/
  | streamStart (t : TileNo)
  /-- MSWAP (R46): The mswap instruction exchanges the front and back banks of all cells. -/
  | mswap (t : TileNo)
  /-- MSWAP_REDUCE (R58): The mswap instruction with RED set closes a fold pass, and the trees capture and clear the back bank. -/
  | mswapReduce (t : TileNo) (ofmt : BitVec 2) (odst : Bool) (oreg : BitVec 4)
  /-- TREE_RESULT_WRITE (R58): The fold-tree result passes the convert stage and is written to its destination 6 ic after the swap. -/
  | treeResultWrite (t : TileNo)
  /-- MDRAIN_CONVERTED (R49): The mdrain instruction queues a converted drain of back-bank rows, with an optional bias load. -/
  | mdrainConverted (t : TileNo) (rowsm1 : BitVec 5) (ofmt : BitVec 2) (odst : Bool) (oreg : BitVec 4) (bias : Bool) (breg : BitVec 4)
  /-- MDRAIN_RAW (R49): The mdrain instruction with RAW set queues a raw drain of back-bank records. -/
  | mdrainRaw (t : TileNo) (rowsm1 : BitVec 5) (odst : Bool) (oreg : BitVec 4)
  /-- MLOAD_ROW (R50): The mload instruction in row form queues the load of one back-bank row from a vector register. -/
  | mloadRow (t : TileNo) (row : BitVec 5) (sreg : BitVec 4)
  /-- MLOAD_BROADCAST (R157): The mload instruction in broadcast form queues the load of one vector register into every active row. -/
  | mloadBroadcast (t : TileNo) (sreg : BitVec 4)
  /-- MLOAD_RAW (R157): The mload instruction in raw form queues the load of records into rows. -/
  | mloadRaw (t : TileNo) (row rowsm1 : BitVec 5) (src : Bool) (sreg : BitVec 4)
  /-- MCLR (R50): The mclr instruction queues the clearing of every back-bank record to EMPTY. -/
  | mclr (t : TileNo)
  /-- BACK_BANK_OP_START (R47): A waiting back-bank operation takes the back-bank port once the operation before it has completed. -/
  | backBankOpStart (t : TileNo)
  /-- BACK_BANK_OP_COMPLETE (R47): A back-bank operation completes, which frees the port and releases an mswap held behind it. -/
  | backBankOpComplete (t : TileNo)
  /-- MWAIT (R158): The mwait instruction issues once the named matrix conditions are about to hold. -/
  | mwait (t : TileNo) (bb tr st : Bool)
  /-- MAT_FORCE_WRITE (R65): A write to TIL_MAT_FORCE_ROW or TIL_MAT_FORCE_COL forces rows or columns off from the next stream. -/
  | matForceWrite (t : TileNo) (col : Bool) (val : Word)
  /-- LNLD (R159): The lnld instruction loads a lining line into a vector register, poisoning the lanes of uncorrectable words. -/
  | lnld (t : TileNo) (d : Reg6) (m : MAddr)
  /-- LNST (R159): The lnst instruction stores a vector register into a lining line. -/
  | lnst (t : TileNo) (r : Reg6) (m : MAddr)
  /-- NSEND (R160): The nsend instruction injects a message once admitted, or discards it as BAD_ROUTE. -/
  | nsend (t : TileNo) (a : Reg6) (cls : BitVec 2) (sb : BitVec 4)
  /-- NRECV (R160): The nrecv instruction takes the oldest message of a class from the ejection queue. -/
  | nrecv (t : TileNo) (d : Reg6) (cls : BitVec 2)
  /-- TRC (R161): The trc instruction appends a software record to the trace buffer, or drops it when the buffer is full. -/
  | trc (t : TileNo) (a : Reg6) (code : Half)
  /-- RDCTR (R161): The rdctr instruction reads one half of an always-on counter. -/
  | rdctr (t : TileNo) (d : Reg6) (n : BitVec 4) (hi : Bool)
  /-- RDSNAP (R161): The rdsnap instruction reads the number of the last snapshot marker that the tile copied. -/
  | rdsnap (t : TileNo) (d : Reg6)
  /-- TILE_COMPLETION (R119): After halt, the tile completes once all issued work has drained, and reports completion to its command processor. -/
  | tileCompletion (t : TileNo)
  /-- INTERRUPT_ENTRY (R123): The sequencer takes the highest pending interrupt once it is enabled and no hold is in force, then saves ipc and iflags and jumps to ivec. -/
  | interruptEntry (t : TileNo)
  /-- FAULT_LIMIT_EXCEEDED (R121): Corrected events beyond TIL_FLT_LIMIT within its window make the fault permanent and retire the tile. -/
  | faultLimitExceeded (t : TileNo)
  /-- UNCORRECTABLE_REPLAY (R121): The management controller replays an uncorrectable tile word and classifies the fault as transient or permanent. -/
  | uncorrectableReplay (t : TileNo) (recurs : Bool)
  /-- TILE_TAKEOVER (R189): In the availability profile, a held spare takes over a failed logical tile, and firmware re-steers the routers. -/
  | tileTakeover (t : TileNo)
  /-- TILE_RESET (R127): A write of TIL_CTRL.RESET resets the tile within 64 ic. -/
  | tileReset (t : TileNo)
  /-- PATROL_SCRUB_READ (R167): Every INTV × 256 ic, the patrol scrub reads the next lining line through the scale port. -/
  | patrolScrubRead (t : TileNo)
  /-- CORRECTED_WRITE_BACK (R163): A corrected lining word is written back through the scale port in the first free ic. -/
  | correctedWriteBack (t : TileNo) (word : BitVec 18)
  /-- CHAIN_READY (R174): Ready passes from the tail to the head of a weight chain, and the chain stream starts at the head and at each member. -/
  | chainReady (t : TileNo)
  /-- MOVE_ISSUE (R179): A mover queue issues its next move once the outstanding limit and earlier waits allow it. -/
  | moveIssue (p : PanelNo) (q : BitVec 3)
  /-- MARK_REACHED (R180): A mark is reached when every earlier command of its queue is complete, and REACHED takes its number. -/
  | markReached (p : PanelNo) (q : BitVec 3)
  /-- WAIT_SATISFIED (R236): A wait is satisfied when the named mark has been reached, and its queue continues. -/
  | waitSatisfied (p : PanelNo) (q : BitVec 3)
  /-- BARRIER_RELEASE (R182): Once every tile has arrived and every covered move is complete, the barrier releases and places release messages. -/
  | barrierRelease (p : PanelNo)
  /-- MESSAGE_DELIVERY (R196): A message of classes 1 to 3 reaches its destination and enters the ejection queue, the operand store or the lining. -/
  | messageDelivery (n : Nat)
  /-- STITCH_DELIVERY (R201): A class 0 message is delivered at the destination or at a drop point within H + 2 ic. -/
  | stitchDelivery (stitch : BitVec 10) (point : Nat)
  /-- LANDING_STAGE_WRITE (R202): A class 0 operand-store line is written from the landing stage into its ring line. -/
  | landingStageWrite (t : TileNo)
  /-- CREDIT_RETURN (R200): A class 0 credit returns to the source counter after nrecv takes the message. -/
  | creditReturn (stitch : BitVec 10)
  /-- CLASS0_CRC_FAILURE (R203): A class 0 flit that fails its CRC is discarded, and a loss notice is forwarded along the stitch. -/
  | class0CrcFailure (stitch : BitVec 10) (hop : Nat)
  /-- LINK_REPLAY (R211): A class 1 to 3 flit that fails its CRC is replayed from the retry buffer, and is uncorrectable after 3 failures. -/
  | linkReplay (t : TileNo) (port : BitVec 3) (again : Bool)
  /-- LINK_EVENT_LIMIT_EXCEEDED (R212): Link events beyond NET_LINK_LIMIT within its window retire the link. -/
  | linkEventLimitExceeded (t : TileNo) (port : BitVec 3)
  /-- ROUTER_FAULT (R214): A fault in a router retires every link of the router and retires its tile. -/
  | routerFault (t : TileNo)
  /-- MULTICAST_DETACH (R208): An output that has withheld credit for HOLD counted ic is detached, and its copy is dropped and counted as torn. -/
  | multicastDetach (g : Byte) (t : TileNo) (port : BitVec 4)
  /-- TORN_MARKER (R208): When a detached output has credit again, a torn marker carrying the loss count is sent on it. -/
  | tornMarker (t : TileNo) (port : BitVec 4) (g : Byte)
  /-- LINK_FORCE_WRITE (R217): A write of NET_LINK_FORCE.OFF forces the selected link out of service, or back into it. -/
  | linkForceWrite (off : Bool)
  /-- MCAST_GROUP_WRITE (R206): A write to NET_MCG_g defines a multicast group, or leaves VALID 0 when the rectangle is invalid. -/
  | mcastGroupWrite (g : Byte) (val : Word)
  /-- PANEL_DEFINE (R219): A write of CMD_PANEL_CTRL.DEFINE checks and accepts a panel definition, or refuses it with DEF_CAUSE. -/
  | panelDefine (p : PanelNo)
  /-- PANEL_DEFINE_COMPLETE (R220): An accepted definition completes within 2 µs, and the panel starts in its initial state. -/
  | panelDefineComplete (p : PanelNo)
  /-- PANEL_UNDEFINE (R222): A write of UNDEFINE resets the panel and removes its definition. -/
  | panelUndefine (p : PanelNo)
  /-- PANEL_RESET (R244): A write of CMD_PANEL_CTRL.RESET runs a panel reset. -/
  | panelReset (p : PanelNo)
  /-- PANEL_RESET_COMPLETE (R244): The panel reset completes within 50 µs, and STATE leaves 3. -/
  | panelResetComplete (p : PanelNo)
  /-- PANEL_THAW (R248): A write of THAW restarts a frozen panel in the state it held when it froze. -/
  | panelThaw (p : PanelNo)
  /-- QUEUE_RESUME (R233): A write of RESUME clears HELD and restarts the queue held after a refusal. -/
  | queueResume (p : PanelNo)
  /-- INTAKE_WRITE (R223): A BAR4 write stores words into an intake window, or is discarded. -/
  | intakeWrite (off : BitVec 22) (words : List Word) (partialBe poisoned : Bool)
  /-- INTAKE_RESYNC (R227): A write of RESYNC discards uncommitted words, sets NEXT to CONSUMED and clears STOPPED. -/
  | intakeResync (p : PanelNo)
  /-- PACKET_DECISION (R228): Within 256 ic of commit, the intake accepts or rejects the packet and advances NEXT. -/
  | packetDecision (p : PanelNo)
  /-- PACKET_CONSUME (R230): A committed packet moves into its queue once the queue has room, and CONSUMED advances. -/
  | packetConsume (p : PanelNo)
  /-- LAUNCH (R234): The launch command starts a program on idle target tiles, or refuses the whole command. -/
  | launch (p : PanelNo)
  /-- LOAD (R235): The load command writes data into a tile's program memory, operand store or lining. -/
  | load (p : PanelNo)
  /-- MOVE (R236): The move command passes a descriptor to a bound mover channel. -/
  | move (p : PanelNo) (q : BitVec 3)
  /-- MARK (R236): The mark command places a numbered mark in its queue. -/
  | mark (p : PanelNo) (q : BitVec 3)
  /-- WAIT (R236): The wait command holds its queue until a named mark of a queue is reached. -/
  | wait (p : PanelNo) (q : BitVec 3)
  /-- BARRIER (R237): The barrier command covers the panel's tiles and earlier moves, and holds queue 0 until it releases. -/
  | barrier (p : PanelNo)
  /-- STITCH_RESERVE (R198): The stitch command with OP reserve reserves a class 0 route, or refuses it whole. -/
  | stitchReserve (p : PanelNo)
  /-- STITCH_RELEASE (R204): The stitch command with OP release starts the release of a reserved stitch. -/
  | stitchRelease (p : PanelNo)
  /-- STITCH_RELEASE_EFFECT (R204): The release takes effect once the stitch holds no message in flight, and its links become free. -/
  | stitchReleaseEffect (stitch : BitVec 10)
  /-- SNAP (R239): The snap command places a snapshot marker in every queue of the panel, and optionally posts snapshot requests. -/
  | snap (p : PanelNo)
  /-- TAG (R240): The tag command gives the command processor and every tile of the panel a new layer and operator tag pair. -/
  | tag (p : PanelNo)
  /-- SIGNAL (R241): The signal command writes CMD_SIGNAL_VAL and CMD_SIGNAL_SEQ and sends an MSI-X message. -/
  | signal (p : PanelNo)
  /-- PATCH_PRELOAD (R361): The patch command with OP PRELOAD copies and checks a partial image into a staging buffer. -/
  | patchPreload (p : PanelNo)
  /-- PATCH_SWAP (R362): The patch command with OP SWAP engages the seam and quiesces the patch's ports to write a staged image. -/
  | patchSwap (p : PanelNo)
  /-- PATCH_LOAD (R361): The patch command with OP LOAD preloads into buffer 0 and then swaps from it. -/
  | patchLoad (p : PanelNo)
  /-- PATCH_SCRUB (R368): The patch command with OP SCRUB checks every logic frame of one patch and reports the counts. -/
  | patchScrub (p : PanelNo)
  /-- POST_PREEMPT (R243): A write of CMD_POST with KIND preempt and GO posts a preempt to the named tiles. -/
  | postPreempt (p : PanelNo) (val : Word)
  /-- POST_SNAPSHOT_REQUEST (R243): A write of CMD_POST with KIND snapshot request and GO posts a snapshot request to the named tiles. -/
  | postSnapshotRequest (p : PanelNo) (val : Word)
  /-- PANEL_SLEEP (R454): A write of a PWR_PSLEEP bit puts a quiet panel to sleep, or refuses the request. -/
  | panelSleep (p : PanelNo)
  /-- PANEL_WAKE (R454): A write of a PWR_PWAKE bit wakes the panel within 50 µs, resets its tiles and decides the deferred commits. -/
  | panelWake (p : PanelNo)
  /-- DESCRIPTOR_START (R260): A channel takes its next descriptor and checks it whole, then rejects it or begins the walk. -/
  | descriptorStart (k : Fin 9) (n : BitVec 6)
  /-- BLOCK_ANNOUNCE (R265): A written delivery block is announced once every earlier block is written, and it completes the descriptor when it is the last block. -/
  | blockAnnounce (k : Fin 9) (n : BitVec 6)
  /-- BUS_ERROR (R267): On a bus error, the channel stops the descriptor, announces the written blocks, records the cursor and ends or halts the descriptor. -/
  | busError (k : Fin 9) (n : BitVec 6) (addr : DWord)
  /-- TRANSLATION_FAULT (R270): An absent or insufficient ATS translation stops the channel in PRI-wait and sends a page request. -/
  | translationFault (n : PageFault)
  /-- PAGE_RESPONSE (R270): A page response resumes the channel from its cursor, or ends the descriptor with XLATE_FAIL. -/
  | pageResponse (n : BitVec 6) (code : BitVec 4)
  /-- PRI_TIMEOUT (R270): No page response within PRI_TMO is treated as Invalid Request. -/
  | priTimeout (n : BitVec 6)
  /-- CHANNEL_ABORT (R271): A write of MOV_CH_CTRL.ABORT stops the channel from issuing new bursts. -/
  | channelAbort (k : Fin 9) (n : BitVec 6)
  /-- ABORT_COMPLETE (R271): Once the bursts in flight have completed, the abort ends the descriptors as ABORTED and sets the channel idle. -/
  | abortComplete (k : Fin 9) (n : BitVec 6)
  /-- CHANNEL_RETRY (R269): A write of RETRY resumes a halted descriptor from its cursor. -/
  | channelRetry (k : Fin 9) (n : BitVec 6) (skipToo : Bool)
  /-- CHANNEL_SKIP (R269): A write of SKIP ends a halted descriptor with its recorded status. -/
  | channelSkip (k : Fin 9) (n : BitVec 6)
  /-- DIRECT_POST (R274): The write of word 15 of MOV_CH_POST_n posts a descriptor directly to the channel. -/
  | directPost (k : Fin 9) (n : BitVec 6) (val : Word)
  /-- HBM_REQUEST_ACCEPT (R277): A 64-byte HBM request takes a tracker entry at its controller once an entry is free. -/
  | hbmRequestAccept (r : HbmReq)
  /-- HBM_READ_DATA (R283): The first data of a read leaves the controller, after correction or replay. -/
  | hbmReadData (ctl : Byte) (n : BitVec 6) (ecc : BitVec 2)
  /-- HBM_WRITE_COMMIT (R278): An accepted write is committed to the stack, and its tracker entry is freed. -/
  | hbmWriteCommit (ctl : Byte) (n : BitVec 6)
  /-- HBM_EVENT_LIMIT_EXCEEDED (R289): Transient events beyond HBM_CH_LIMIT within its window make a section or a channel permanent-faulted. -/
  | hbmEventLimitExceeded (ctl : Byte) (sections : Nat)
  /-- MAP_ENABLE (R281): A write of HBM_MAP_CTRL.EN enables the map, so the controllers accept every master. -/
  | mapEnable (en : Bool)
  /-- TRAINING_OWN (R295): A write of HBM_TRN_CTRL.OWN takes a channel out of service for expert training, or returns it. -/
  | trainingOwn (stack : BitVec 3) (val : Word)
  /-- TRAINING_WRITE_COMPARE (R295): GO with OP 0 writes a pattern and then reads and compares it. -/
  | trainingWriteCompare (stack : BitVec 3)
  /-- TRAINING_READ_COMPARE (R295): GO with OP 1 reads and compares a pattern. -/
  | trainingReadCompare (stack : BitVec 3)
  /-- TRAINING_CA_LOOPBACK (R295): GO with OP 2 runs a command/address loopback. -/
  | trainingCaLoopback (stack : BitVec 3)
  /-- TRAINING_RUN_DONE (R295): A training run completes, and it sets DONE and ERRS. -/
  | trainingRunDone (stack : BitVec 3) (errs : Nat)
  /-- LINK_UP_REQUEST (R310): A write of LAN_LINK_CFG_d.UP starts the bring-up of a link. -/
  | linkUpRequest (d : BitVec 2)
  /-- LINK_DOWN_REQUEST (R317): A write of DOWN takes the link down and breaks its stitches. -/
  | linkDownRequest (d : BitVec 2)
  /-- BRING_UP_STEP_COMPLETE (R310): A lane or link completes a bring-up step, and it comes up after a successful parameter exchange. -/
  | bringUpStepComplete (lane : BitVec 5) (inv : Bool) (skew : BitVec 6)
  /-- BRING_UP_STEP_TIMEOUT (R310): A lane that does not complete a step within its limit leaves the bring-up. -/
  | bringUpStepTimeout (lane : BitVec 5)
  /-- TRAIN_BLOCK (R310): A received TRAIN block carries LANE, LOCKED and the SWITCH countdown. -/
  | trainBlock (lane : BitVec 5) (logical : BitVec 3) (locked switch : Bool) (count : BitVec 4)
  /-- PARAM_BLOCK (R311): A received PARAM block carries one parameter word of the exchange. -/
  | paramBlock (d : BitVec 2) (index : BitVec 3) (value : Word)
  /-- CODEWORD (R303): A received RS(544,514) codeword is decoded and corrected, or found uncorrectable. -/
  | codeword (lane : BitVec 5) (blocks : BitVec 5082) (align : Half) (trailer : BitVec 42) (parity : BitVec 300)
  /-- FLIT (R306): A received FLIT is checked and passed on, or it triggers a REPLAY request. -/
  | flit (d : BitVec 2) (head : BitVec 48) (ctl : DWord) (data : BitVec 512) (crc : Half)
  /-- ACK (R306): A received ACK frees the sender's retry buffer and returns credits. -/
  | ack (d : BitVec 2) (ackseq : BitVec 12) (cred1 cred2 cred3 : Byte)
  /-- ACK_DUE (R306): The receiver sends an ACK when 64 blocks have passed while it has anything to acknowledge. -/
  | ackDue (d : BitVec 2)
  /-- REPLAY (R306): A received REPLAY makes the sender resend from FROM, and a third failure of the same flit takes the link down. -/
  | replay (d : BitVec 2) (from_ : BitVec 12)
  /-- LANE (R305): A received LANE block announces a new active set from CWSEQ AT. -/
  | lane (d : BitVec 2) (mask : Byte) (cw : Half)
  /-- LANE_MASK_APPLY (R312): At codeword AT, the new active lane set takes effect in striping. -/
  | laneMaskApply (d : BitVec 2)
  /-- FREEZE_BLOCK (R318): A received FREEZE block sets the link STATE to partner frozen. -/
  | freezeBlock (d : BitVec 2)
  /-- LANE_MESSAGE_ARRIVAL (R299): A message arriving on a link enters the mesh, or passes through the lane block, or is dropped. -/
  | laneMessageArrival (d : BitVec 2)
  /-- BLOCK_LOCK_LOSS (R312): Sixteen invalid headers within 64 positions slip the lane, which is removed from striping and searched. -/
  | blockLockLoss (lane : BitVec 5) (found : Bool) (ofs : BitVec 6)
  /-- BITSLIP_SLIP (R313): A write of LAN_BITSLIP.GO with OP 0 shifts a slipped lane's receiver by COUNT bits. -/
  | bitslipSlip (lane : BitVec 5) (count : BitVec 6)
  /-- BITSLIP_RETRAIN (R313): A write of LAN_BITSLIP.GO with OP 1 retrains one lane while the link carries traffic. -/
  | bitslipRetrain (lane : BitVec 5)
  /-- LANE_REJOIN (R313): A realigned lane rejoins the active set through a LANE block, and RESULT reads 1. -/
  | laneRejoin (lane : BitVec 5)
  /-- LANE_EVENT_LIMIT_EXCEEDED (R316): Lane events beyond LAN_LANE_LIMIT retire the lane, which may fail the link. -/
  | laneEventLimitExceeded (lane : BitVec 5)
  /-- LOOP_MODE_WRITE (R320): A write of LAN_LOOP MODE puts a lane into a test loop, or ends the loop. -/
  | loopModeWrite (lane : BitVec 5) (mode : BitVec 2)
  /-- LOOP_RUN (R320): A write of LAN_LOOP.GO runs the loop for 2^20 codeword times. -/
  | loopRun (lane : BitVec 5)
  /-- LOOP_RUN_DONE (R320): The loop run completes, and it sets DONE and ERRS. -/
  | loopRunDone (lane : BitVec 5) (errs : Nat)
  /-- MAC_TRANSMIT_FRAME (R343): A frame from a MAC client port is stored whole and sent with an FCS, or discarded. -/
  | macTransmitFrame (k : BitVec 3) (bytes : List Byte) (abort : Bool)
  /-- MAC_RECEIVE_FRAME (R343): A received frame is checked and delivered to the fabric, or dropped whole. -/
  | macReceiveFrame (k : BitVec 3) (bytes : List Byte) (ready : Bool)
  /-- BRIDGE_TRANSMIT (R344): A message from a bridge port is sent as class 1 on a bridge link. -/
  | bridgeTransmit (d : BitVec 2) (ctl : DWord) (data : Line)
  /-- HEM_TRANSMIT (R333): A message accepted from the fabric at a hem port is checked and injected into the attachment router. -/
  | hemTransmit (h : Byte) (head : Bool) (cls : BitVec 2) (route tags : Word) (data : BitVec 512)
  /-- HEM_RECEIVE (R336): A message delivered to a hem port is presented to the fabric within 3 HCLK edges. -/
  | hemReceive (h : Byte)
  /-- HEM_TAIL_TIMEOUT (R362): During a swap, a held head whose tail has not come within 16 HCLK edges is discarded, and PROTO sets. -/
  | hemTailTimeout (h : Byte)
  /-- HEM_ENABLE (R332): A write of FAB_HEM_CFG_h.EN puts a hem port in or out of service, and discards a held message. -/
  | hemEnable (h : Byte) (val : Word)
  /-- MP_REQUEST (R339): A memory-port request is accepted and checked whole, then served or answered with an error status. -/
  | mpRequest (p : BitVec 3) (write : Bool) (addr : HbmAddr) (len : BitVec 5) (id : Byte)
  /-- MP_WRITE_DATA (R340): A write data beat enters HBM as one 64-byte request, or is discarded for a refused write. -/
  | mpWriteData (p : BitVec 3) (bytes : List Byte)
  /-- MP_READ_RESPONSE (R341): A read response beat returns to the fabric with its status. -/
  | mpReadResponse (p : BitVec 3) (poison : Bool)
  /-- MP_WRITE_RESPONSE (R341): Once every unit of a write has been accepted, one response beat returns. -/
  | mpWriteResponse (p : BitVec 3)
  /-- GLOBAL_RESET_ASSERT (R330): A write of FAB_RST.ASSERT asserts or negates the global reset trees. -/
  | globalResetAssert (val : Word)
  /-- PROBE_ENABLE (R349): A write of FAB_PROBE EN drives a fabric net onto a spare pin, or releases the pin. -/
  | probeEnable (bank : BitVec 3) (chan : BitVec 2) (val : Word)
  /-- VCCIO_CHANGE (R347): A VCCIO_b that is applied, removed or mismatched sets the bank's pin state and MISMATCH. -/
  | vccioChange (bank : BitVec 3) (mv : Nat)
  /-- FULL_LOAD (R360): A write of CFG_LOAD_CTRL.GO starts a full load from HBM or flash. -/
  | fullLoad (val : Word)
  /-- SWAP_WRITE_START (R362): Once the memory port holds no outstanding request, the swap writes the patch's frames. -/
  | swapWriteStart (ok : Bool)
  /-- SCRUB_FRAME_READ (R367): Every 512 ns the scrubber checks the next logic frame, and it corrects the frame or reports it. -/
  | scrubFrameRead (upset : List Nat) (rom setErr : Bool)
  /-- TEST_PORT_IMAGE_WORD (R358): Each Update-DR under CFG_LOAD delivers the next image word. -/
  | testPortImageWord (word : Word)
  /-- CONFIG_REQUEST (R372): A PCIe configuration request is answered by the endpoint. -/
  | configRequest (write : Bool) (off : BitVec 12) (be : BitVec 4) (val : Word)
  /-- BAR0_INVALID_ACCESS (R374): A BAR0 access of a wrong size completes with Completer Abort or is discarded, and BAD_SIZE counts it. -/
  | bar0InvalidAccess (addr : Bar0Addr) (write : Bool)
  /-- BAR2_READ (R376): A BAR2 read is checked whole, then served from HBM or completed with Completer Abort. -/
  | bar2Read (addr : HbmAddr) (len : Nat) (bad : List Nat)
  /-- BAR2_WRITE (R376): A BAR2 write is checked whole, then written into HBM or discarded. -/
  | bar2Write (addr : HbmAddr) (bytes : List (Option Byte)) (poisoned : Bool)
  /-- MSIX_UNMASK (R379): Unmasking a vector that has a pending bit sends its message. -/
  | msixUnmask (v : Byte)
  /-- HOST_COMPLETION (R383): A completion for a cluster 8 read returns data, or an error status that is a bus error. -/
  | hostCompletion (n : BitVec 6) (status : BitVec 3) (bytes : List Byte)
  /-- COMPLETION_TIMEOUT (R383): A cluster 8 read with no completion in time is a bus error of its descriptor. -/
  | completionTimeout (n : BitVec 6)
  /-- ATS_INVALIDATE (R385): An Invalidate Request stops the use of matching translation entries. -/
  | atsInvalidate (addr : DWord) (len : Nat)
  /-- DOE_REQUEST (R387): A DOE request reaches the mailbox and is served by the management controller, or held while it is busy. -/
  | doeRequest (bytes : List Byte)
  /-- NEGOTIATE_ALGORITHMS (R388): The SPDM NEGOTIATE_ALGORITHMS request selects SM2 and SM3. -/
  | negotiateAlgorithms (sm2 sm3 : Bool)
  /-- GET_CERTIFICATE (R388): The SPDM GET_CERTIFICATE request returns the slot 0 chain. -/
  | getCertificate (slot : BitVec 3) (off len : Nat)
  /-- CHALLENGE (R388): The SPDM CHALLENGE request is answered with a signature by the alias key. -/
  | challenge (slot : BitVec 3) (nonce : List Byte)
  /-- GET_MEASUREMENTS (R388): The SPDM GET_MEASUREMENTS request returns the signed measurement blocks. -/
  | getMeasurements (index : Byte) (sign : Bool) (nonce : List Byte)
  /-- BOOT (R391): The management controller boots from ROM, recovers the black box, verifies firmware and starts it. -/
  | boot (failed : List Byte)
  /-- RECOVER (R393): A write of MGT_CTRL.RECOVER checks the recovery buffer, and runs the image when it is accepted. -/
  | recover (failed : List Byte)
  /-- SVC_TRAIN_HBM (R285): Service 0x02 trains every HBM channel. -/
  | svcTrainHbm (failed : List Byte)
  /-- CHARTER_NARROWING (R404): A write to an MGT_CHN_ register narrows the effective charter within 1 µs, and never widens it. -/
  | charterNarrowing (addr : Bar0Addr) (val : Word)
  /-- HOST_RECORD (R415): The write of MGT_BB_HOST word 6 queues a host record of type 0x0E. -/
  | hostRecord (val : Word)
  /-- SNAP_MARKER_COPY_TILE (R426): A snapshot marker reaches a tile's counter block, which copies the tile and router counters into the marker shadows. -/
  | snapMarkerCopyTile (t : TileNo)
  /-- SNAP_MARKER_COPY_CHANNEL (R426): A mover channel copies its counters once every descriptor ahead of the marker has ended. -/
  | snapMarkerCopyChannel (k : Fin 9) (n : BitVec 6)
  /-- BROADCAST_LATE_COPY (R429): A unit whose island was stopped makes its broadcast copy at restart, with LATE set. -/
  | broadcastLateCopy (unit : Nat)
  /-- TRACE_CHUNK_DRAIN (R433): When 128 records are waiting in a tile buffer, a 2 KiB chunk is sent to its mover cluster. -/
  | traceChunkDrain (t : TileNo)
  /-- TRACE_CHUNK_WRITE (R434): A cluster writes a trace chunk into its HBM ring, or discards it when the ring is stopped or disabled. -/
  | traceChunkWrite (k : BitVec 3)
  /-- TRACE_RING_ENABLE (R434): A write of EN to OBS_TRACE_LEN_k enables a trace ring, or is discarded. -/
  | traceRingEnable (k : BitVec 3) (val : Word)
  /-- FREEZE_PIN (R435): FREEZE_N asserted for at least 100 ns requests a freeze of PIN_SCOPE. -/
  | freezePin (low : Bool)
  /-- CAP_SEL (R441): The test-port instruction CAP_SEL selects a captured unit and offset. -/
  | capSel (val : DWord)
  /-- CAP_READ (R441): The test-port instruction CAP_READ shifts out captured words. -/
  | capRead (n : Nat)
  /-- BYPASS (R472): The test-port instruction BYPASS, or any unlisted code, selects the bypass register. -/
  | bypass (code : Byte) (bits : List Bool)
  /-- SAMPLE_PRELOAD (R472): The test-port instruction SAMPLE/PRELOAD samples and preloads the boundary-scan register. -/
  | samplePreload (bits : List Bool)
  /-- DEVICE_WARM_RESET (R446): A write of PWR_RST.WARM runs a device warm reset of the array, control plane, movers, network, lanes and ports. -/
  | deviceWarmReset (firmware : Bool)
  /-- SUPPLY_WARNING (R457): A rail falling below its warning level starts a brownout episode, or records the warning. -/
  | supplyWarning (rail : Nat) (mv : Nat)
  /-- SUPPLY_FAULT (R457): A rail falling below its fault level causes a core supply reset, a cold reset or a power-on. -/
  | supplyFault (rail : Nat) (micros : Nat)
  /-- BROWNOUT_END (R458): When the rails have stood above warning plus hysteresis for 10 µs, the episode ends and is recorded. -/
  | brownoutEnd (lowest micros : Nat)
  /-- LOCAL_DROOP (R451): A local supply sensor reading low makes its island stretch its cycles. -/
  | localDroop (unit : Nat) (mv : Nat) (stretch : Nat)
  /-- POWER_CAP_UPDATE (R452): Every 100 µs, firmware reads the power estimate and sets the cap stretch. -/
  | powerCapUpdate (watts step : Nat)
  /-- THERMAL_SENSOR_READ (R460): Every 100 µs, the junction sensors are read, which may cause a warning, a throttle or a thermal shutdown. -/
  | thermalSensorRead (temps : List Int)
  /-- RESERVED_ENCODING (R128): An instruction word with an unlisted OPC, a reserved field value or a forbidden instruction in a delay slot raises ILLEGAL when it would issue. -/
  | reservedEncoding (t : TileNo) (w : DWord)
  /-- PCIE_LINK_UP (R389): The PCIe link completes training and comes up, after which configuration requests and BAR0 are served and PCI_LINK_STATUS shows speed and width. -/
  | pcieLinkUp (speed width : Nat) (flit rev : Bool)
  /-- HBM_STACK_TEMPERATURE (R284): A stack temperature crossing 85, 95, 105 or 115 °C changes the refresh period, raises a fault report or causes a thermal shutdown. -/
  | hbmStackTemperature (stack : BitVec 3) (temp : Nat)
  /-- LINK_RETRAIN_AFTER_PARTNER_RESET (R318): A link in STATE partner frozen leaves that state and retrains once the frozen partner device has been reset. -/
  | linkRetrainAfterPartnerReset (d : BitVec 2)
  /-- DROOP_END (R451): When an island's local supply sensor no longer reads more than 30 mV low, the droop stretch request is withdrawn and the stretch falls to the remaining requests. -/
  | droopEnd (unit : Nat)
  /-- HBM_REFRESH (R284): A per-bank refresh falls due within the period that the stack temperature sets. -/
  | hbmRefresh
  /-- SECTION_RETIREMENT (R290): A permanent-faulted section is refused, the controllers are held, and the map is rebuilt. -/
  | sectionRetirement
  /-- MAP_REBUILD_COMPLETE (R290): The rebuild completes, the controllers resume with the new capacity, and a record and vector 26 follow. -/
  | mapRebuildComplete
  /-- BACKGROUND_RETRAIN (R286): Every INTV seconds in the availability profile, firmware retrains the next HBM channel in short steps. -/
  | backgroundRetrain
  /-- BITSLIP_TIMEOUT (R313): A lane that has not realigned within 1 ms sets RESULT to 2. -/
  | bitslipTimeout
  /-- FULL_LOAD_END (R360): A full load ends by releasing the fabric, or by falling back to the golden image or to blank. -/
  | fullLoadEnd
  /-- ENGINE_REQUEST_START (R364): The configuration engine starts the next waiting request once the one before it has ended. -/
  | engineRequestStart
  /-- PRELOAD_COMPLETE (R361): The copy and checks of a preload complete, and the staging buffer is marked valid or the engine reports a code. -/
  | preloadComplete
  /-- SWAP_RELEASE (R362): After 16 RCLK edges, the seam and the ports follow the new logic. -/
  | swapRelease
  /-- PATCH_REPAIR (R368): In the availability profile, firmware repeats the swap of a faulted patch from REPAIR_ADDR, and retires the patch on failure. -/
  | patchRepair
  /-- SCRUBBER_WATCHDOG (R369): When no frame has completed for 1 ms, the watchdog resets and restarts the scrubber. -/
  | scrubberWatchdog
  /-- TEST_PORT_CFG_LOAD (R358): The test-port instruction CFG_LOAD selects the test port as a full-load source. -/
  | testPortCfgLoad
  /-- INVALIDATE_COMPLETE (R385): The invalidation completes after the requests issued under those entries have been sent or completed. -/
  | invalidateComplete
  /-- DOE_ABORT (R387): A DOE Abort discards the request in progress. -/
  | doeAbort
  /-- GET_VERSION (R388): The SPDM GET_VERSION request returns the supported version. -/
  | getVersion
  /-- GET_CAPABILITIES (R388): The SPDM GET_CAPABILITIES request returns the responder's capabilities. -/
  | getCapabilities
  /-- GET_DIGESTS (R388): The SPDM GET_DIGESTS request returns the certificate chain digest of slot 0. -/
  | getDigests
  /-- PCIE_HOT_RESET (R448): A Hot Reset received on the link runs a device warm reset, and also resets the endpoint and the charter narrowing. -/
  | pcieHotReset
  /-- DL_DOWN (R389): A DL_Down resets the device as a PCIe hot reset. -/
  | dlDown
  /-- D3HOT_ENTRY (R455): A host move of the function to D3hot enters device standby when D3_AUTO is set. -/
  | d3hotEntry
  /-- D0_TRANSITION (R456): A move of the function from D3hot to D0 leaves device standby. -/
  | d0Transition
  /-- MANAGEMENT_RESET (R396): A write of MGT_CTRL.MRESET restarts the management controller from ROM. -/
  | managementReset
  /-- MANAGEMENT_WATCHDOG (R396): When firmware has not served the watchdog for 1 s, a management reset follows. -/
  | managementWatchdog
  /-- SVC_THAW (R407): Service 0x01 thaws a charter-frozen master once its violation record is committed. -/
  | svcThaw
  /-- SVC_RETRAIN_CHANNEL (R286): Service 0x03 retrains one HBM channel. -/
  | svcRetrainChannel
  /-- SVC_LINK_BRING_UP (R310): Service 0x04 brings up link d. -/
  | svcLinkBringUp
  /-- SVC_SOFT_REPAIR (R395): Service 0x05 makes an HBM soft repair of one row. -/
  | svcSoftRepair
  /-- SVC_COMMIT_RETIREMENTS (R398): Service 0x06 commits retirement substitutions to the harvest-map fuses and locks them. -/
  | svcCommitRetirements
  /-- SVC_ADVANCE_ROLLBACK (R398): Service 0x07 advances a rollback-minimum thermometer in the fuses. -/
  | svcAdvanceRollback
  /-- SVC_REVOKE_KEY (R398): Service 0x08 revokes a key slot in the fuses. -/
  | svcRevokeKey
  /-- BLACK_BOX_COMMIT (R414): The controller commits the next queued record to the black box, through the journal and then the ring. -/
  | blackBoxCommit
  /-- RETIREMENT_SUMMARY (R417): After 4,096 records since the last summary, firmware writes a full set of retirement summaries. -/
  | retirementSummary
  /-- BROADCAST_SNAPSHOT (R429): A write of OBS_BSNAP.GO copies every unit's live counters into its broadcast shadow. -/
  | broadcastSnapshot
  /-- COUNTER_RESET (R424): A write of OBS_CTR_CLR.ALL resets every counter set, shadow and header. -/
  | counterReset
  /-- TRACE_FLUSH (R433): A write of OBS_TRACE_CTRL.FLUSH drains every waiting record in padded chunks. -/
  | traceFlush
  /-- FREEZE_PARTIAL_REQUEST (R435): A write of OBS_FRZ_CTRL.PARTIAL requests a partial freeze. -/
  | freezePartialRequest
  /-- FREEZE_FULL_REQUEST (R435): A write of OBS_FRZ_CTRL.FULL requests a full freeze. -/
  | freezeFullRequest
  /-- FREEZE_DECISION (R437): The management island latches a freeze request and sends the freeze wave. -/
  | freezeDecision
  /-- FREEZE_STOPPED (R437): Every island in scope has stopped, STATE reads partial or full, and a record and vector 29 follow. -/
  | freezeStopped
  /-- FREEZE_THAW (R442): A write of OBS_FRZ_CTRL.THAW restarts the islands of a partial freeze, or is refused. -/
  | freezeThaw
  /-- FRZ (R435): The test-port instruction FRZ requests a full freeze. -/
  | frz
  /-- FRZ_EXIT (R442): The test-port instruction FRZ_EXIT ends a full freeze with a device warm reset. -/
  | frzExit
  /-- BB_READ (R418): The test-port instruction BB_READ shifts out the black-box slots. -/
  | bbRead
  /-- IDCODE (R472): The test-port instruction IDCODE shifts out the device identification code. -/
  | idcode
  /-- EXTEST (R472): The test-port instruction EXTEST drives the pins from the boundary-scan register. -/
  | extest
  /-- POWER_ON (R444): VDD_MGT rising above its fault level resets everything and starts the boot. -/
  | powerOn
  /-- PERST_N_ASSERT (R449): Asserting PERST_N holds every island except the management island in a cold reset. -/
  | perstNAssert
  /-- PERST_N_NEGATE (R449): Negating PERST_N clears the linings, rereads the fuses and runs the boot with HBM training and the fabric load. -/
  | perstNNegate
  /-- STANDBY_ENTER (R455): A write of PWR_STBY.ENTER resets the panels, takes the links down, puts HBM in self-refresh and asserts STBY_N. -/
  | standbyEnter
  /-- STANDBY_EXIT (R456): A write of PWR_STBY.EXIT negates STBY_N and waits for the rails to return. -/
  | standbyExit
  /-- STANDBY_EXIT_COMPLETE (R456): After the rails have been good for 10 µs, HBM and the clocks restart and STATE reads 0. -/
  | standbyExitComplete
  /-- STANDBY_EXIT_TIMEOUT (R456): When the rails are not good within 5 ms of the exit, the device performs a cold reset. -/
  | standbyExitTimeout
  deriving DecidableEq, Repr

end Sys2Proof
end

