-- ==== Sys2Proof/Decode.lean ====
section
/-! DEFINITION. The command that a word spells by the command table's bits. -/

namespace Sys2Proof

/-- The table gives no row any bits, so no word spells a command. The words of tile instructions are a part of the machine: Machine/Encode.lean
holds their encoder and decoder (R128 to R161). -/
def decodeTableWord (_nbits _w : Nat) : Option Instr := none

end Sys2Proof
end

