-- ==== Sys2Proof/Machine/Design.lean ====
section
/-! DEFINITION. What an image defines in the logic fabric (R325 to R330, R346, R349): cells, RAM blocks, clock and reset trees, pins, seams and
probes. The spec gives the parts and what each does; which bits of the frames define them is the tool flow's (DESIGN CHOICE, log entry 14). -/

namespace Sys2Proof.Machine

/-- A net, by what drives it. Cells are numbered 8 × cluster + place in the cluster. -/
inductive Net where
  | const (v : Bool)
  /-- an output of a cell's table: the whole table or its lower half, or the upper half -/
  | table (cell : Nat) (upper : Bool)
  /-- a cell's sum bit, and the carry out of it -/
  | sum (cell : Nat)
  | carry (cell : Nat)
  | ff (cell : Nat) (second : Bool)
  /-- an output bit of a RAM block's port, and the block's FIX and BAD -/
  | ram (block : Nat) (second : Bool) (bit : Nat)
  | fix (block : Nat)
  | bad (block : Nat)
  /-- the input buffer of a user pin, and the input registers of its I/O cell -/
  | pin (bank i : Nat)
  | pinReg (bank i : Nat) (falling : Bool)
  /-- what leaves a patch at a seam position (R363) -/
  | seam (patch pos : Nat)
  /-- an output of a hardened port -/
  | port (n : Nat)
  deriving DecidableEq, Repr, Inhabited

/-- What drives an initialise input (R325): a global reset tree or a routed net. -/
inductive InitSource where
  | tree (r : Fin 4)
  | net (n : Net)
  deriving DecidableEq, Repr, Inhabited

/-- A storage flip-flop of a cell: `second` chooses among the two trees of its cluster, `atOnce` says when its initialise input acts. -/
structure FfCfg where
  data : Net
  second : Bool
  enable : Net
  init : InitSource
  atOnce : Bool
  initial : Bool
  deriving DecidableEq, Repr, Inhabited

/-- A logic cell (R325): the table, split or whole, its six inputs, the two bits that it adds, its flip-flops. -/
structure Cell where
  table : BitVec 64
  split : Bool
  ins : List Net
  addA : Net
  addB : Net
  ff0 : FfCfg
  ff1 : FfCfg
  deriving DecidableEq, Repr, Inhabited

/-- A cluster: at most two trees, eight cells. -/
structure Cluster where
  tree0 : Fin 16
  tree1 : Fin 16
  cells : List Cell
  deriving DecidableEq, Repr, Inhabited

/-- What a read returns beside a write by the same port at the same edge (R328). -/
inductive Collision where
  | before | after | previous
  deriving DecidableEq, Repr, Inhabited

/-- A port of a RAM block: its shape is 3 × 2^shape bits in dual-port mode. -/
structure RamPort where
  shape : Fin 5
  tree : Fin 16
  read : Net
  write : Net
  addr : List Net
  data : List Net
  collision : Collision
  piped : Bool
  deriving DecidableEq, Repr, Inhabited

/-- The modes of R327. -/
inductive RamMode where
  | dual | wide | check
  deriving DecidableEq, Repr, Inhabited

/-- A RAM block; in the wide modes port 0 only writes and port 1 only reads. -/
structure RamCfg where
  mode : RamMode
  port0 : RamPort
  port1 : RamPort
  deriving DecidableEq, Repr, Inhabited

/-- The I/O standards with their drive strengths, 4 mA times one more than the number (R346). -/
inductive IoStd where
  | lvcmos33 (drive : Fin 4)
  | lvcmos25 (drive : Fin 3)
  | lvcmos18 (drive : Fin 3)
  deriving DecidableEq, Repr, Inhabited

def IoStd.mA : IoStd → Nat
  | .lvcmos33 d => 4 * (d.val + 1)
  | .lvcmos25 d => 4 * (d.val + 1)
  | .lvcmos18 d => 4 * (d.val + 1)

inductive Pull where
  | none | up | down | keeper
  deriving DecidableEq, Repr, Inhabited

/-- The register of an I/O cell: none, single or double data rate on a tree. -/
inductive IoReg where
  | none
  | single (tree : Fin 16)
  | double (tree : Fin 16)
  deriving DecidableEq, Repr, Inhabited

def IoReg.tree? : IoReg → Option (Fin 16)
  | .none => .none
  | .single t => some t
  | .double t => some t

/-- A user pin (R346): `out` leaves at rising edges and `outFall` at falling ones; `enable` drives the pin. A pin used only as an input has the
enable constant 0, one used only as an output constant 1. -/
structure PinCfg where
  std : IoStd
  fast : Bool
  pull : Pull
  schmitt : Bool
  out : Net
  outFall : Net
  enable : Net
  outReg : IoReg
  inReg : IoReg
  deriving DecidableEq, Repr, Inhabited

/-- The source of a global clock tree (R329). -/
inductive TreeSource where
  | pll (output : Fin 16)
  | pin (bank : Fin 8) (second : Bool)
  | net (n : Net)
  deriving DecidableEq, Repr, Inhabited

/-- A global reset tree (R330): its release clock and its source net. -/
structure ResetTree where
  release : Fin 16
  source : Option Net
  deriving DecidableEq, Repr, Inhabited

/-- What the frames of one region define. Trees are the static region's. -/
structure Design where
  clusters : List (Nat × Cluster)
  rams : List (Nat × RamCfg)
  pins : List (Nat × PinCfg)
  /-- output nets at seam positions 0 to 4,087 -/
  seams : List (Nat × Net)
  /-- probed nets, by 4,096 × bank + SEL -/
  probes : List (Nat × Net)
  trees : List (Nat × TreeSource)
  resets : List (Nat × ResetTree)
  deriving DecidableEq, Repr, Inhabited

/-- The entry of a key. -/
def lookup? {α : Type} (k : Nat) (l : List (Nat × α)) : Option α := (l.find? (fun e => e.1 = k)).map (·.2)

end Sys2Proof.Machine
end

