-- ==== Sys2Proof/Config.lean ====
section
/-! DEFINITION. What the spec leaves open: free values. Each is a constant without a body, so that nothing can be proved of its value;
the assumption log entry named in each docstring says where the spec is silent. -/

namespace Sys2Proof.Config

/-- Whether a fused multiply-add of zero, infinity and a quiet NaN raises invalid: IEEE 754-2019 leaves it to the implementation,
and R66 names the standard only (DESIGN CHOICE, log entry 2). -/
opaque fmaZeroInfQuietInvalid : Bool

/-- Which of the three outcomes of R476 the n-th read of a word with three or more wrong bits has (DESIGN CHOICE, log entry 3). -/
opaque multiBitOutcome : Nat → BitVec 2

/-- The wrong word that such a read delivers when it miscorrects (DESIGN CHOICE, log entry 3). -/
opaque miscorrected : Nat → BitVec 64

/-- Whether the n-th write of a word over a defective cell leaves it in error again (R476; DESIGN CHOICE, log entry 3). -/
opaque cellFails : Nat → Bool

/-- The test pattern that the n-th replay leaves in the word it tries (R121; DESIGN CHOICE, log entry 6). -/
opaque testPattern : Nat → BitVec 64

/-- Whether the loop-back wins over a branch target when both decide the same next address (DESIGN CHOICE, log entry 4). -/
opaque loopBeatsBranch : Bool

/-- The byte at a place of an HBM stack that nothing has written since its contents were last lost: epoch, place (R292, R294; DESIGN CHOICE, log entry 7). -/
opaque hbmByte : Nat → Nat → Byte

/-- The n-th byte that a mover reads from a tile of another device: that device is not in this state (R256; DESIGN CHOICE, log entry 8). -/
opaque remoteByte : Nat → Byte

/-- Whether the answer of another device to a mover, data that it reads there or the acknowledgement of a block, has come by the n-th look
(R256, R264; DESIGN CHOICE, log entry 8). -/
opaque remoteDone : Nat → Bool

/-- The n-th cursor of a mover walk that has no unannounced block: B and I1 to I4 (R268; DESIGN CHOICE, log entry 80). -/
opaque endCursor : Nat → Nat → Nat

/-- Microseconds since the ROM last started, at the n-th record: the model has no clock (R412; DESIGN CHOICE, log entry 11). -/
opaque bootMicros : Nat → BitVec 48

/-- The byte at an address of the configuration flash, which is a part of the board (R394; DESIGN CHOICE, log entry 12). -/
opaque flashByte : Nat → Byte

/-- Whether a signature verifies under SM2: public key, message, signature. The spec names the standard only (R357, R393; PRESUMED, log entry 10). -/
opaque sm2Verify : List Byte → List Byte → List Byte → Bool

/-- The n-th SM2 signature by a private key over a message (R388, R409; PRESUMED, log entry 10). -/
opaque sm2Sign : Nat → Nat → List Byte → List Byte

/-- A byte of the captured image that the spec lists without a full layout: what is captured (kind, index, freeze), offset (R439, R440; DESIGN CHOICE, log
entry 13). -/
opaque captured : List Nat → Nat → Byte

/-- The n-th bit, net or pin value that the board, a loop of combinational logic or a pattern determines (R326, R472; DESIGN CHOICE, log entry 14). -/
opaque outside : Nat → Bool

/-- What the frames of a region define, region 48 the static one: frames that are not blank by FA, and their data bits (R325 to R330, R346;
DESIGN CHOICE, log entry 14). -/
opaque design : Nat → List (Nat × BitVec 4096) → Machine.Design

/-- The region that holds a cluster (R350 divides the frames, not the clusters; DESIGN CHOICE, log entry 14). -/
opaque clusterRegion : Nat → Fin 49

/-- The cluster to the south of a cluster, none at the edge of the fabric, and the carry into cell 0 of a cluster there (R325; DESIGN CHOICE, log entry 14). -/
opaque clusterSouth : Nat → Option Nat
opaque edgeCarry : Nat → Bool

/-- The n-th level of an output of a fabric PLL, of a user pin from outside, and of a hardened port's output (R329, R331, R346; DESIGN CHOICE, log entry 14). -/
opaque pllLevel : Nat → Fin 16 → Bool
opaque pinLevel : Nat → Nat → Bool
opaque portNet : Nat → Nat → Bool

/-- Which bits of a mixture are the second of the two values: draw, block, what is mixed (R328; DESIGN CHOICE, log entry 14). -/
opaque ramMix : Nat → Nat → Nat → BitVec 36864

/-- What a fabric RAM read beyond the last word of its shape returns (R327; DESIGN CHOICE, log entry 14). -/
opaque ramBeyond : Nat → Nat → BitVec 96

/-- The SECDED check bits of a 40-bit half: R476 gives their properties and no code (R327; DESIGN CHOICE, log entry 20). -/
opaque ramCheck : BitVec 40 → Byte

/-- Delay and reference that the n-th training gives a pin (R285, R295; DESIGN CHOICE, log entry 15). -/
opaque pinSetting : Nat → Nat → Byte × Byte

/-- Whether the n-th retraining of one HBM channel completes (R286; DESIGN CHOICE, log entry 15). -/
opaque retrainOk : Nat → Bool

/-- The mesh control word of the n-th tail flit that a bridge port sends: R344 gives the head's (DESIGN CHOICE, log entry 17). -/
opaque bridgeTail : Nat → DWord

/-- What the image of a load declares in bits whose places the tool flow gives: load, item (R326, R329, R347, R349; DESIGN CHOICE, log entry 16). Items:
0 to 191 the clock tree of a hem port, 192 to 199 of a memory port, 200 to 207 the voltage of a bank in mV, 256 + 40 b + i whether pin i of
bank b is spare. -/
opaque declared : Nat → Nat → Nat

/-- The answer to the n-th DOE data object other than the SPDM requests of R388: the base specifications give its contents (R387; DESIGN CHOICE, log entry 19). -/
opaque doeAnswer : Nat → List Byte → List Byte

/-- Measurement 1, the digest of the boot ROM, whose contents the spec does not give (R388; DESIGN CHOICE, log entry 19). -/
opaque romDigest : List Byte

/-- The alias certificate that the ROM signs: identity key, alias key (R409; DESIGN CHOICE, log entry 19). -/
opaque aliasCert : Nat → Nat → List Byte

/-- Bytes that the device identity certificate chain takes in the flash, at most 64 KiB (R394; DESIGN CHOICE, log entry 12). -/
opaque chainBytes : Fin 65537

/-- The SECDED check byte of a fuse word: R476 gives its properties and no code (R397; DESIGN CHOICE, log entry 20). -/
opaque fuseCheck : DWord → Byte

end Sys2Proof.Config
end

