-- ==== Sys2Proof/Machine/SMap.lean ====
section
/-! DEFINITION. Sparse maps from numbers to values in one canonical form: keys strictly rising, and no entry equal to
what an unlisted key reads as. Memories, register files and the sparse collections of units are all of this type. -/

namespace Sys2Proof.Machine

/-- A sparse map: (key, value) pairs. -/
abbrev SMap (α : Type) := List (Nat × α)

/-- The value at `k`, `d` where nothing is listed. -/
def SMap.get {α : Type} (d : α) : SMap α → Nat → α
  | [], _ => d
  | (j, v) :: r, k => if j = k then v else SMap.get d r k

/-- Put `v` at `k`, keeping the keys rising; the value `d` of an unlisted key is never listed. -/
def SMap.set {α : Type} [DecidableEq α] (d : α) : SMap α → Nat → α → SMap α
  | [], k, v => if v = d then [] else [(k, v)]
  | (j, w) :: r, k, v =>
    if j = k then (if v = d then r else (k, v) :: r)
    else if k < j then (if v = d then (j, w) :: r else (k, v) :: (j, w) :: r)
    else (j, w) :: SMap.set d r k v

/-- Change the value at `k`. -/
def SMap.mod {α : Type} [DecidableEq α] (d : α) (m : SMap α) (k : Nat) (f : α → α) : SMap α :=
  SMap.set d m k (f (SMap.get d m k))

/-- Keys strictly rising, all above `b` where a bound is given. -/
def SMap.rising {α : Type} : Option Nat → SMap α → Bool
  | _, [] => true
  | none, (j, _) :: r => SMap.rising (some j) r
  | some b, (j, _) :: r => decide (b < j) && SMap.rising (some j) r

/-- The canonical form. -/
def SMap.wf {α : Type} [DecidableEq α] (d : α) (m : SMap α) : Bool :=
  SMap.rising none m && m.all (fun e => decide (e.2 ≠ d))

/-- Every listed value changed by `f`; an entry that becomes `d` is dropped. -/
def SMap.mapAll {α : Type} [DecidableEq α] (d : α) (f : Nat → α → α) (m : SMap α) : SMap α :=
  (m.map (fun e => (e.1, f e.1 e.2))).filter (fun e => decide (e.2 ≠ d))

/-- The entries whose key satisfies `p`. -/
def SMap.keep {α : Type} (p : Nat → Bool) (m : SMap α) : SMap α := m.filter (fun e => p e.1)

/-- A byte memory. -/
abbrev Mem := SMap Byte

/-- `n` bytes from address `a`, lowest address first. -/
def Mem.bytes (d : Byte) (m : Mem) (a : Nat) : Nat → List Byte
  | 0 => []
  | n + 1 => SMap.get d m a :: Mem.bytes d m (a + 1) n

/-- Store a list of bytes from address `a`. -/
def Mem.store (d : Byte) (m : Mem) (a : Nat) : List Byte → Mem
  | [] => m
  | b :: r => Mem.store d (SMap.set d m a b) (a + 1) r

/-- The number a little-endian list of bytes spells (R4). -/
def leNat : List Byte → Nat
  | [] => 0
  | b :: r => b.toNat + 256 * leNat r

/-- The `n` little-endian bytes of a number (R4). -/
def leBytes : Nat → Nat → List Byte
  | 0, _ => []
  | n + 1, v => BitVec.ofNat 8 v :: leBytes n (v / 256)

/-- Bits [hi:lo] of a number. -/
def bits (v hi lo : Nat) : Nat := v / 2 ^ lo % 2 ^ (hi + 1 - lo)

/-- One bit of a number. -/
def bitAt (v i : Nat) : Bool := decide (v / 2 ^ i % 2 = 1)

/-- A number with bits [lo + w - 1 : lo] replaced by `x`. -/
def putBits (v lo w x : Nat) : Nat := v - bits v (lo + w - 1) lo * 2 ^ lo + x % 2 ^ w * 2 ^ lo

/-- A `w`-bit number read as two's complement. -/
def sgn (w v : Nat) : Int := if v % 2 ^ w < 2 ^ (w - 1) then (v % 2 ^ w : Nat) else (v % 2 ^ w : Nat) - (2 ^ w : Nat)

/-- Saturating increment. -/
def satAdd (limit v n : Nat) : Nat := if limit < v + n then limit else v + n

end Sys2Proof.Machine
end

