-- ==== Sys2Proof/Machine/Encode.lean ====
section
/-! DEFINITION. Tile instruction words (R128 to R161): the word of each tile instruction, which words are reserved encodings, and the
reading of a word back into an instruction. -/

namespace Sys2Proof.Machine

/-- A field at its place in a word. -/
def at_ (lo v : Nat) : Nat := v * 2 ^ lo

/-- OPC in bits [63:56] (R128). -/
def opc (o : Nat) : Nat := o * 2 ^ 56

/-- Format S (R131). -/
def encS (o : Nat) (d a b : Reg6) (i : Bool) (imm : Word) : Nat :=
  opc o + at_ 50 d.toNat + at_ 44 a.toNat + at_ 38 b.toNat + at_ 37 (bit i) + imm.toNat

/-- Format V (R131). -/
def encV (o : Nat) (d a b c : Reg6) (low : Nat) : Nat :=
  opc o + at_ 50 d.toNat + at_ 44 a.toNat + at_ 38 b.toNat + at_ 32 c.toNat + low

/-- Format M (R131, R137). -/
def encM (o : Nat) (r : Reg6) (bus : Bool) (m : MAddr) : Nat :=
  opc o + at_ 50 r.toNat + at_ 49 (bit bus) + at_ 47 m.am.toNat + at_ 44 m.ptr.toNat + at_ 41 m.mod.toNat + m.imm.toNat

/-- `mstream` and `mfold` (R153). -/
def encStream (o : Nat) (w : StreamOps) : Nat :=
  opc o + at_ 51 w.mm1.toNat + at_ 46 w.nm1.toNat + at_ 30 w.len.toNat + at_ 27 w.bfmt.toNat + at_ 26 (bit w.bl16)
    + at_ 25 (bit w.asrc) + at_ 21 w.areg.toNat + at_ 19 w.bsrc.toNat + at_ 16 w.bptr.toNat + at_ 15 (bit w.cont)

/-- The instruction word of a tile instruction (R139 to R161); none for a command that is no tile instruction. -/
def encodeNat : Instr → Option Nat
  | .nop _ => some (opc 0x00)
  | .halt _ => some (opc 0x01)
  | .rti _ => some (opc 0x02)
  | .br _ c g => some (opc 0x03 + at_ 52 c.toNat + at_ 32 g.toNat)
  | .bal _ d g => some (opc 0x04 + at_ 50 d.toNat + at_ 32 g.toNat)
  | .jr _ a => some (opc 0x05 + at_ 44 a.toNat)
  | .rep _ cs r e imm => some (opc 0x06 + at_ 55 (bit cs) + at_ 51 r.toNat + at_ 32 e.toNat + imm.toNat)
  | .rbrk _ n => some (opc 0x07 + at_ 53 n.toNat)
  | .setf _ m => some (opc 0x08 + m.toNat)
  | .clrf _ m => some (opc 0x09 + m.toNat)
  | .mvs _ dir g r => some (opc 0x0A + at_ 55 (bit dir) + at_ 49 g.toNat + at_ 43 r.toNat)
  | .setsp _ r imm => some (opc 0x0B + at_ 43 r.toNat + imm.toNat)
  | .ldsp _ r m => some (encM 0x0C r false m)
  | .stsp _ r m => some (encM 0x0D r false m)
  | .add _ o => some (encS 0x10 o.d o.a o.b o.i o.imm)
  | .sub _ o => some (encS 0x11 o.d o.a o.b o.i o.imm)
  | .and _ o => some (encS 0x12 o.d o.a o.b o.i o.imm)
  | .or _ o => some (encS 0x13 o.d o.a o.b o.i o.imm)
  | .xor _ o => some (encS 0x14 o.d o.a o.b o.i o.imm)
  | .shl _ o => some (encS 0x15 o.d o.a o.b o.i o.imm)
  | .shr _ o => some (encS 0x16 o.d o.a o.b o.i o.imm)
  | .sra _ o => some (encS 0x17 o.d o.a o.b o.i o.imm)
  | .mov _ d b i imm => some (encS 0x18 d 0 b i imm)
  | .cmp _ a b i imm => some (encS 0x19 0 a b i imm)
  | .min _ o => some (encS 0x1A o.d o.a o.b o.i o.imm)
  | .max _ o => some (encS 0x1B o.d o.a o.b o.i o.imm)
  | .mul _ o => some (encS 0x1C o.d o.a o.b o.i o.imm)
  | .pmod _ d b i imm => some (encS 0x1D d 0 b i imm)
  | .ld _ d m => some (encM 0x20 d false m)
  | .st _ r m => some (encM 0x21 r false m)
  | .vld _ d bus m => some (encM 0x30 d bus m)
  | .vst _ r m => some (encM 0x31 r false m)
  | .vadd _ ty d a b => some (encV 0x32 d a b 0 (at_ 28 ty.toNat))
  | .vsub _ ty d a b => some (encV 0x33 d a b 0 (at_ 28 ty.toNat))
  | .vmul _ ty d a b => some (encV 0x34 d a b 0 (at_ 28 ty.toNat))
  | .vfma _ ty d a b c => some (encV 0x35 d a b c (at_ 28 ty.toNat))
  | .viadd _ d a b => some (encV 0x36 d a b 0 (at_ 28 3))
  | .visub _ d a b => some (encV 0x37 d a b 0 (at_ 28 3))
  | .vand _ d a b => some (encV 0x38 d a b 0 (at_ 28 3))
  | .vor _ d a b => some (encV 0x39 d a b 0 (at_ 28 3))
  | .vxor _ d a b => some (encV 0x3A d a b 0 (at_ 28 3))
  | .vshl _ d a b => some (encV 0x3B d a b 0 (at_ 28 3))
  | .vshr _ ar d a b => some (encV 0x3C d a b 0 (at_ 28 3 + at_ 24 (bit ar)))
  | .vcmp _ ty rel d a b => some (encV 0x3D d a b 0 (at_ 28 ty.toNat + at_ 24 rel.toNat))
  | .vmov _ d a => some (encV 0x3E d a 0 0 0)
  | .vsel _ d a b c => some (encV 0x3F d a b c 0)
  | .vbcast _ d a => some (encV 0x40 d a 0 0 0)
  | .vget _ d a l => some (encV 0x41 d a 0 0 l.toNat)
  | .vrot _ d a b k => some (encV 0x42 d a b 0 k.toNat)
  | .vmin _ ty d a b => some (encV 0x43 d a b 0 (at_ 28 ty.toNat))
  | .vmax _ ty d a b => some (encV 0x44 d a b 0 (at_ 28 ty.toNat))
  | .vcvt _ f g scl d a => some (encV 0x48 d a 0 0 (at_ 28 f.toNat + at_ 24 g.toNat + at_ 16 scl.toNat))
  | .vqb _ d a q => some (encV 0x49 d a 0 0 (at_ 28 q.tgt.toNat + at_ 27 (bit q.af) + at_ 26 (bit q.pl) + at_ 24 q.pn.toNat
      + at_ 23 (bit q.pf) + at_ 21 q.co.toNat + at_ 20 (bit q.half) + at_ 19 (bit q.b16)))
  | .vtack _ d a b py my => some (opc 0x4A + at_ 50 d.toNat + at_ 44 a.toNat + at_ 41 py.toNat + at_ 38 my.toNat + at_ 32 b.toNat)
  | .vtap _ ty d px mx py my => some (opc 0x4B + at_ 50 d.toNat + at_ 47 px.toNat + at_ 44 mx.toNat + at_ 41 py.toNat
      + at_ 38 my.toNat + at_ 28 ty.toNat)
  | .mstream _ w => some (encStream 0x50 w)
  | .mfold _ w => some (encStream 0x51 w)
  | .mswap _ => some (opc 0x52)
  | .mswapReduce _ f o r => some (opc 0x52 + at_ 55 1 + at_ 53 f.toNat + at_ 52 (bit o) + at_ 48 r.toNat)
  | .mloadRow _ row r => some (opc 0x53 + at_ 49 row.toNat + at_ 39 r.toNat)
  | .mloadBroadcast _ r => some (opc 0x53 + at_ 54 1 + at_ 39 r.toNat)
  | .mloadRaw _ row n src r => some (opc 0x53 + at_ 54 2 + at_ 49 row.toNat + at_ 44 n.toNat + at_ 43 (bit src) + at_ 39 r.toNat)
  | .mclr _ => some (opc 0x54)
  | .mdrainConverted _ n f o r bias br => some (opc 0x55 + at_ 51 n.toNat + at_ 48 f.toNat + at_ 47 (bit o) + at_ 43 r.toNat
      + at_ 42 (bit bias) + at_ 38 br.toNat)
  | .mdrainRaw _ n o r => some (opc 0x55 + at_ 51 n.toNat + at_ 50 1 + at_ 47 (bit o) + at_ 43 r.toNat)
  | .mwait _ bb tr st => some (opc 0x56 + at_ 55 (bit bb) + at_ 54 (bit tr) + at_ 53 (bit st))
  | .lnld _ d m => some (encM 0x60 d false m)
  | .lnst _ r m => some (encM 0x61 r false m)
  | .nsend _ a c r => some (opc 0x62 + at_ 50 a.toNat + at_ 48 c.toNat + at_ 44 r.toNat)
  | .nrecv _ d c => some (opc 0x63 + at_ 50 d.toNat + at_ 48 c.toNat)
  | .trc _ a c => some (opc 0x70 + at_ 50 a.toNat + c.toNat)
  | .rdctr _ d n hi => some (opc 0x71 + at_ 50 d.toNat + at_ 44 n.toNat + at_ 43 (bit hi))
  | .rdsnap _ d => some (opc 0x72 + at_ 50 d.toNat)
  | _ => none

/-- The instruction word (R128). -/
def encodeTile (i : Instr) : Option DWord := (encodeNat i).map (BitVec.ofNat 64)

/-! ### Reserved encodings (R128) -/

/-- Codes of s, p and m registers; of s; of p; of m; of v (R129). -/
def isGen (r : Reg6) : Bool := decide (r.toNat < 0x20)
def isS (r : Reg6) : Bool := decide (r.toNat < 0x10)
def isP (r : Reg6) : Bool := decide (0x10 ≤ r.toNat ∧ r.toNat < 0x18)
def isM (r : Reg6) : Bool := decide (0x18 ≤ r.toNat ∧ r.toNat < 0x20)
def isV (r : Reg6) : Bool := decide (0x20 ≤ r.toNat ∧ r.toNat < 0x30)

/-- A special-register code (R130), and one that may be written. -/
def isSpr (r : Reg6) : Bool := decide (r.toNat ≤ 0x22)
def isSprW (r : Reg6) : Bool := isSpr r && decide (r.toNat ≠ 0x20) && decide (r.toNat ≠ 0x22)

/-- The second operand of format S (R131). -/
def legalB (b : Reg6) (i : Bool) (imm : Word) : Bool := if i then b == 0 else isGen b && imm == 0

def legalS (o : ScalarOps) : Bool := isGen o.d && isGen o.a && legalB o.b o.i o.imm

/-- R137. -/
def maddrLegal (m : MAddr) : Bool :=
  (m.mod == 0 || m.am == 2) && (m.imm == 0 || !(m.am == 1 || m.am == 2))

/-- Records an `mstream` or `mfold` reads (R154). -/
def streamRecords (w : StreamOps) : Nat :=
  let bl := if w.bl16 then 16 else 32
  (w.mm1.toNat + 1) * ((w.len.toNat + bl - 1) / bl)

/-- R153, R154; the register range of an `mfold` whose Ks breaks R57 is not looked at, since it raises MODE_ERR (DEDUCED, log entry 79). -/
def streamLegal (fold : Bool) (w : StreamOps) : Bool :=
  w.bsrc != 3 && (w.bsrc != 2 || w.bptr == 0)
    && (if w.asrc then (fold && decide (w.len.toNat % (if w.bl16 then 16 else 32) ≠ 0)) || decide (w.areg.toNat + (streamRecords w + 1) / 2 ≤ 16)
        else decide (w.areg.toNat < 8))

/-- Whether a tile instruction's word is no reserved encoding (R128, R136 apart). -/
def legalTile : Instr → Bool
  | .br _ c _ => decide (c.toNat ≤ 12)
  | .bal _ d _ => isS d
  | .jr _ a => isS a
  | .rep _ cs r _ imm => if cs then imm == 0 else r == 0
  | .rbrk _ n => decide (1 ≤ n.toNat ∧ n.toNat ≤ 4)
  | .setf _ m => decide (m.toNat / 16 % 16 = 0)
  | .clrf _ m => decide (m.toNat / 16 % 16 = 0)
  | .add _ o => legalS o
  | .sub _ o => legalS o
  | .and _ o => legalS o
  | .or _ o => legalS o
  | .xor _ o => legalS o
  | .shl _ o => legalS o
  | .shr _ o => legalS o
  | .sra _ o => legalS o
  | .min _ o => legalS o
  | .max _ o => legalS o
  | .mul _ o => legalS o
  | .mov _ d b i imm => isGen d && legalB b i imm
  | .cmp _ a b i imm => isGen a && legalB b i imm
  | .pmod _ d b i imm => isP d && (if i then b == 0 else isM b && imm == 0)
  | .mvs _ dir g r => isGen g && (if dir then isSprW r else isSpr r)
  | .setsp _ r _ => isSprW r
  | .ldsp _ r m => isSprW r && maddrLegal m
  | .stsp _ r m => isSpr r && maddrLegal m
  | .ld _ d m => isGen d && maddrLegal m
  | .st _ r m => isGen r && maddrLegal m
  | .vld _ d _ m => isV d && maddrLegal m
  | .vst _ r m => isV r && maddrLegal m
  | .vadd _ ty d a b => isV d && isV a && isV b && decide (ty.toNat ≤ 2)
  | .vsub _ ty d a b => isV d && isV a && isV b && decide (ty.toNat ≤ 2)
  | .vmul _ ty d a b => isV d && isV a && isV b && decide (ty.toNat ≤ 2)
  | .vfma _ ty d a b c => isV d && isV a && isV b && isV c && decide (ty.toNat ≤ 2)
  | .vmin _ ty d a b => isV d && isV a && isV b && decide (ty.toNat ≤ 3)
  | .vmax _ ty d a b => isV d && isV a && isV b && decide (ty.toNat ≤ 3)
  | .viadd _ d a b => isV d && isV a && isV b
  | .visub _ d a b => isV d && isV a && isV b
  | .vand _ d a b => isV d && isV a && isV b
  | .vor _ d a b => isV d && isV a && isV b
  | .vxor _ d a b => isV d && isV a && isV b
  | .vshl _ d a b => isV d && isV a && isV b
  | .vshr _ _ d a b => isV d && isV a && isV b
  | .vcmp _ ty rel d a b => isV d && isV a && isV b && decide (ty.toNat ≤ 3) && decide (rel.toNat ≤ 5)
  | .vmov _ d a => isV d && isV a
  | .vsel _ d a b c => isV d && isV a && isV b && isV c
  | .vbcast _ d a => isV d && isS a
  | .vget _ d a _ => isS d && isV a
  | .vrot _ d a b k => isV d && isV a && ((isS b && k == 0) || b == 0x3F)
  | .vcvt _ f g _ d a => isV d && isV a && decide (f.toNat ≤ 11) && decide (g.toNat ≤ 11)
  | .vqb _ d a q => isV d && isV a && decide (q.tgt.toNat ≤ 7) && decide (q.pn.toNat ≤ 2)
  | .vtack _ d a b _ _ => isV d && isV a && isV b
  | .vtap _ ty d _ _ _ _ => isV d && decide (ty.toNat ≤ 2)
  | .mstream _ w => streamLegal false w
  | .mfold _ w => streamLegal true w
  | .mswapReduce _ f o r => f != 3 && (!o || decide (r.toNat < 8))
  | .mdrainConverted _ n f o r _ _ =>
      f != 3 && (if o then decide (r.toNat < 8) else decide (r.toNat + n.toNat + 1 ≤ 16))
  | .mdrainRaw _ n o r => if o then decide (r.toNat < 8) else decide (r.toNat + 4 * (n.toNat + 1) ≤ 16)
  | .mloadRaw _ row n src r => decide (row.toNat + n.toNat ≤ 31)
      && (if src then decide (r.toNat < 8) else decide (r.toNat + 4 * (n.toNat + 1) ≤ 16))
  | .lnld _ d m => isV d && maddrLegal m
  | .lnst _ r m => isV r && maddrLegal m
  | .nsend _ a _ _ => isV a
  | .nrecv _ d _ => isV d
  | .trc _ a _ => isS a
  | .rdctr _ d _ _ => isS d
  | .rdsnap _ d => isS d
  | _ => true

/-- Instructions that must not stand in a branch delay slot (R136). -/
def forbiddenInDelay : Instr → Bool
  | .br _ _ _ => true
  | .bal _ _ _ => true
  | .jr _ _ => true
  | .rep _ _ _ _ _ => true
  | .rbrk _ _ => true
  | .rti _ => true
  | .halt _ => true
  | .mwait _ _ _ _ => true
  | .nsend _ _ _ _ => true
  | .nrecv _ _ _ => true
  | _ => false

/-- The branches, which may not issue in the last three positions of an innermost body while LM = 1 (R112). -/
def isBranch : Instr → Bool
  | .br _ _ _ => true
  | .bal _ _ _ => true
  | .jr _ _ => true
  | _ => false

/-! ### Reading a word back -/

/-- Bits [lo + w - 1 : lo] of a word as a bit vector. -/
def fieldOf (w : DWord) (lo n : Nat) : BitVec n := w.extractLsb' lo n

def flagOf (w : DWord) (i : Nat) : Bool := w.getLsbD i

def scalarOf (w : DWord) : ScalarOps := ⟨fieldOf w 50 6, fieldOf w 44 6, fieldOf w 38 6, flagOf w 37, fieldOf w 0 32⟩

def maddrOf (w : DWord) : MAddr := ⟨fieldOf w 47 2, fieldOf w 44 3, fieldOf w 41 3, fieldOf w 0 32⟩

def streamOf (w : DWord) : StreamOps :=
  ⟨fieldOf w 51 5, fieldOf w 46 5, fieldOf w 30 16, fieldOf w 27 3, flagOf w 26, flagOf w 25, fieldOf w 21 4, fieldOf w 19 2,
    fieldOf w 16 3, flagOf w 15⟩

/-- The instruction that the fields of a word name, by OPC; its reserved bits are not looked at here. -/
def readWord (t : TileNo) (w : DWord) : Option Instr :=
  let d : Reg6 := fieldOf w 50 6
  let a : Reg6 := fieldOf w 44 6
  let b : Reg6 := fieldOf w 38 6
  let c : Reg6 := fieldOf w 32 6
  let ty : BitVec 4 := fieldOf w 28 4
  let imm : Word := fieldOf w 0 32
  let tgt : BitVec 12 := fieldOf w 32 12
  let m := maddrOf w
  let so := scalarOf w
  match (fieldOf w 56 8).toNat with
  | 0x00 => some (.nop t)
  | 0x01 => some (.halt t)
  | 0x02 => some (.rti t)
  | 0x03 => some (.br t (fieldOf w 52 4) tgt)
  | 0x04 => some (.bal t d tgt)
  | 0x05 => some (.jr t a)
  | 0x06 => some (.rep t (flagOf w 55) (fieldOf w 51 4) tgt imm)
  | 0x07 => some (.rbrk t (fieldOf w 53 3))
  | 0x08 => some (.setf t (fieldOf w 0 18))
  | 0x09 => some (.clrf t (fieldOf w 0 18))
  | 0x0A => some (.mvs t (flagOf w 55) (fieldOf w 49 6) (fieldOf w 43 6))
  | 0x0B => some (.setsp t (fieldOf w 43 6) imm)
  | 0x0C => some (.ldsp t d m)
  | 0x0D => some (.stsp t d m)
  | 0x10 => some (.add t so)
  | 0x11 => some (.sub t so)
  | 0x12 => some (.and t so)
  | 0x13 => some (.or t so)
  | 0x14 => some (.xor t so)
  | 0x15 => some (.shl t so)
  | 0x16 => some (.shr t so)
  | 0x17 => some (.sra t so)
  | 0x18 => some (.mov t d b so.i imm)
  | 0x19 => some (.cmp t a b so.i imm)
  | 0x1A => some (.min t so)
  | 0x1B => some (.max t so)
  | 0x1C => some (.mul t so)
  | 0x1D => some (.pmod t d b so.i imm)
  | 0x20 => some (.ld t d m)
  | 0x21 => some (.st t d m)
  | 0x30 => some (.vld t d (flagOf w 49) m)
  | 0x31 => some (.vst t d m)
  | 0x32 => some (.vadd t ty d a b)
  | 0x33 => some (.vsub t ty d a b)
  | 0x34 => some (.vmul t ty d a b)
  | 0x35 => some (.vfma t ty d a b c)
  | 0x36 => some (.viadd t d a b)
  | 0x37 => some (.visub t d a b)
  | 0x38 => some (.vand t d a b)
  | 0x39 => some (.vor t d a b)
  | 0x3A => some (.vxor t d a b)
  | 0x3B => some (.vshl t d a b)
  | 0x3C => some (.vshr t (flagOf w 24) d a b)
  | 0x3D => some (.vcmp t ty (fieldOf w 24 4) d a b)
  | 0x3E => some (.vmov t d a)
  | 0x3F => some (.vsel t d a b c)
  | 0x40 => some (.vbcast t d a)
  | 0x41 => some (.vget t d a (fieldOf w 0 5))
  | 0x42 => some (.vrot t d a b (fieldOf w 0 5))
  | 0x43 => some (.vmin t ty d a b)
  | 0x44 => some (.vmax t ty d a b)
  | 0x48 => some (.vcvt t ty (fieldOf w 24 4) (fieldOf w 16 8) d a)
  | 0x49 => some (.vqb t d a ⟨ty, flagOf w 27, flagOf w 26, fieldOf w 24 2, flagOf w 23, fieldOf w 21 2, flagOf w 20, flagOf w 19⟩)
  | 0x4A => some (.vtack t d a c (fieldOf w 41 3) (fieldOf w 38 3))
  | 0x4B => some (.vtap t ty d (fieldOf w 47 3) (fieldOf w 44 3) (fieldOf w 41 3) (fieldOf w 38 3))
  | 0x50 => some (.mstream t (streamOf w))
  | 0x51 => some (.mfold t (streamOf w))
  | 0x52 => if flagOf w 55 then some (.mswapReduce t (fieldOf w 53 2) (flagOf w 52) (fieldOf w 48 4)) else some (.mswap t)
  | 0x53 =>
    match (fieldOf w 54 2).toNat with
    | 0 => some (.mloadRow t (fieldOf w 49 5) (fieldOf w 39 4))
    | 1 => some (.mloadBroadcast t (fieldOf w 39 4))
    | 2 => some (.mloadRaw t (fieldOf w 49 5) (fieldOf w 44 5) (flagOf w 43) (fieldOf w 39 4))
    | _ => none
  | 0x54 => some (.mclr t)
  | 0x55 =>
    if flagOf w 50 then some (.mdrainRaw t (fieldOf w 51 5) (flagOf w 47) (fieldOf w 43 4))
    else some (.mdrainConverted t (fieldOf w 51 5) (fieldOf w 48 2) (flagOf w 47) (fieldOf w 43 4) (flagOf w 42) (fieldOf w 38 4))
  | 0x56 => some (.mwait t (flagOf w 55) (flagOf w 54) (flagOf w 53))
  | 0x60 => some (.lnld t d m)
  | 0x61 => some (.lnst t d m)
  | 0x62 => some (.nsend t d (fieldOf w 48 2) (fieldOf w 44 4))
  | 0x63 => some (.nrecv t d (fieldOf w 48 2))
  | 0x70 => some (.trc t d (fieldOf w 0 16))
  | 0x71 => some (.rdctr t d (fieldOf w 44 4) (flagOf w 43))
  | 0x72 => some (.rdsnap t d)
  | _ => none

/-- Bits of a field that the word's form does not use and no rule reserves: ROW of the broadcast `mload` (R157) and BREG of the raw `mdrain`
(R156). They may hold anything (DEDUCED, log entry 79). -/
def unusedBits (w : DWord) : DWord :=
  if fieldOf w 54 10 = (0x14D : BitVec 10) then 0x3E000000000000
  else if fieldOf w 56 8 = (0x55 : BitVec 8) ∧ flagOf w 50 then 0x3C000000000
  else 0

/-- A word with its unused fields at 0. -/
def usedBits (w : DWord) : DWord := w &&& ~~~unusedBits w

/-- The instruction a word spells: its fields re-encode to the same word, unused fields aside, and no field is reserved (R128). -/
def decodeTile (t : TileNo) (w : DWord) : Option Instr :=
  match readWord t w with
  | some i => if encodeTile i = some (usedBits w) ∧ legalTile i then some i else none
  | none => none

end Sys2Proof.Machine
end

