-- ==== Sys2Proof/Machine/Regs.lean ====
section
/-! DEFINITION. The register tables of the spec: one `Fld` per named field of every BAR0 register table (R10 to R13, R35, R36),
with its address, its copies, its bits, its access code, its reset value and the resets across which it is kept.
A field marked `own` has a command of its own in the command table, so REGISTER_WRITE leaves it alone.
Field names are the spec's: register name, underscore, field name. -/

namespace Sys2Proof.Machine

/-- Access codes of R10. -/
inductive Acc where
  | rw | ro | w1c | w1s | wo | rc
  deriving DecidableEq, Repr

/-- Whether a field is the lower or the upper part of a field wider than 32 bits (R8). -/
inductive Wide where
  | none | low | high
  deriving DecidableEq, Repr

/-- One named field of a register table, with all its copies: copy (i, j) stands at `base + s1 * i + s2 * j`. -/
structure Fld where
  base : Nat
  n1 : Nat
  s1 : Nat
  n2 : Nat
  s2 : Nat
  lo : Nat
  width : Nat
  acc : Acc
  reset : Nat
  resets : List Nat
  keptW : Bool
  keptP : Bool
  keptS : Bool
  cls : Nat
  expert : Bool
  own : Bool
  wide : Wide
  deriving DecidableEq, Repr

namespace Reg

/-- MGT_PROFILE: spec/01_architecture.md. -/
def MGT_PROFILE_PROFILE : Fld := ⟨0x40, 1, 0x0, 1, 0x0, 0, 2, .rw, 0, [], true, false, true, 0, false, true, .none⟩
def MGT_PROFILE_SPARES_LEFT : Fld := ⟨0x40, 1, 0x0, 1, 0x0, 8, 6, .ro, 0, [], true, false, true, 0, false, true, .none⟩
/-- TIL_MAT_STATUS: spec/02_matrix_unit.md. -/
def TIL_MAT_STATUS_BUSY : Fld := ⟨0x1000400, 2048, 0x2000, 1, 0x0, 0, 1, .ro, 0, [], false, false, false, 11, false, false, .none⟩
def TIL_MAT_STATUS_BANK : Fld := ⟨0x1000400, 2048, 0x2000, 1, 0x0, 1, 1, .ro, 0, [], false, false, false, 11, false, false, .none⟩
def TIL_MAT_STATUS_STREAM_WAIT : Fld := ⟨0x1000400, 2048, 0x2000, 1, 0x0, 2, 1, .ro, 0, [], false, false, false, 11, false, false, .none⟩
def TIL_MAT_STATUS_SWAP_ORDER : Fld := ⟨0x1000400, 2048, 0x2000, 1, 0x0, 8, 1, .w1c, 0, [], false, false, false, 11, false, false, .none⟩
def TIL_MAT_STATUS_PAR_ERR : Fld := ⟨0x1000400, 2048, 0x2000, 1, 0x0, 9, 1, .w1c, 0, [], false, false, false, 11, false, false, .none⟩
def TIL_MAT_STATUS_MODE_ERR : Fld := ⟨0x1000400, 2048, 0x2000, 1, 0x0, 10, 1, .w1c, 0, [], false, false, false, 11, false, false, .none⟩
def TIL_MAT_STATUS_NAN_OUT : Fld := ⟨0x1000400, 2048, 0x2000, 1, 0x0, 11, 1, .w1c, 0, [], false, false, false, 11, false, false, .none⟩
def TIL_MAT_STATUS_OVF_OUT : Fld := ⟨0x1000400, 2048, 0x2000, 1, 0x0, 12, 1, .w1c, 0, [], false, false, false, 11, false, false, .none⟩
/-- TIL_MAT_PARCNT: spec/02_matrix_unit.md. -/
def TIL_MAT_PARCNT_PAR_CNT : Fld := ⟨0x1000404, 2048, 0x2000, 1, 0x0, 0, 16, .rc, 0, [], false, false, false, 11, false, false, .none⟩
/-- TIL_MAT_FORCE_ROW: spec/02_matrix_unit.md. -/
def TIL_MAT_FORCE_ROW_OFF : Fld := ⟨0x1000408, 2048, 0x2000, 1, 0x0, 0, 32, .rw, 0, [], false, false, false, 11, true, true, .none⟩
/-- TIL_MAT_FORCE_COL: spec/02_matrix_unit.md. -/
def TIL_MAT_FORCE_COL_OFF : Fld := ⟨0x100040c, 2048, 0x2000, 1, 0x0, 0, 32, .rw, 0, [], false, false, false, 11, true, true, .none⟩
/-- TIL_NUM_CTRL: spec/03_number_formats.md. -/
def TIL_NUM_CTRL_FALLBACK : Fld := ⟨0x1000480, 2048, 0x2000, 1, 0x0, 0, 1, .rw, 0, [], false, false, false, 11, false, false, .none⟩
def TIL_NUM_CTRL_OVF_SAT : Fld := ⟨0x1000480, 2048, 0x2000, 1, 0x0, 1, 1, .rw, 0, [], false, false, false, 11, false, false, .none⟩
def TIL_NUM_CTRL_PROMOTE_VANISH : Fld := ⟨0x1000480, 2048, 0x2000, 1, 0x0, 3, 5, .rw, 0, [], false, false, false, 11, false, false, .none⟩
def TIL_NUM_CTRL_POCKET_GAP : Fld := ⟨0x1000480, 2048, 0x2000, 1, 0x0, 8, 3, .rw, 0, [], false, false, false, 11, false, false, .none⟩
/-- TIL_QB_VANISH: spec/03_number_formats.md. -/
def TIL_QB_VANISH_COUNT : Fld := ⟨0x1000484, 2048, 0x2000, 1, 0x0, 0, 32, .rc, 0, [], false, false, false, 11, false, false, .none⟩
/-- TIL_QB_CLIP: spec/03_number_formats.md. -/
def TIL_QB_CLIP_COUNT : Fld := ⟨0x1000488, 2048, 0x2000, 1, 0x0, 0, 32, .rc, 0, [], false, false, false, 11, false, false, .none⟩
/-- TIL_QB_PROMOTE: spec/03_number_formats.md. -/
def TIL_QB_PROMOTE_COUNT : Fld := ⟨0x100048c, 2048, 0x2000, 1, 0x0, 0, 32, .rc, 0, [], false, false, false, 11, false, false, .none⟩
/-- TIL_QB_POCKET: spec/03_number_formats.md. -/
def TIL_QB_POCKET_COUNT : Fld := ⟨0x1000490, 2048, 0x2000, 1, 0x0, 0, 32, .rc, 0, [], false, false, false, 11, false, false, .none⟩
/-- TIL_CTRL: spec/04_tile_programming_model.md. -/
def TIL_CTRL_RESET : Fld := ⟨0x1000000, 2048, 0x2000, 1, 0x0, 0, 1, .w1s, 0, [], false, false, false, 11, false, true, .none⟩
/-- TIL_STATUS: spec/04_tile_programming_model.md. -/
def TIL_STATUS_STATE : Fld := ⟨0x1000004, 2048, 0x2000, 1, 0x0, 0, 3, .ro, 0, [], false, false, false, 11, false, false, .none⟩
def TIL_STATUS_IE : Fld := ⟨0x1000004, 2048, 0x2000, 1, 0x0, 3, 1, .ro, 0, [], false, false, false, 11, false, false, .none⟩
def TIL_STATUS_DEPTH : Fld := ⟨0x1000004, 2048, 0x2000, 1, 0x0, 4, 3, .ro, 0, [], false, false, false, 11, false, false, .none⟩
def TIL_STATUS_PC : Fld := ⟨0x1000004, 2048, 0x2000, 1, 0x0, 16, 12, .ro, 0, [], false, false, false, 11, false, false, .none⟩
/-- TIL_FAULT: spec/04_tile_programming_model.md. -/
def TIL_FAULT_CODE : Fld := ⟨0x1000008, 2048, 0x2000, 1, 0x0, 0, 8, .ro, 0, [], false, false, false, 11, false, false, .none⟩
def TIL_FAULT_PC : Fld := ⟨0x1000008, 2048, 0x2000, 1, 0x0, 16, 12, .ro, 0, [], false, false, false, 11, false, false, .none⟩
/-- TIL_IRQ: spec/04_tile_programming_model.md. -/
def TIL_IRQ_PEND : Fld := ⟨0x100000c, 2048, 0x2000, 1, 0x0, 0, 3, .ro, 0, [], false, false, false, 11, false, false, .none⟩
def TIL_IRQ_IVEC : Fld := ⟨0x100000c, 2048, 0x2000, 1, 0x0, 16, 12, .ro, 0, [], false, false, false, 11, false, false, .none⟩
/-- TIL_ERR_CNT: spec/04_tile_programming_model.md. -/
def TIL_ERR_CNT_PMEM_CORR : Fld := ⟨0x1000010, 2048, 0x2000, 1, 0x0, 0, 16, .rc, 0, [], false, true, false, 11, false, false, .none⟩
def TIL_ERR_CNT_OS_CORR : Fld := ⟨0x1000010, 2048, 0x2000, 1, 0x0, 16, 16, .rc, 0, [], false, true, false, 11, false, false, .none⟩
/-- TIL_FLT_LIMIT: spec/04_tile_programming_model.md. -/
def TIL_FLT_LIMIT_COUNT : Fld := ⟨0x1000014, 2048, 0x2000, 1, 0x0, 0, 8, .rw, 16, [], false, true, false, 11, false, false, .none⟩
def TIL_FLT_LIMIT_WINDOW : Fld := ⟨0x1000014, 2048, 0x2000, 1, 0x0, 8, 16, .rw, 1024, [], false, true, false, 11, false, false, .none⟩
/-- TIL_FLOW_STATUS: spec/06_lining_and_operand_flow.md. -/
def TIL_FLOW_STATUS_CHAIN_WAIT : Fld := ⟨0x1000500, 2048, 0x2000, 1, 0x0, 0, 1, .ro, 0, [], false, false, false, 11, false, false, .none⟩
def TIL_FLOW_STATUS_LIN_CORR : Fld := ⟨0x1000500, 2048, 0x2000, 1, 0x0, 1, 1, .w1c, 0, [], false, false, false, 11, false, false, .none⟩
def TIL_FLOW_STATUS_LIN_UNCORR : Fld := ⟨0x1000500, 2048, 0x2000, 1, 0x0, 2, 1, .w1c, 0, [], false, false, false, 11, false, false, .none⟩
def TIL_FLOW_STATUS_CHAIN_PAR : Fld := ⟨0x1000500, 2048, 0x2000, 1, 0x0, 3, 1, .w1c, 0, [], false, false, false, 11, false, false, .none⟩
def TIL_FLOW_STATUS_CHAIN_TORN : Fld := ⟨0x1000500, 2048, 0x2000, 1, 0x0, 4, 1, .w1c, 0, [], false, false, false, 11, false, false, .none⟩
def TIL_FLOW_STATUS_CHAIN_MISMATCH : Fld := ⟨0x1000500, 2048, 0x2000, 1, 0x0, 5, 1, .w1c, 0, [], false, false, false, 11, false, false, .none⟩
def TIL_FLOW_STATUS_BAR_PEND : Fld := ⟨0x1000500, 2048, 0x2000, 1, 0x0, 6, 2, .ro, 0, [], false, false, false, 11, false, false, .none⟩
/-- TIL_LIN_CNT: spec/06_lining_and_operand_flow.md. -/
def TIL_LIN_CNT_CORR : Fld := ⟨0x1000504, 2048, 0x2000, 1, 0x0, 0, 16, .rc, 0, [], false, false, false, 11, false, false, .none⟩
def TIL_LIN_CNT_UNCORR : Fld := ⟨0x1000504, 2048, 0x2000, 1, 0x0, 16, 8, .rc, 0, [], false, false, false, 11, false, false, .none⟩
def TIL_LIN_CNT_CHAIN_PAR : Fld := ⟨0x1000504, 2048, 0x2000, 1, 0x0, 24, 8, .rc, 0, [], false, false, false, 11, false, false, .none⟩
/-- TIL_LIN_SCRUB: spec/06_lining_and_operand_flow.md. -/
def TIL_LIN_SCRUB_EN : Fld := ⟨0x1000508, 2048, 0x2000, 1, 0x0, 0, 1, .rw, 1, [], false, true, true, 11, false, false, .none⟩
def TIL_LIN_SCRUB_INTV : Fld := ⟨0x1000508, 2048, 0x2000, 1, 0x0, 8, 8, .rw, 4, [], false, true, true, 11, false, false, .none⟩
/-- TIL_CHAIN: spec/06_lining_and_operand_flow.md. -/
def TIL_CHAIN_ROLE : Fld := ⟨0x1000510, 2048, 0x2000, 1, 0x0, 0, 2, .rw, 0, [], false, false, false, 11, false, false, .none⟩
def TIL_CHAIN_IN : Fld := ⟨0x1000510, 2048, 0x2000, 1, 0x0, 2, 3, .rw, 0, [], false, false, false, 11, false, false, .none⟩
def TIL_CHAIN_OUT : Fld := ⟨0x1000510, 2048, 0x2000, 1, 0x0, 5, 3, .rw, 0, [], false, false, false, 11, false, false, .none⟩
def TIL_CHAIN_POS : Fld := ⟨0x1000510, 2048, 0x2000, 1, 0x0, 8, 6, .rw, 0, [], false, false, false, 11, false, false, .none⟩
def TIL_CHAIN_LENM1 : Fld := ⟨0x1000510, 2048, 0x2000, 1, 0x0, 14, 6, .rw, 0, [], false, false, false, 11, false, false, .none⟩
/-- TIL_NET_STATUS: spec/07_tile_network.md. -/
def TIL_NET_STATUS_LOSS : Fld := ⟨0x1000600, 2048, 0x2000, 1, 0x0, 0, 1, .w1c, 0, [], false, false, false, 11, false, false, .none⟩
def TIL_NET_STATUS_TORN : Fld := ⟨0x1000600, 2048, 0x2000, 1, 0x0, 1, 1, .w1c, 0, [], false, false, false, 11, false, false, .none⟩
def TIL_NET_STATUS_BAD_ROUTE : Fld := ⟨0x1000600, 2048, 0x2000, 1, 0x0, 2, 1, .w1c, 0, [], false, false, false, 11, false, false, .none⟩
def TIL_NET_STATUS_BVOID : Fld := ⟨0x1000600, 2048, 0x2000, 1, 0x0, 3, 1, .w1c, 0, [], false, false, false, 11, false, false, .none⟩
def TIL_NET_STATUS_Q0 : Fld := ⟨0x1000600, 2048, 0x2000, 1, 0x0, 8, 4, .ro, 0, [], false, false, false, 11, false, false, .none⟩
def TIL_NET_STATUS_Q1 : Fld := ⟨0x1000600, 2048, 0x2000, 1, 0x0, 12, 4, .ro, 0, [], false, false, false, 11, false, false, .none⟩
def TIL_NET_STATUS_Q2 : Fld := ⟨0x1000600, 2048, 0x2000, 1, 0x0, 16, 4, .ro, 0, [], false, false, false, 11, false, false, .none⟩
def TIL_NET_STATUS_Q3 : Fld := ⟨0x1000600, 2048, 0x2000, 1, 0x0, 20, 4, .ro, 0, [], false, false, false, 11, false, false, .none⟩
/-- TIL_NET_CNT: spec/07_tile_network.md. -/
def TIL_NET_CNT_LOSS : Fld := ⟨0x1000604, 2048, 0x2000, 1, 0x0, 0, 8, .rc, 0, [], false, false, false, 11, false, false, .none⟩
def TIL_NET_CNT_TORN : Fld := ⟨0x1000604, 2048, 0x2000, 1, 0x0, 8, 8, .rc, 0, [], false, false, false, 11, false, false, .none⟩
def TIL_NET_CNT_BAD_ROUTE : Fld := ⟨0x1000604, 2048, 0x2000, 1, 0x0, 16, 8, .rc, 0, [], false, false, false, 11, false, false, .none⟩
/-- CMD_QLIMIT: spec/06_lining_and_operand_flow.md. -/
def CMD_QLIMIT_LIMIT_M1 : Fld := ⟨0x200100, 16, 0x10000, 7, 0x4, 0, 8, .rw, 15, [], false, true, false, 4, false, false, .none⟩
def CMD_QLIMIT_OUT : Fld := ⟨0x200100, 16, 0x10000, 7, 0x4, 8, 9, .ro, 0, [], false, false, false, 4, false, false, .none⟩
def CMD_QLIMIT_WAITING : Fld := ⟨0x200100, 16, 0x10000, 7, 0x4, 17, 1, .ro, 0, [], false, false, false, 4, false, false, .none⟩
/-- NET_DEV: spec/07_tile_network.md. -/
def NET_DEV_DEV_ID : Fld := ⟨0x300000, 1, 0x0, 1, 0x0, 0, 5, .rw, 0, [], true, false, true, 5, false, false, .none⟩
/-- NET_MCAST_HOLD: spec/07_tile_network.md. -/
def NET_MCAST_HOLD_HOLD : Fld := ⟨0x300004, 1, 0x0, 1, 0x0, 0, 20, .rw, 4096, [], true, false, true, 5, false, false, .none⟩
/-- NET_LINK_LIMIT: spec/07_tile_network.md. -/
def NET_LINK_LIMIT_COUNT : Fld := ⟨0x300008, 1, 0x0, 1, 0x0, 0, 8, .rw, 16, [], false, false, false, 5, false, false, .none⟩
def NET_LINK_LIMIT_WINDOW : Fld := ⟨0x300008, 1, 0x0, 1, 0x0, 8, 16, .rw, 1024, [], false, false, false, 5, false, false, .none⟩
/-- NET_LINK_SEL: spec/07_tile_network.md. -/
def NET_LINK_SEL_TILE : Fld := ⟨0x300010, 1, 0x0, 1, 0x0, 0, 11, .rw, 0, [], false, false, false, 5, false, false, .none⟩
def NET_LINK_SEL_PORT : Fld := ⟨0x300010, 1, 0x0, 1, 0x0, 12, 3, .rw, 0, [], false, false, false, 5, false, false, .none⟩
/-- NET_LINK_STATE: spec/07_tile_network.md. -/
def NET_LINK_STATE_STATE : Fld := ⟨0x300014, 1, 0x0, 1, 0x0, 0, 2, .ro, 0, [], false, false, false, 5, false, false, .none⟩
def NET_LINK_STATE_RSV : Fld := ⟨0x300014, 1, 0x0, 1, 0x0, 2, 1, .ro, 0, [], false, false, false, 5, false, false, .none⟩
def NET_LINK_STATE_STITCH : Fld := ⟨0x300014, 1, 0x0, 1, 0x0, 4, 10, .ro, 0, [], false, false, false, 5, false, false, .none⟩
def NET_LINK_STATE_EVENTS : Fld := ⟨0x300014, 1, 0x0, 1, 0x0, 16, 16, .rc, 0, [], false, false, false, 5, false, false, .none⟩
/-- NET_FENCE_DROP: spec/07_tile_network.md. -/
def NET_FENCE_DROP_COUNT : Fld := ⟨0x300100, 16, 0x4, 1, 0x0, 0, 32, .rc, 0, [], false, false, false, 5, false, false, .none⟩
/-- NET_MCG: spec/07_tile_network.md. -/
def NET_MCG_X0 : Fld := ⟨0x300800, 256, 0x4, 1, 0x0, 0, 6, .rw, 0, [], false, false, false, 5, false, true, .none⟩
def NET_MCG_X1 : Fld := ⟨0x300800, 256, 0x4, 1, 0x0, 6, 6, .rw, 0, [], false, false, false, 5, false, true, .none⟩
def NET_MCG_Y0 : Fld := ⟨0x300800, 256, 0x4, 1, 0x0, 12, 5, .rw, 0, [], false, false, false, 5, false, true, .none⟩
def NET_MCG_Y1 : Fld := ⟨0x300800, 256, 0x4, 1, 0x0, 17, 5, .rw, 0, [], false, false, false, 5, false, true, .none⟩
def NET_MCG_PANEL : Fld := ⟨0x300800, 256, 0x4, 1, 0x0, 22, 4, .rw, 0, [], false, false, false, 5, false, true, .none⟩
def NET_MCG_VALID : Fld := ⟨0x300800, 256, 0x4, 1, 0x0, 26, 1, .rw, 0, [], false, false, false, 5, false, true, .none⟩
/-- NET_ST_STATUS: spec/07_tile_network.md. -/
def NET_ST_STATUS_STATE : Fld := ⟨0x310000, 1024, 0x4, 1, 0x0, 0, 2, .ro, 0, [], false, false, false, 5, false, false, .none⟩
def NET_ST_STATUS_PANEL : Fld := ⟨0x310000, 1024, 0x4, 1, 0x0, 2, 4, .ro, 0, [], false, false, false, 5, false, false, .none⟩
def NET_ST_STATUS_CREDIT : Fld := ⟨0x310000, 1024, 0x4, 1, 0x0, 6, 4, .ro, 0, [], false, false, false, 5, false, false, .none⟩
def NET_ST_STATUS_LOSS : Fld := ⟨0x310000, 1024, 0x4, 1, 0x0, 16, 16, .rc, 0, [], false, false, false, 5, false, false, .none⟩
/-- NET_LINK_FORCE: spec/07_tile_network.md. -/
def NET_LINK_FORCE_OFF : Fld := ⟨0x300018, 1, 0x0, 1, 0x0, 0, 1, .rw, 0, [], false, false, false, 5, true, true, .none⟩
/-- CMD_PANEL_RECT: spec/08_commands_and_panels.md. -/
def CMD_PANEL_RECT_X0 : Fld := ⟨0x200000, 16, 0x10000, 1, 0x0, 0, 6, .rw, 0, [], false, true, false, 4, false, false, .none⟩
def CMD_PANEL_RECT_X1 : Fld := ⟨0x200000, 16, 0x10000, 1, 0x0, 6, 6, .rw, 0, [], false, true, false, 4, false, false, .none⟩
def CMD_PANEL_RECT_Y0 : Fld := ⟨0x200000, 16, 0x10000, 1, 0x0, 12, 5, .rw, 0, [], false, true, false, 4, false, false, .none⟩
def CMD_PANEL_RECT_Y1 : Fld := ⟨0x200000, 16, 0x10000, 1, 0x0, 17, 5, .rw, 0, [], false, true, false, 4, false, false, .none⟩
/-- CMD_PANEL_CTRL: spec/08_commands_and_panels.md. -/
def CMD_PANEL_CTRL_DEFINE : Fld := ⟨0x200004, 16, 0x10000, 1, 0x0, 0, 1, .w1s, 0, [], false, false, false, 4, false, true, .none⟩
def CMD_PANEL_CTRL_UNDEFINE : Fld := ⟨0x200004, 16, 0x10000, 1, 0x0, 1, 1, .w1s, 0, [], false, false, false, 4, false, true, .none⟩
def CMD_PANEL_CTRL_RESET : Fld := ⟨0x200004, 16, 0x10000, 1, 0x0, 2, 1, .w1s, 0, [], false, false, false, 4, false, true, .none⟩
def CMD_PANEL_CTRL_THAW : Fld := ⟨0x200004, 16, 0x10000, 1, 0x0, 3, 1, .w1s, 0, [], false, false, false, 4, false, true, .none⟩
def CMD_PANEL_CTRL_RESUME : Fld := ⟨0x200004, 16, 0x10000, 1, 0x0, 4, 1, .w1s, 0, [], false, false, false, 4, false, true, .none⟩
def CMD_PANEL_CTRL_FAULT_ACT : Fld := ⟨0x200004, 16, 0x10000, 1, 0x0, 5, 2, .rw, 2, [], false, true, false, 4, false, false, .none⟩
def CMD_PANEL_CTRL_HALT_ON_REFUSE : Fld := ⟨0x200004, 16, 0x10000, 1, 0x0, 7, 1, .rw, 1, [], false, true, false, 4, false, false, .none⟩
/-- CMD_PANEL_STATUS: spec/08_commands_and_panels.md. -/
def CMD_PANEL_STATUS_STATE : Fld := ⟨0x200008, 16, 0x10000, 1, 0x0, 0, 2, .ro, 0, [], false, false, false, 4, false, false, .none⟩
def CMD_PANEL_STATUS_DEF_ERR : Fld := ⟨0x200008, 16, 0x10000, 1, 0x0, 2, 1, .w1c, 0, [], false, false, false, 4, false, false, .none⟩
def CMD_PANEL_STATUS_DEF_CAUSE : Fld := ⟨0x200008, 16, 0x10000, 1, 0x0, 3, 3, .ro, 0, [], false, false, false, 4, false, false, .none⟩
def CMD_PANEL_STATUS_FAULT : Fld := ⟨0x200008, 16, 0x10000, 1, 0x0, 6, 1, .w1c, 0, [], false, false, false, 4, false, false, .none⟩
def CMD_PANEL_STATUS_HELD : Fld := ⟨0x200008, 16, 0x10000, 1, 0x0, 7, 1, .ro, 0, [], false, false, false, 4, false, false, .none⟩
def CMD_PANEL_STATUS_SLEEP : Fld := ⟨0x200008, 16, 0x10000, 1, 0x0, 8, 1, .ro, 0, [], false, false, false, 4, false, false, .none⟩
/-- CMD_GATE_N_LO: spec/08_commands_and_panels.md. -/
def CMD_GATE_N_LO_GATE : Fld := ⟨0x200010, 16, 0x10000, 1, 0x0, 0, 32, .rw, 0, [], false, true, false, 4, false, false, .none⟩
/-- CMD_GATE_N_HI: spec/08_commands_and_panels.md. -/
def CMD_GATE_N_HI_GATE : Fld := ⟨0x200014, 16, 0x10000, 1, 0x0, 0, 32, .rw, 0, [], false, true, false, 4, false, false, .none⟩
/-- CMD_GATE_S_LO: spec/08_commands_and_panels.md. -/
def CMD_GATE_S_LO_GATE : Fld := ⟨0x200018, 16, 0x10000, 1, 0x0, 0, 32, .rw, 0, [], false, true, false, 4, false, false, .none⟩
/-- CMD_GATE_S_HI: spec/08_commands_and_panels.md. -/
def CMD_GATE_S_HI_GATE : Fld := ⟨0x20001c, 16, 0x10000, 1, 0x0, 0, 32, .rw, 0, [], false, true, false, 4, false, false, .none⟩
/-- CMD_GATE_W: spec/08_commands_and_panels.md. -/
def CMD_GATE_W_GATE : Fld := ⟨0x200020, 16, 0x10000, 1, 0x0, 0, 32, .rw, 0, [], false, true, false, 4, false, false, .none⟩
/-- CMD_GATE_E: spec/08_commands_and_panels.md. -/
def CMD_GATE_E_GATE : Fld := ⟨0x200024, 16, 0x10000, 1, 0x0, 0, 32, .rw, 0, [], false, true, false, 4, false, false, .none⟩
/-- CMD_INTAKE_PTR: spec/08_commands_and_panels.md. -/
def CMD_INTAKE_PTR_NEXT : Fld := ⟨0x200040, 16, 0x10000, 1, 0x0, 0, 16, .ro, 0, [], false, false, false, 4, false, false, .none⟩
def CMD_INTAKE_PTR_CONSUMED : Fld := ⟨0x200040, 16, 0x10000, 1, 0x0, 16, 16, .ro, 0, [], false, false, false, 4, false, false, .none⟩
/-- CMD_INTAKE_SEQ: spec/08_commands_and_panels.md. -/
def CMD_INTAKE_SEQ_VALUE : Fld := ⟨0x200044, 16, 0x10000, 1, 0x0, 0, 32, .ro, 0, [], false, false, false, 4, false, false, .none⟩
/-- CMD_INTAKE_REJ_SEQ: spec/08_commands_and_panels.md. -/
def CMD_INTAKE_REJ_SEQ_VALUE : Fld := ⟨0x200048, 16, 0x10000, 1, 0x0, 0, 32, .ro, 0, [], false, false, false, 4, false, false, .none⟩
/-- CMD_ERR_SEQ: spec/08_commands_and_panels.md. -/
def CMD_ERR_SEQ_VALUE : Fld := ⟨0x200054, 16, 0x10000, 1, 0x0, 0, 32, .ro, 0, [], false, false, false, 4, false, false, .none⟩
/-- CMD_SIGNAL_VAL: spec/08_commands_and_panels.md. -/
def CMD_SIGNAL_VAL_VALUE : Fld := ⟨0x200060, 16, 0x10000, 1, 0x0, 0, 32, .ro, 0, [], false, false, false, 4, false, false, .none⟩
/-- CMD_SIGNAL_SEQ: spec/08_commands_and_panels.md. -/
def CMD_SIGNAL_SEQ_VALUE : Fld := ⟨0x200064, 16, 0x10000, 1, 0x0, 0, 32, .ro, 0, [], false, false, false, 4, false, false, .none⟩
/-- CMD_INTAKE_STATUS: spec/08_commands_and_panels.md. -/
def CMD_INTAKE_STATUS_CAUSE : Fld := ⟨0x20004c, 16, 0x10000, 1, 0x0, 0, 3, .ro, 0, [], false, false, false, 4, false, false, .none⟩
def CMD_INTAKE_STATUS_REJ : Fld := ⟨0x20004c, 16, 0x10000, 1, 0x0, 3, 1, .w1c, 0, [], false, false, false, 4, false, false, .none⟩
def CMD_INTAKE_STATUS_STOPPED : Fld := ⟨0x20004c, 16, 0x10000, 1, 0x0, 4, 1, .ro, 0, [], false, false, false, 4, false, false, .none⟩
def CMD_INTAKE_STATUS_OVERWRITE : Fld := ⟨0x20004c, 16, 0x10000, 1, 0x0, 5, 1, .w1c, 0, [], false, false, false, 4, false, false, .none⟩
def CMD_INTAKE_STATUS_BAD_WRITE : Fld := ⟨0x20004c, 16, 0x10000, 1, 0x0, 6, 1, .w1c, 0, [], false, false, false, 4, false, false, .none⟩
/-- CMD_INTAKE_CTRL: spec/08_commands_and_panels.md. -/
def CMD_INTAKE_CTRL_RESYNC : Fld := ⟨0x200050, 16, 0x10000, 1, 0x0, 0, 1, .w1s, 0, [], false, false, false, 4, false, true, .none⟩
/-- CMD_ERR: spec/08_commands_and_panels.md. -/
def CMD_ERR_CAUSE : Fld := ⟨0x200058, 16, 0x10000, 1, 0x0, 0, 4, .ro, 0, [], false, false, false, 4, false, false, .none⟩
def CMD_ERR_QUEUE : Fld := ⟨0x200058, 16, 0x10000, 1, 0x0, 4, 3, .ro, 0, [], false, false, false, 4, false, false, .none⟩
def CMD_ERR_DETAIL : Fld := ⟨0x200058, 16, 0x10000, 1, 0x0, 8, 16, .ro, 0, [], false, false, false, 4, false, false, .none⟩
/-- CMD_TAGS: spec/08_commands_and_panels.md. -/
def CMD_TAGS_LAYER : Fld := ⟨0x200068, 16, 0x10000, 1, 0x0, 0, 16, .ro, 0, [], false, false, false, 4, false, false, .none⟩
def CMD_TAGS_OPERATOR : Fld := ⟨0x200068, 16, 0x10000, 1, 0x0, 16, 16, .ro, 0, [], false, false, false, 4, false, false, .none⟩
/-- CMD_BARRIER: spec/08_commands_and_panels.md. -/
def CMD_BARRIER_COUNT : Fld := ⟨0x20006c, 16, 0x10000, 1, 0x0, 0, 32, .ro, 0, [], false, false, false, 4, false, false, .none⟩
/-- CMD_POST: spec/08_commands_and_panels.md. -/
def CMD_POST_TILE : Fld := ⟨0x200070, 16, 0x10000, 1, 0x0, 0, 11, .rw, 0, [], false, false, false, 4, false, false, .none⟩
def CMD_POST_ALL : Fld := ⟨0x200070, 16, 0x10000, 1, 0x0, 11, 1, .rw, 0, [], false, false, false, 4, false, false, .none⟩
def CMD_POST_KIND : Fld := ⟨0x200070, 16, 0x10000, 1, 0x0, 12, 2, .rw, 0, [], false, false, false, 4, false, false, .none⟩
def CMD_POST_GO : Fld := ⟨0x200070, 16, 0x10000, 1, 0x0, 14, 1, .w1s, 0, [], false, false, false, 4, false, true, .none⟩
def CMD_POST_BUSY : Fld := ⟨0x200070, 16, 0x10000, 1, 0x0, 15, 1, .ro, 0, [], false, false, false, 4, false, false, .none⟩
def CMD_POST_ACKS : Fld := ⟨0x200070, 16, 0x10000, 1, 0x0, 16, 16, .rc, 0, [], false, false, false, 4, false, false, .none⟩
/-- CMD_QMARK: spec/08_commands_and_panels.md. -/
def CMD_QMARK_REACHED : Fld := ⟨0x200120, 16, 0x10000, 8, 0x4, 0, 16, .ro, 0, [], false, false, false, 4, false, false, .none⟩
def CMD_QMARK_DEPTH : Fld := ⟨0x200120, 16, 0x10000, 8, 0x4, 16, 16, .ro, 0, [], false, false, false, 4, false, false, .none⟩
/-- MOV_CL_STATUS: spec/09_movers.md. -/
def MOV_CL_STATUS_PORT_UP : Fld := ⟨0x400000, 9, 0x10000, 1, 0x0, 0, 8, .ro, 255, [], false, false, false, 6, false, false, .none⟩
def MOV_CL_STATUS_BUF_FREE : Fld := ⟨0x400000, 9, 0x10000, 1, 0x0, 8, 13, .ro, 4096, [], false, false, false, 6, false, false, .none⟩
def MOV_CL_STATUS_BUF_CORR : Fld := ⟨0x400000, 9, 0x10000, 1, 0x0, 21, 11, .rc, 0, [], false, false, false, 6, false, false, .none⟩
/-- MOV_HOST_CFG: spec/09_movers.md. -/
def MOV_HOST_CFG_PRI_EN : Fld := ⟨0x480010, 1, 0x0, 1, 0x0, 0, 1, .rw, 0, [], false, false, true, 6, false, false, .none⟩
def MOV_HOST_CFG_PRI_TMO : Fld := ⟨0x480010, 1, 0x0, 1, 0x0, 8, 8, .rw, 100, [], false, false, true, 6, false, false, .none⟩
/-- MOV_CH_CFG: spec/09_movers.md. -/
def MOV_CH_CFG_PANEL : Fld := ⟨0x401000, 9, 0x10000, 64, 0x40, 0, 4, .rw, 0, [], false, true, false, 6, false, false, .none⟩
def MOV_CH_CFG_BOUND : Fld := ⟨0x401000, 9, 0x10000, 64, 0x40, 4, 1, .rw, 0, [], false, true, false, 6, false, false, .none⟩
def MOV_CH_CFG_DIRECT : Fld := ⟨0x401000, 9, 0x10000, 64, 0x40, 5, 1, .rw, 0, [], false, true, false, 6, false, false, .none⟩
def MOV_CH_CFG_PRIO : Fld := ⟨0x401000, 9, 0x10000, 64, 0x40, 6, 2, .rw, 0, [], false, true, false, 6, false, false, .none⟩
def MOV_CH_CFG_RSV : Fld := ⟨0x401000, 9, 0x10000, 64, 0x40, 8, 13, .rw, 0, [], false, true, false, 6, false, false, .none⟩
def MOV_CH_CFG_HALT_ON_ERR : Fld := ⟨0x401000, 9, 0x10000, 64, 0x40, 21, 1, .rw, 0, [], false, true, false, 6, false, false, .none⟩
/-- MOV_CH_CTRL: spec/09_movers.md. -/
def MOV_CH_CTRL_ABORT : Fld := ⟨0x401004, 9, 0x10000, 64, 0x40, 0, 1, .w1s, 0, [], false, false, false, 6, false, true, .none⟩
def MOV_CH_CTRL_RETRY : Fld := ⟨0x401004, 9, 0x10000, 64, 0x40, 1, 1, .w1s, 0, [], false, false, false, 6, false, true, .none⟩
def MOV_CH_CTRL_SKIP : Fld := ⟨0x401004, 9, 0x10000, 64, 0x40, 2, 1, .w1s, 0, [], false, false, false, 6, false, true, .none⟩
/-- MOV_CH_STATUS: spec/09_movers.md. -/
def MOV_CH_STATUS_STATE : Fld := ⟨0x401008, 9, 0x10000, 64, 0x40, 0, 3, .ro, 0, [], false, false, false, 6, false, false, .none⟩
def MOV_CH_STATUS_LAST : Fld := ⟨0x401008, 9, 0x10000, 64, 0x40, 3, 4, .ro, 0, [], false, false, false, 6, false, false, .none⟩
def MOV_CH_STATUS_DERR : Fld := ⟨0x401008, 9, 0x10000, 64, 0x40, 7, 3, .ro, 0, [], false, false, false, 6, false, false, .none⟩
def MOV_CH_STATUS_ERR_SEEN : Fld := ⟨0x401008, 9, 0x10000, 64, 0x40, 10, 1, .ro, 0, [], false, false, false, 6, false, false, .none⟩
def MOV_CH_STATUS_QDEPTH : Fld := ⟨0x401008, 9, 0x10000, 64, 0x40, 11, 5, .ro, 0, [], false, false, false, 6, false, false, .none⟩
def MOV_CH_STATUS_BLOCKS : Fld := ⟨0x401008, 9, 0x10000, 64, 0x40, 16, 16, .ro, 0, [], false, false, false, 6, false, false, .none⟩
/-- MOV_CH_RESID_LO: spec/09_movers.md. -/
def MOV_CH_RESID_LO_RESID : Fld := ⟨0x40100c, 9, 0x10000, 64, 0x40, 0, 32, .ro, 0, [], false, false, false, 6, false, false, .low⟩
/-- MOV_CH_RESID_HI: spec/09_movers.md. -/
def MOV_CH_RESID_HI_RESID : Fld := ⟨0x401010, 9, 0x10000, 64, 0x40, 0, 8, .ro, 0, [], false, false, false, 6, false, false, .high⟩
/-- MOV_CH_CUR_B: spec/09_movers.md. -/
def MOV_CH_CUR_B_B : Fld := ⟨0x401014, 9, 0x10000, 64, 0x40, 0, 32, .ro, 0, [], false, false, false, 6, false, false, .none⟩
/-- MOV_CH_CUR_I12: spec/09_movers.md. -/
def MOV_CH_CUR_I12_I1 : Fld := ⟨0x401018, 9, 0x10000, 64, 0x40, 0, 16, .ro, 0, [], false, false, false, 6, false, false, .none⟩
def MOV_CH_CUR_I12_I2 : Fld := ⟨0x401018, 9, 0x10000, 64, 0x40, 16, 16, .ro, 0, [], false, false, false, 6, false, false, .none⟩
/-- MOV_CH_CUR_I34: spec/09_movers.md. -/
def MOV_CH_CUR_I34_I3 : Fld := ⟨0x40101c, 9, 0x10000, 64, 0x40, 0, 16, .ro, 0, [], false, false, false, 6, false, false, .none⟩
def MOV_CH_CUR_I34_I4 : Fld := ⟨0x40101c, 9, 0x10000, 64, 0x40, 16, 16, .ro, 0, [], false, false, false, 6, false, false, .none⟩
/-- MOV_CH_FAIL_LO: spec/09_movers.md. -/
def MOV_CH_FAIL_LO_VALUE : Fld := ⟨0x401020, 9, 0x10000, 64, 0x40, 0, 32, .ro, 0, [], false, false, false, 6, false, false, .low⟩
/-- MOV_CH_FAIL_HI: spec/09_movers.md. -/
def MOV_CH_FAIL_HI_VALUE : Fld := ⟨0x401024, 9, 0x10000, 64, 0x40, 0, 32, .ro, 0, [], false, false, false, 6, false, false, .high⟩
/-- MOV_CH_ERR_SEQ: spec/09_movers.md. -/
def MOV_CH_ERR_SEQ_VALUE : Fld := ⟨0x401028, 9, 0x10000, 64, 0x40, 0, 32, .ro, 0, [], false, false, false, 6, false, false, .none⟩
/-- MOV_CH_ERR_TAGS: spec/09_movers.md. -/
def MOV_CH_ERR_TAGS_LAYER : Fld := ⟨0x40102c, 9, 0x10000, 64, 0x40, 0, 16, .ro, 0, [], false, false, false, 6, false, false, .none⟩
def MOV_CH_ERR_TAGS_OPERATOR : Fld := ⟨0x40102c, 9, 0x10000, 64, 0x40, 16, 16, .ro, 0, [], false, false, false, 6, false, false, .none⟩
/-- MOV_CH_POST: spec/09_movers.md. -/
def MOV_CH_POST_DESC : Fld := ⟨0x404000, 9, 0x10000, 1024, 0x4, 0, 32, .wo, 0, [], false, false, false, 6, true, false, .none⟩
/-- HBM_MAP_CTRL: spec/10_hbm.md. -/
def HBM_MAP_CTRL_EN : Fld := ⟨0x500000, 1, 0x0, 1, 0x0, 0, 1, .rw, 0, [], true, false, true, 7, false, true, .none⟩
def HBM_MAP_CTRL_BUSY : Fld := ⟨0x500000, 1, 0x0, 1, 0x0, 1, 1, .ro, 0, [], false, false, false, 7, false, false, .none⟩
def HBM_MAP_CTRL_RETIRED : Fld := ⟨0x500000, 1, 0x0, 1, 0x0, 16, 10, .ro, 0, [], true, false, true, 7, false, false, .none⟩
/-- HBM_CAP: spec/10_hbm.md. -/
def HBM_CAP_ROWS : Fld := ⟨0x500004, 1, 0x0, 1, 0x0, 0, 16, .ro, 49152, [], true, false, true, 7, false, false, .none⟩
/-- HBM_BGT: spec/10_hbm.md. -/
def HBM_BGT_INTV : Fld := ⟨0x500008, 1, 0x0, 1, 0x0, 0, 16, .rw, 10, [], true, false, true, 7, false, false, .none⟩
/-- HBM_CH_LIMIT: spec/10_hbm.md. -/
def HBM_CH_LIMIT_COUNT : Fld := ⟨0x50000c, 1, 0x0, 1, 0x0, 0, 8, .rw, 16, [], false, false, false, 7, false, false, .none⟩
def HBM_CH_LIMIT_WINDOW : Fld := ⟨0x50000c, 1, 0x0, 1, 0x0, 8, 16, .rw, 1024, [], false, false, false, 7, false, false, .none⟩
/-- HBM_HASH_SLOT: spec/10_hbm.md. -/
def HBM_HASH_SLOT_MASK : Fld := ⟨0x500040, 11, 0x4, 1, 0x0, 0, 16, .rw, 0, [1, 2, 4, 8, 16, 32, 64, 128, 256, 512, 1024], true, false, true, 7, false, false, .none⟩
/-- HBM_HASH_BANK: spec/10_hbm.md. -/
def HBM_HASH_BANK_MASK : Fld := ⟨0x500080, 4, 0x4, 1, 0x0, 0, 29, .rw, 0, [8196, 16392, 32784, 65568], true, false, true, 7, false, false, .none⟩
/-- HBM_RETIRED: spec/10_hbm.md. -/
def HBM_RETIRED_SECT : Fld := ⟨0x500100, 64, 0x4, 1, 0x0, 0, 32, .ro, 0, [], true, false, true, 7, false, false, .none⟩
/-- HBM_STK_STATUS: spec/10_hbm.md. -/
def HBM_STK_STATUS_TRAINED : Fld := ⟨0x501000, 8, 0x40000, 1, 0x0, 0, 1, .ro, 0, [], true, false, true, 7, false, false, .none⟩
def HBM_STK_STATUS_SREF : Fld := ⟨0x501000, 8, 0x40000, 1, 0x0, 1, 1, .ro, 0, [], false, false, false, 7, false, false, .none⟩
def HBM_STK_STATUS_TEMP : Fld := ⟨0x501000, 8, 0x40000, 1, 0x0, 2, 8, .ro, 0, [], false, false, false, 7, false, false, .none⟩
def HBM_STK_STATUS_RATE : Fld := ⟨0x501000, 8, 0x40000, 1, 0x0, 10, 2, .ro, 0, [], false, false, false, 7, false, false, .none⟩
/-- HBM_CH_STATUS: spec/10_hbm.md. -/
def HBM_CH_STATUS_STATE : Fld := ⟨0x502000, 8, 0x40000, 32, 0x20, 0, 3, .ro, 0, [], true, false, true, 7, false, false, .none⟩
def HBM_CH_STATUS_OUT : Fld := ⟨0x502000, 8, 0x40000, 32, 0x20, 3, 7, .ro, 0, [], false, false, false, 7, false, false, .none⟩
def HBM_CH_STATUS_SECT_RET : Fld := ⟨0x502000, 8, 0x40000, 32, 0x20, 10, 8, .ro, 0, [], true, false, true, 7, false, false, .none⟩
/-- HBM_CH_ERR: spec/10_hbm.md. -/
def HBM_CH_ERR_CORR : Fld := ⟨0x502004, 8, 0x40000, 32, 0x20, 0, 16, .rc, 0, [], false, false, false, 7, false, false, .none⟩
def HBM_CH_ERR_UNCORR : Fld := ⟨0x502004, 8, 0x40000, 32, 0x20, 16, 8, .rc, 0, [], false, false, false, 7, false, false, .none⟩
def HBM_CH_ERR_LATE : Fld := ⟨0x502004, 8, 0x40000, 32, 0x20, 24, 8, .rc, 0, [], false, false, false, 7, false, false, .none⟩
/-- HBM_TRN_CTRL: spec/10_hbm.md. -/
def HBM_TRN_CTRL_CH : Fld := ⟨0x503000, 8, 0x40000, 1, 0x0, 0, 5, .rw, 0, [], false, false, false, 7, true, false, .none⟩
def HBM_TRN_CTRL_PC : Fld := ⟨0x503000, 8, 0x40000, 1, 0x0, 5, 1, .rw, 0, [], false, false, false, 7, true, false, .none⟩
def HBM_TRN_CTRL_OWN : Fld := ⟨0x503000, 8, 0x40000, 1, 0x0, 6, 1, .rw, 0, [], false, false, false, 7, true, true, .none⟩
def HBM_TRN_CTRL_OP : Fld := ⟨0x503000, 8, 0x40000, 1, 0x0, 7, 2, .rw, 0, [], false, false, false, 7, true, false, .none⟩
def HBM_TRN_CTRL_GO : Fld := ⟨0x503000, 8, 0x40000, 1, 0x0, 9, 1, .w1s, 0, [], false, false, false, 7, true, true, .none⟩
def HBM_TRN_CTRL_RATE : Fld := ⟨0x503000, 8, 0x40000, 1, 0x0, 10, 2, .rw, 0, [], false, false, false, 7, true, false, .none⟩
/-- HBM_TRN_PAT: spec/10_hbm.md. -/
def HBM_TRN_PAT_KIND : Fld := ⟨0x503004, 8, 0x40000, 1, 0x0, 0, 3, .rw, 2, [], false, false, false, 7, true, false, .none⟩
def HBM_TRN_PAT_LOG_LEN : Fld := ⟨0x503004, 8, 0x40000, 1, 0x0, 3, 5, .rw, 10, [], false, false, false, 7, true, false, .none⟩
def HBM_TRN_PAT_USER : Fld := ⟨0x503004, 8, 0x40000, 1, 0x0, 16, 16, .rw, 0, [], false, false, false, 7, true, false, .none⟩
/-- HBM_TRN_DLY: spec/10_hbm.md. -/
def HBM_TRN_DLY_PIN : Fld := ⟨0x503008, 8, 0x40000, 1, 0x0, 0, 8, .rw, 0, [], false, false, false, 7, true, false, .none⟩
def HBM_TRN_DLY_SIDE : Fld := ⟨0x503008, 8, 0x40000, 1, 0x0, 8, 1, .rw, 0, [], false, false, false, 7, true, false, .none⟩
def HBM_TRN_DLY_DELAY : Fld := ⟨0x503008, 8, 0x40000, 1, 0x0, 16, 8, .rw, 0, [], false, false, false, 7, true, false, .none⟩
def HBM_TRN_DLY_VREF : Fld := ⟨0x503008, 8, 0x40000, 1, 0x0, 24, 8, .rw, 0, [], false, false, false, 7, true, false, .none⟩
/-- HBM_TRN_RESULT: spec/10_hbm.md. -/
def HBM_TRN_RESULT_ERRS : Fld := ⟨0x50300c, 8, 0x40000, 1, 0x0, 0, 24, .ro, 0, [], false, false, false, 7, true, false, .none⟩
def HBM_TRN_RESULT_DONE : Fld := ⟨0x50300c, 8, 0x40000, 1, 0x0, 31, 1, .ro, 0, [], false, false, false, 7, true, false, .none⟩
/-- LAN_SUIT: spec/11_lanes_and_systems.md. -/
def LAN_SUIT_SX : Fld := ⟨0x700000, 1, 0x0, 1, 0x0, 0, 3, .rw, 1, [], true, false, true, 8, false, false, .none⟩
def LAN_SUIT_SY : Fld := ⟨0x700000, 1, 0x0, 1, 0x0, 3, 3, .rw, 1, [], true, false, true, 8, false, false, .none⟩
def LAN_SUIT_SYS_ID : Fld := ⟨0x700000, 1, 0x0, 1, 0x0, 16, 10, .rw, 0, [], true, false, true, 8, false, false, .none⟩
/-- LAN_LANE_LIMIT: spec/11_lanes_and_systems.md. -/
def LAN_LANE_LIMIT_COUNT : Fld := ⟨0x700004, 1, 0x0, 1, 0x0, 0, 8, .rw, 16, [], false, false, false, 8, false, false, .none⟩
def LAN_LANE_LIMIT_WINDOW : Fld := ⟨0x700004, 1, 0x0, 1, 0x0, 8, 16, .rw, 1024, [], false, false, false, 8, false, false, .none⟩
/-- LAN_BITSLIP: spec/11_lanes_and_systems.md. -/
def LAN_BITSLIP_LANE : Fld := ⟨0x700008, 1, 0x0, 1, 0x0, 0, 5, .rw, 0, [], false, false, false, 8, false, false, .none⟩
def LAN_BITSLIP_OP : Fld := ⟨0x700008, 1, 0x0, 1, 0x0, 5, 1, .rw, 0, [], false, false, false, 8, false, false, .none⟩
def LAN_BITSLIP_COUNT : Fld := ⟨0x700008, 1, 0x0, 1, 0x0, 8, 6, .rw, 0, [], false, false, false, 8, false, false, .none⟩
def LAN_BITSLIP_GO : Fld := ⟨0x700008, 1, 0x0, 1, 0x0, 16, 1, .w1s, 0, [], false, false, false, 8, false, true, .none⟩
def LAN_BITSLIP_RESULT : Fld := ⟨0x700008, 1, 0x0, 1, 0x0, 17, 2, .ro, 0, [], false, false, false, 8, false, false, .none⟩
/-- LAN_LINK_CFG: spec/11_lanes_and_systems.md. -/
def LAN_LINK_CFG_PROTO : Fld := ⟨0x700100, 4, 0x20, 1, 0x0, 0, 2, .rw, 0, [], true, false, true, 8, false, false, .none⟩
def LAN_LINK_CFG_ETH_MODE : Fld := ⟨0x700100, 4, 0x20, 1, 0x0, 2, 2, .rw, 0, [], true, false, true, 8, false, false, .none⟩
def LAN_LINK_CFG_MIN_WIDTH : Fld := ⟨0x700100, 4, 0x20, 1, 0x0, 4, 4, .rw, 5, [], true, false, true, 8, false, false, .none⟩
def LAN_LINK_CFG_UP : Fld := ⟨0x700100, 4, 0x20, 1, 0x0, 8, 1, .w1s, 0, [], false, false, false, 8, false, true, .none⟩
def LAN_LINK_CFG_DOWN : Fld := ⟨0x700100, 4, 0x20, 1, 0x0, 9, 1, .w1s, 0, [], false, false, false, 8, false, true, .none⟩
/-- LAN_LINK_STATUS: spec/11_lanes_and_systems.md. -/
def LAN_LINK_STATUS_STATE : Fld := ⟨0x700104, 4, 0x20, 1, 0x0, 0, 3, .ro, 0, [], false, false, false, 8, false, false, .none⟩
def LAN_LINK_STATUS_WIDTH : Fld := ⟨0x700104, 4, 0x20, 1, 0x0, 3, 4, .ro, 0, [], false, false, false, 8, false, false, .none⟩
def LAN_LINK_STATUS_REV : Fld := ⟨0x700104, 4, 0x20, 1, 0x0, 7, 1, .ro, 0, [], false, false, false, 8, false, false, .none⟩
def LAN_LINK_STATUS_CAUSE : Fld := ⟨0x700104, 4, 0x20, 1, 0x0, 8, 4, .ro, 0, [], false, false, false, 8, false, false, .none⟩
def LAN_LINK_STATUS_SLOW : Fld := ⟨0x700104, 4, 0x20, 1, 0x0, 12, 1, .ro, 0, [], false, false, false, 8, false, false, .none⟩
def LAN_LINK_STATUS_PARTNER : Fld := ⟨0x700104, 4, 0x20, 1, 0x0, 16, 10, .ro, 0, [], false, false, false, 8, false, false, .none⟩
def LAN_LINK_STATUS_SKEW : Fld := ⟨0x700104, 4, 0x20, 1, 0x0, 26, 6, .ro, 0, [], false, false, false, 8, false, false, .none⟩
/-- LAN_LINK_CNT: spec/11_lanes_and_systems.md. -/
def LAN_LINK_CNT_REPLAY : Fld := ⟨0x700108, 4, 0x20, 1, 0x0, 0, 16, .rc, 0, [], false, false, false, 8, false, false, .none⟩
def LAN_LINK_CNT_DROP : Fld := ⟨0x700108, 4, 0x20, 1, 0x0, 16, 16, .rc, 0, [], false, false, false, 8, false, false, .none⟩
/-- LAN_LINK_MASK: spec/11_lanes_and_systems.md. -/
def LAN_LINK_MASK_ACTIVE : Fld := ⟨0x70010c, 4, 0x20, 1, 0x0, 0, 8, .ro, 0, [], false, false, false, 8, false, false, .none⟩
def LAN_LINK_MASK_RETIRED : Fld := ⟨0x70010c, 4, 0x20, 1, 0x0, 8, 8, .ro, 0, [], false, false, false, 8, false, false, .none⟩
def LAN_LINK_MASK_SLIPPED : Fld := ⟨0x70010c, 4, 0x20, 1, 0x0, 16, 8, .ro, 0, [], false, false, false, 8, false, false, .none⟩
/-- LAN_LANE_STATUS: spec/11_lanes_and_systems.md. -/
def LAN_LANE_STATUS_STATE : Fld := ⟨0x701000, 32, 0x10, 1, 0x0, 0, 3, .ro, 0, [], false, false, false, 8, false, false, .none⟩
def LAN_LANE_STATUS_STEP : Fld := ⟨0x701000, 32, 0x10, 1, 0x0, 3, 3, .ro, 0, [], false, false, false, 8, false, false, .none⟩
def LAN_LANE_STATUS_INV : Fld := ⟨0x701000, 32, 0x10, 1, 0x0, 6, 1, .ro, 0, [], false, false, false, 8, false, false, .none⟩
def LAN_LANE_STATUS_FOUND : Fld := ⟨0x701000, 32, 0x10, 1, 0x0, 7, 1, .ro, 0, [], false, false, false, 8, false, false, .none⟩
def LAN_LANE_STATUS_SLIP_OFS : Fld := ⟨0x701000, 32, 0x10, 1, 0x0, 8, 6, .ro, 0, [], false, false, false, 8, false, false, .none⟩
def LAN_LANE_STATUS_LOGICAL : Fld := ⟨0x701000, 32, 0x10, 1, 0x0, 16, 3, .ro, 0, [], false, false, false, 8, false, false, .none⟩
/-- LAN_LANE_ERR: spec/11_lanes_and_systems.md. -/
def LAN_LANE_ERR_CORR : Fld := ⟨0x701004, 32, 0x10, 1, 0x0, 0, 16, .rc, 0, [], false, false, false, 8, false, false, .none⟩
def LAN_LANE_ERR_UNCORR : Fld := ⟨0x701004, 32, 0x10, 1, 0x0, 16, 8, .rc, 0, [], false, false, false, 8, false, false, .none⟩
def LAN_LANE_ERR_EVENTS : Fld := ⟨0x701004, 32, 0x10, 1, 0x0, 24, 8, .rc, 0, [], false, false, false, 8, false, false, .none⟩
/-- LAN_LOOP: spec/11_lanes_and_systems.md. -/
def LAN_LOOP_MODE : Fld := ⟨0x701008, 32, 0x10, 1, 0x0, 0, 2, .rw, 0, [], false, false, false, 8, true, true, .none⟩
def LAN_LOOP_PAT : Fld := ⟨0x701008, 32, 0x10, 1, 0x0, 2, 2, .rw, 0, [], false, false, false, 8, true, false, .none⟩
def LAN_LOOP_GO : Fld := ⟨0x701008, 32, 0x10, 1, 0x0, 4, 1, .w1s, 0, [], false, false, false, 8, true, true, .none⟩
/-- LAN_LOOP_RES: spec/11_lanes_and_systems.md. -/
def LAN_LOOP_RES_ERRS : Fld := ⟨0x70100c, 32, 0x10, 1, 0x0, 0, 24, .ro, 0, [], false, false, false, 8, true, false, .none⟩
def LAN_LOOP_RES_DONE : Fld := ⟨0x70100c, 32, 0x10, 1, 0x0, 31, 1, .ro, 0, [], false, false, false, 8, true, false, .none⟩
/-- FAB_RST: spec/13_fabric.md. -/
def FAB_RST_ASSERT : Fld := ⟨0x800000, 1, 0x0, 1, 0x0, 0, 4, .rw, 0, [], false, false, true, 9, false, true, .none⟩
/-- FAB_IO_STATUS: spec/13_fabric.md. -/
def FAB_IO_STATUS_MISMATCH : Fld := ⟨0x800004, 1, 0x0, 1, 0x0, 0, 8, .ro, 0, [], false, false, false, 9, false, false, .none⟩
def FAB_IO_STATUS_VCCIO_OK : Fld := ⟨0x800004, 1, 0x0, 1, 0x0, 8, 8, .ro, 0, [], false, false, false, 9, false, false, .none⟩
/-- FAB_HEM_CFG: spec/13_fabric.md. -/
def FAB_HEM_CFG_EN : Fld := ⟨0x801000, 192, 0x10, 1, 0x0, 0, 1, .rw, 0, [], false, false, true, 9, false, true, .none⟩
def FAB_HEM_CFG_CLKSEL : Fld := ⟨0x801000, 192, 0x10, 1, 0x0, 1, 4, .ro, 0, [], false, false, true, 9, false, false, .none⟩
def FAB_HEM_CFG_CAP : Fld := ⟨0x801000, 192, 0x10, 1, 0x0, 5, 3, .rw, 0, [], false, false, true, 9, false, false, .none⟩
/-- FAB_HEM_STATUS: spec/13_fabric.md. -/
def FAB_HEM_STATUS_STATE : Fld := ⟨0x801004, 192, 0x10, 1, 0x0, 0, 3, .ro, 0, [], false, false, false, 9, false, false, .none⟩
def FAB_HEM_STATUS_BAD_ROUTE : Fld := ⟨0x801004, 192, 0x10, 1, 0x0, 3, 1, .w1c, 0, [], false, false, false, 9, false, false, .none⟩
def FAB_HEM_STATUS_PROTO : Fld := ⟨0x801004, 192, 0x10, 1, 0x0, 4, 1, .w1c, 0, [], false, false, false, 9, false, false, .none⟩
def FAB_HEM_STATUS_LOSS : Fld := ⟨0x801004, 192, 0x10, 1, 0x0, 5, 1, .w1c, 0, [], false, false, false, 9, false, false, .none⟩
def FAB_HEM_STATUS_TORN : Fld := ⟨0x801004, 192, 0x10, 1, 0x0, 6, 1, .w1c, 0, [], false, false, false, 9, false, false, .none⟩
/-- FAB_HEM_CNT: spec/13_fabric.md. -/
def FAB_HEM_CNT_DROP : Fld := ⟨0x801008, 192, 0x10, 1, 0x0, 0, 16, .rc, 0, [], false, false, false, 9, false, false, .none⟩
def FAB_HEM_CNT_BAD_ROUTE : Fld := ⟨0x801008, 192, 0x10, 1, 0x0, 16, 16, .rc, 0, [], false, false, false, 9, false, false, .none⟩
/-- FAB_MP_CFG: spec/13_fabric.md. -/
def FAB_MP_CFG_EN : Fld := ⟨0x804000, 8, 0x20, 1, 0x0, 0, 1, .rw, 0, [], false, false, true, 9, false, false, .none⟩
def FAB_MP_CFG_CLKSEL : Fld := ⟨0x804000, 8, 0x20, 1, 0x0, 1, 4, .ro, 0, [], false, false, true, 9, false, false, .none⟩
def FAB_MP_CFG_LIMIT_M1 : Fld := ⟨0x804000, 8, 0x20, 1, 0x0, 5, 8, .rw, 63, [], false, false, true, 9, false, false, .none⟩
/-- FAB_MP_STATUS: spec/13_fabric.md. -/
def FAB_MP_STATUS_STATE : Fld := ⟨0x804004, 8, 0x20, 1, 0x0, 0, 3, .ro, 0, [], false, false, false, 9, false, false, .none⟩
def FAB_MP_STATUS_OUT : Fld := ⟨0x804004, 8, 0x20, 1, 0x0, 3, 9, .ro, 0, [], false, false, false, 9, false, false, .none⟩
def FAB_MP_STATUS_PROTO : Fld := ⟨0x804004, 8, 0x20, 1, 0x0, 12, 1, .w1c, 0, [], false, false, false, 9, false, false, .none⟩
def FAB_MP_STATUS_POISON : Fld := ⟨0x804004, 8, 0x20, 1, 0x0, 13, 1, .w1c, 0, [], false, false, false, 9, false, false, .none⟩
def FAB_MP_STATUS_ADDR : Fld := ⟨0x804004, 8, 0x20, 1, 0x0, 14, 1, .w1c, 0, [], false, false, false, 9, false, false, .none⟩
/-- FAB_MP_CNT: spec/13_fabric.md. -/
def FAB_MP_CNT_POISON : Fld := ⟨0x804008, 8, 0x20, 1, 0x0, 0, 16, .rc, 0, [], false, false, false, 9, false, false, .none⟩
def FAB_MP_CNT_ADDR : Fld := ⟨0x804008, 8, 0x20, 1, 0x0, 16, 16, .rc, 0, [], false, false, false, 9, false, false, .none⟩
/-- FAB_MAC_CNT: spec/13_fabric.md. -/
def FAB_MAC_CNT_RX_DROP : Fld := ⟨0x806000, 8, 0x10, 1, 0x0, 0, 16, .rc, 0, [], false, false, false, 9, false, false, .none⟩
def FAB_MAC_CNT_ERR : Fld := ⟨0x806000, 8, 0x10, 1, 0x0, 16, 16, .rc, 0, [], false, false, false, 9, false, false, .none⟩
/-- FAB_PROBE: spec/13_fabric.md. -/
def FAB_PROBE_SEL : Fld := ⟨0x808000, 8, 0x10, 4, 0x4, 0, 12, .rw, 0, [], false, false, false, 9, true, false, .none⟩
def FAB_PROBE_PIN : Fld := ⟨0x808000, 8, 0x10, 4, 0x4, 12, 6, .rw, 0, [], false, false, false, 9, true, false, .none⟩
def FAB_PROBE_EN : Fld := ⟨0x808000, 8, 0x10, 4, 0x4, 18, 1, .rw, 0, [], false, false, false, 9, true, true, .none⟩
/-- CFG_STATUS: spec/14_configuration.md. -/
def CFG_STATUS_STATE : Fld := ⟨0x180000, 1, 0x0, 1, 0x0, 0, 3, .ro, 0, [], true, false, true, 3, false, false, .none⟩
def CFG_STATUS_SOURCE : Fld := ⟨0x180000, 1, 0x0, 1, 0x0, 3, 3, .ro, 0, [], true, false, true, 3, false, false, .none⟩
def CFG_STATUS_LAST_CODE : Fld := ⟨0x180000, 1, 0x0, 1, 0x0, 6, 4, .ro, 0, [], true, false, true, 3, false, false, .none⟩
def CFG_STATUS_BUSY : Fld := ⟨0x180000, 1, 0x0, 1, 0x0, 10, 1, .ro, 0, [], false, false, false, 3, false, false, .none⟩
def CFG_STATUS_STATIC_UNCORR : Fld := ⟨0x180000, 1, 0x0, 1, 0x0, 11, 1, .w1c, 0, [], true, false, true, 3, false, false, .none⟩
/-- CFG_LOAD_CTRL: spec/14_configuration.md. -/
def CFG_LOAD_CTRL_SRC : Fld := ⟨0x180004, 1, 0x0, 1, 0x0, 0, 2, .rw, 0, [], false, false, false, 3, false, false, .none⟩
def CFG_LOAD_CTRL_GO : Fld := ⟨0x180004, 1, 0x0, 1, 0x0, 2, 1, .w1s, 0, [], false, false, false, 3, false, true, .none⟩
/-- CFG_LOAD_ADDR_LO: spec/14_configuration.md. -/
def CFG_LOAD_ADDR_LO_VALUE : Fld := ⟨0x180008, 1, 0x0, 1, 0x0, 0, 32, .rw, 0, [], false, false, false, 3, false, false, .low⟩
/-- CFG_LOAD_ADDR_HI: spec/14_configuration.md. -/
def CFG_LOAD_ADDR_HI_VALUE : Fld := ⟨0x18000c, 1, 0x0, 1, 0x0, 0, 7, .rw, 0, [], false, false, false, 3, false, false, .high⟩
/-- CFG_LOAD_LEN: spec/14_configuration.md. -/
def CFG_LOAD_LEN_VALUE : Fld := ⟨0x180010, 1, 0x0, 1, 0x0, 0, 32, .rw, 0, [], false, false, false, 3, false, false, .none⟩
/-- CFG_STAGE: spec/14_configuration.md. -/
def CFG_STAGE_VALID : Fld := ⟨0x180040, 2, 0x4, 1, 0x0, 0, 1, .ro, 0, [], false, false, false, 3, false, false, .none⟩
def CFG_STAGE_PATCH : Fld := ⟨0x180040, 2, 0x4, 1, 0x0, 1, 6, .ro, 0, [], false, false, false, 3, false, false, .none⟩
/-- CFG_SCRUB_CFG: spec/14_configuration.md. -/
def CFG_SCRUB_CFG_EN : Fld := ⟨0x180080, 1, 0x0, 1, 0x0, 0, 1, .rw, 1, [], true, false, true, 3, false, false, .none⟩
def CFG_SCRUB_CFG_CORRECT : Fld := ⟨0x180080, 1, 0x0, 1, 0x0, 1, 1, .rw, 1, [], true, false, true, 3, false, false, .none⟩
/-- CFG_SCRUB_STATUS: spec/14_configuration.md. -/
def CFG_SCRUB_STATUS_FRAME : Fld := ⟨0x180084, 1, 0x0, 1, 0x0, 0, 17, .ro, 0, [], false, false, false, 3, false, false, .none⟩
def CFG_SCRUB_STATUS_SET_ERR : Fld := ⟨0x180084, 1, 0x0, 1, 0x0, 17, 1, .w1c, 0, [], false, false, false, 3, false, false, .none⟩
def CFG_SCRUB_STATUS_ROM_ERR : Fld := ⟨0x180084, 1, 0x0, 1, 0x0, 18, 1, .w1c, 0, [], false, false, false, 3, false, false, .none⟩
def CFG_SCRUB_STATUS_RESTARTS : Fld := ⟨0x180084, 1, 0x0, 1, 0x0, 24, 8, .rc, 0, [], false, false, false, 3, false, false, .none⟩
/-- CFG_PATCH_STATUS: spec/14_configuration.md. -/
def CFG_PATCH_STATUS_STATE : Fld := ⟨0x180100, 48, 0x4, 1, 0x0, 0, 3, .ro, 0, [], true, false, true, 3, false, false, .none⟩
def CFG_PATCH_STATUS_LAST_CODE : Fld := ⟨0x180100, 48, 0x4, 1, 0x0, 3, 4, .ro, 0, [], true, false, true, 3, false, false, .none⟩
/-- CFG_PATCH_CNT: spec/14_configuration.md. -/
def CFG_PATCH_CNT_CORR : Fld := ⟨0x180200, 48, 0x4, 1, 0x0, 0, 16, .rc, 0, [], false, false, false, 3, false, false, .none⟩
def CFG_PATCH_CNT_UNCORR : Fld := ⟨0x180200, 48, 0x4, 1, 0x0, 16, 8, .rc, 0, [], false, false, false, 3, false, false, .none⟩
/-- CFG_REPAIR_ADDR_LO: spec/14_configuration.md. -/
def CFG_REPAIR_ADDR_LO_ADDR : Fld := ⟨0x180400, 48, 0x8, 1, 0x0, 0, 32, .ro, 0, [], true, false, true, 3, false, false, .low⟩
/-- CFG_REPAIR_ADDR_HI: spec/14_configuration.md. -/
def CFG_REPAIR_ADDR_HI_ADDR : Fld := ⟨0x180404, 48, 0x8, 1, 0x0, 0, 7, .ro, 0, [], true, false, true, 3, false, false, .high⟩
/-- PCI_LINK_STATUS: spec/15_host_link.md. -/
def PCI_LINK_STATUS_SPEED : Fld := ⟨0x140000, 1, 0x0, 1, 0x0, 0, 3, .ro, 0, [], false, false, false, 2, false, false, .none⟩
def PCI_LINK_STATUS_WIDTH : Fld := ⟨0x140000, 1, 0x0, 1, 0x0, 3, 4, .ro, 0, [], false, false, false, 2, false, false, .none⟩
def PCI_LINK_STATUS_FLIT : Fld := ⟨0x140000, 1, 0x0, 1, 0x0, 7, 1, .ro, 0, [], false, false, false, 2, false, false, .none⟩
def PCI_LINK_STATUS_REV : Fld := ⟨0x140000, 1, 0x0, 1, 0x0, 8, 1, .ro, 0, [], false, false, false, 2, false, false, .none⟩
/-- PCI_BAR2_WIN: spec/15_host_link.md. -/
def PCI_BAR2_WIN_BASE : Fld := ⟨0x140004, 1, 0x0, 1, 0x0, 0, 9, .rw, 0, [], true, false, true, 2, false, false, .none⟩
/-- PCI_EVT_PEND: spec/15_host_link.md. -/
def PCI_EVT_PEND_PEND : Fld := ⟨0x140008, 1, 0x0, 1, 0x0, 0, 32, .w1c, 0, [], false, false, false, 2, false, false, .none⟩
/-- PCI_ERR_CNT: spec/15_host_link.md. -/
def PCI_ERR_CNT_CORR : Fld := ⟨0x14000c, 1, 0x0, 1, 0x0, 0, 16, .rc, 0, [], false, false, false, 2, false, false, .none⟩
def PCI_ERR_CNT_UNCORR : Fld := ⟨0x14000c, 1, 0x0, 1, 0x0, 16, 8, .rc, 0, [], false, false, false, 2, false, false, .none⟩
def PCI_ERR_CNT_BAD_SIZE : Fld := ⟨0x14000c, 1, 0x0, 1, 0x0, 24, 8, .rc, 0, [], false, false, false, 2, false, false, .none⟩
/-- PCI_MOV_DONE: spec/15_host_link.md. -/
def PCI_MOV_DONE_CH : Fld := ⟨0x140100, 9, 0x10, 2, 0x4, 0, 32, .w1c, 0, [], false, false, false, 2, false, false, .none⟩
/-- PCI_MOV_ERR: spec/15_host_link.md. -/
def PCI_MOV_ERR_CH : Fld := ⟨0x140108, 9, 0x10, 2, 0x4, 0, 32, .w1c, 0, [], false, false, false, 2, false, false, .none⟩
/-- MGT_BOOT_STATUS: spec/16_management_and_protection.md. -/
def MGT_BOOT_STATUS_STATE : Fld := ⟨0x0, 1, 0x0, 1, 0x0, 0, 3, .ro, 0, [], true, false, true, 0, false, false, .none⟩
def MGT_BOOT_STATUS_SLOT : Fld := ⟨0x0, 1, 0x0, 1, 0x0, 3, 2, .ro, 0, [], true, false, true, 0, false, false, .none⟩
def MGT_BOOT_STATUS_CODE : Fld := ⟨0x0, 1, 0x0, 1, 0x0, 8, 4, .ro, 0, [], true, false, true, 0, false, false, .none⟩
def MGT_BOOT_STATUS_BOOTS : Fld := ⟨0x0, 1, 0x0, 1, 0x0, 16, 16, .ro, 0, [], true, false, true, 0, false, false, .none⟩
/-- MGT_SERIAL_LO: spec/16_management_and_protection.md. -/
def MGT_SERIAL_LO_VALUE : Fld := ⟨0x8, 1, 0x0, 1, 0x0, 0, 32, .ro, 0, [], true, false, true, 0, false, false, .low⟩
/-- MGT_SERIAL_HI: spec/16_management_and_protection.md. -/
def MGT_SERIAL_HI_VALUE : Fld := ⟨0xc, 1, 0x0, 1, 0x0, 0, 32, .ro, 0, [], true, false, true, 0, false, false, .high⟩
/-- MGT_FAULT_LOST: spec/16_management_and_protection.md. -/
def MGT_FAULT_LOST_VALUE : Fld := ⟨0x10, 1, 0x0, 1, 0x0, 0, 32, .rc, 0, [], true, false, true, 0, false, false, .none⟩
/-- MGT_VIOL_CNT: spec/16_management_and_protection.md. -/
def MGT_VIOL_CNT_VALUE : Fld := ⟨0xc0, 1, 0x0, 1, 0x0, 0, 32, .rc, 0, [], true, false, true, 0, false, false, .none⟩
/-- MGT_BB_SEQ: spec/16_management_and_protection.md. -/
def MGT_BB_SEQ_VALUE : Fld := ⟨0x104, 1, 0x0, 1, 0x0, 0, 32, .ro, 0, [], true, false, true, 0, false, false, .none⟩
/-- MGT_ERRLOG_HEAD: spec/16_management_and_protection.md. -/
def MGT_ERRLOG_HEAD_VALUE : Fld := ⟨0x140, 1, 0x0, 1, 0x0, 0, 32, .ro, 0, [], false, false, true, 0, false, false, .none⟩
/-- MGT_CTRL: spec/16_management_and_protection.md. -/
def MGT_CTRL_MRESET : Fld := ⟨0x14, 1, 0x0, 1, 0x0, 0, 1, .w1s, 0, [], false, false, false, 0, false, true, .none⟩
def MGT_CTRL_RECOVER : Fld := ⟨0x14, 1, 0x0, 1, 0x0, 1, 1, .w1s, 0, [], false, false, false, 0, false, true, .none⟩
/-- MGT_SVC_CTRL: spec/16_management_and_protection.md. -/
def MGT_SVC_CTRL_CODE : Fld := ⟨0x80, 1, 0x0, 1, 0x0, 0, 8, .rw, 0, [], false, false, false, 0, false, false, .none⟩
def MGT_SVC_CTRL_GO : Fld := ⟨0x80, 1, 0x0, 1, 0x0, 8, 1, .w1s, 0, [], false, false, false, 0, false, true, .none⟩
def MGT_SVC_CTRL_RESULT : Fld := ⟨0x80, 1, 0x0, 1, 0x0, 12, 4, .ro, 0, [], false, false, false, 0, false, false, .none⟩
/-- MGT_SVC_ARG: spec/16_management_and_protection.md. -/
def MGT_SVC_ARG_ARG : Fld := ⟨0x84, 1, 0x0, 1, 0x0, 0, 32, .rw, 0, [], false, false, false, 0, false, false, .none⟩
/-- MGT_FROZEN: spec/16_management_and_protection.md. -/
def MGT_FROZEN_FROZEN : Fld := ⟨0xa0, 8, 0x4, 1, 0x0, 0, 32, .ro, 0, [], true, false, true, 0, false, false, .none⟩
/-- MGT_BB_HEAD: spec/16_management_and_protection.md. -/
def MGT_BB_HEAD_SLOT : Fld := ⟨0x100, 1, 0x0, 1, 0x0, 0, 13, .ro, 0, [], true, false, true, 0, false, false, .none⟩
def MGT_BB_HEAD_PENDING : Fld := ⟨0x100, 1, 0x0, 1, 0x0, 13, 8, .ro, 0, [], false, false, false, 0, false, false, .none⟩
/-- MGT_BB_HOST: spec/16_management_and_protection.md. -/
def MGT_BB_HOST_DATA : Fld := ⟨0x110, 7, 0x4, 1, 0x0, 0, 32, .wo, 0, [], false, false, false, 0, false, false, .none⟩
/-- MGT_CHN_MASTER_LO: spec/16_management_and_protection.md. -/
def MGT_CHN_MASTER_LO_RWIN : Fld := ⟨0x1000, 40, 0x8, 1, 0x0, 0, 16, .w1c, 65535, [], true, false, true, 0, false, true, .none⟩
def MGT_CHN_MASTER_LO_WWIN : Fld := ⟨0x1000, 40, 0x8, 1, 0x0, 16, 16, .w1c, 65535, [], true, false, true, 0, false, true, .none⟩
/-- MGT_CHN_MASTER_HI: spec/16_management_and_protection.md. -/
def MGT_CHN_MASTER_HI_RCLS_MGT : Fld := ⟨0x1004, 40, 0x8, 1, 0x0, 0, 1, .ro, 1, [], false, false, false, 0, false, true, .none⟩
def MGT_CHN_MASTER_HI_RCLS : Fld := ⟨0x1004, 40, 0x8, 1, 0x0, 1, 15, .w1c, 32767, [], true, false, true, 0, false, true, .none⟩
def MGT_CHN_MASTER_HI_FLAGS : Fld := ⟨0x1004, 40, 0x8, 1, 0x0, 16, 4, .w1c, 15, [], true, false, true, 0, false, true, .none⟩
/-- MGT_CHN_HEM: spec/16_management_and_protection.md. -/
def MGT_CHN_HEM_MASK : Fld := ⟨0x1200, 24, 0x4, 1, 0x0, 0, 32, .w1c, 4294967295, [], true, false, true, 0, false, true, .none⟩
/-- MGT_CHN_PATCH_LO: spec/16_management_and_protection.md. -/
def MGT_CHN_PATCH_LO_MASK : Fld := ⟨0x1300, 16, 0x8, 1, 0x0, 0, 32, .w1c, 4294967295, [], true, false, true, 0, false, true, .none⟩
/-- MGT_CHN_PATCH_HI: spec/16_management_and_protection.md. -/
def MGT_CHN_PATCH_HI_MASK : Fld := ⟨0x1304, 16, 0x8, 1, 0x0, 0, 16, .w1c, 65535, [], true, false, true, 0, false, true, .none⟩
/-- MGT_CHN_WIN: spec/16_management_and_protection.md. -/
def MGT_CHN_WIN_BASE : Fld := ⟨0x1400, 16, 0x4, 1, 0x0, 0, 16, .rw, 0, [], true, false, true, 0, false, true, .none⟩
def MGT_CHN_WIN_LIMIT : Fld := ⟨0x1400, 16, 0x4, 1, 0x0, 16, 16, .rw, 65535, [], true, false, true, 0, false, true, .none⟩
/-- OBS_CTR_CFG: spec/17_observability_and_freeze.md. -/
def OBS_CTR_CFG_PER_LAUNCH : Fld := ⟨0xa00000, 1, 0x0, 1, 0x0, 0, 1, .rw, 1, [], true, false, true, 10, false, false, .none⟩
/-- OBS_CTR_CLR: spec/17_observability_and_freeze.md. -/
def OBS_CTR_CLR_ALL : Fld := ⟨0xa00004, 1, 0x0, 1, 0x0, 0, 1, .w1s, 0, [], false, false, false, 10, false, true, .none⟩
/-- OBS_BSNAP: spec/17_observability_and_freeze.md. -/
def OBS_BSNAP_GO : Fld := ⟨0xa00010, 1, 0x0, 1, 0x0, 0, 1, .w1s, 0, [], false, false, false, 10, false, true, .none⟩
def OBS_BSNAP_LATE : Fld := ⟨0xa00010, 1, 0x0, 1, 0x0, 16, 16, .ro, 0, [], false, false, false, 10, false, false, .none⟩
/-- OBS_BSNAP_NUM: spec/17_observability_and_freeze.md. -/
def OBS_BSNAP_NUM_NUMBER : Fld := ⟨0xa00014, 1, 0x0, 1, 0x0, 0, 32, .rw, 0, [], false, false, false, 10, false, false, .none⟩
/-- OBS_SNAP_DONE: spec/17_observability_and_freeze.md. -/
def OBS_SNAP_DONE_SNAP : Fld := ⟨0xa00100, 16, 0x4, 1, 0x0, 0, 32, .ro, 0, [], false, false, false, 10, false, false, .none⟩
/-- OBS_TRACE_CFG: spec/17_observability_and_freeze.md. -/
def OBS_TRACE_CFG_KINDS : Fld := ⟨0xa00200, 1, 0x0, 1, 0x0, 0, 6, .rw, 0, [], true, false, true, 10, false, false, .none⟩
def OBS_TRACE_CFG_STOP : Fld := ⟨0xa00200, 1, 0x0, 1, 0x0, 6, 1, .rw, 0, [], true, false, true, 10, false, false, .none⟩
/-- OBS_TRACE_CTRL: spec/17_observability_and_freeze.md. -/
def OBS_TRACE_CTRL_FLUSH : Fld := ⟨0xa00204, 1, 0x0, 1, 0x0, 0, 1, .w1s, 0, [], false, false, false, 10, false, true, .none⟩
def OBS_TRACE_CTRL_OVF : Fld := ⟨0xa00204, 1, 0x0, 1, 0x0, 1, 1, .w1c, 0, [], false, false, false, 10, false, false, .none⟩
/-- OBS_TRACE_BASE_LO: spec/17_observability_and_freeze.md. -/
def OBS_TRACE_BASE_LO_VALUE : Fld := ⟨0xa00300, 8, 0x20, 1, 0x0, 0, 32, .rw, 0, [], true, false, true, 10, false, false, .low⟩
/-- OBS_TRACE_BASE_HI: spec/17_observability_and_freeze.md. -/
def OBS_TRACE_BASE_HI_VALUE : Fld := ⟨0xa00304, 8, 0x20, 1, 0x0, 0, 7, .rw, 0, [], true, false, true, 10, false, false, .high⟩
/-- OBS_TRACE_LEN: spec/17_observability_and_freeze.md. -/
def OBS_TRACE_LEN_LEN : Fld := ⟨0xa00308, 8, 0x20, 1, 0x0, 0, 24, .rw, 0, [], true, false, true, 10, false, false, .none⟩
def OBS_TRACE_LEN_EN : Fld := ⟨0xa00308, 8, 0x20, 1, 0x0, 31, 1, .rw, 0, [], true, false, true, 10, false, true, .none⟩
/-- OBS_TRACE_WP: spec/17_observability_and_freeze.md. -/
def OBS_TRACE_WP_VALUE : Fld := ⟨0xa0030c, 8, 0x20, 1, 0x0, 0, 32, .ro, 0, [], true, false, true, 10, false, false, .none⟩
/-- OBS_TRACE_RP: spec/17_observability_and_freeze.md. -/
def OBS_TRACE_RP_VALUE : Fld := ⟨0xa00310, 8, 0x20, 1, 0x0, 0, 32, .rw, 0, [], true, false, true, 10, false, false, .none⟩
/-- OBS_FRZ_CFG: spec/17_observability_and_freeze.md. -/
def OBS_FRZ_CFG_PIN_EN : Fld := ⟨0xa00400, 1, 0x0, 1, 0x0, 0, 1, .rw, 1, [], true, false, true, 10, false, false, .none⟩
def OBS_FRZ_CFG_PIN_SCOPE : Fld := ⟨0xa00400, 1, 0x0, 1, 0x0, 1, 1, .rw, 0, [], true, false, true, 10, false, false, .none⟩
def OBS_FRZ_CFG_DRIVE : Fld := ⟨0xa00400, 1, 0x0, 1, 0x0, 2, 1, .rw, 0, [], true, false, true, 10, false, false, .none⟩
def OBS_FRZ_CFG_ARM : Fld := ⟨0xa00400, 1, 0x0, 1, 0x0, 3, 4, .rw, 0, [], true, false, true, 10, false, false, .none⟩
def OBS_FRZ_CFG_ARM_SCOPE : Fld := ⟨0xa00400, 1, 0x0, 1, 0x0, 7, 1, .rw, 0, [], true, false, true, 10, false, false, .none⟩
/-- OBS_FRZ_CTRL: spec/17_observability_and_freeze.md. -/
def OBS_FRZ_CTRL_PARTIAL : Fld := ⟨0xa00404, 1, 0x0, 1, 0x0, 0, 1, .w1s, 0, [], false, false, false, 10, false, true, .none⟩
def OBS_FRZ_CTRL_FULL : Fld := ⟨0xa00404, 1, 0x0, 1, 0x0, 1, 1, .w1s, 0, [], false, false, false, 10, false, true, .none⟩
def OBS_FRZ_CTRL_THAW : Fld := ⟨0xa00404, 1, 0x0, 1, 0x0, 2, 1, .w1s, 0, [], false, false, false, 10, false, true, .none⟩
/-- OBS_FRZ_STATUS: spec/17_observability_and_freeze.md. -/
def OBS_FRZ_STATUS_STATE : Fld := ⟨0xa00408, 1, 0x0, 1, 0x0, 0, 3, .ro, 0, [], false, false, false, 10, false, false, .none⟩
def OBS_FRZ_STATUS_SOURCE : Fld := ⟨0xa00408, 1, 0x0, 1, 0x0, 3, 3, .ro, 0, [], false, false, false, 10, false, false, .none⟩
def OBS_FRZ_STATUS_MASTER : Fld := ⟨0xa00408, 1, 0x0, 1, 0x0, 8, 8, .ro, 0, [], false, false, false, 10, false, false, .none⟩
def OBS_FRZ_STATUS_COUNT : Fld := ⟨0xa00408, 1, 0x0, 1, 0x0, 16, 16, .ro, 0, [], true, false, true, 10, false, false, .none⟩
/-- OBS_CAP_SEL: spec/17_observability_and_freeze.md. -/
def OBS_CAP_SEL_KIND : Fld := ⟨0xa00480, 1, 0x0, 1, 0x0, 0, 4, .rw, 0, [], false, false, false, 10, false, false, .none⟩
def OBS_CAP_SEL_INDEX : Fld := ⟨0xa00480, 1, 0x0, 1, 0x0, 4, 12, .rw, 0, [], false, false, false, 10, false, false, .none⟩
def OBS_CAP_SEL_PAGE : Fld := ⟨0xa00480, 1, 0x0, 1, 0x0, 16, 4, .rw, 0, [], false, false, false, 10, false, false, .none⟩
/-- PWR_RST: spec/18_reset_power_clocks.md. -/
def PWR_RST_WARM : Fld := ⟨0x100000, 1, 0x0, 1, 0x0, 0, 1, .w1s, 0, [], false, false, false, 1, false, true, .none⟩
/-- PWR_RST_CAUSE: spec/18_reset_power_clocks.md. -/
def PWR_RST_CAUSE_CAUSE : Fld := ⟨0x100004, 1, 0x0, 1, 0x0, 0, 4, .ro, 0, [], false, false, false, 1, false, false, .none⟩
def PWR_RST_CAUSE_WARMS : Fld := ⟨0x100004, 1, 0x0, 1, 0x0, 8, 16, .ro, 0, [], true, false, false, 1, false, false, .none⟩
/-- PWR_CAP: spec/18_reset_power_clocks.md. -/
def PWR_CAP_LIMIT : Fld := ⟨0x100010, 1, 0x0, 1, 0x0, 0, 11, .rw, 1650, [], true, false, true, 1, false, false, .none⟩
def PWR_CAP_EN : Fld := ⟨0x100010, 1, 0x0, 1, 0x0, 11, 1, .rw, 1, [], true, false, true, 1, false, false, .none⟩
/-- PWR_CAP_STATUS: spec/18_reset_power_clocks.md. -/
def PWR_CAP_STATUS_POWER : Fld := ⟨0x100014, 1, 0x0, 1, 0x0, 0, 11, .ro, 0, [], false, false, false, 1, false, false, .none⟩
def PWR_CAP_STATUS_STRETCH : Fld := ⟨0x100014, 1, 0x0, 1, 0x0, 11, 7, .ro, 0, [], false, false, false, 1, false, false, .none⟩
def PWR_CAP_STATUS_UNMET : Fld := ⟨0x100014, 1, 0x0, 1, 0x0, 18, 1, .w1c, 0, [], false, false, false, 1, false, false, .none⟩
/-- PWR_SUPPLY: spec/18_reset_power_clocks.md. -/
def PWR_SUPPLY_CORE_WARN : Fld := ⟨0x100020, 1, 0x0, 1, 0x0, 0, 1, .ro, 0, [], false, false, false, 1, false, false, .none⟩
def PWR_SUPPLY_LIN_WARN : Fld := ⟨0x100020, 1, 0x0, 1, 0x0, 1, 1, .ro, 0, [], false, false, false, 1, false, false, .none⟩
def PWR_SUPPLY_FAB_WARN : Fld := ⟨0x100020, 1, 0x0, 1, 0x0, 2, 1, .ro, 0, [], false, false, false, 1, false, false, .none⟩
def PWR_SUPPLY_EPISODE : Fld := ⟨0x100020, 1, 0x0, 1, 0x0, 3, 1, .ro, 0, [], false, false, false, 1, false, false, .none⟩
def PWR_SUPPLY_EPISODES : Fld := ⟨0x100020, 1, 0x0, 1, 0x0, 16, 16, .rc, 0, [], false, false, true, 1, false, false, .none⟩
/-- PWR_CORE_EPISODE: spec/18_reset_power_clocks.md. -/
def PWR_CORE_EPISODE_MIN : Fld := ⟨0x100024, 1, 0x0, 1, 0x0, 0, 10, .ro, 0, [], true, false, true, 1, false, false, .none⟩
def PWR_CORE_EPISODE_DURATION : Fld := ⟨0x100024, 1, 0x0, 1, 0x0, 16, 16, .ro, 0, [], true, false, true, 1, false, false, .none⟩
/-- PWR_THERM: spec/18_reset_power_clocks.md. -/
def PWR_THERM_WARN : Fld := ⟨0x100030, 1, 0x0, 1, 0x0, 0, 7, .rw, 100, [], true, false, true, 1, false, false, .none⟩
/-- PWR_THERM_STATUS: spec/18_reset_power_clocks.md. -/
def PWR_THERM_STATUS_TMAX : Fld := ⟨0x100034, 1, 0x0, 1, 0x0, 0, 8, .ro, 0, [], false, false, false, 1, false, false, .none⟩
def PWR_THERM_STATUS_SENSOR : Fld := ⟨0x100034, 1, 0x0, 1, 0x0, 8, 6, .ro, 0, [], false, false, false, 1, false, false, .none⟩
def PWR_THERM_STATUS_WARN : Fld := ⟨0x100034, 1, 0x0, 1, 0x0, 14, 1, .ro, 0, [], false, false, false, 1, false, false, .none⟩
def PWR_THERM_STATUS_THROTTLE : Fld := ⟨0x100034, 1, 0x0, 1, 0x0, 15, 1, .ro, 0, [], false, false, false, 1, false, false, .none⟩
def PWR_THERM_STATUS_WARN_SEEN : Fld := ⟨0x100034, 1, 0x0, 1, 0x0, 16, 1, .w1c, 0, [], false, false, false, 1, false, false, .none⟩
/-- PWR_STBY: spec/18_reset_power_clocks.md. -/
def PWR_STBY_ENTER : Fld := ⟨0x100050, 1, 0x0, 1, 0x0, 0, 1, .w1s, 0, [], false, false, false, 1, false, true, .none⟩
def PWR_STBY_EXIT : Fld := ⟨0x100050, 1, 0x0, 1, 0x0, 1, 1, .w1s, 0, [], false, false, false, 1, false, true, .none⟩
def PWR_STBY_D3_AUTO : Fld := ⟨0x100050, 1, 0x0, 1, 0x0, 2, 1, .rw, 1, [], true, false, true, 1, false, false, .none⟩
def PWR_STBY_STATE : Fld := ⟨0x100050, 1, 0x0, 1, 0x0, 3, 2, .ro, 0, [], false, false, false, 1, false, false, .none⟩
def PWR_STBY_REFUSED : Fld := ⟨0x100050, 1, 0x0, 1, 0x0, 5, 1, .w1c, 0, [], false, false, false, 1, false, false, .none⟩
/-- PWR_PSLEEP: spec/18_reset_power_clocks.md. -/
def PWR_PSLEEP_SLEEP : Fld := ⟨0x100040, 1, 0x0, 1, 0x0, 0, 16, .w1s, 0, [], false, false, true, 1, false, true, .none⟩
def PWR_PSLEEP_REFUSED : Fld := ⟨0x100040, 1, 0x0, 1, 0x0, 16, 16, .w1c, 0, [], false, false, false, 1, false, false, .none⟩
/-- PWR_PWAKE: spec/18_reset_power_clocks.md. -/
def PWR_PWAKE_WAKE : Fld := ⟨0x100044, 1, 0x0, 1, 0x0, 0, 16, .w1s, 0, [], false, false, false, 1, false, true, .none⟩

end Reg

/-- Fields of the MGT_ block. -/
def fldsMGT0 : List Fld :=
  [Reg.MGT_PROFILE_PROFILE,
   Reg.MGT_PROFILE_SPARES_LEFT,
   Reg.MGT_BOOT_STATUS_STATE,
   Reg.MGT_BOOT_STATUS_SLOT,
   Reg.MGT_BOOT_STATUS_CODE,
   Reg.MGT_BOOT_STATUS_BOOTS,
   Reg.MGT_SERIAL_LO_VALUE,
   Reg.MGT_SERIAL_HI_VALUE,
   Reg.MGT_FAULT_LOST_VALUE,
   Reg.MGT_VIOL_CNT_VALUE,
   Reg.MGT_BB_SEQ_VALUE,
   Reg.MGT_ERRLOG_HEAD_VALUE,
   Reg.MGT_CTRL_MRESET,
   Reg.MGT_CTRL_RECOVER,
   Reg.MGT_SVC_CTRL_CODE,
   Reg.MGT_SVC_CTRL_GO,
   Reg.MGT_SVC_CTRL_RESULT,
   Reg.MGT_SVC_ARG_ARG,
   Reg.MGT_FROZEN_FROZEN,
   Reg.MGT_BB_HEAD_SLOT,
   Reg.MGT_BB_HEAD_PENDING,
   Reg.MGT_BB_HOST_DATA,
   Reg.MGT_CHN_MASTER_LO_RWIN,
   Reg.MGT_CHN_MASTER_LO_WWIN,
   Reg.MGT_CHN_MASTER_HI_RCLS_MGT,
   Reg.MGT_CHN_MASTER_HI_RCLS,
   Reg.MGT_CHN_MASTER_HI_FLAGS,
   Reg.MGT_CHN_HEM_MASK,
   Reg.MGT_CHN_PATCH_LO_MASK,
   Reg.MGT_CHN_PATCH_HI_MASK,
   Reg.MGT_CHN_WIN_BASE,
   Reg.MGT_CHN_WIN_LIMIT]

/-- Fields of the TIL_ block. -/
def fldsTIL0 : List Fld :=
  [Reg.TIL_MAT_STATUS_BUSY,
   Reg.TIL_MAT_STATUS_BANK,
   Reg.TIL_MAT_STATUS_STREAM_WAIT,
   Reg.TIL_MAT_STATUS_SWAP_ORDER,
   Reg.TIL_MAT_STATUS_PAR_ERR,
   Reg.TIL_MAT_STATUS_MODE_ERR,
   Reg.TIL_MAT_STATUS_NAN_OUT,
   Reg.TIL_MAT_STATUS_OVF_OUT,
   Reg.TIL_MAT_PARCNT_PAR_CNT,
   Reg.TIL_MAT_FORCE_ROW_OFF,
   Reg.TIL_MAT_FORCE_COL_OFF,
   Reg.TIL_NUM_CTRL_FALLBACK,
   Reg.TIL_NUM_CTRL_OVF_SAT,
   Reg.TIL_NUM_CTRL_PROMOTE_VANISH,
   Reg.TIL_NUM_CTRL_POCKET_GAP,
   Reg.TIL_QB_VANISH_COUNT,
   Reg.TIL_QB_CLIP_COUNT,
   Reg.TIL_QB_PROMOTE_COUNT,
   Reg.TIL_QB_POCKET_COUNT,
   Reg.TIL_CTRL_RESET,
   Reg.TIL_STATUS_STATE,
   Reg.TIL_STATUS_IE,
   Reg.TIL_STATUS_DEPTH,
   Reg.TIL_STATUS_PC,
   Reg.TIL_FAULT_CODE,
   Reg.TIL_FAULT_PC,
   Reg.TIL_IRQ_PEND,
   Reg.TIL_IRQ_IVEC,
   Reg.TIL_ERR_CNT_PMEM_CORR,
   Reg.TIL_ERR_CNT_OS_CORR,
   Reg.TIL_FLT_LIMIT_COUNT,
   Reg.TIL_FLT_LIMIT_WINDOW,
   Reg.TIL_FLOW_STATUS_CHAIN_WAIT,
   Reg.TIL_FLOW_STATUS_LIN_CORR,
   Reg.TIL_FLOW_STATUS_LIN_UNCORR,
   Reg.TIL_FLOW_STATUS_CHAIN_PAR,
   Reg.TIL_FLOW_STATUS_CHAIN_TORN,
   Reg.TIL_FLOW_STATUS_CHAIN_MISMATCH,
   Reg.TIL_FLOW_STATUS_BAR_PEND,
   Reg.TIL_LIN_CNT_CORR]

/-- Fields of the TIL_ block. -/
def fldsTIL1 : List Fld :=
  [Reg.TIL_LIN_CNT_UNCORR,
   Reg.TIL_LIN_CNT_CHAIN_PAR,
   Reg.TIL_LIN_SCRUB_EN,
   Reg.TIL_LIN_SCRUB_INTV,
   Reg.TIL_CHAIN_ROLE,
   Reg.TIL_CHAIN_IN,
   Reg.TIL_CHAIN_OUT,
   Reg.TIL_CHAIN_POS,
   Reg.TIL_CHAIN_LENM1,
   Reg.TIL_NET_STATUS_LOSS,
   Reg.TIL_NET_STATUS_TORN,
   Reg.TIL_NET_STATUS_BAD_ROUTE,
   Reg.TIL_NET_STATUS_BVOID,
   Reg.TIL_NET_STATUS_Q0,
   Reg.TIL_NET_STATUS_Q1,
   Reg.TIL_NET_STATUS_Q2,
   Reg.TIL_NET_STATUS_Q3,
   Reg.TIL_NET_CNT_LOSS,
   Reg.TIL_NET_CNT_TORN,
   Reg.TIL_NET_CNT_BAD_ROUTE]

/-- Fields of the CMD_ block. -/
def fldsCMD0 : List Fld :=
  [Reg.CMD_QLIMIT_LIMIT_M1,
   Reg.CMD_QLIMIT_OUT,
   Reg.CMD_QLIMIT_WAITING,
   Reg.CMD_PANEL_RECT_X0,
   Reg.CMD_PANEL_RECT_X1,
   Reg.CMD_PANEL_RECT_Y0,
   Reg.CMD_PANEL_RECT_Y1,
   Reg.CMD_PANEL_CTRL_DEFINE,
   Reg.CMD_PANEL_CTRL_UNDEFINE,
   Reg.CMD_PANEL_CTRL_RESET,
   Reg.CMD_PANEL_CTRL_THAW,
   Reg.CMD_PANEL_CTRL_RESUME,
   Reg.CMD_PANEL_CTRL_FAULT_ACT,
   Reg.CMD_PANEL_CTRL_HALT_ON_REFUSE,
   Reg.CMD_PANEL_STATUS_STATE,
   Reg.CMD_PANEL_STATUS_DEF_ERR,
   Reg.CMD_PANEL_STATUS_DEF_CAUSE,
   Reg.CMD_PANEL_STATUS_FAULT,
   Reg.CMD_PANEL_STATUS_HELD,
   Reg.CMD_PANEL_STATUS_SLEEP,
   Reg.CMD_GATE_N_LO_GATE,
   Reg.CMD_GATE_N_HI_GATE,
   Reg.CMD_GATE_S_LO_GATE,
   Reg.CMD_GATE_S_HI_GATE,
   Reg.CMD_GATE_W_GATE,
   Reg.CMD_GATE_E_GATE,
   Reg.CMD_INTAKE_PTR_NEXT,
   Reg.CMD_INTAKE_PTR_CONSUMED,
   Reg.CMD_INTAKE_SEQ_VALUE,
   Reg.CMD_INTAKE_REJ_SEQ_VALUE,
   Reg.CMD_ERR_SEQ_VALUE,
   Reg.CMD_SIGNAL_VAL_VALUE,
   Reg.CMD_SIGNAL_SEQ_VALUE,
   Reg.CMD_INTAKE_STATUS_CAUSE,
   Reg.CMD_INTAKE_STATUS_REJ,
   Reg.CMD_INTAKE_STATUS_STOPPED,
   Reg.CMD_INTAKE_STATUS_OVERWRITE,
   Reg.CMD_INTAKE_STATUS_BAD_WRITE,
   Reg.CMD_INTAKE_CTRL_RESYNC,
   Reg.CMD_ERR_CAUSE]

/-- Fields of the CMD_ block. -/
def fldsCMD1 : List Fld :=
  [Reg.CMD_ERR_QUEUE,
   Reg.CMD_ERR_DETAIL,
   Reg.CMD_TAGS_LAYER,
   Reg.CMD_TAGS_OPERATOR,
   Reg.CMD_BARRIER_COUNT,
   Reg.CMD_POST_TILE,
   Reg.CMD_POST_ALL,
   Reg.CMD_POST_KIND,
   Reg.CMD_POST_GO,
   Reg.CMD_POST_BUSY,
   Reg.CMD_POST_ACKS,
   Reg.CMD_QMARK_REACHED,
   Reg.CMD_QMARK_DEPTH]

/-- Fields of the NET_ block. -/
def fldsNET0 : List Fld :=
  [Reg.NET_DEV_DEV_ID,
   Reg.NET_MCAST_HOLD_HOLD,
   Reg.NET_LINK_LIMIT_COUNT,
   Reg.NET_LINK_LIMIT_WINDOW,
   Reg.NET_LINK_SEL_TILE,
   Reg.NET_LINK_SEL_PORT,
   Reg.NET_LINK_STATE_STATE,
   Reg.NET_LINK_STATE_RSV,
   Reg.NET_LINK_STATE_STITCH,
   Reg.NET_LINK_STATE_EVENTS,
   Reg.NET_FENCE_DROP_COUNT,
   Reg.NET_MCG_X0,
   Reg.NET_MCG_X1,
   Reg.NET_MCG_Y0,
   Reg.NET_MCG_Y1,
   Reg.NET_MCG_PANEL,
   Reg.NET_MCG_VALID,
   Reg.NET_ST_STATUS_STATE,
   Reg.NET_ST_STATUS_PANEL,
   Reg.NET_ST_STATUS_CREDIT,
   Reg.NET_ST_STATUS_LOSS,
   Reg.NET_LINK_FORCE_OFF]

/-- Fields of the MOV_ block. -/
def fldsMOV0 : List Fld :=
  [Reg.MOV_CL_STATUS_PORT_UP,
   Reg.MOV_CL_STATUS_BUF_FREE,
   Reg.MOV_CL_STATUS_BUF_CORR,
   Reg.MOV_HOST_CFG_PRI_EN,
   Reg.MOV_HOST_CFG_PRI_TMO,
   Reg.MOV_CH_CFG_PANEL,
   Reg.MOV_CH_CFG_BOUND,
   Reg.MOV_CH_CFG_DIRECT,
   Reg.MOV_CH_CFG_PRIO,
   Reg.MOV_CH_CFG_RSV,
   Reg.MOV_CH_CFG_HALT_ON_ERR,
   Reg.MOV_CH_CTRL_ABORT,
   Reg.MOV_CH_CTRL_RETRY,
   Reg.MOV_CH_CTRL_SKIP,
   Reg.MOV_CH_STATUS_STATE,
   Reg.MOV_CH_STATUS_LAST,
   Reg.MOV_CH_STATUS_DERR,
   Reg.MOV_CH_STATUS_ERR_SEEN,
   Reg.MOV_CH_STATUS_QDEPTH,
   Reg.MOV_CH_STATUS_BLOCKS,
   Reg.MOV_CH_RESID_LO_RESID,
   Reg.MOV_CH_RESID_HI_RESID,
   Reg.MOV_CH_CUR_B_B,
   Reg.MOV_CH_CUR_I12_I1,
   Reg.MOV_CH_CUR_I12_I2,
   Reg.MOV_CH_CUR_I34_I3,
   Reg.MOV_CH_CUR_I34_I4,
   Reg.MOV_CH_FAIL_LO_VALUE,
   Reg.MOV_CH_FAIL_HI_VALUE,
   Reg.MOV_CH_ERR_SEQ_VALUE,
   Reg.MOV_CH_ERR_TAGS_LAYER,
   Reg.MOV_CH_ERR_TAGS_OPERATOR,
   Reg.MOV_CH_POST_DESC]

/-- Fields of the HBM_ block. -/
def fldsHBM0 : List Fld :=
  [Reg.HBM_MAP_CTRL_EN,
   Reg.HBM_MAP_CTRL_BUSY,
   Reg.HBM_MAP_CTRL_RETIRED,
   Reg.HBM_CAP_ROWS,
   Reg.HBM_BGT_INTV,
   Reg.HBM_CH_LIMIT_COUNT,
   Reg.HBM_CH_LIMIT_WINDOW,
   Reg.HBM_HASH_SLOT_MASK,
   Reg.HBM_HASH_BANK_MASK,
   Reg.HBM_RETIRED_SECT,
   Reg.HBM_STK_STATUS_TRAINED,
   Reg.HBM_STK_STATUS_SREF,
   Reg.HBM_STK_STATUS_TEMP,
   Reg.HBM_STK_STATUS_RATE,
   Reg.HBM_CH_STATUS_STATE,
   Reg.HBM_CH_STATUS_OUT,
   Reg.HBM_CH_STATUS_SECT_RET,
   Reg.HBM_CH_ERR_CORR,
   Reg.HBM_CH_ERR_UNCORR,
   Reg.HBM_CH_ERR_LATE,
   Reg.HBM_TRN_CTRL_CH,
   Reg.HBM_TRN_CTRL_PC,
   Reg.HBM_TRN_CTRL_OWN,
   Reg.HBM_TRN_CTRL_OP,
   Reg.HBM_TRN_CTRL_GO,
   Reg.HBM_TRN_CTRL_RATE,
   Reg.HBM_TRN_PAT_KIND,
   Reg.HBM_TRN_PAT_LOG_LEN,
   Reg.HBM_TRN_PAT_USER,
   Reg.HBM_TRN_DLY_PIN,
   Reg.HBM_TRN_DLY_SIDE,
   Reg.HBM_TRN_DLY_DELAY,
   Reg.HBM_TRN_DLY_VREF,
   Reg.HBM_TRN_RESULT_ERRS,
   Reg.HBM_TRN_RESULT_DONE]

/-- Fields of the LAN_ block. -/
def fldsLAN0 : List Fld :=
  [Reg.LAN_SUIT_SX,
   Reg.LAN_SUIT_SY,
   Reg.LAN_SUIT_SYS_ID,
   Reg.LAN_LANE_LIMIT_COUNT,
   Reg.LAN_LANE_LIMIT_WINDOW,
   Reg.LAN_BITSLIP_LANE,
   Reg.LAN_BITSLIP_OP,
   Reg.LAN_BITSLIP_COUNT,
   Reg.LAN_BITSLIP_GO,
   Reg.LAN_BITSLIP_RESULT,
   Reg.LAN_LINK_CFG_PROTO,
   Reg.LAN_LINK_CFG_ETH_MODE,
   Reg.LAN_LINK_CFG_MIN_WIDTH,
   Reg.LAN_LINK_CFG_UP,
   Reg.LAN_LINK_CFG_DOWN,
   Reg.LAN_LINK_STATUS_STATE,
   Reg.LAN_LINK_STATUS_WIDTH,
   Reg.LAN_LINK_STATUS_REV,
   Reg.LAN_LINK_STATUS_CAUSE,
   Reg.LAN_LINK_STATUS_SLOW,
   Reg.LAN_LINK_STATUS_PARTNER,
   Reg.LAN_LINK_STATUS_SKEW,
   Reg.LAN_LINK_CNT_REPLAY,
   Reg.LAN_LINK_CNT_DROP,
   Reg.LAN_LINK_MASK_ACTIVE,
   Reg.LAN_LINK_MASK_RETIRED,
   Reg.LAN_LINK_MASK_SLIPPED,
   Reg.LAN_LANE_STATUS_STATE,
   Reg.LAN_LANE_STATUS_STEP,
   Reg.LAN_LANE_STATUS_INV,
   Reg.LAN_LANE_STATUS_FOUND,
   Reg.LAN_LANE_STATUS_SLIP_OFS,
   Reg.LAN_LANE_STATUS_LOGICAL,
   Reg.LAN_LANE_ERR_CORR,
   Reg.LAN_LANE_ERR_UNCORR,
   Reg.LAN_LANE_ERR_EVENTS,
   Reg.LAN_LOOP_MODE,
   Reg.LAN_LOOP_PAT,
   Reg.LAN_LOOP_GO,
   Reg.LAN_LOOP_RES_ERRS]

/-- Fields of the LAN_ block. -/
def fldsLAN1 : List Fld :=
  [Reg.LAN_LOOP_RES_DONE]

/-- Fields of the FAB_ block. -/
def fldsFAB0 : List Fld :=
  [Reg.FAB_RST_ASSERT,
   Reg.FAB_IO_STATUS_MISMATCH,
   Reg.FAB_IO_STATUS_VCCIO_OK,
   Reg.FAB_HEM_CFG_EN,
   Reg.FAB_HEM_CFG_CLKSEL,
   Reg.FAB_HEM_CFG_CAP,
   Reg.FAB_HEM_STATUS_STATE,
   Reg.FAB_HEM_STATUS_BAD_ROUTE,
   Reg.FAB_HEM_STATUS_PROTO,
   Reg.FAB_HEM_STATUS_LOSS,
   Reg.FAB_HEM_STATUS_TORN,
   Reg.FAB_HEM_CNT_DROP,
   Reg.FAB_HEM_CNT_BAD_ROUTE,
   Reg.FAB_MP_CFG_EN,
   Reg.FAB_MP_CFG_CLKSEL,
   Reg.FAB_MP_CFG_LIMIT_M1,
   Reg.FAB_MP_STATUS_STATE,
   Reg.FAB_MP_STATUS_OUT,
   Reg.FAB_MP_STATUS_PROTO,
   Reg.FAB_MP_STATUS_POISON,
   Reg.FAB_MP_STATUS_ADDR,
   Reg.FAB_MP_CNT_POISON,
   Reg.FAB_MP_CNT_ADDR,
   Reg.FAB_MAC_CNT_RX_DROP,
   Reg.FAB_MAC_CNT_ERR,
   Reg.FAB_PROBE_SEL,
   Reg.FAB_PROBE_PIN,
   Reg.FAB_PROBE_EN]

/-- Fields of the CFG_ block. -/
def fldsCFG0 : List Fld :=
  [Reg.CFG_STATUS_STATE,
   Reg.CFG_STATUS_SOURCE,
   Reg.CFG_STATUS_LAST_CODE,
   Reg.CFG_STATUS_BUSY,
   Reg.CFG_STATUS_STATIC_UNCORR,
   Reg.CFG_LOAD_CTRL_SRC,
   Reg.CFG_LOAD_CTRL_GO,
   Reg.CFG_LOAD_ADDR_LO_VALUE,
   Reg.CFG_LOAD_ADDR_HI_VALUE,
   Reg.CFG_LOAD_LEN_VALUE,
   Reg.CFG_STAGE_VALID,
   Reg.CFG_STAGE_PATCH,
   Reg.CFG_SCRUB_CFG_EN,
   Reg.CFG_SCRUB_CFG_CORRECT,
   Reg.CFG_SCRUB_STATUS_FRAME,
   Reg.CFG_SCRUB_STATUS_SET_ERR,
   Reg.CFG_SCRUB_STATUS_ROM_ERR,
   Reg.CFG_SCRUB_STATUS_RESTARTS,
   Reg.CFG_PATCH_STATUS_STATE,
   Reg.CFG_PATCH_STATUS_LAST_CODE,
   Reg.CFG_PATCH_CNT_CORR,
   Reg.CFG_PATCH_CNT_UNCORR,
   Reg.CFG_REPAIR_ADDR_LO_ADDR,
   Reg.CFG_REPAIR_ADDR_HI_ADDR]

/-- Fields of the PCI_ block. -/
def fldsPCI0 : List Fld :=
  [Reg.PCI_LINK_STATUS_SPEED,
   Reg.PCI_LINK_STATUS_WIDTH,
   Reg.PCI_LINK_STATUS_FLIT,
   Reg.PCI_LINK_STATUS_REV,
   Reg.PCI_BAR2_WIN_BASE,
   Reg.PCI_EVT_PEND_PEND,
   Reg.PCI_ERR_CNT_CORR,
   Reg.PCI_ERR_CNT_UNCORR,
   Reg.PCI_ERR_CNT_BAD_SIZE,
   Reg.PCI_MOV_DONE_CH,
   Reg.PCI_MOV_ERR_CH]

/-- Fields of the OBS_ block. -/
def fldsOBS0 : List Fld :=
  [Reg.OBS_CTR_CFG_PER_LAUNCH,
   Reg.OBS_CTR_CLR_ALL,
   Reg.OBS_BSNAP_GO,
   Reg.OBS_BSNAP_LATE,
   Reg.OBS_BSNAP_NUM_NUMBER,
   Reg.OBS_SNAP_DONE_SNAP,
   Reg.OBS_TRACE_CFG_KINDS,
   Reg.OBS_TRACE_CFG_STOP,
   Reg.OBS_TRACE_CTRL_FLUSH,
   Reg.OBS_TRACE_CTRL_OVF,
   Reg.OBS_TRACE_BASE_LO_VALUE,
   Reg.OBS_TRACE_BASE_HI_VALUE,
   Reg.OBS_TRACE_LEN_LEN,
   Reg.OBS_TRACE_LEN_EN,
   Reg.OBS_TRACE_WP_VALUE,
   Reg.OBS_TRACE_RP_VALUE,
   Reg.OBS_FRZ_CFG_PIN_EN,
   Reg.OBS_FRZ_CFG_PIN_SCOPE,
   Reg.OBS_FRZ_CFG_DRIVE,
   Reg.OBS_FRZ_CFG_ARM,
   Reg.OBS_FRZ_CFG_ARM_SCOPE,
   Reg.OBS_FRZ_CTRL_PARTIAL,
   Reg.OBS_FRZ_CTRL_FULL,
   Reg.OBS_FRZ_CTRL_THAW,
   Reg.OBS_FRZ_STATUS_STATE,
   Reg.OBS_FRZ_STATUS_SOURCE,
   Reg.OBS_FRZ_STATUS_MASTER,
   Reg.OBS_FRZ_STATUS_COUNT,
   Reg.OBS_CAP_SEL_KIND,
   Reg.OBS_CAP_SEL_INDEX,
   Reg.OBS_CAP_SEL_PAGE]

/-- Fields of the PWR_ block. -/
def fldsPWR0 : List Fld :=
  [Reg.PWR_RST_WARM,
   Reg.PWR_RST_CAUSE_CAUSE,
   Reg.PWR_RST_CAUSE_WARMS,
   Reg.PWR_CAP_LIMIT,
   Reg.PWR_CAP_EN,
   Reg.PWR_CAP_STATUS_POWER,
   Reg.PWR_CAP_STATUS_STRETCH,
   Reg.PWR_CAP_STATUS_UNMET,
   Reg.PWR_SUPPLY_CORE_WARN,
   Reg.PWR_SUPPLY_LIN_WARN,
   Reg.PWR_SUPPLY_FAB_WARN,
   Reg.PWR_SUPPLY_EPISODE,
   Reg.PWR_SUPPLY_EPISODES,
   Reg.PWR_CORE_EPISODE_MIN,
   Reg.PWR_CORE_EPISODE_DURATION,
   Reg.PWR_THERM_WARN,
   Reg.PWR_THERM_STATUS_TMAX,
   Reg.PWR_THERM_STATUS_SENSOR,
   Reg.PWR_THERM_STATUS_WARN,
   Reg.PWR_THERM_STATUS_THROTTLE,
   Reg.PWR_THERM_STATUS_WARN_SEEN,
   Reg.PWR_STBY_ENTER,
   Reg.PWR_STBY_EXIT,
   Reg.PWR_STBY_D3_AUTO,
   Reg.PWR_STBY_STATE,
   Reg.PWR_STBY_REFUSED,
   Reg.PWR_PSLEEP_SLEEP,
   Reg.PWR_PSLEEP_REFUSED,
   Reg.PWR_PWAKE_WAKE]

/-- Every named register field of the device. -/
def allFlds : List Fld :=
  fldsMGT0 ++ fldsTIL0 ++ fldsTIL1 ++ fldsCMD0 ++ fldsCMD1 ++ fldsNET0 ++ fldsMOV0 ++ fldsHBM0 ++ fldsLAN0 ++ fldsLAN1 ++ fldsFAB0 ++ fldsCFG0 ++ fldsPCI0 ++ fldsOBS0 ++ fldsPWR0

end Sys2Proof.Machine
end

