-- ==== Sys2Proof/Machine/Num.lean ====
section
/-! DEFINITION. Number formats and their exact arithmetic (spec/03_number_formats.md, R66 to R75): decoding of every format into an
exact value, one rounding into a binary format, conversions, and the vector unit's lane operations. -/

namespace Sys2Proof.Machine

/-- The exact value of a code: a NaN (signalling or not), an infinity, or (-1)^neg * m * 2^e. -/
inductive Val where
  | nan (signalling : Bool)
  | inf (neg : Bool)
  | fin (neg : Bool) (m : Nat) (e : Int)
  deriving DecidableEq, Repr

/-- The exceptions an operation raises; divide-by-zero never occurs (R102, R145). -/
structure Exc where
  nv : Bool := false
  ovf : Bool := false
  uf : Bool := false
  nx : Bool := false
  deriving DecidableEq, Repr

def Exc.none : Exc := {}
def Exc.invalid : Exc := { nv := true }
def Exc.or (a b : Exc) : Exc := { nv := a.nv || b.nv, ovf := a.ovf || b.ovf, uf := a.uf || b.uf, nx := a.nx || b.nx }

/-- The exceptions at their places in `flags` (R102): NV 8, OF 10, UF 11, NX 12. -/
def Exc.mask (x : Exc) : Word :=
  BitVec.ofNat 32 (bit x.nv * 256 + bit x.ovf * 1024 + bit x.uf * 2048 + bit x.nx * 4096)

/-- A binary format with subnormals: fraction width, exponent of the smallest normal, largest finite magnitude code,
and the codes of infinity and of the canonical NaN where the format has them. -/
structure BinFmt where
  frac : Nat
  emin : Int
  maxCode : Nat
  signBit : Nat
  infCode : Option Nat
  nanCode : Option Nat
  deriving DecidableEq, Repr

/-- R67. -/
def fmtF32 : BinFmt := ⟨23, -126, 0x7F7FFFFF, 31, some 0x7F800000, some 0x7FC00000⟩
def fmtF16 : BinFmt := ⟨10, -14, 0x7BFF, 15, some 0x7C00, some 0x7E00⟩
def fmtBF16 : BinFmt := ⟨7, -126, 0x7F7F, 15, some 0x7F80, some 0x7FC0⟩
/-- R68: no infinity; magnitude 0x7F is NaN. -/
def fmtK8a : BinFmt := ⟨3, -6, 0x7E, 7, none, some 0x7F⟩
/-- R69. -/
def fmtK8b : BinFmt := ⟨2, -14, 0x7B, 7, some 0x7C, some 0x7E⟩
/-- R70: neither infinity nor NaN. -/
def fmtK4 : BinFmt := ⟨1, 0, 7, 3, none, none⟩

/-- The number of bits of a magnitude; 0 has none. -/
def bitLen (m : Nat) : Nat := if m = 0 then 0 else Nat.log2 m + 1

/-- The value of a magnitude code and a sign in a format. -/
def BinFmt.decode (f : BinFmt) (code : Nat) : Val :=
  let neg := bitAt code f.signBit
  let mag := code % 2 ^ f.signBit
  let fracPart := mag % 2 ^ f.frac
  let ex := mag / 2 ^ f.frac
  if f.infCode = some mag then .inf neg
  else if f.maxCode < mag then .nan (match f.infCode with | some _ => decide (fracPart < 2 ^ (f.frac - 1)) | none => false)
  else if ex = 0 then .fin neg fracPart (f.emin - f.frac)
  else .fin neg (fracPart + 2 ^ f.frac) (f.emin - f.frac + (ex : Int) - 1)

/-- Rounding directions of flags.RD (R102); values 5 to 7 act as 0. -/
inductive Rnd where
  | even | zero | up | down | away
  deriving DecidableEq, Repr

def Rnd.ofRD (n : Nat) : Rnd :=
  if n = 1 then .zero else if n = 2 then .up else if n = 3 then .down else if n = 4 then .away else .even

/-- Whether a magnitude with quotient `q` (its low kept bit) and a remainder is rounded away from zero:
`twice` compares twice the remainder with the divisor, `inexact` says the remainder is not zero. -/
def Rnd.inc (r : Rnd) (neg : Bool) (q : Nat) (twice : Ordering) (inexact : Bool) : Bool :=
  inexact && (match r with
    | .even => twice == .gt || (twice == .eq && q % 2 == 1)
    | .away => twice != .lt
    | .zero => false
    | .up => !neg
    | .down => neg)

/-- m * 2^e (plus nonzero bits below, when `sticky`) as an integer multiple of 2^q, rounded; and whether it was inexact. -/
def roundAt (r : Rnd) (neg : Bool) (m : Nat) (e q : Int) (sticky : Bool) : Nat × Bool :=
  if q ≤ e then
    let v := m * 2 ^ (e - q).toNat
    if sticky then (if r.inc neg v .lt true then v + 1 else v, true) else (v, false)
  else
    let d := 2 ^ (q - e).toNat
    let quo := m / d
    let rem := m % d
    let inexact := decide (rem ≠ 0) || sticky
    let twice := if 2 * rem = d ∧ sticky = true then Ordering.gt else compare (2 * rem) d
    (if r.inc neg quo twice inexact then quo + 1 else quo, inexact)

/-- What a result too large for the format becomes (R75): saturated when `sat`, else as the rounding direction gives it. -/
def BinFmt.overflowCode (f : BinFmt) (r : Rnd) (sat neg : Bool) : Nat :=
  match f.infCode with
  | none => f.maxCode
  | some i =>
    if sat then f.maxCode
    else match r with
      | .even => i
      | .away => i
      | .zero => f.maxCode
      | .up => if neg then f.maxCode else i
      | .down => if neg then i else f.maxCode

def BinFmt.withSign (f : BinFmt) (neg : Bool) (mag : Nat) : Nat := mag + bit neg * 2 ^ f.signBit

/-- One rounding of (-1)^neg * m * 2^e into the format (R66, R74, R75): code and exceptions. Tininess is detected after rounding. -/
def BinFmt.round (f : BinFmt) (r : Rnd) (sat : Bool) (neg : Bool) (m : Nat) (e : Int) (sticky : Bool := false) : Nat × Exc :=
  if m = 0 then (f.withSign neg 0, { uf := sticky, nx := sticky })
  else
    let top : Int := e + (bitLen m : Int) - 1
    let qmin : Int := f.emin - f.frac
    let q : Int := max (top - f.frac) qmin
    let res := roundAt r neg m e q sticky
    let mag := res.1 + (q - qmin).toNat * 2 ^ f.frac
    let unb := roundAt r neg m e (top - f.frac) sticky
    let tiny := decide (top < f.emin) && !(decide (top = f.emin - 1) && decide (unb.1 = 2 ^ (f.frac + 1)))
    if f.maxCode < mag then (f.withSign neg (f.overflowCode r sat neg), { ovf := true, nx := true })
    else (f.withSign neg mag, { uf := tiny && res.2, nx := res.2 })

/-- The canonical NaN of a format that has one. -/
def BinFmt.nan (f : BinFmt) : Nat := f.nanCode.getD 0

/-- R71 and R72: the integer value of a b1, t2, i2, i4 or i8 code. -/
def intCode (w code : Nat) : Int := sgn w code

/-- Exact sum of two signed magnitudes m1 * 2^e1 and m2 * 2^e2, as a signed integer and an exponent. -/
def addExact (n1 : Bool) (m1 : Nat) (e1 : Int) (n2 : Bool) (m2 : Nat) (e2 : Int) : Int × Int :=
  let e := min e1 e2
  let a : Int := (m1 * 2 ^ (e1 - e).toNat : Nat)
  let b : Int := (m2 * 2 ^ (e2 - e).toNat : Nat)
  ((if n1 then -a else a) + (if n2 then -b else b), e)

/-- The sign of an exact zero sum of two values (IEEE 754-2019): kept when both agree, else negative only toward minus infinity. -/
def zeroSumSign (r : Rnd) (n1 n2 : Bool) : Bool := if n1 = n2 then n1 else r == .down

/-- The exact product of two values; an invalid product is a NaN with `true`. -/
def mulVal (a b : Val) : Val × Bool :=
  match a, b with
  | .nan s, .nan t => (.nan false, s || t)
  | .nan s, _ => (.nan false, s)
  | _, .nan t => (.nan false, t)
  | .inf s, .inf t => (.inf (s != t), false)
  | .inf s, .fin t m _ => if m = 0 then (.nan false, true) else (.inf (s != t), false)
  | .fin s m _, .inf t => if m = 0 then (.nan false, true) else (.inf (s != t), false)
  | .fin s m e, .fin t n f => (.fin (s != t) (m * n) (e + f), false)

/-- a + b rounded once into the format. -/
def BinFmt.addVal (f : BinFmt) (r : Rnd) (sat : Bool) (a b : Val) : Nat × Exc :=
  match a, b with
  | .nan s, .nan t => (f.nan, { nv := s || t })
  | .nan s, _ => (f.nan, { nv := s })
  | _, .nan t => (f.nan, { nv := t })
  | .inf s, .inf t => if s = t then (f.withSign s (f.infCode.getD 0), Exc.none) else (f.nan, Exc.invalid)
  | .inf s, _ => (f.withSign s (f.infCode.getD 0), Exc.none)
  | _, .inf t => (f.withSign t (f.infCode.getD 0), Exc.none)
  | .fin s m e, .fin t n g =>
    let x := addExact s m e t n g
    if x.1 = 0 then (f.withSign (zeroSumSign r s t) 0, Exc.none)
    else f.round r sat (decide (x.1 < 0)) x.1.natAbs x.2

/-- A value rounded into the format with a NaN made canonical (a product, a sum already exact). -/
def BinFmt.ofVal (f : BinFmt) (r : Rnd) (sat : Bool) (v : Val) : Nat × Exc :=
  match v with
  | .nan s => (f.nan, { nv := s })
  | .inf s => (f.withSign s (f.infCode.getD 0), Exc.none)
  | .fin s m e => f.round r sat s m e

def Val.negate : Val → Val
  | .nan s => .nan s
  | .inf s => .inf (!s)
  | .fin s m e => .fin (!s) m e

/-- TYPE of a format V word (R131): 0 binary32, 1 binary16, 2 bf16. -/
def vecFmt (ty : Nat) : BinFmt := if ty = 0 then fmtF32 else if ty = 1 then fmtF16 else fmtBF16

/-- The rounding direction of a vector type: bf16 always rounds to nearest, ties to even (R67). -/
def vecRnd (ty : Nat) (r : Rnd) : Rnd := if ty = 2 then .even else r

/-- The code bits a lane of TYPE holds (R144): 16-bit types use bits [15:0]. -/
def laneCode (ty : Nat) (x : Word) : Nat := if ty = 1 ∨ ty = 2 then x.toNat % 65536 else x.toNat

/-- `vadd` on one lane. -/
def laneAdd (ty : Nat) (r : Rnd) (a b : Word) : Word × Exc :=
  let f := vecFmt ty
  let x := f.addVal (vecRnd ty r) false (f.decode (laneCode ty a)) (f.decode (laneCode ty b))
  (BitVec.ofNat 32 x.1, x.2)

/-- `vsub` on one lane. -/
def laneSub (ty : Nat) (r : Rnd) (a b : Word) : Word × Exc :=
  let f := vecFmt ty
  let x := f.addVal (vecRnd ty r) false (f.decode (laneCode ty a)) (f.decode (laneCode ty b)).negate
  (BitVec.ofNat 32 x.1, x.2)

/-- `vmul` on one lane. -/
def laneMul (ty : Nat) (r : Rnd) (a b : Word) : Word × Exc :=
  let f := vecFmt ty
  let p := mulVal (f.decode (laneCode ty a)) (f.decode (laneCode ty b))
  match p.1 with
  | .nan _ => (BitVec.ofNat 32 f.nan, { nv := p.2 })
  | v => let x := f.ofVal (vecRnd ty r) false v
         (BitVec.ofNat 32 x.1, x.2)

def Val.isQuietNaN : Val → Bool
  | .nan s => !s
  | _ => false

def Val.isNaN : Val → Bool
  | .nan _ => true
  | _ => false

def Val.isSignalling : Val → Bool
  | .nan s => s
  | _ => false

/-- `vfma` on one lane: a * b + c with one rounding (R66, R67, R145). -/
def laneFma (ty : Nat) (r : Rnd) (a b c : Word) : Word × Exc :=
  let f := vecFmt ty
  let va := f.decode (laneCode ty a)
  let vb := f.decode (laneCode ty b)
  let vc := f.decode (laneCode ty c)
  let p := mulVal va vb
  match p.1 with
  | .nan _ =>
    -- zero times infinity beside a quiet NaN addend: invalid is the implementation's choice
    let zeroInf := p.2 && !va.isNaN && !vb.isNaN
    let nv := if zeroInf && vc.isQuietNaN then Config.fmaZeroInfQuietInvalid else p.2
    (BitVec.ofNat 32 f.nan, { nv := nv || vc.isSignalling })
  | v => let x := f.addVal (vecRnd ty r) false v vc
         (BitVec.ofNat 32 x.1, x.2)

/-- Order of two values that are no NaN, with -0 below +0 when `signedZero`. -/
def Val.lt (signedZero : Bool) : Val → Val → Bool
  | .inf s, .inf t => s && !t
  | .inf s, .fin _ _ _ => s
  | .fin _ _ _, .inf t => !t
  | .fin s m e, .fin t n f =>
    let x := addExact s m e (!t) n f
    decide (x.1 < 0) || (signedZero && decide (m = 0) && decide (n = 0) && s && !t)
  | _, _ => false

/-- Equality of two values that are no NaN; +0 equals -0. -/
def Val.eqv (a b : Val) : Bool := !a.isNaN && !b.isNaN && !(Val.lt false a b) && !(Val.lt false b a)

/-- `vmin` and `vmax` on one lane: minimumNumber and maximumNumber, signed for i32 (R145). -/
def laneMinMax (isMax : Bool) (ty : Nat) (a b : Word) : Word × Exc :=
  if ty = 3 then
    (if (isMax && BitVec.slt a b) || (!isMax && BitVec.slt b a) then b else a, Exc.none)
  else
    let f := vecFmt ty
    let va := f.decode (laneCode ty a)
    let vb := f.decode (laneCode ty b)
    let nv : Exc := { nv := va.isSignalling || vb.isSignalling }
    if va.isNaN && vb.isNaN then (BitVec.ofNat 32 f.nan, nv)
    else if va.isNaN then (BitVec.ofNat 32 (laneCode ty b), nv)
    else if vb.isNaN then (BitVec.ofNat 32 (laneCode ty a), nv)
    else
      let takeB := if isMax then Val.lt true va vb else Val.lt true vb va
      (BitVec.ofNat 32 (laneCode ty (if takeB then b else a)), nv)

/-- The comparison SUB of `vcmp` (R146): 0 eq, 1 ne, 2 lt, 3 le, 4 gt, 5 ge. -/
def relHolds (rel : Nat) (lt eq : Bool) : Bool :=
  if rel = 0 then eq else if rel = 1 then !eq else if rel = 2 then lt
  else if rel = 3 then lt || eq else if rel = 4 then !(lt || eq) else !lt

/-- `vcmp` on one lane (R145, R146). -/
def laneCmp (rel ty : Nat) (a b : Word) : Word × Exc :=
  if ty = 3 then (if relHolds rel (BitVec.slt a b) (a == b) then BitVec.allOnes 32 else 0, Exc.none)
  else
    let f := vecFmt ty
    let va := f.decode (laneCode ty a)
    let vb := f.decode (laneCode ty b)
    let holds := if va.isNaN || vb.isNaN then decide (rel = 1) else relHolds rel (Val.lt false va vb) (Val.eqv va vb)
    (if holds then BitVec.allOnes 32 else 0, { nv := va.isSignalling || vb.isSignalling })

/-! ### `vcvt` (R74, R75, R147) -/

/-- The width of an integer short format by its R147 code: 7 i8, 8 i4, 9 i2, 10 t2. -/
def intWidth (fmt : Nat) : Nat := if fmt = 7 then 8 else if fmt = 8 then 4 else 2

/-- The value of a lane read in a source format of R147. -/
def cvtSource (fmt : Nat) (x : Word) : Val :=
  let ofInt (i : Int) : Val := .fin (decide (i < 0)) i.natAbs 0
  if fmt = 0 then fmtF32.decode x.toNat
  else if fmt = 1 then fmtF16.decode (x.toNat % 65536)
  else if fmt = 2 then fmtBF16.decode (x.toNat % 65536)
  else if fmt = 3 then ofInt x.toInt
  else if fmt = 4 then fmtK8a.decode (x.toNat % 256)
  else if fmt = 5 then fmtK8b.decode (x.toNat % 256)
  else if fmt = 6 then fmtK4.decode (x.toNat % 16)
  else if fmt = 11 then .fin (decide (x.toNat % 2 = 1)) 1 0
  else ofInt (sgn (intWidth fmt) x.toNat)

/-- Whether a NaN read in this source format is one whose signalling form raises invalid (R74). -/
def cvtSignals (fmt : Nat) : Bool := decide (fmt = 0 ∨ fmt = 1)

/-- Conversion to an integer range, rounded by `r`: out of range gives the nearer end and invalid (R75). -/
def toIntRange (r : Rnd) (lo hi : Int) (v : Val) : Int × Exc :=
  match v with
  | .nan _ => (0, Exc.invalid)
  | .inf s => (if s then lo else hi, Exc.invalid)
  | .fin s m e =>
    let x := roundAt r s m e 0 false
    let i : Int := if s then -(x.1 : Int) else x.1
    if i < lo then (lo, Exc.invalid) else if hi < i then (hi, Exc.invalid) else (i, { nx := x.2 })

/-- The binary format a destination code of R147 names. -/
def cvtFmt (fmt : Nat) : BinFmt :=
  if fmt = 0 then fmtF32 else if fmt = 1 then fmtF16 else if fmt = 2 then fmtBF16
  else if fmt = 4 then fmtK8a else if fmt = 5 then fmtK8b else fmtK4

/-- `vcvt` on one lane: the exact source times 2^scl, rounded once. -/
def laneCvt (src dst : Nat) (scl : Int) (r : Rnd) (sat : Bool) (x : Word) : Word × Exc :=
  let v := match cvtSource src x with
    | .fin s m e => Val.fin s m (e + scl)
    | w => w
  if dst = 3 then
    let i := toIntRange r (-(2 ^ 31)) (2 ^ 31 - 1) v
    (BitVec.ofInt 32 i.1, i.2)
  else if dst = 11 then
    match v with
    | .nan _ => (0, Exc.invalid)
    | .inf s => (BitVec.ofNat 32 (bit s), { nx := true })
    | .fin s m e =>
      let one := addExact false m e true 1 0
      (BitVec.ofNat 32 (bit s), { nx := decide (one.1 ≠ 0) })
  else if dst = 7 ∨ dst = 8 ∨ dst = 9 then
    let w := intWidth dst
    let i := toIntRange .even (-(2 ^ (w - 1))) (2 ^ (w - 1) - 1) v
    (BitVec.ofNat 32 ((BitVec.ofInt w i.1).toNat), i.2)
  else if dst = 10 then
    let i := toIntRange .even (-1) 1 v
    (BitVec.ofNat 32 ((BitVec.ofInt 2 i.1).toNat), i.2)
  else
    let f := cvtFmt dst
    let rr := if dst = 0 ∨ dst = 1 then r else .even
    match v with
    | .nan s =>
      match f.nanCode with
      | some c => (BitVec.ofNat 32 c, { nv := s && cvtSignals src })
      | none => (0, Exc.invalid)
    | .inf s =>
      match f.infCode with
      | some c => (BitVec.ofNat 32 (f.withSign s c), Exc.none)
      | none => (BitVec.ofNat 32 (f.withSign s f.maxCode), { ovf := true, nx := true })
    | .fin s m e =>
      let y := f.round rr sat s m e
      (BitVec.ofNat 32 y.1, y.2)

end Sys2Proof.Machine
end

