-- ==== Sys2Proof/Machine/Dot.lean ====
section
/-! DEFINITION. The matrix unit's arithmetic: short-format codes in integer form (R72), bit-planes (R86), the main path (R87 to R92),
fold reduction (R94), the fallback (R97) and bank loads (R50, R90). -/

namespace Sys2Proof.Machine

/-- One accumulator record (R45) with the failed mark of R64. -/
structure AccRec where
  win : BitVec 96
  anchor : BitVec 16
  sticky : Bool
  nan : Bool
  inf : Bool
  infNeg : Bool
  empty : Bool
  parFail : Bool
  deriving DecidableEq, Repr

/-- The cleared record: EMPTY = 1 and all other fields 0 (R50, R52). -/
def emptyRec : AccRec := ⟨0, 0, false, false, false, false, true, false⟩

/-- The 128 bits of a record (R45); the failed mark is no part of them. -/
def AccRec.toBits (r : AccRec) : BitVec 128 :=
  BitVec.ofNat 128 (r.win.toNat + r.anchor.toNat * 2 ^ 96 + bit r.sticky * 2 ^ 112 + bit r.nan * 2 ^ 113
    + bit r.inf * 2 ^ 114 + bit r.infNeg * 2 ^ 115 + bit r.empty * 2 ^ 116)

/-- The record that 128 bits spell; reserved bits are ignored (R50). -/
def AccRec.ofBits (b : Nat) : AccRec :=
  ⟨BitVec.ofNat 96 b, BitVec.ofNat 16 (b / 2 ^ 96), bitAt b 112, bitAt b 113, bitAt b 114, bitAt b 115, bitAt b 116, false⟩

/-- A NaN term added to a record (R91). -/
def AccRec.setNaN (r : AccRec) : AccRec := { r with nan := true, empty := false }

/-- floor(s * 2^d). -/
def floorShift (s d : Int) : Int := if 0 ≤ d then s * 2 ^ d.toNat else s / 2 ^ (-d).toNat

/-- The "otherwise" case of R88: add s * 2^e to a record that is not EMPTY. -/
def AccRec.addAligned (r : AccRec) (s e : Int) : AccRec :=
  let a := r.anchor.toInt
  let n := r.win.toInt + floorShift s (e - a)
  let lost := decide (e < a) && decide (s % 2 ^ (a - e).toNat ≠ 0)
  if -(2 ^ 95) ≤ n ∧ n < 2 ^ 95 then { r with win := BitVec.ofInt 96 n, sticky := r.sticky || lost }
  else
    let d : Int := (bitLen n.natAbs : Int) - 88
    { r with
      win := BitVec.ofInt 96 (floorShift n (-d))
      anchor := BitVec.ofInt 16 (a + d)
      sticky := r.sticky || lost || decide (n % 2 ^ d.toNat ≠ 0) }

/-- R88 and R91: add the term s * 2^e, s nonzero, to a record. -/
def AccRec.addTerm (r : AccRec) (s e : Int) : AccRec :=
  if r.nan || r.inf || s == 0 then r
  else if r.empty then
    let l : Int := bitLen s.natAbs
    { r with win := BitVec.ofInt 96 (floorShift s (88 - l)), anchor := BitVec.ofInt 16 (e + l - 88), empty := false }
  else r.addAligned s e

/-! ### Short-format codes -/

/-- A decoded short code (R72): its integer q, its sign for a zero product (R97), and whether it is NaN or infinite. -/
structure QCode where
  q : Int
  neg : Bool
  special : Bool
  deriving DecidableEq, Repr

/-- Code widths by FORMAT (R42, R77): 0 b1, 1 t2, 2 i2, 3 i4, 4 k4, 5 i8, 6 k8a, 7 k8b. -/
def fmtWidth (f : Nat) : Nat := if f = 0 then 1 else if f ≤ 2 then 2 else if f ≤ 4 then 4 else 8

/-- B planes by FORMAT (R42). -/
def fmtPlanes (f : Nat) : Nat := if f = 0 then 1 else if f ≤ 2 then 2 else if f ≤ 4 then 4 else if f = 5 then 8 else 16

/-- Unit exponents by FORMAT (R72). -/
def fmtUnit (f : Nat) : Int := if f = 4 then -1 else if f = 6 then -9 else if f = 7 then -16 else 0

/-- ±M * 2^(E - 1) (R72). -/
def signedQ (neg : Bool) (m e : Nat) : Int := (if neg then -1 else 1) * ((m * 2 ^ (e - 1) : Nat) : Int)

/-- A floating short code with `fw` fraction bits and `ew` exponent bits: M and E of R72. -/
def floatQ (ew fw c : Nat) (special : Bool) : QCode :=
  let neg := bitAt c (ew + fw)
  let e := c / 2 ^ fw % 2 ^ ew
  let f := c % 2 ^ fw
  ⟨signedQ neg (if e = 0 then f else 2 ^ fw + f) (max e 1), neg, special⟩

/-- R68 to R72: the integer form of a code. -/
def qDecode (f c : Nat) : QCode :=
  if f = 0 then ⟨if c % 2 = 0 then 1 else -1, decide (c % 2 = 1), false⟩
  else if f = 4 then floatQ 2 1 (c % 16) false
  else if f = 6 then floatQ 4 3 (c % 256) (decide (c % 128 = 0x7F))
  else if f = 7 then floatQ 5 2 (c % 256) (decide (0x7C ≤ c % 128))
  else let v := sgn (fmtWidth f) c
       ⟨v, decide (v < 0), false⟩

/-- R86: the integer form of a B element from its planes, given as a number with plane p at bit p. -/
def qPlanes (f planes : Nat) : QCode :=
  if f = 6 ∨ f = 7 then
    if bitAt planes 10 then ⟨0, false, true⟩
    else ⟨signedQ (bitAt planes 9) (planes % 16) (bits planes 8 4), bitAt planes 9, false⟩
  else qDecode f planes

/-- One product of a block: both codes and the pleats of their elements. -/
structure Prod where
  a : QCode
  pa : Nat
  b : QCode
  pb : Nat
  deriving DecidableEq, Repr

/-- What one cell takes of one block: the two S8 codes, the unit exponents, whether the block is poisoned,
whether A's FORMAT is reserved, and its products in ascending K. -/
structure CellBlock where
  cA : Nat
  cB : Nat
  uA : Int
  uB : Int
  poisoned : Bool
  badFmt : Bool
  prods : List Prod
  deriving DecidableEq, Repr

/-- R87 step 2. -/
def blockSum (ps : List Prod) : Int := (ps.map (fun p => p.a.q * p.b.q * 2 ^ (6 - p.pa - p.pb))).sum

/-- R87 step 4, cases 1 to 3: 0 neither, 1 NaN, 2 zero. -/
def CellBlock.kind (c : CellBlock) : Nat :=
  if c.poisoned || c.cA == 255 || c.cB == 255 then 1
  else if c.cA == 0 || c.cB == 0 then 2
  else if c.badFmt || c.prods.any (fun p => p.a.special || p.b.special) then 1
  else 0

/-- R87: the main path adds one block to the front record. -/
def CellBlock.addMain (c : CellBlock) (r : AccRec) : AccRec :=
  if c.kind = 1 then r.setNaN
  else if c.kind = 2 then r
  else r.addTerm (blockSum c.prods) ((c.cA : Int) - 127 + ((c.cB : Int) - 127) + c.uA + c.uB - 6)

/-! ### The fallback (R97) -/

/-- The binary32 code that a record holds in the fallback; none while EMPTY. -/
def AccRec.code32 (r : AccRec) : Option Nat :=
  if r.nan then some fmtF32.nan
  else if r.inf then some (fmtF32.withSign r.infNeg 0x7F800000)
  else if r.empty then none
  else some (r.win.toNat % 2 ^ 32)

/-- The record that holds a binary32 code in the fallback; the failed mark of `r` stays. -/
def AccRec.ofCode32 (r : AccRec) (c : Nat) : AccRec :=
  let v := fmtF32.decode c
  ⟨BitVec.ofNat 96 c, 0, false, v.isNaN, decide (v = .inf true ∨ v = .inf false), decide (v = .inf true), false, r.parFail⟩

/-- One product of the fallback, rounded to binary32: code and overflow. -/
def CellBlock.prod32 (c : CellBlock) (sat : Bool) (p : Prod) : Nat × Bool :=
  if c.kind = 1 then (fmtF32.nan, false)
  else if c.kind = 2 then (0, false)
  else
    let q := p.a.q * p.b.q
    let neg := p.a.neg != p.b.neg
    let e : Int := c.uA + c.uB + ((c.cA : Int) - 127 - p.pa) + ((c.cB : Int) - 127 - p.pb)
    let x := fmtF32.round .even sat neg q.natAbs e
    (x.1, x.2.ovf)

/-- acc = RNE32(acc + product); an EMPTY bank takes the product. -/
def AccRec.add32 (r : AccRec) (sat : Bool) (code : Nat) : AccRec × Bool :=
  match r.code32 with
  | none => (r.ofCode32 code, false)
  | some a =>
    let x := fmtF32.addVal .even sat (fmtF32.decode a) (fmtF32.decode code)
    (r.ofCode32 x.1, x.2.ovf)

/-- The fallback adds one block, product by product. -/
def CellBlock.addFallback (c : CellBlock) (sat : Bool) (r : AccRec) : AccRec × Bool :=
  c.prods.foldl (fun acc p =>
    let x := c.prod32 sat p
    let y := acc.1.add32 sat x.1
    (y.1, acc.2 || x.2 || y.2)) (r, false)

/-- One block added to a record under TIL_NUM_CTRL: the record and whether OVF_OUT sets. -/
def CellBlock.add (c : CellBlock) (fallback sat : Bool) (r : AccRec) : AccRec × Bool :=
  if fallback then c.addFallback sat r else (c.addMain r, false)

/-! ### Output, fold trees and bank loads -/

/-- OFMT (R155, R156): 0 binary32, 1 binary16, 2 bf16. -/
def outFmt (o : Nat) : BinFmt := vecFmt o

/-- R92 (main path) and R97 (fallback): a record converted to an output format: code, NaN, overflow. -/
def AccRec.convert (fallback sat : Bool) (f : BinFmt) (r : AccRec) : Nat × Bool × Bool :=
  if r.nan then (f.nan, true, false)
  else if r.inf then (f.withSign r.infNeg (f.infCode.getD 0), false, false)
  else if r.empty then (0, false, false)
  else if fallback then
    let x := f.ofVal .even sat (fmtF32.decode (r.win.toNat % 2 ^ 32))
    (x.1, false, x.2.ovf)
  else
    let w := r.win.toInt
    let m : Nat := if 0 ≤ w then w.toNat else if r.sticky then (-w - 1).toNat else (-w).toNat
    let x := f.round .even sat (decide (w < 0)) m r.anchor.toInt r.sticky
    (x.1, false, x.2.ovf)

/-- The step of R94; NAN = 1 overrides EMPTY (R91). -/
def foldMain (x y : AccRec) : AccRec :=
  if x.nan || y.nan then x.setNaN
  else if x.empty then y
  else if y.empty then x
  else if x.inf && y.inf then (if x.infNeg == y.infNeg then x else x.setNaN)
  else if x.inf then x
  else if y.inf then y
  else
    let r := if y.win = 0 then x else x.addAligned y.win.toInt y.anchor.toInt
    { r with sticky := r.sticky || x.sticky || y.sticky }

/-- The tree step of the fallback (R97); the flag reports overflow. -/
def foldFallback (sat : Bool) (x y : AccRec) : AccRec × Bool :=
  if x.nan || y.nan then (x.setNaN, false)
  else if x.empty then (y, false)
  else match y.code32 with
    | none => (x, false)
    | some c => x.add32 sat c

/-- The tree over the records of one column, rows in ascending order: a failing record counts as NaN (R64). -/
def foldTree (fallback sat : Bool) (rows : List AccRec) : AccRec × Bool :=
  rows.foldl (fun acc r =>
    let x := if r.parFail then r.setNaN else r
    if fallback then let y := foldFallback sat acc.1 x
                     (y.1, acc.2 || y.2)
    else (foldMain acc.1 x, acc.2)) (emptyRec, false)

/-- R50, R90, R97: the record that `mload` makes of a binary32 lane; in the fallback WINDOW holds it, a NaN as the canonical one (DEDUCED, log
entry 79). -/
def loadRec (fallback : Bool) (x : Word) : AccRec :=
  match fmtF32.decode x.toNat with
  | .nan _ => if fallback then emptyRec.ofCode32 fmtF32.nan else { emptyRec with nan := true, empty := false }
  | .inf s => if fallback then emptyRec.ofCode32 x.toNat else { emptyRec with inf := true, infNeg := s, empty := false }
  | .fin s m e =>
    if fallback then emptyRec.ofCode32 x.toNat
    else emptyRec.addTerm (if s then -(m : Int) else m) e

/-! ### A records and B lines -/

/-- Data read for a stream, with a mark for each uncorrectable 64-bit word (R153, R166). -/
structure PLine where
  data : Line
  bad : BitVec 16
  deriving DecidableEq, Repr

/-- A line whose every word is poisoned (R176). -/
def PLine.torn : PLine := ⟨0, BitVec.allOnes 16⟩

def PLine.bits (l : PLine) (hi lo : Nat) : Nat := Sys2Proof.Machine.bits l.data.toNat hi lo

/-- One block record of A (R148): 64 bytes and the marks of its eight words. -/
structure ARec where
  data : BitVec 512
  bad : BitVec 8
  deriving DecidableEq, Repr

/-- The lower or upper record of a 128-byte line. -/
def PLine.half (l : PLine) (upper : Bool) : ARec :=
  if upper then ⟨l.data.extractLsb' 512 512, l.bad.extractLsb' 8 8⟩ else ⟨l.data.extractLsb' 0 512, l.bad.extractLsb' 0 8⟩

def ARec.s8 (r : ARec) : Nat := bits r.data.toNat 7 0
def ARec.pleat (r : ARec) (k : Nat) : Nat := bits r.data.toNat (9 + 2 * (k / 8)) (8 + 2 * (k / 8))
def ARec.fmt (r : ARec) : Nat := bits r.data.toNat 19 16
def ARec.aform (r : ARec) : Bool := bitAt r.data.toNat 21

/-- Element k's code, packed or A-form (R73, R148). -/
def ARec.code (r : ARec) (k : Nat) : Nat :=
  let w := fmtWidth r.fmt
  let at' := 128 + (if r.aform then 8 * k else w * k)
  bits r.data.toNat (at' + w - 1) at'

/-- Bytes of element codes a block of `len` elements uses. -/
def ARec.used (r : ARec) (len : Nat) : Nat := if r.aform then len else (len * fmtWidth r.fmt + 7) / 8

/-- Whether an uncorrectable word covers the header or a code that the block uses. -/
def ARec.poisoned (r : ARec) (len : Nat) : Bool :=
  r.bad.getLsbD 0 || (List.range 8).any (fun w => decide (2 ≤ w) && decide (8 * w < 16 + r.used len) && r.bad.getLsbD w)

/-- The products of one block from an A record and the planes and pleats of B: `planes k` spells B's element k. -/
def mkProds (a : ARec) (bf len : Nat) (planes pleat : Nat → Nat) : List Prod :=
  (List.range len).map (fun k => ⟨qDecode a.fmt (a.code k), a.pleat k, qPlanes bf (planes k), pleat k⟩)

end Sys2Proof.Machine
end

