-- ==== Sys2Proof/Machine/Rs.lean ====
section
/-! DEFINITION. The line code of a stitch link (R303): RS(544,514) over 10-bit symbols, the scrambler, and the codeword. The spec names the code
and leaves its field, its roots and the order of its symbols to IEEE 802.3; PRESUMED, log entry 82: GF(2^10) by x^10 + x^3 + 1, roots α^0 to α^29,
and the first bit on the line is the least significant bit of the first symbol, the highest coefficient. -/

namespace Sys2Proof.Machine

/-! ### GF(2^10) -/

/-- Multiplication by α. -/
def gfStep (a : Nat) : Nat := if a < 512 then 2 * a else (2 * a) ^^^ 0x409

def gfMulN : Nat → Nat → Nat → Nat
  | 0, _, _ => 0
  | n + 1, a, b => (if b % 2 = 1 then a else 0) ^^^ gfMulN n (gfStep a) (b / 2)

/-- The product of two field elements. -/
def gfMul (a b : Nat) : Nat := gfMulN 10 a b

def gfPowN : Nat → Nat → Nat → Nat
  | 0, _, _ => 1
  | n + 1, a, e => if e % 2 = 1 then gfMul a (gfPowN n (gfMul a a) (e / 2)) else gfPowN n (gfMul a a) (e / 2)

/-- a to the power e, for e below 1,024. -/
def gfPow (a e : Nat) : Nat := gfPowN 10 a e

/-- The inverse of a nonzero element. -/
def gfInv (a : Nat) : Nat := gfPow a 1022

/-- The value at x of a polynomial given by its coefficients, highest first. -/
def gfEval (l : List Nat) (x : Nat) : Nat := l.foldl (fun v c => gfMul v x ^^^ c) 0

/-! ### RS(544,514) -/

/-- The generator polynomial without its leading 1, highest coefficient first. -/
def rsGen : List Nat :=
  ((List.range 30).foldl (fun g j =>
    let r := gfPow 2 j
    List.zipWith (· ^^^ ·) (g ++ [0]) (0 :: g.map (gfMul r))) [1]).drop 1

/-- The 30 parity symbols of a message of 514 symbols. -/
def rsParity (msg : List Nat) : List Nat :=
  let g := rsGen
  msg.foldl (fun r m =>
    let q := r.headD 0 ^^^ m
    List.zipWith (fun a b => a ^^^ gfMul q b) (r.drop 1 ++ [0]) g) (List.replicate 30 0)

/-- The syndromes of a received word. -/
def rsSyndromes (w : List Nat) : List Nat := (List.range 30).map (fun j => gfEval w (gfPow 2 j))

/-- One step of the search for the error locator: locator, the one before the last change, its discrepancy, errors so far, steps since. -/
def rsStep (syn : List Nat) (q : List Nat × List Nat × Nat × Nat × Nat) (n : Nat) : List Nat × List Nat × Nat × Nat × Nat :=
  let (c, b, db, l, m) := q
  let d := (List.range (l + 1)).foldl (fun v i => v ^^^ gfMul (c.getD i 0) (syn.getD (n - i) 0)) 0
  if d = 0 then (c, b, db, l, m + 1)
  else
    let k := gfMul d (gfInv db)
    let sub := List.replicate m 0 ++ b.map (gfMul k)
    let c' := (List.range (max c.length sub.length)).map (fun i => c.getD i 0 ^^^ sub.getD i 0)
    if 2 * l ≤ n then (c', c, d, n + 1 - l, 1) else (c', b, db, l, m + 1)

/-- The error locator, lowest coefficient first, and the number of errors it stands for. -/
def rsLocator (syn : List Nat) : List Nat × Nat :=
  let q := (List.range 30).foldl (rsStep syn) ([1], [1], 1, 0, 1)
  (q.1, q.2.2.2.1)

/-- The word corrected where at most 15 symbols are wrong (outcome 0 clean, 1 corrected); none where it is uncorrectable. -/
def rsDecode (w : List Nat) : Option (Nat × List Nat) :=
  let syn := rsSyndromes w
  if syn.all (· = 0) then some (0, w)
  else
    let (loc, l) := rsLocator syn
    let omega := (List.range l).map (fun i => (List.range (i + 1)).foldl (fun v j => v ^^^ gfMul (loc.getD j 0) (syn.getD (i - j) 0)) 0)
    let deriv := (List.range l).map (fun i => if i % 2 = 0 then loc.getD (i + 1) 0 else 0)
    let w' := (List.range 544).map (fun p =>
      let xi := gfInv (gfPow 2 (543 - p))
      if gfEval loc.reverse xi = 0 then
        w.getD p 0 ^^^ gfMul (gfMul (gfPow 2 (543 - p)) (gfEval omega.reverse xi)) (gfInv (gfEval deriv.reverse xi))
      else w.getD p 0)
    if l ≤ 15 ∧ (rsSyndromes w').all (· = 0) then some (1, w') else none

/-! ### Blocks and codewords -/

/-- A block of the link's stream: control or data, its payload, and whether it belongs to class 0. -/
structure Block where
  ctl : Bool
  val : Nat
  c0 : Bool
  deriving DecidableEq, Repr

/-- An IDLE control block. -/
def Block.idle : Block := ⟨true, 0, false⟩

/-- The self-synchronising scrambler 1 + x^39 + x^58: payload bits through a register of the last 58 bits sent, newest in bit 0. -/
def scramble : Nat → Nat → Nat → Nat × Nat
  | 0, reg, _ => (reg, 0)
  | n + 1, reg, v =>
    let b := (v + reg / 2 ^ 38 + reg / 2 ^ 57) % 2
    let r := scramble n ((2 * reg + b) % 2 ^ 58) (v / 2)
    (r.1, b + 2 * r.2)

/-- The 77 blocks of a codeword as they go on the line, first bit lowest: two header bits and the scrambled payload each. -/
def lineBlocks : List Block → Nat → Nat × Nat
  | [], reg => (reg, 0)
  | b :: r, reg =>
    let p := scramble 64 reg b.val
    let q := lineBlocks r p.1
    (q.1, (if b.ctl then 2 else 1) + p.2 * 4 + q.2 * 2 ^ 66)

/-- The codeword trailer. -/
def cwTrailer (lane cwseq c0map : Nat) : Nat := 0x6A3C + lane % 8 * 2 ^ 16 + cwseq % 65536 * 2 ^ 19 + c0map % 256 * 2 ^ 35

/-- `n` symbols of 10 bits, first one lowest. -/
def symbols (n v : Nat) : List Nat := (List.range n).map (fun i => v / 2 ^ (10 * i) % 1024)

def unsymbols (l : List Nat) : Nat := l.foldr (fun s v => s + 1024 * v) 0

/-- The codeword of 77 blocks, with the scrambler's register after it. -/
def buildCodeword (blocks : List Block) (reg lane cwseq c0map : Nat) : Nat × Nat :=
  let b := lineBlocks blocks reg
  let m := symbols 514 (b.2 + cwTrailer lane cwseq c0map * 2 ^ 5082)
  (b.1, unsymbols (m ++ rsParity m))

/-- The bits of a codeword in the order of R303: blocks, ALIGN, the rest of the trailer, parity. -/
def codewordBits (blocks : BitVec 5082) (align : Half) (trailer : BitVec 42) (parity : BitVec 300) : Nat :=
  blocks.toNat + 2 ^ 5082 * align.toNat + 2 ^ 5098 * trailer.toNat + 2 ^ 5140 * parity.toNat

/-- What a received codeword decodes to: the outcome (0 clean, 1 corrected) and the trailer. -/
def decodeCodeword (w : Nat) : Option (Nat × Nat) :=
  (rsDecode (symbols 544 w)).map (fun r => (r.1, unsymbols (r.2.take 514) / 2 ^ 5082 % 2 ^ 58))

/-- Fields of a trailer. -/
def trailerAlign (t : Nat) : Bool := decide (t % 65536 = 0x6A3C)
def trailerSeq (t : Nat) : Nat := t / 2 ^ 19 % 65536
def trailerC0 (t a : Nat) : Bool := decide (t / 2 ^ (35 + a) % 2 = 1)

end Sys2Proof.Machine
end

