-- ==== Sys2Proof/Machine/State.lean ====
section
/-! DEFINITION. The state of the device as plain data. Registers of the BAR0 tables stand in one store (`regs`), keyed by address and
low bit of the field (Machine/Regs.lean); everything else the spec gives the machine has a field of its own. -/

namespace Sys2Proof.Machine

/-! ### Tiles (R40 to R65, R101 to R127, R162 to R185) -/

/-- What an instruction writes when its latency has passed (R108). -/
inductive PWrite where
  /-- a general scalar, pointer or modifier register (R129 code) -/
  | gen (code : Nat) (v : Word)
  /-- the same with the Z and N flags (`mul`) -/
  | genZN (code : Nat) (v : Word)
  /-- the flags of a mask, set to the bits of a value -/
  | flags (mask v : Word)
  /-- a special register (R130 code) -/
  | spr (code : Nat) (v : Word)
  /-- a vector register -/
  | vec (n : Nat) (v : Line)
  /-- the lower or upper half of a vector register (`vqb`) -/
  | half (n : Nat) (upper : Bool) (v : BitVec 512)
  /-- a 4-byte store by read-modify-write -/
  | word (addr : Nat) (v : Word)
  /-- a 128-byte store -/
  | line (addr : Nat) (v : Line)
  /-- a filter tap: accumulate x * h onto a vector register as it then stands -/
  | tap (n ty : Nat) (rnd : Nat) (x h : Line)
  /-- a lining line -/
  | lining (addr : Nat) (v : Line)
  /-- a message at the injection port: class, route word, data -/
  | inject (cls : Nat) (route : Word) (v : Line)
  /-- a barrier arrival at the control port (R181) -/
  | arrive
  deriving DecidableEq, Repr

/-- An instruction in flight: slot ends left before its write, whether the write uses Z, the write, the sticky bits it raises, and the
instruction's word. -/
structure PEntry where
  left : Nat
  z : Bool
  write : PWrite
  sticky : Word
  word : DWord
  deriving DecidableEq, Repr

/-- A matrix stream (R44, R53, R56): its word, source addresses, issue ic, the ic of its first plane once it has started,
the forced-off rows and columns it runs with, and the A records and B lines read so far. -/
structure StreamSt where
  fold : Bool
  ops : StreamOps
  aAddr : Nat
  bAddr : Nat
  issued : Nat
  first : Option Nat
  offRow : Word
  offCol : Word
  aRecs : List ARec
  bLines : SMap (Option PLine)
  /-- a chain stream: the line time (ic before its plane ic 0, counted from 0) from which a reset upstream member poisons its lines, and the
  lines whose parity fails on the member's IN link (R176) -/
  tornFrom : Option Nat
  linkErr : List Nat
  /-- held bank swaps that were issued before it and have not taken place (R47, R55) -/
  swaps : Nat
  deriving DecidableEq, Repr

/-- Back-bank operations (R49, R50, R156, R157) with their resolved register number or operand-store address; a drain holds the bias line that
it read as it issued (R132). -/
inductive BBOp where
  | drain (rows ofmt : Nat) (toStore : Bool) (dst : Nat) (bias : Option Line)
  | drainRaw (rows : Nat) (toStore : Bool) (dst : Nat)
  | loadRow (row reg : Nat)
  | loadAll (rows reg : Nat)
  | loadRaw (row rows : Nat) (fromStore : Bool) (src : Nat)
  | clear
  /-- an `mswap` held behind earlier operations (R47); with RED = 1 the format and destination of the tree result -/
  | swap (red : Option (Nat × Bool × Nat))
  deriving DecidableEq, Repr

/-- A fold-tree result on its way (R58): ic since its swap, rows, rows forced off (R65), output format, destination, and the 32 column records once captured. -/
structure TreeSt where
  age : Nat
  rows : Nat
  off : Word
  ofmt : Nat
  toStore : Bool
  dst : Nat
  cols : List AccRec
  ovf : Bool
  parFail : List Bool
  deriving DecidableEq, Repr

/-- A message (R190): header, 128 data bytes, trailer. -/
structure Msg where
  hdr : DWord
  data : Line
  trl : DWord
  deriving DecidableEq, Repr

/-- A class 0 line in the landing stage (R202): its operand-store line, its data and the ic of its delivery. -/
structure Landed where
  line : Nat
  data : Line
  at_ : Nat
  deriving DecidableEq, Repr

/-- What a tile does: idle, running a program, halted with work to drain (R119), stopped by a fault (R120). -/
inductive Run where
  | idle | running | halted | faulted
  deriving DecidableEq, Repr

/-- One logical tile. -/
structure Tile where
  /-- s0-s15, p0-p7, m0-m7 by R129 code -/
  gpr : SMap Word
  vreg : SMap Line
  /-- special registers by R130 code -/
  spr : SMap Word
  pc : BitVec 12
  run : Run
  /-- launched, and no instruction of the program has issued yet (R180) -/
  launching : Bool
  /-- in an interrupt handler (TIL_STATUS.STATE 2) -/
  inHandler : Bool
  /-- retired logical tile (R121), and retired together with its router (R214) -/
  retired : Bool
  routerRetired : Bool
  /-- branch delay slots left and the target of the branch, none where it is not taken -/
  delay : Option (Nat × Option (BitVec 12))
  /-- fetch stalls still to pay for a back edge (R115); ic before the next instruction may issue after an interrupt entry or an `rti`,
  and whether that `rti` has still to restore the flags (R123, R124); the cause of an entry whose earlier instructions still complete -/
  fetchWait : Nat
  gap : Nat
  rtiPend : Bool
  entering : Option Nat
  /-- the X operand of the instruction at issue has been read and its Y operand is held by it (R105) -/
  yHeld : Bool
  /-- instructions in flight, oldest first -/
  pipe : List PEntry
  /-- the ic in which the external access that waits was first turned away (R105, R164), and the port that one took in the ic to come:
  a bank of the operand store, or none for the lining's data port -/
  extSince : Option Nat
  extTook : List (Nat × Option Nat)
  /-- address of the `halt` and whether it acknowledged a preempt (R125) -/
  haltPc : BitVec 12
  haltAck : Bool
  /-- loop cache: tag (ls, le) and whether the body is complete (R115) -/
  lcTag : Option (Nat × Nat)
  lcDone : Bool
  /-- this island's cycles since reset: the model's own local time -/
  ic : Nat
  /-- physical bank that is front, and both banks: record 32 i + j -/
  front : Bool
  bank0 : SMap AccRec
  bank1 : SMap AccRec
  streams : List StreamSt
  /-- issued streams that have not started, in issue order: at most two, and one while a stream executes (R55, R152) -/
  waiting : List StreamSt
  /-- completion ic of the last issued stream, none while it has not started; R158 -/
  lastDone : Option Nat
  /-- m, and rows forced off in fold mode, of the last stream that has begun (R58, R65); m of the last issued stream (R157) -/
  lastRun : Option (Nat × Word)
  lastIssued : Option Nat
  bbRun : Option (BBOp × Nat)
  bbWait : List BBOp
  /-- the instruction words of the running operation and of those that wait (R440) -/
  bbWords : List DWord
  tree : List TreeSt
  /-- memories and the error marks of their 64-bit words: 1 single-bit, 2 uncorrectable, 3 three or more bits -/
  pmem : SMap DWord
  pmemErr : SMap Nat
  os : Mem
  osErr : SMap Nat
  lining : Mem
  liningErr : SMap Nat
  /-- corrected lining words waiting for write-back with the ic of the read that found each (R163), and the next line of the patrol scrub (R167) -/
  wrBack : List (Nat × Nat)
  scrubPos : Nat
  /-- ejection queues of classes 0 to 3 (R192) and the landing stage (R202) -/
  q0 : List Msg
  q1 : List Msg
  q2 : List Msg
  q3 : List Msg
  landing : List Landed
  /-- barrier arrivals pending (R182) -/
  barPend : Nat
  /-- layer and operator tags in force (R240) -/
  layer : Nat
  operator : Nat
  /-- trace buffer, oldest first, and records dropped since the last KIND 0x08 record (R433) -/
  trace : List (BitVec 128)
  traceLost : Nat
  /-- number of the last snapshot marker copied (R161) -/
  snapNum : Word
  /-- live counters of the program that a launch has just ended, until the next ic (R425) -/
  restart : Option (List Nat)
  /-- transient events in the window in force, its first ic, and the limit latched for it (R121) -/
  fltCount : Nat
  fltStart : Nat
  fltLimit : Nat
  fltWindow : Nat
  /-- uncorrectable words awaiting their replay: memory (2 program memory, 3 operand store, 4 lining) and word address (R121) -/
  replay : List (Nat × Nat)
  deriving DecidableEq, Repr

/-- A tile right after reset with its memories cleared (R127, R168). -/
def Tile.init : Tile :=
  { gpr := [], vreg := [], spr := [], pc := 0, run := .idle, launching := false, inHandler := false, retired := false, routerRetired := false,
    delay := none, fetchWait := 0, gap := 0, rtiPend := false, entering := none, yHeld := false, pipe := [], extSince := none, extTook := [], haltPc := 0, haltAck := false, lcTag := none, lcDone := false, ic := 0, front := false,
    bank0 := [], bank1 := [], streams := [], waiting := [], lastDone := some 0, lastRun := none,
    lastIssued := none, bbRun := none, bbWait := [], bbWords := [], tree := [], pmem := [], pmemErr := [], os := [],
    osErr := [], lining := [], liningErr := [], wrBack := [], scrubPos := 0, q0 := [], q1 := [], q2 := [], q3 := [],
    landing := [], barPend := 0, layer := 0, operator := 0, trace := [], traceLost := 0, snapNum := 0,
    restart := none, fltCount := 0, fltStart := 0, fltLimit := 16, fltWindow := 1024, replay := [] }

/-! ### Reports -/

/-- A record on the fault collection network (R25): black-box type (0: a report that writes no record), unit (R412), payload. -/
structure FaultRec where
  typ : Nat
  unit : Nat
  payload : List Byte
  deriving DecidableEq, Repr

/-- One error-log entry (R421). -/
structure ErrEntry where
  num : Nat
  kind : Nat
  master : Nat
  addr : Nat
  value : Nat
  deriving DecidableEq, Repr

/-- What leaves the device towards the outside. -/
inductive OutKind where
  | completion | hostWrite | hostRead | msix | pageRequest | invalidateDone | doe | laneBlock | laneFlit | codeword | laneCredit | ethFrame
  | hemBeat | mpResponse | bridge | pin | testData
  deriving DecidableEq, Repr

structure Out where
  kind : OutKind
  args : List Nat
  bytes : List Byte
  deriving DecidableEq, Repr

/-! ### The tile network (R186 to R217) -/

/-- Where a message entered the network: the router, and what sent it. -/
inductive Origin where
  | tile (t : Nat)
  | hem (h : Nat)
  | mover (cluster chan : Nat)
  /-- the acknowledgement of a mover message, by the identity of that message (R264) -/
  | ack (cluster chan id : Nat)
  | load (panel : Nat)
  | trace (t : Nat)
  | bridge
  | lane (d : Nat)
  deriving DecidableEq, Repr

/-- A message of classes 1 to 3 on its way, or one branch of a multicast message: identity shared by the branches, origin, entry router,
message, the tiles that it has still to reach, the router where it waits and the input that holds it there (0 to 7 a link's input buffer, 8 the
injection or a port, 9 the router's own torn marker), and the ordinary hops that it still owes for an express link out of service. -/
structure Flight where
  id : Nat
  origin : Origin
  entry : Nat
  msg : Msg
  dsts : List Nat
  pos : Nat
  via : Nat
  owed : Nat
  deriving DecidableEq, Repr

/-- A class 0 message on its stitch: its number on the stitch, the points it has not reached, and the first hop count at which it is
missing once it is lost (hop h loses it for the points from h + 1 on; 0: it was lost before it entered). -/
structure CMsg where
  idx : Nat
  msg : Msg
  points : List Nat
  lostAt : Option Nat
  deriving DecidableEq, Repr

/-- A reserved stitch (R197 to R205). Its state, owner, credit and losses stand in NET_ST_STATUS. -/
structure Stitch where
  dlv : Nat
  credits : Nat
  srcKind : Nat
  src : Nat
  dstKind : Nat
  dst : Nat
  rbase : Nat
  rlen : Nat
  /-- the routers along the path, source first, with the port each hop leaves by -/
  hops : List (Nat × Nat)
  /-- hop counts at which the message is delivered: drop points, then the destination -/
  points : List Nat
  sent : Nat
  /-- the source tile's ic of the last admission, for the rate limit of a lane port (R308) -/
  lastAdmit : Option Nat
  flight : List CMsg
  /-- credits on their way back (R200), and a release accepted (R204) -/
  returning : Nat
  releasing : Bool
  deriving DecidableEq, Repr

/-- One direction of a tile link (R211 to R213). -/
structure LinkSt where
  retired : Bool
  forced : Bool
  /-- released from a forcing, but not yet for the next stitch reservation (R217) -/
  lateRsv : Bool
  rsv : Option Nat
  /-- events since the last read, events in the window in force and its first ic, failed replays of the flit at the head -/
  events : Nat
  inWindow : Nat
  winStart : Nat
  fails : Nat
  /-- messages in the retry buffer, to be resent in order (R211) -/
  retry : List Nat
  /-- turns that classes 1 and 3 have lost in a row at this output, and the input granted last in each class (R193) -/
  lost1 : Nat
  lost3 : Nat
  lastIn : SMap Nat
  deriving DecidableEq, Repr

def LinkSt.init : LinkSt := ⟨false, false, false, none, 0, 0, 0, 0, [], 0, 0, []⟩

/-- The lost-message count of one detached multicast output (R208), with the delivery and class of the group's messages. -/
structure Torn where
  router : Nat
  port : Nat
  group : Nat
  count : Nat
  last : Flight
  beyond : List Nat
  deriving DecidableEq, Repr

/-! ### Panels (R218 to R250) -/

/-- A command in its queue (R231): code, sequence number, body, the tags in force at its commit position, its commit order,
and how far it has come. -/
structure QCmd where
  op : Nat
  seq : Nat
  body : List Byte
  layer : Nat
  oper : Nat
  ord : Nat
  issued : Bool
  /-- a `move` handed to its channel -/
  sent : Bool
  deriving DecidableEq, Repr

/-- A committed packet that is not yet consumed: offset, length, queue, command. -/
structure Packet where
  off : Nat
  len : Nat
  queue : Nat
  cmd : QCmd
  deriving DecidableEq, Repr

/-- A snapshot marker on its way (R239, R426): number, tags, commit order, queues that it has not passed (0, and 1 for the mover queues
together), tiles and channels that have not copied. -/
structure SnapSt where
  num : Nat
  layer : Nat
  oper : Nat
  ord : Nat
  queues : List Nat
  tiles : List Nat
  chans : List (Nat × Nat)
  deriving DecidableEq, Repr

/-- A packet whose commit word has been written (R228): offset, length, and the window's bytes as they stood at its commit; none while the
commit itself waits. -/
structure Undecided where
  off : Nat
  len : Nat
  bytes : Option (List Byte)
  deriving DecidableEq, Repr

/-- One panel: its command processor and its intake window. -/
structure Panel where
  /-- the 16,384 words of the window -/
  words : SMap Word
  /-- where the next packet to commit begins, and whether its header word has been written there -/
  fill : Nat
  hdrHeld : Bool
  /-- committed packets awaiting their decision (R228) -/
  undecided : List Undecided
  packets : List Packet
  queues : SMap (List QCmd)
  /-- queues stopped after a refusal (R233), and all of them by FAULT_ACT 1 (R245) -/
  held : SMap Bool
  stopped : Bool
  /-- commit order of the next packet, and the tags in force there -/
  ord : Nat
  layer : Nat
  oper : Nat
  /-- marks committed in each queue (R236) -/
  marks : SMap Nat
  snaps : List SnapSt
  /-- a definition or a reset in progress; the definition goes once the reset ends (R222) -/
  defining : Bool
  undefining : Bool
  /-- FAULT_ACT to be taken at the wake (R249), a wake to be taken at the thaw -/
  faultAtWake : Bool
  wakeAtThaw : Bool
  /-- refused `patch` or engine request in progress: the queue-0 head waits for the engine (R242) -/
  engineWait : Bool
  /-- draws taken when the panel froze: it tells one freeze from another -/
  stamp : Nat
  deriving DecidableEq, Repr

def Panel.init : Panel :=
  { words := [], fill := 0, hdrHeld := false, undecided := [], packets := [], queues := [], held := [], stopped := false, ord := 0,
    layer := 0, oper := 0, marks := [], snaps := [], defining := false, undefining := false, faultAtWake := false,
    wakeAtThaw := false, engineWait := false, stamp := 0 }

/-! ### HBM (R275 to R295) -/

/-- A tracker entry (R277): its request as accepted; `sect` is its section, `data` what a read returns; whether it has been counted as LATE (R283),
and whether its command failed twice (R288). -/
structure Trk where
  master : Nat
  write : Bool
  addr : Nat
  sect : Nat
  data : List Byte
  late : Bool
  bad : Bool
  deriving DecidableEq, Repr

/-- The HBM stacks and their controllers. -/
structure HbmSt where
  /-- bytes by place (section, row, offset); an unlisted byte has never been written since its contents were last lost -/
  mem : SMap (Option Byte)
  /-- how often contents have been lost: a lost byte reads as a new free value -/
  epoch : Nat
  /-- tracker entries of controller 32 * stack + channel, oldest first -/
  trk : SMap (List Trk)
  /-- transient data events by section, and command/address parity events by controller, since the last retirement (R289) -/
  events : SMap Nat
  parity : SMap Nat
  /-- error marks of 64-bit words, by place / 8: 1 a single-bit error, 2 an uncorrectable one whose replay is clean, 3 three or more bits, 4 an
  uncorrectable one that recurs (R287, R288, R476); command/address parity errors that the next command of a controller meets in a row (R288) -/
  err : SMap Nat
  caErr : SMap Nat
  /-- reads that wait at a controller and have been counted as LATE: master, address (R283) -/
  late : List (Nat × Nat)
  /-- sections whose retirement waits, and those of the rebuild in progress (R290) -/
  due : List Nat
  retiring : List Nat
  /-- more than 512 sections would be retired (R292) -/
  outOfService : Bool
  /-- channels whose training has failed (R285), and the next channel to retrain in the background (R286) -/
  untrained : List Nat
  nextRetrain : Nat
  /-- the channel in a retraining step, and whether service 0x03 awaits it (R286) -/
  retraining : Option (Nat × Bool)
  /-- delay and reference by pin setting of R295, and the rate in force at each stack -/
  pins : SMap (Nat × Nat)
  rate : SMap Nat
  /-- trainings of each channel so far: a setting that training has made reads as a free value -/
  trained : SMap Nat
  /-- rows replaced by soft repair: section, row (R395) -/
  repaired : List (Nat × Nat)
  deriving DecidableEq, Repr

def HbmSt.init : HbmSt :=
  { mem := [], epoch := 0, trk := [], events := [], parity := [], err := [], caErr := [], late := [], due := [], retiring := [], outOfService := false, untrained := [],
    nextRetrain := 0, retraining := none, pins := [], rate := [], trained := [], repaired := [] }

/-! ### Movers (R251 to R274) -/

/-- The place of a `move` in its panel: panel, queue, commit order (R236). -/
structure MoveRef where
  panel : Nat
  queue : Nat
  ord : Nat
  deriving DecidableEq, Repr

/-- A descriptor in a channel (R257) with the tags of its `move`; a directly posted one has no `move` (R274). -/
structure Desc where
  bytes : List Byte
  seq : Nat
  layer : Nat
  oper : Nat
  move : Option MoveRef
  deriving DecidableEq, Repr

/-- A snapshot marker behind the descriptors of a channel (R426). -/
structure ChanMark where
  panel : Nat
  /-- commit order of its `snap` -/
  ord : Nat
  num : Nat
  layer : Nat
  oper : Nat
  ahead : Nat
  deriving DecidableEq, Repr

/-- What one read burst of a channel has brought into the cluster's buffer (R251, R253): source address, bytes asked for, the bytes that have come,
the requests that it sent to another device, and the error marks of the buffer's 64-bit words (1 single-bit, 2 double-bit, 3 three or more bits). -/
structure Burst where
  addr : Nat
  len : Nat
  raw : List Byte
  asked : List Nat
  marks : SMap Nat
  deriving DecidableEq, Repr

/-- One mover channel. Its state, status and cursor stand in its registers. -/
structure Chan where
  waiting : List Desc
  cur : Option Desc
  /-- announced bytes of the current descriptor, bytes of its walk asked for by the read engine, and bytes written out -/
  done : Nat
  rd : Nat
  wr : Nat
  /-- buffered bursts in walk order, and the bytes of the first one that are written already -/
  buf : List Burst
  used : Nat
  /-- messages of the block whose acknowledgement has not come back, and whether it reaches other devices (R264) -/
  acks : List Nat
  far : Bool
  /-- the status and the address with which the descriptor stops once its bursts in flight are complete (R267, R270) -/
  stop : Option (Nat × Nat)
  /-- status with which a held descriptor ends (R269), and the address that failed -/
  held : Nat
  /-- a page response that came while the panel was frozen (R273) -/
  response : Option Nat
  /-- frozen by the charter (R261) -/
  charter : Bool
  /-- an error was met before the abort (R273) -/
  errSeen : Bool
  /-- the address whose page request is outstanding (R270) -/
  failAt : Nat
  marks : List ChanMark
  /-- the 16 words of MOV_CH_POST (R274) -/
  post : SMap Nat
  deriving DecidableEq, Repr

def Chan.init : Chan :=
  { waiting := [], cur := none, done := 0, rd := 0, wr := 0, buf := [], used := 0, acks := [], far := false, stop := none, held := 0,
    response := none, charter := false, errSeen := false, failAt := 0, marks := [], post := [] }

/-- The walk stands at the first unannounced byte again, and nothing is buffered (R267, R268). -/
def Chan.rewind (c : Chan) : Chan :=
  { c with rd := c.done, wr := c.done, buf := [], used := 0, acks := [], far := false, stop := none }

/-! ### Lanes (R296 to R320) -/

/-- A message on a link: class, virtual channel, port, message, and the mover channel it comes from. -/
structure LMsg where
  cls : Nat
  vc : Nat
  port : Nat
  msg : Msg
  mover : Option (Nat × Nat)
  deriving DecidableEq, Repr

/-- A flit of classes 1 to 3 in a retry buffer (R306). -/
structure LFlit where
  seq : Nat
  tail : Bool
  of : LMsg
  deriving DecidableEq, Repr

/-- One link: what the registers do not show. -/
structure LaneLink where
  /-- messages waiting to be sent, oldest first -/
  queue : List LMsg
  retry : List LFlit
  nextSeq : Nat
  /-- credits of classes 1 to 3 -/
  credit : SMap Nat
  /-- FROM of the last REPLAY received and how often it came in a row -/
  lastFrom : Nat
  replays : Nat
  /-- next SEQ expected; a REPLAY has been sent and the flit has not come; the lanes that lost blocks since, and those whose losses that
  REPLAY makes good (R306, R316) -/
  expect : Nat
  waitReplay : Bool
  lostLanes : List Nat
  replayLanes : List Nat
  /-- head flits whose tails have not come, by class; whole messages received and not yet passed on -/
  heads : SMap (Option (Nat × Nat × DWord × BitVec 512))
  arrived : List LMsg
  /-- something to acknowledge: flits since the last ACK, and credits to return by class -/
  ackDue : Bool
  freed : SMap Nat
  /-- a class 0 head has been lost and its tail may still come; class 0 messages received that wait at their port, each with its port and whether
  it is lost (R307, R308, R318); class 0 messages that wait for a frozen partner, with their ports -/
  lost0 : Bool
  in0 : List (Nat × Msg × Bool)
  out0 : List (Nat × Msg)
  /-- blocks not yet dealt to codewords, and the CWSEQ of the next codewords sent (R303, R304) -/
  tx : List Block
  txSeq : Nat
  /-- the codewords of the last rounds: logical lane, CWSEQ, and the trailer of one that decodes; the CWSEQ whose class 0 loss is counted (R307) -/
  cws : List (Nat × Nat × Option Nat)
  cwLost : Option Nat
  /-- CWSEQ of the last codeword received, and the lane set that a LANE block has announced with its AT -/
  cwseq : Nat
  nextMask : Option (Nat × Nat)
  /-- parameter exchange (R311): words of the round so far, the round before, identical rounds in a row -/
  words : List Nat
  round : List Nat
  rounds : Nat
  /-- LOCKED has been received, and the SWITCH countdown has been sent (R310) -/
  partnerLocked : Bool
  switched : Bool
  deriving DecidableEq, Repr

def LaneLink.init : LaneLink :=
  { queue := [], retry := [], nextSeq := 0, credit := [], lastFrom := 0, replays := 0, expect := 0, waitReplay := false, lostLanes := [], replayLanes := [],
    heads := [], arrived := [], ackDue := false, freed := [], lost0 := false, in0 := [], out0 := [], tx := [], txSeq := 0,
    cws := [], cwLost := none, cwseq := 0, nextMask := none, words := [], round := [],
    rounds := 0, partnerLocked := false, switched := false }

/-- One lane: LANE of the TRAIN blocks and how many agree in a row (R310), its events (R316), the register of its transmit scrambler, the CWSEQ of
its last codeword (R303), the bits by which it has slipped, where the search found them (R312, R313), and whether a test loop took it out (R320). -/
structure LaneSt where
  read : Nat
  agree : Nat
  events : Nat
  scr : Nat
  rxSeq : Nat
  ofs : Option Nat
  looped : Bool
  deriving DecidableEq, Repr

def LaneSt.init : LaneSt := ⟨0, 0, 0, 0, 65535, some 0, false⟩

/-! ### Ports of the logic fabric (R331 to R345) -/

/-- A head beat that a hem port holds until its tail comes (R333); `good` is what the checks at acceptance found, `paid` that no credit of its
stitch is still owed. -/
structure HemHead where
  cls : Nat
  route : Nat
  tags : Nat
  data : BitVec 512
  good : Bool
  paid : Bool
  deriving DecidableEq, Repr

/-- One hem port: the held head, whole messages that wait for a thaw or a credit, each with whether it is owed no credit, the receive queues, and
the turns that classes 1 and 3 have lost. -/
structure Hem where
  head : Option HemHead
  tx : List (Bool × Msg)
  rx0 : List Msg
  rx1 : List Msg
  rx2 : List Msg
  rx3 : List Msg
  lost1 : Nat
  lost3 : Nat
  deriving DecidableEq, Repr

def Hem.init : Hem := ⟨none, [], [], [], [], [], 0, 0⟩

/-- A request of a memory port (R338): status 0 OK, 2 ADDR, 3 CHARTER; beats still to come or to return. -/
structure MpReq where
  write : Bool
  addr : Nat
  len : Nat
  tag : Nat
  status : Nat
  left : Nat
  deriving DecidableEq, Repr

/-- One memory port: requests outstanding in acceptance order. -/
structure MpSt where
  reqs : List MpReq
  deriving DecidableEq, Repr

def MpSt.init : MpSt := ⟨[]⟩

/-! ### Configuration (R350 to R370) -/

/-- A frame: its 4,096 data bits and its code (R350, R352). -/
structure Frame where
  data : BitVec 4096
  code : BitVec 48
  deriving DecidableEq, Repr

/-- The blank frame: data 0 with a valid code, the CRC-32C of 512 zero bytes. -/
def Frame.blank : Frame := ⟨0, 0x30FCEDC0 * 2 ^ 14⟩

/-- A request of the configuration engine (R361, R364): 0 PRELOAD, 1 SWAP, 2 LOAD, 3 SCRUB, 4 full load, 5 repair; for a full load `buf` is
the source (1 HBM, 2 flash primary, 3 flash golden, 4 test port) and `patch` is 1 where CFG_LOAD_CTRL asked; the panel and commit order of a
`patch`. -/
structure EngReq where
  op : Nat
  patch : Nat
  buf : Nat
  addr : Nat
  len : Nat
  origin : Option (Nat × Nat)
  deriving DecidableEq, Repr

/-- Configuration memory, engine and scrubber. -/
structure CfgSt where
  /-- frames by FA: INDEX, plus 2^17 for a RAM frame; an unlisted frame is blank -/
  frames : SMap Frame
  queue : List EngReq
  cur : Option EngReq
  /-- 0 idle, 1 copying and checking, 2 quiescing a patch, 3 written, 4 full load -/
  phase : Nat
  /-- staging buffers, and the addresses they were copied from -/
  stage : SMap (List Byte)
  stageAddr : SMap Nat
  /-- patches whose seam is engaged -/
  engaged : List Nat
  /-- which load each region stems from: 0 blank; region 48 is the static one -/
  loads : SMap Nat
  nextLoad : Nat
  rclk : SMap Nat
  /-- image bytes that the test port has delivered -/
  tapBytes : List Byte
  /-- bytes 0 to the end of SIG of the last full image (R388) -/
  signed : List Byte
  deriving DecidableEq, Repr

def CfgSt.init : CfgSt :=
  { frames := [], queue := [], cur := none, phase := 0, stage := [], stageAddr := [], engaged := [], loads := [], nextLoad := 1, rclk := [],
    tapBytes := [], signed := [] }

/-! ### The user's logic (R325 to R330, R346, R347) -/

/-- What a RAM block's port returns: the word, FIX and BAD (R327). -/
structure RamOut where
  word : BitVec 96
  fix : Bool
  bad : Bool
  deriving DecidableEq, Repr

def RamOut.init : RamOut := ⟨0, false, false⟩

/-- What a user pin does: high impedance with its pull, or a driven level with drive strength in mA and slew (R346, R347). -/
inductive PinSt where
  | hiZ (pull : Pull)
  | drive (v : Bool) (mA : Nat) (fast : Bool)
  deriving DecidableEq, Repr

/-- The state of the user's logic. RAM contents stand in the RAM frames (R350). -/
structure FabSt where
  /-- flip-flops by 2 × cell, plus 1 for the second -/
  ffs : SMap Bool
  /-- reads under way at the ports of the RAM blocks, newest first, and what the ports show, by 2 × block + port -/
  ramPipe : SMap (List (Option RamOut))
  ramOut : SMap RamOut
  /-- I/O registers by 4 × pin: output at rising and falling edges, input at rising and falling edges -/
  io : SMap Bool
  /-- levels of the global clock trees -/
  clocks : BitVec 16
  /-- global reset trees asserted, and the release edges that a full load still asks for (R330) -/
  resets : BitVec 4
  resetLeft : SMap Nat
  /-- what an engaged seam holds: nets by 4,096 × patch + position, pins by 40 × bank + pin (R363) -/
  heldNets : SMap Bool
  heldPins : SMap PinSt
  deriving DecidableEq, Repr

def FabSt.init : FabSt := ⟨[], [], [], [], 0, 0, [], [], []⟩

/-! ### Fuses (R397) -/

/-- The fuse words of a device right after power-on. The spec gives no device's fuses; DESIGN CHOICE, log entry 5 names these: golden image at
0x0800_0000, charter window 0 the whole memory and the others empty, every master with every right, no key revoked, no rollback. -/
def fuseReset : SMap DWord :=
  [(6, 0x08000000), (48, 0xAAAAAAAAAAAAAAAA), (64, 0x00000001FFFF0000)] ++ (List.range 7).map (fun k => (65 + k, 0x0000000100000001))
    ++ [(72, 0x000FFFFFFFFFFFFF)] ++ (List.range 39).map (fun k => (73 + k, 0x000F0000FFFFFFFF))
    ++ (List.range 12).map (fun k => (112 + k, 0x7777777777777777)) ++ (List.range 16).map (fun k => (124 + k, 0x0000FFFFFFFFFFFF))


/-! ### The whole device -/

/-- The state of the device. -/
structure State where
  /-- commands waiting, first in, first out -/
  pending : List Instr
  /-- register fields by `Fld.key`; an unlisted field holds its reset value -/
  regs : SMap Nat
  /-- per field wider than 32 bits, by its lower address: the holding copy of the upper part and the held lower write (R8) -/
  holdR : SMap (Option Nat)
  heldW : SMap (Option Nat)
  /-- what the device has sent to the outside, newest last -/
  out : List Out
  /-- draws taken from the free values: the model's own counter -/
  draws : Nat
  tiles : SMap Tile
  /-- messages of classes 1 to 3 in flight, oldest first, and the next message identity -/
  flights : List Flight
  nextId : Nat
  stitches : SMap (Option Stitch)
  /-- link directions by 8 * tile + port (R217) -/
  links : SMap LinkSt
  torn : List Torn
  /-- held spares standing in for a logical tile (R189): the spare's own number + 1, 0 for none; and every spare that has served (R30) -/
  takeover : SMap Nat
  spent : List Nat
  panels : SMap Panel
  /-- a PROFILE write accepted less than 1 microsecond ago (R33) -/
  profileFresh : Bool
  /-- counters, shadows and headers by counter-window entry (R430) -/
  ctrs : SMap Nat
  /-- fault queue (R25), sticky fault-pending bits by block number (R25, R402), reports dropped since the last type 0x0F record -/
  faultQ : List FaultRec
  faultPend : SMap Bool
  lostPend : Nat
  /-- the last 256 error-log entries, newest last (R421) -/
  errLog : List ErrEntry
  /-- freeze requests not yet latched (R435): source, full, master -/
  frzReq : List (Nat × Bool × Nat)
  /-- fuse words, and the error marks of words read at the boot: 2 uncorrectable, or copies that disagree (R399) -/
  fuses : SMap DWord
  fuseErr : SMap Nat
  hbm : HbmSt
  /-- mover channels by 64 * cluster + channel -/
  chans : SMap Chan
  /-- the channel that a cluster's read engine served last in each priority, by 4 * cluster + priority (R253) -/
  movTurn : SMap Nat
  /-- lane links, lanes, hem ports and memory ports -/
  lan : SMap LaneLink
  lanes : SMap LaneSt
  hems : SMap Hem
  mps : SMap MpSt
  /-- the PCIe link is up (R389) -/
  pcieUp : Bool
  /-- configuration space: the writable bits by doubleword, as they differ from their reset values (R372), the pages in the translation cache, oldest first (R384), page requests
  stopped by a Response Failure (R386), and invalidations not yet completed (R385) -/
  pciCfg : SMap Nat
  atc : List Nat
  priStopped : Bool
  invalidating : List (Nat × Nat)
  /-- MSI-X (R379): table words (the mask bit of a vector's control word is kept inverted, so an unlisted entry is masked),
  pending bits, enable and function mask -/
  msix : SMap Word
  pba : SMap Bool
  msixEn : Bool
  msixMaskAll : Bool
  /-- trace chunks under way, oldest first: tile, records, part of a flush (R433); units that still owe a broadcast copy (R429) -/
  chunks : List (Nat × Nat × Bool)
  bsnap : List Nat
  /-- scope of the freeze latched last; a partial freeze that becomes full; FREEZE_N held low from outside (R435 to R443) -/
  frzFull : Bool
  frzHeld : Bool
  frzPin : Bool
  /-- a thermal shutdown is in force (R460) -/
  shutdown : Bool
  /-- management: firmware has run since power-on; the next boot runs steps 5 and 6; boot count; PERST_N asserted (R391, R435, R449) -/
  booted : Bool
  coldBoot : Bool
  boots : Nat
  perst : Bool
  /-- a device warm reset runs (R446, R447): the cause it will write -/
  warming : Option Nat
  /-- black-box slots, BREAK of the next record, records since the last summary, words of the host record (R411 to R417) -/
  bbox : SMap (List Byte)
  bbBreak : Bool
  sinceSum : Nat
  bbHost : SMap Nat
  /-- physical sites that have failed, oldest first, each with the logical tile that stood there, as the black box names them (R30, R189); the
  sites that firmware substitutes and the fuses do not hold yet (R397) -/
  failed : List (Nat × Nat)
  soft : List Nat
  /-- VFUSE within its rating, the secret locked (R409) -/
  vfuse : Bool
  locked : Bool
  /-- what runs: key slot and version of the firmware, its digest (measurement 2), the alias key -/
  fwKey : Nat
  fwVer : Nat
  fwDigest : List Byte
  aliasKey : Nat
  /-- bytes of the flash that differ from the board's, none: the board's own; the recovery buffer (R394, R420) -/
  flash : SMap (Option Byte)
  recov : SMap Byte
  cfg : CfgSt
  fab : FabSt
  /-- VCCIO of each bank as sensed, in mV, 0 for absent (R347) -/
  vccio : SMap Nat
  /-- received Ethernet frames that the fabric has not taken: FCS_ERR, LEN_ERR, bytes (R343) -/
  macRx : SMap (List (Bool × Bool × List Byte))
  /-- frames that a MAC has stored and not sent, at most two, and whether the fabric last showed READY at the receive side of each port (R343) -/
  macTx : SMap (List (List Byte))
  macTake : SMap Bool
  /-- droop requests by adaptive island (R451), power updates in a row that found the cap unmet at stretch 64 (R452), temperature readings in
  a row at or above 115 degrees (R460) -/
  droop : SMap Nat
  capOver : Nat
  hotReads : Nat
  /-- a request that the DOE mailbox holds (R387), and a firmware service that waits for the firmware: code, and what it finds (R395) -/
  doeHeld : Option Instr
  svcHeld : Option (Nat × List Nat)
  /-- test port (R441, R472): the instruction selected, the data register of CAP_SEL, the next word that CAP_READ shifts out, the boundary-scan
  register, and whether EXTEST drives the pins from it -/
  tapIr : Byte
  tapSel : DWord
  tapNext : Nat
  bscan : List Bool
  deriving DecidableEq, Repr

/-- Right after power-on, before the boot (R444). -/
def State.reset : State :=
  { pending := [], regs := [], holdR := [], heldW := [], out := [], draws := 0, tiles := [], flights := [], nextId := 0, stitches := [], links := [], torn := [], takeover := [], spent := [], panels := [], profileFresh := false, ctrs := [], faultQ := [],
    faultPend := [], lostPend := 0, errLog := [], frzReq := [], fuses := fuseReset, fuseErr := [], hbm := HbmSt.init, chans := [], movTurn := [], lan := [], lanes := [], hems := [], mps := [], pcieUp := false, pciCfg := [], atc := [], priStopped := false, invalidating := [], msix := [], pba := [], msixEn := false, msixMaskAll := false,
    chunks := [], bsnap := [], frzFull := false, frzHeld := false, frzPin := false, shutdown := false, booted := false, coldBoot := true,
    boots := 0, perst := false, warming := none, bbox := [], bbBreak := false, sinceSum := 0, bbHost := [], failed := [], soft := [], vfuse := false, locked := false,
    fwKey := 0, fwVer := 0, fwDigest := [], aliasKey := 0, flash := [], recov := [], cfg := CfgSt.init, fab := FabSt.init, vccio := [], macRx := [], macTx := [], macTake := [], droop := [], capOver := 0, hotReads := 0, doeHeld := none, svcHeld := none, tapIr := 1,
    tapSel := 0, tapNext := 0, bscan := [] }

/-- Why a step stops. No command of this block ends in a fault: the spec gives every one an effect. -/
inductive Fault where
  /-- raised by nothing: kept so that the type is inhabited; safe -/
  | none
  deriving DecidableEq, Repr

/-- Why a command is refused. -/
inductive Refusal where
  /-- raised by `exec` for a command that has no meaning yet; safe -/
  | notModelled (mnemonic : String)
  deriving DecidableEq, Repr

end Sys2Proof.Machine
end

