-- ==== Sys2Proof/Machine/Ops.lean ====
section
/-! DEFINITION. Named operations over the state: register fields, tiles, counters, fault reports, the error log, event vectors. -/

namespace Sys2Proof.Machine

/-- What a meaning answers. -/
abbrev Res := Host.Outcome State Fault Refusal

/-! ### Register fields -/

/-- The address of copy (i, j) of a field. -/
def Fld.addr (f : Fld) (i j : Nat) : Nat := f.base + f.s1 * i + f.s2 * j

/-- The key of copy (i, j) of a field in the register store. -/
def Fld.key (f : Fld) (i j : Nat) : Nat := f.addr i j * 32 + f.lo

/-- The reset value of copy i of a field (R12). -/
def Fld.rst (f : Fld) (i : Nat) : Nat := f.resets.getD i f.reset

/-- The stored value of a field. -/
def getF (s : State) (f : Fld) (i : Nat := 0) (j : Nat := 0) : Nat := SMap.get (f.rst i) s.regs (f.key i j)

/-- A field set to a value, cut to its width. -/
def setF (s : State) (f : Fld) (v : Nat) (i : Nat := 0) (j : Nat := 0) : State :=
  { s with regs := SMap.set (f.rst i) s.regs (f.key i j) (v % 2 ^ f.width) }

/-- A counting field that saturates at its largest value. -/
def bumpF (s : State) (f : Fld) (n : Nat := 1) (i : Nat := 0) (j : Nat := 0) : State :=
  setF s f (satAdd (2 ^ f.width - 1) (getF s f i j) n) i j

/-- A field of one bit as a Bool. -/
def flag (s : State) (f : Fld) (i : Nat := 0) (j : Nat := 0) : Bool := decide (getF s f i j ≠ 0)

/-- One bit of a field. -/
def fbit (s : State) (f : Fld) (b : Nat) (i : Nat := 0) (j : Nat := 0) : Bool := bitAt (getF s f i j) b

/-- One bit of a field set or cleared. -/
def setFbit (s : State) (f : Fld) (b : Nat) (v : Bool) (i : Nat := 0) (j : Nat := 0) : State :=
  setF s f (putBits (getF s f i j) b 1 (bit v)) i j

/-! ### Free values -/

/-- The next draw of a free value; the counter advances so that each draw is a value of its own. -/
def State.drawn (s : State) : State := { s with draws := s.draws + 1 }

/-! ### Tiles -/

def State.tile (s : State) (t : Nat) : Tile := SMap.get Tile.init s.tiles t

def State.setTile (s : State) (t : Nat) (x : Tile) : State := { s with tiles := SMap.set Tile.init s.tiles t x }

def State.modTile (s : State) (t : Nat) (f : Tile → Tile) : State := s.setTile t (f (s.tile t))

/-- Column and row of a logical tile (R5). -/
def tileX (t : Nat) : Nat := t % 64
def tileY (t : Nat) : Nat := t / 64
def tileAt (x y : Nat) : Nat := 64 * y + x

/-! ### Links by port: 0 N, 1 E, 2 S, 3 W, 4 NX, 5 EX, 6 SX, 7 WX (R186) -/

/-- The router at the far end of a link, none where the link does not exist. -/
def linkTo (t port : Nat) : Option Nat :=
  let x := tileX t
  let y := tileY t
  match port with
  | 0 => if 1 ≤ y then some (tileAt x (y - 1)) else none
  | 1 => if x + 1 ≤ 63 then some (tileAt (x + 1) y) else none
  | 2 => if y + 1 ≤ 31 then some (tileAt x (y + 1)) else none
  | 3 => if 1 ≤ x then some (tileAt (x - 1) y) else none
  | 4 => if 4 ≤ y then some (tileAt x (y - 4)) else none
  | 5 => if x + 8 ≤ 63 then some (tileAt (x + 8) y) else none
  | 6 => if y + 4 ≤ 31 then some (tileAt x (y + 4)) else none
  | 7 => if 8 ≤ x then some (tileAt (x - 8) y) else none
  | _ => none

/-! ### Outputs -/

def State.emit (s : State) (k : OutKind) (args : List Nat) (bytes : List Byte := []) : State :=
  { s with out := s.out ++ [⟨k, args, bytes⟩] }

/-! ### Counters (R422, R430) -/

/-- Base entry of a tile's block in the counter window. -/
def ctrTile (t : Nat) : Nat := 64 * t
def ctrChan (k n : Nat) : Nat := 0x20000 + 16 * (64 * k + n)
def ctrHbm (c : Nat) : Nat := 0x24000 + 16 * c
def ctrLink (d : Nat) : Nat := 0x26000 + 16 * d

def State.ctr (s : State) (e : Nat) : Nat := SMap.get 0 s.ctrs e

def State.setCtr (s : State) (e v : Nat) : State := { s with ctrs := SMap.set 0 s.ctrs e v }

/-- A 48-bit counter advances modulo 2^48. -/
def State.count (s : State) (e : Nat) (n : Nat := 1) : State := s.setCtr e ((s.ctr e + n) % 2 ^ 48)

/-- Tile counter c of tile t advances. -/
def State.countTile (s : State) (t c : Nat) (n : Nat := 1) : State := s.count (ctrTile t + c) n

/-- Router counter of class c at tile t (entry 50 + c of the block). -/
def State.countRouter (s : State) (t c : Nat) (n : Nat := 1) : State := s.count (ctrTile t + 50 + c) n

/-! ### Event vectors (R379 to R382) -/

/-- Whether vector v is masked: by the function mask or by its own control word. -/
def State.masked (s : State) (v : Nat) : Bool :=
  s.msixMaskAll || decide ((SMap.get 0 s.msix (4 * v + 3)).toNat % 2 = 0)

/-- The message of a vector: address and data from its table entry. -/
def State.vectorArgs (s : State) (v : Nat) : List Nat :=
  let w (i : Nat) : Nat := (SMap.get 0 s.msix (4 * v + i)).toNat
  [v, w 0 + w 1 * 2 ^ 32, w 2]

/-- A full freeze or a thermal shutdown has stopped the endpoint (R436, R460). -/
def State.endpointStopped (s : State) : Bool := decide (getF s Reg.OBS_FRZ_STATUS_STATE = 3) || s.shutdown

/-- Send a vector's message, or hold it in the pending bit array; nothing while MSI-X Enable is 0 (R379). -/
def State.sendVector (s : State) (v : Nat) : State :=
  if s.msixEn && !s.endpointStopped then
    if s.masked v then { s with pba := SMap.set false s.pba v true } else s.emit .msix (s.vectorArgs v)
  else s

/-- An event of vector v sets its PCI_EVT_PEND bit; a change from 0 to 1 sends the message (R381). -/
def State.raise (s : State) (v : Nat) : State :=
  if fbit s Reg.PCI_EVT_PEND_PEND v then s
  else (setFbit s Reg.PCI_EVT_PEND_PEND v true).sendVector v

/-! ### The test port (R472) -/

/-- The instruction register takes a code. -/
def State.selectIr (s : State) (code : Byte) : State := { s with tapIr := code }

/-! ### Fault reports (R25, R416) and the error log (R421) -/

/-- UNIT of a record (R412): block number and unit number. -/
def unitNo (block n : Nat) : Nat := block * 4096 + n % 4096

/-- A report on the fault collection network: queued, or dropped and counted when 256 wait; the block's sticky bit sets either way. -/
def State.report (s : State) (typ unit : Nat) (payload : List Byte) : State :=
  let s := { s with faultPend := SMap.set false s.faultPend (unit / 4096) true }
  if s.faultQ.length < 256 then { s with faultQ := s.faultQ ++ [⟨typ, unit, payload⟩] }
  else bumpF { s with lostPend := s.lostPend + 1 } Reg.MGT_FAULT_LOST_VALUE

/-- An error-log entry: 1 unassigned read, 2 unassigned write, 3 discarded write, 4 value refused. -/
def State.logErr (s : State) (kind master addr value : Nat) : State :=
  let e := getF s Reg.MGT_ERRLOG_HEAD_VALUE
  let l := s.errLog ++ [⟨e, kind, master, addr, value⟩]
  setF { s with errLog := l.drop (l.length - 256) } Reg.MGT_ERRLOG_HEAD_VALUE (e + 1)

/-- Block numbers of R402. -/
def blkMGT : Nat := 0
def blkPWR : Nat := 1
def blkPCI : Nat := 2
def blkCFG : Nat := 3
def blkCMD : Nat := 4
def blkNET : Nat := 5
def blkMOV : Nat := 6
def blkHBM : Nat := 7
def blkLAN : Nat := 8
def blkFAB : Nat := 9
def blkOBS : Nat := 10
def blkTIL : Nat := 11

end Sys2Proof.Machine
end

