-- ==== Sys2Proof/Machine/Flags.lean ====
section
/-! DEFINITION. The `flags` register (R102): its bits, what the scalar instructions write into them (R141), and the branch conditions (R140). -/

namespace Sys2Proof.Machine

/-- Masks of `flags` (R102). -/
def maskZ : Word := 1
def maskN : Word := 2
def maskC : Word := 4
def maskV : Word := 8
def maskZN : Word := 3
def maskZNCV : Word := 15
def maskIE : Word := 0x10000
def maskLM : Word := 0x20000
/-- The writable bits of `flags`. -/
def maskFlags : Word := 0x3FF0F

def flagZ (f : Word) : Bool := f.getLsbD 0
def flagN (f : Word) : Bool := f.getLsbD 1
def flagC (f : Word) : Bool := f.getLsbD 2
def flagV (f : Word) : Bool := f.getLsbD 3
/-- Interrupts enabled and loop matching enabled. -/
def flagIE (f : Word) : Bool := f.getLsbD 16
def flagLM (f : Word) : Bool := f.getLsbD 17
/-- The rounding direction in force. -/
def flagRD (f : Word) : Rnd := Rnd.ofRD (bits f.toNat 15 13)

def boolMask (b : Bool) (m : Word) : Word := if b then m else 0

/-- Z and N of a scalar result. -/
def znOf (r : Word) : Word := boolMask (r == 0) maskZ ||| boolMask r.msb maskN

/-- Carry out of bit 31 and signed overflow of a sum. -/
def cvAdd (a b : Word) : Word :=
  boolMask (decide (2 ^ 32 ≤ a.toNat + b.toNat)) maskC ||| boolMask (decide ((a + b).toInt ≠ a.toInt + b.toInt)) maskV

/-- Borrow and signed overflow of a difference. -/
def cvSub (a b : Word) : Word :=
  boolMask (decide (a.toNat < b.toNat)) maskC ||| boolMask (decide ((a - b).toInt ≠ a.toInt - b.toInt)) maskV

/-- The branch conditions of R140. -/
def condHolds (c : Nat) (f : Word) : Bool :=
  match c with
  | 0 => true
  | 1 => flagZ f
  | 2 => !flagZ f
  | 3 => flagN f != flagV f
  | 4 => flagN f == flagV f
  | 5 => flagZ f || (flagN f != flagV f)
  | 6 => !flagZ f && (flagN f == flagV f)
  | 7 => flagC f
  | 8 => !flagC f
  | 9 => flagN f
  | 10 => !flagN f
  | 11 => flagV f
  | 12 => !flagV f
  | _ => false

end Sys2Proof.Machine
end

