-- ==== Sys2Proof/Machine/Operands.lean ====
section
/-! DEFINITION. The operands of tile instructions: the register files (R101, R129, R130), the second operand of format S (R131),
post-modification of pointers (R107), and the addresses of format M with their checks (R103, R137, R138). -/

namespace Sys2Proof.Machine

/-! ### Registers -/

/-- A general scalar, pointer or modifier register by its R129 code. -/
def Tile.gen (x : Tile) (code : Nat) : Word := SMap.get 0 x.gpr code

def Tile.setGen (x : Tile) (code : Nat) (v : Word) : Tile := { x with gpr := SMap.set 0 x.gpr code v }

/-- Pointer pN and modifier mN by number. -/
def Tile.ptr (x : Tile) (n : Nat) : Word := x.gen (16 + n)
def Tile.modr (x : Tile) (n : Nat) : Word := x.gen (24 + n)

/-- A vector register by number, and lane l of a line. -/
def Tile.vec (x : Tile) (n : Nat) : Line := SMap.get 0 x.vreg n

def Tile.setVec (x : Tile) (n : Nat) (v : Line) : Tile := { x with vreg := SMap.set 0 x.vreg n v }

def vnum (r : Reg6) : Nat := r.toNat % 16

def lane (v : Line) (l : Nat) : Word := v.extractLsb' (32 * l) 32

/-- A line from its 32 lanes. -/
def ofLanes : List Word → Nat
  | [] => 0
  | w :: r => w.toNat + 2 ^ 32 * ofLanes r

/-- Every lane computed by `f`. -/
def mapLanes (f : Nat → Word) : Line := BitVec.ofNat 1024 (ofLanes ((List.range 32).map f))

/-- A special register by its R130 code. -/
def Tile.sprv (x : Tile) (code : Nat) : Word := SMap.get 0 x.spr code

def Tile.setSprRaw (x : Tile) (code : Nat) (v : Word) : Tile := { x with spr := SMap.set 0 x.spr code v }

def sprLC (l : Nat) : Nat := 0x10 + l
def sprLS (l : Nat) : Nat := 0x14 + l
def sprLE (l : Nat) : Nat := 0x18 + l
def sprLST : Nat := 0x1C
def sprFLAGS : Nat := 0x1D
def sprIPC : Nat := 0x1E
def sprIFLAGS : Nat := 0x1F
def sprICAUSE : Nat := 0x20
def sprIVEC : Nat := 0x21
def sprIPEND : Nat := 0x22

def Tile.flags (x : Tile) : Word := x.sprv sprFLAGS
/-- lst.DEPTH and lst.LCV. -/
def Tile.depth (x : Tile) : Nat := bits (x.sprv sprLST).toNat 2 0
def Tile.lcv (x : Tile) : Bool := (x.sprv sprLST).getLsbD 3

/-- The bits of a special register that a write keeps (R101, R102, R130). -/
def sprMask (code : Nat) : Word :=
  if code = sprFLAGS ∨ code = sprIFLAGS then (if code = sprFLAGS then maskFlags else BitVec.allOnes 32)
  else if code = sprLST then 0xF
  else if (0x14 ≤ code ∧ code ≤ 0x1B) ∨ code = sprIPC ∨ code = sprIVEC then 0xFFF
  else BitVec.allOnes 32

/-- Whether the loop cache holds the whole body of the innermost level at depth `d` (R115). -/
def Tile.cacheFits (x : Tile) (d : Nat) : Bool :=
  decide (0 < d) && x.lcDone && decide (x.lcTag = some ((x.sprv (sprLS (d - 1))).toNat, (x.sprv (sprLE (d - 1))).toNat))

/-- lst with a new DEPTH and LCV. -/
def Tile.setLst (x : Tile) (d : Nat) (lcv : Bool) : Tile := x.setSprRaw sprLST (BitVec.ofNat 32 (d + 8 * bit lcv))

/-- LCV clears unless the innermost level is the one that the cache holds (R115). -/
def Tile.checkLcv (x : Tile) : Tile := x.setLst x.depth (x.lcv && x.cacheFits x.depth)

/-- A write of a special register: narrow registers take the low bits; lst.LCV and changes of the innermost level follow R115. -/
def Tile.setSpr (x : Tile) (code : Nat) (v : Word) : Tile := (x.setSprRaw code (v &&& sprMask code)).checkLcv

/-- Whether a write of `v` to a special register is LOOP_ERR (R114). -/
def badDepth (code : Nat) (v : Word) : Bool := decide (code = sprLST ∧ 4 < bits v.toNat 2 0)

/-- The second operand of format S. -/
def Tile.operandB (x : Tile) (b : Reg6) (i : Bool) (imm : Word) : Word := if i then imm else x.gen b.toNat

/-! ### Pointers -/

/-- The circular correction of R107 for pointer n. -/
def Tile.wrapPtr (x : Tile) (n : Nat) (new : Word) : Word :=
  let cb := x.sprv n
  let cl := x.sprv (8 + n)
  if cl = 0 then new
  else if cb.toNat + cl.toNat ≤ new.toNat then new - cl
  else if new.toNat < cb.toNat then new + cl
  else new

/-- Pointer n after post-modification by `d` (R107). -/
def Tile.postMod (x : Tile) (n : Nat) (d : Word) : Word := x.wrapPtr n (x.ptr n + d)

/-- The address of a format M word and the pointer write that follows the access (R137). -/
def Tile.maddr (x : Tile) (m : MAddr) : Nat × List PWrite :=
  let n := m.ptr.toNat
  match m.am.toNat with
  | 0 => (m.imm.toNat, [])
  | 1 => ((x.ptr n).toNat, [])
  | 2 => ((x.ptr n).toNat, [.gen (16 + n) (x.postMod n (x.modr m.mod.toNat))])
  | _ => ((x.ptr n).toNat, [.gen (16 + n) (x.postMod n m.imm)])

/-! ### Address checks -/

/-- Fault codes of R120. -/
def fltILLEGAL : Nat := 1
def fltPMEM : Nat := 2
def fltOS : Nat := 3
def fltADDR : Nat := 4
def fltALIGN : Nat := 5
def fltLOOP : Nat := 6
def fltMODE : Nat := 7

/-- The order of R103 for `n` bytes at `a` in a space of `top` bytes, aligned at `al`; none where the access is legal. -/
def checkRange (top al a n : Nat) : Option Nat :=
  if top ≤ a then some fltADDR
  else if a % al ≠ 0 then some fltALIGN
  else if top < a + n then some fltADDR
  else none

def osTop : Nat := 0x20000
def liningTop : Nat := 0x200000

/-- The bank of an operand-store address (R103). -/
def osBank (a : Nat) : Nat := a / 128 % 4

end Sys2Proof.Machine
end

