-- ==== Sys2Proof/Machine/Contain.lean ====
section
/-! DEFINITION. Places and containment: attachment routers (R186, R252, R298), the panel of a tile (R209, R218), which islands run
(R246, R436), interrupts posted to tiles (R122), broken stitches (R213), panel faults and panel freeze (R245 to R247). -/

namespace Sys2Proof.Machine

/-! ### Attachment -/

/-- The router of hem port h (R186). -/
def hemRouter (h : Nat) : Nat :=
  if h < 64 then tileAt h 0 else if h < 128 then tileAt (h - 64) 31 else if h < 160 then tileAt 0 (h - 128) else tileAt 63 (h - 160)

/-- The edge of the array at which hem port h stands: 0 N, 1 E, 2 S, 3 W. -/
def hemEdge (h : Nat) : Nat := if h < 64 then 0 else if h < 128 then 2 else if h < 160 then 3 else 1

/-- The router of lane port n = 8d + k (R298). -/
def laneRouter (n : Nat) : Nat :=
  tileAt (4 * (n % 8) + (if n / 8 % 2 = 0 then 33 else 3)) (if n < 16 then 0 else 31)

/-- The edge of the array at which lane port n stands. -/
def laneEdge (n : Nat) : Nat := if n < 16 then 0 else 2

/-- The router of network port k of mover cluster c (R252). -/
def moverRouter (c k : Nat) : Nat :=
  if c < 4 then tileAt (16 * c + 2 * k) 0 else if c < 8 then tileAt (16 * (c - 4) + 2 * k) 31 else tileAt 0 (4 * k)

/-- The tile of an endpoint kind of R197: 0 tile, 1 hem port, 2 lane port. -/
def endpointTile (kind n : Nat) : Nat := if kind = 1 then hemRouter n else if kind = 2 then laneRouter n else n

/-! ### Panels -/

def State.panel (s : State) (p : Nat) : Panel := SMap.get Panel.init s.panels p

def State.setPanel (s : State) (p : Nat) (x : Panel) : State := { s with panels := SMap.set Panel.init s.panels p x }

def State.modPanel (s : State) (p : Nat) (f : Panel → Panel) : State := s.setPanel p (f (s.panel p))

/-- CMD_PANEL_STATUS.STATE: 0 undefined, 1 defined, 2 frozen, 3 in reset. -/
def State.panelState (s : State) (p : Nat) : Nat := getF s Reg.CMD_PANEL_STATUS_STATE p

/-- Whether tile t lies in columns x0 to x1 and rows y0 to y1. -/
def inRect (x0 x1 y0 y1 t : Nat) : Bool :=
  decide (x0 ≤ tileX t ∧ tileX t ≤ x1 ∧ y0 ≤ tileY t ∧ tileY t ≤ y1)

/-- The tiles of a rectangle in ascending number. -/
def rectTiles (x0 x1 y0 y1 : Nat) : List Nat := (List.range 2048).filter (inRect x0 x1 y0 y1)

/-- Whether tile t lies in the rectangle of panel p. -/
def State.inPanelRect (s : State) (p t : Nat) : Bool :=
  inRect (getF s Reg.CMD_PANEL_RECT_X0 p) (getF s Reg.CMD_PANEL_RECT_X1 p) (getF s Reg.CMD_PANEL_RECT_Y0 p)
    (getF s Reg.CMD_PANEL_RECT_Y1 p) t

/-- Whether tile t belongs to panel p. -/
def State.inPanel (s : State) (p t : Nat) : Bool := decide (s.panelState p ≠ 0) && s.inPanelRect p t

/-- The panel of a tile, none outside every panel. -/
def State.panelOf (s : State) (t : Nat) : Option Nat := (List.range 16).find? (fun p => s.inPanel p t)

/-- The tiles of a panel. -/
def State.panelTiles (s : State) (p : Nat) : List Nat := (List.range 2048).filter (s.inPanel p)

/-- A device freeze has stopped the array (R436). -/
def State.arrayFrozen (s : State) : Bool :=
  decide (getF s Reg.OBS_FRZ_STATUS_STATE = 2 ∨ getF s Reg.OBS_FRZ_STATUS_STATE = 3 ∨ (getF s Reg.OBS_FRZ_STATUS_STATE = 1 ∧ s.frzHeld = true)) || s.shutdown

/-- The panel is frozen (R246) or the whole array is. -/
def State.panelFrozen (s : State) (p : Nat) : Bool := s.arrayFrozen || decide (s.panelState p = 2)

/-- The island of a tile is stopped: by a device freeze or its panel's freeze. -/
def State.tileFrozen (s : State) (t : Nat) : Bool :=
  s.arrayFrozen || (match s.panelOf t with
    | some p => decide (s.panelState p = 2)
    | none => false)

/-- The tile's panel sleeps (R454). -/
def State.tileAsleep (s : State) (t : Nat) : Bool :=
  match s.panelOf t with
  | some p => flag s Reg.CMD_PANEL_STATUS_SLEEP p
  | none => false

/-- A held spare of the availability profile (R30). -/
def State.heldTile (s : State) (t : Nat) : Bool :=
  decide (getF s Reg.MGT_PROFILE_PROFILE = 1) && (decide (tileX t = 63) || (decide (tileX t = 62) && decide (16 ≤ tileY t)))

/-! ### Queues (R230, R231) -/

def Panel.queue (x : Panel) (q : Nat) : List QCmd := SMap.get [] x.queues q
def Panel.setQueue (x : Panel) (q : Nat) (l : List QCmd) : Panel := { x with queues := SMap.set [] x.queues q l }

/-- The command of commit order `ord` is complete and leaves queue q (R231). -/
def State.popCmd (s : State) (p q ord : Nat) : State :=
  s.modPanel p (fun x => x.setQueue q ((x.queue q).filter (fun c => c.ord ≠ ord)))

/-- Numbers in a command body. -/
def QCmd.num (c : QCmd) (at_ n : Nat) : Nat := leNat ((c.body.drop at_).take n)
def QCmd.word (c : QCmd) (at_ : Nat) : Nat := c.num at_ 4

def QCmd.rect (c : QCmd) : Bool := bitAt (c.word 0) 31

/-- The target tiles of a `launch`. -/
def QCmd.targets (c : QCmd) : List Nat :=
  let r := c.word 4
  if c.rect then rectTiles (bits r 5 0) (bits r 11 6) (bits r 16 12) (bits r 21 17) else [bits (c.word 0) 10 0]

/-- The first instruction of a launched program has issued, or the program has ended without one: the `launch` is complete once this holds of
every target (R180; DESIGN CHOICE, log entry 42, for a program that ends first). -/
def State.launchIssued (s : State) (t : Nat) : State :=
  if !(s.tile t).launching then s
  else
    let s := s.modTile t (fun x => { x with launching := false })
    match s.panelOf t with
    | none => s
    | some p => match ((s.panel p).queue 0).head? with
      | none => s
      | some c => if c.op = 1 ∧ c.issued ∧ c.targets.all (fun q => !(s.tile q).launching) then s.popCmd p 0 c.ord else s

/-! ### Interrupts (R122) -/

/-- Post interrupt `k` (0 fault, 1 preempt, 2 snapshot request) to a running tile; to any other tile it is discarded (R125). -/
def State.postIrq (s : State) (t k : Nat) : State :=
  s.modTile t (fun x =>
    if x.run = .running then x.setSprRaw sprIPEND (x.sprv sprIPEND ||| BitVec.ofNat 32 (2 ^ k)) else x)

/-! ### Reports of hardware faults -/

/-- A freeze armed for an event (R435): bit 0 charter violation, 1 panel fault, 2 permanent or uncorrectable fault, 3 thermal warning. -/
def State.armFreeze (s : State) (b : Nat) (master : Nat := 0) : State :=
  if fbit s Reg.OBS_FRZ_CFG_ARM b then { s with frzReq := s.frzReq ++ [(5, flag s Reg.OBS_FRZ_CFG_ARM_SCOPE, master)] } else s

/-- A permanent or uncorrectable fault: a record of type 0x0C (R415). -/
def State.reportHard (s : State) (unit : Nat) (payload : List Byte) : State := (s.report 0x0C unit payload).armFreeze 2

/-! ### Stitches -/

def State.stitch (s : State) (n : Nat) : Option Stitch := SMap.get none s.stitches n

def State.setStitch (s : State) (n : Nat) (st : Option Stitch) : State := { s with stitches := SMap.set none s.stitches n st }

/-- The tiles at which a stitch starts and ends. -/
def Stitch.startTile (st : Stitch) : Nat := endpointTile st.srcKind st.src
def Stitch.endTile (st : Stitch) : Nat := endpointTile st.dstKind st.dst

/-- A stitch becomes broken at hop `h` (R213): what has not passed the hop is lost and is reported as R203 states. -/
def State.markBroken (s : State) (n h : Nat) : State :=
  match s.stitch n with
  | none => s
  | some st =>
    let lose (m : CMsg) : CMsg := if m.lostAt.isNone ∧ m.points.any (fun p => decide (h < p)) then { m with lostAt := some (h + 1) } else m
    setF (s.setStitch n (some { st with flight := st.flight.map lose })) Reg.NET_ST_STATUS_STATE 3 n

/-- A stitch that is reserved or releasing. -/
def State.stitchLive (s : State) (n : Nat) : Bool :=
  decide (getF s Reg.NET_ST_STATUS_STATE n = 1 ∨ getF s Reg.NET_ST_STATUS_STATE n = 2)

/-- The last hop of a stitch before it enters panel p. -/
def State.lastHopOutside (s : State) (p n : Nat) : Nat :=
  match s.stitch n with
  | some st => st.hops.findIdx (fun h => s.inPanel p h.1) - 1
  | none => 0

/-- The stitches that a freeze of panel p breaks: those that end in it and start outside it (R247). -/
def State.stitchesInto (s : State) (p : Nat) : List Nat :=
  s.stitches.filterMap (fun e => match e.2 with
    | some st => if s.stitchLive e.1 ∧ s.inPanel p st.endTile ∧ ¬ s.inPanel p st.startTile then some e.1 else none
    | none => none)

/-! ### Panel faults and panel freeze (R245 to R247) -/

/-- Freeze panel p; `fault` is what a broken stitch does to the panel that owns it. -/
def State.freezePanelWith (fault : State → Nat → State) (s : State) (p : Nat) : State :=
  let s' := (setF s Reg.CMD_PANEL_STATUS_STATE 2 p).modPanel p (fun x => { x with stamp := s.draws }) |>.drawn
  (s.stitchesInto p).foldl (fun a n => fault (a.markBroken n (s.lastHopOutside p n)) (getF a Reg.NET_ST_STATUS_PANEL n)) s'

/-- A panel fault (R245, R249, R250); the number bounds the chain of panels whose freezes break each other's stitches. -/
def State.panelFaultN : Nat → State → Nat → State
  | 0, s, _ => s
  | n + 1, s, p =>
    if s.panelState p = 3 then s
    else
      let s := ((setF s Reg.CMD_PANEL_STATUS_FAULT 1 p).report 0 (unitNo blkCMD p) []).raise p |>.armFreeze 1
      if s.panelState p = 2 then s
      else if flag s Reg.CMD_PANEL_STATUS_SLEEP p then s.modPanel p (fun x => { x with faultAtWake := true })
      else match getF s Reg.CMD_PANEL_CTRL_FAULT_ACT p with
        | 0 => s
        | 1 => s.modPanel p (fun x => { x with stopped := true })
        | _ => State.freezePanelWith (State.panelFaultN n) s p

def State.panelFault (s : State) (p : Nat) : State := State.panelFaultN 17 s p

/-- Freeze a panel that is not yet frozen. -/
def State.freezePanel (s : State) (p : Nat) : State :=
  if s.panelState p = 1 then State.freezePanelWith State.panelFault s p else s

/-- The action of FAULT_ACT taken late, at a wake (R249). -/
def State.faultAction (s : State) (p : Nat) : State :=
  match getF s Reg.CMD_PANEL_CTRL_FAULT_ACT p with
  | 0 => s
  | 1 => s.modPanel p (fun x => { x with stopped := true })
  | _ => s.freezePanel p

/-- A stitch breaks: its owner has a panel fault (R245). -/
def State.breakStitch (s : State) (n h : Nat) : State :=
  if s.stitchLive n then (s.markBroken n h).panelFault (getF s Reg.NET_ST_STATUS_PANEL n) else s

/-- A panel fault of the panel that holds a tile. -/
def State.tilePanelFault (s : State) (t : Nat) : State :=
  match s.panelOf t with
  | some p => s.panelFault p
  | none => s

/-- A retired tile freezes its panel whatever FAULT_ACT holds (R245). -/
def State.retireFreeze (s : State) (t : Nat) : State :=
  match s.panelOf t with
  | some p => (s.panelFault p).freezePanel p
  | none => s

end Sys2Proof.Machine
end

