-- ==== Sys2Proof/Machine/Charter.lean ====
section
/-! DEFINITION. The protection charter (R23, R399 to R408) and the host's register accesses at meeting point 2 (R22, R377). -/

namespace Sys2Proof.Machine

/-! ### Fuses -/

def State.fuse (s : State) (w : Nat) : Nat := (SMap.get 0 s.fuses w).toNat

/-! ### Physical sites (R188, R397): site 128 y + c is column c of row y -/

/-- The physical columns that row y's harvest map substitutes. -/
def State.rowHarvest (s : State) (y : Nat) : List Nat :=
  let h := bits (s.fuse (40 + y / 4)) (16 * (y % 4) + 15) (16 * (y % 4))
  (if bitAt h 7 then [bits h 6 0] else []) ++ (if bitAt h 15 then [bits h 14 8] else [])

/-- A site is bypassed: by the fuses, or by firmware since. -/
def State.bypassed (s : State) (site : Nat) : Bool := (s.rowHarvest (site / 128)).contains (site % 128) || s.soft.contains site

/-- The physical site of a router: the x-th of its row that is not bypassed (R188). -/
def State.siteOf (s : State) (r : Nat) : Nat :=
  ((List.range 128).filterMap (fun c => if s.bypassed (128 * (r / 64) + c) then none else some (128 * (r / 64) + c))).getD (r % 64) 0

/-- A fuse fault has stopped the boot (R399). -/
def State.fuseFault (s : State) : Bool := decide (getF s Reg.MGT_BOOT_STATUS_STATE = 3)

/-! ### Master IDs (R400) -/

def idHost : Nat := 0
def idMgmt : Nat := 1
def idMover (k : Nat) : Nat := 2 + k
def idCmd (p : Nat) : Nat := 16 + p
def idPort (p : Nat) : Nat := 32 + p
def idHem (h : Nat) : Nat := 64 + h

/-- A master is charter-frozen (R405). -/
def State.frozenMaster (s : State) (i : Nat) : Bool := fbit s Reg.MGT_FROZEN_FROZEN (i % 32) (i / 32)

/-! ### Effective charter (R401, R404) -/

def State.rwin (s : State) (i : Nat) : Nat := (bits (s.fuse (72 + i)) 15 0) &&& getF s Reg.MGT_CHN_MASTER_LO_RWIN i
def State.wwin (s : State) (i : Nat) : Nat := (bits (s.fuse (72 + i)) 31 16) &&& getF s Reg.MGT_CHN_MASTER_LO_WWIN i

/-- Register class c is granted to the host (R402). -/
def State.rcls (s : State) (c : Nat) : Bool :=
  decide (c = 0) || (bitAt (s.fuse 72) (32 + c) && fbit s Reg.MGT_CHN_MASTER_HI_RCLS (c - 1) 0)

/-- Flag f of a master: 0 HOSTMEM, 1 TILE_R, 2 TILE_W, 3 INTAKE. -/
def State.mflag (s : State) (i f : Nat) : Bool := bitAt (s.fuse (72 + i)) (48 + f) && fbit s Reg.MGT_CHN_MASTER_HI_FLAGS f i

/-- Hem-port right r: 0 INJECT, 1 DLV 0, 2 DLV 1. -/
def State.hemRight (s : State) (h r : Nat) : Bool :=
  bitAt (s.fuse (112 + h / 16)) (4 * (h % 16) + r) && fbit s Reg.MGT_CHN_HEM_MASK (4 * (h % 8) + r) (h / 8)

/-- Command processor c may reconfigure patch p. -/
def State.patchRight (s : State) (c p : Nat) : Bool :=
  bitAt (s.fuse (124 + c)) p && (if p < 32 then fbit s Reg.MGT_CHN_PATCH_LO_MASK p c else fbit s Reg.MGT_CHN_PATCH_HI_MASK (p - 32) c)

/-- Window w: base and limit in units of 8 MiB. -/
def State.chWindow (s : State) (w : Nat) : Nat × Nat :=
  let v := bits (s.fuse (64 + w / 2)) (32 * (w % 2) + 31) (32 * (w % 2))
  (max (bits v 15 0) (getF s Reg.MGT_CHN_WIN_BASE w), min (bits v 31 16) (getF s Reg.MGT_CHN_WIN_LIMIT w))

/-- Whether the windows of `mask` cover 8 MiB unit u. -/
def State.unitGranted (s : State) (mask u : Nat) : Bool :=
  (List.range 16).any (fun w => bitAt mask w && decide ((s.chWindow w).1 ≤ u ∧ u ≤ (s.chWindow w).2))

/-- R403: every byte from lo to hi lies in the union of the windows that master i holds for the direction. -/
def State.hbmGranted (s : State) (i : Nat) (write : Bool) (lo hi : Nat) : Bool :=
  decide (i = idMgmt) || (!s.fuseFault &&
    (List.range (hi / 2 ^ 23 - lo / 2 ^ 23 + 1)).all (fun k =>
      s.unitGranted (if write then s.wwin i else s.rwin i) (lo / 2 ^ 23 + k)))

/-! ### Violations (R405, R406) -/

/-- Access kinds and reasons of a violation record (R415, type 0x02). -/
structure Violation where
  master : Nat
  /-- 0 read, 1 write, 2 inject, 3 reconfigure -/
  kind : Nat
  /-- 1 window, 2 register class, 3 space right, 4 DLV, 5 patch, 6 intake -/
  reason : Nat
  addr : Nat := 0
  len : Nat := 0
  seq : Nat := 0
  tags : Nat := 0

/-- The unit of a master (R412). -/
def masterUnit (i : Nat) : Nat :=
  if i < 2 then unitNo blkPCI 0
  else if i < 16 then unitNo blkMOV (i - 2)
  else if i < 32 then unitNo blkCMD (i - 16)
  else unitNo blkFAB i

/-- The payload of a violation record. -/
def Violation.payload (v : Violation) : List Byte :=
  [BitVec.ofNat 8 v.master, BitVec.ofNat 8 v.kind, BitVec.ofNat 8 v.reason, 0] ++ leBytes 8 v.addr ++ leBytes 4 v.len
    ++ leBytes 4 v.seq ++ leBytes 4 v.tags

/-- A refused access: counted; the first of a master freezes it and is recorded (R405, R406). -/
def State.violation (s : State) (v : Violation) : State :=
  let s := bumpF s Reg.MGT_VIOL_CNT_VALUE
  if s.frozenMaster v.master then s
  else
    (((setFbit s Reg.MGT_FROZEN_FROZEN (v.master % 32) true (v.master / 32)).report 2 (masterUnit v.master) v.payload).raise 29).armFreeze 0 v.master

/-! ### The host's BAR0 accesses -/

/-- The register class of a BAR0 address: its block, 12 for the indirect windows, 15 for the reserved range (R35, R402). -/
def classOf (a : Nat) : Nat :=
  if 0x2000000 ≤ a then 12
  else if 0x1000000 ≤ a then 11
  else if 0xC00000 ≤ a then 15
  else if 0xA00000 ≤ a then 10
  else if 0x800000 ≤ a then 9
  else if 0x700000 ≤ a then 8
  else if 0x500000 ≤ a then 7
  else if 0x400000 ≤ a then 6
  else if 0x300000 ≤ a then 5
  else if 0x200000 ≤ a then 4
  else if 0x180000 ≤ a then 3
  else if 0x140000 ≤ a then 2
  else if 0x100000 ≤ a then 1
  else 0

/-- The copy of a field that stands at address `a`. -/
def Fld.copyAt (f : Fld) (a : Nat) : Option (Nat × Nat) :=
  if a < f.base then none
  else
    let d := a - f.base
    let i := if f.n1 = 1 then 0 else d / f.s1
    let r := if f.n1 = 1 then d else d % f.s1
    let j := if f.n2 = 1 then 0 else r / f.s2
    if i < f.n1 ∧ j < f.n2 ∧ f.addr i j = a then some (i, j) else none

/-- A field with the copy that stands at an address. -/
structure FldAt where
  fld : Fld
  i : Nat
  j : Nat
  deriving DecidableEq, Repr

/-- The fields of the register at address `a`. -/
def fieldsAt (a : Nat) : List FldAt :=
  allFlds.filterMap (fun f => if f.cls = classOf a then (f.copyAt a).map (fun c => ⟨f, c.1, c.2⟩) else none)

/-- Whether the charter lets the host reach a register (R402); nothing but the MGT_ block while a fuse fault stands (R399). -/
def State.hostGranted (s : State) (a : Nat) (write expert : Bool) : Bool :=
  let c := classOf a
  decide (c = 0) || (!s.fuseFault && (decide (c = 15) || s.rcls c) && (!write || s.rcls 14) && (!expert || s.rcls 13))

/-- Whether the endpoint completes host requests at all: its link is up and no full freeze has stopped it (R389, R436). -/
def State.hostServed (s : State) : Bool := s.pcieUp && !s.endpointStopped

/-- In device standby only the MGT_, PWR_ and PCI_ blocks are served (R455); in recovery only the MGT_ block and the recovery buffer (R393). -/
def State.blockServed (s : State) (a : Nat) : Bool :=
  (decide (getF s Reg.PWR_STBY_STATE = 0) || decide (classOf a ≤ 2))
    && (decide (getF s Reg.MGT_BOOT_STATUS_STATE ≠ 2) || decide (classOf a = 0) || decide (0x2100000 ≤ a ∧ a < 0x2300000))

/-- While a device warm reset runs only the MGT_, PWR_, PCI_ and CFG_ blocks are served (R447); other reads return 0. -/
def State.warmServed (s : State) (a : Nat) : Bool := s.warming.isNone || decide (classOf a ≤ 3)

/-- A host register access at meeting point 2: `f` is its effect when the charter grants it (R23, R377, R405). -/
def State.hostAccess (s : State) (a len : Nat) (write expert : Bool) (f : State → State) : State :=
  if !s.hostServed || !s.blockServed a || !s.warmServed a then s
  else if decide (classOf a ≠ 0) && s.frozenMaster idHost then bumpF s Reg.MGT_VIOL_CNT_VALUE
  else if s.hostGranted a write expert then f s
  else s.violation { master := idHost, kind := bit write, reason := 2, addr := a, len := len }

/-- A host write of 32 bits to a register. -/
def State.hostWrite (s : State) (f : Fld) (i j : Nat) (k : State → State) : State :=
  s.hostAccess (f.addr i j) 4 true f.expert k

/-- A write that is discarded and recorded in the error log (R421). -/
def State.discard (s : State) (a v : Nat) : State := s.logErr 3 idHost a v

end Sys2Proof.Machine
end

