-- ==== Sys2Proof/Machine/HbmOps.lean ====
section
/-! DEFINITION. HBM: the address map and relocation (R276 to R281, R291), which requests are refused or wait (R281, R286, R290, R295),
and 64-byte accesses with their counters (R277, R278, R422). -/

namespace Sys2Proof.Machine

/-- The parity of a number's bits. -/
def parityN (v : Nat) : Bool := decide (((List.range 48).filter (bitAt v)).length % 2 = 1)

/-- T of R279. -/
def State.hbmT (s : State) : Nat := getF s Reg.HBM_CAP_ROWS

/-- The capacity in bytes (R279). -/
def State.hbmCap (s : State) : Nat := s.hbmT * 2 ^ 23

/-- The slot of an address (R279). -/
def State.hbmSlot (s : State) (a : Nat) : Nat :=
  let q := bits a 38 23
  let h := (List.range 11).foldl (fun n b => n + bit (parityN (q &&& getF s Reg.HBM_HASH_SLOT_MASK b)) * 2 ^ b) 0
  bits a 22 12 ^^^ h

/-- The bank of an address (R280). -/
def State.hbmBank (s : State) (a : Nat) : Nat :=
  (List.range 4).foldl (fun n k => n + bit (bitAt a (6 + k) != parityN (bits a 38 10 &&& getF s Reg.HBM_HASH_BANK_MASK k)) * 2 ^ k) 0

/-- A section is retired. -/
def State.sectRetired (s : State) (g : Nat) : Bool := fbit s Reg.HBM_RETIRED_SECT (g % 32) (g / 32)

/-- The retired sections, and those in service, in ascending number. -/
def State.retiredSects (s : State) : List Nat := (List.range 2048).filter s.sectRetired
def State.liveSects (s : State) : List Nat := (List.range 2048).filter (fun g => !s.sectRetired g)

/-- The section and row of an address below the capacity (R279, R291). -/
def State.hbmPlace (s : State) (a : Nat) : Nat × Nat :=
  let g := s.hbmSlot a
  let q := bits a 38 23
  if s.sectRetired g then
    let n := s.retiredSects.length
    let i := s.retiredSects.idxOf g * s.hbmT + q
    (s.liveSects.getD (i / (24 * n)) 0, s.hbmT + i % (24 * n))
  else (g, q)

/-- The key of a byte's place. -/
def State.hbmKey (s : State) (a : Nat) : Nat := ((s.hbmPlace a).1 * 49152 + (s.hbmPlace a).2) * 4096 + a % 4096

/-- Stack and channel of a section, and its controller. -/
def sectStack (g : Nat) : Nat := g % 8
def sectChan (g : Nat) : Nat := g / 8 % 32
def sectCtl (g : Nat) : Nat := 32 * sectStack g + sectChan g

/-- The sections of a controller. -/
def ctlSects (c : Nat) : List Nat := (List.range 8).map (fun k => c / 32 + 8 * (c % 32) + 256 * k)

/-- The protection check refuses an HBM access of master i to bytes lo to hi for its address (R281, R290, R292). -/
def State.hbmRefused (s : State) (i lo hi : Nat) : Bool :=
  s.hbm.outOfService || decide (s.hbmCap ≤ hi) || (!flag s Reg.HBM_MAP_CTRL_EN && decide (i ≠ idMgmt))
    || (decide (s.hbm.retiring ≠ []) &&
        (List.range (hi / 4096 - lo / 4096 + 1)).any (fun k => s.hbm.retiring.contains (s.hbmSlot ((lo / 4096 + k) * 4096))))

/-- Requests to a controller wait: a rebuild (R290), self-refresh (R284), a training step or expert control (R286, R295). -/
def State.hbmWaits (s : State) (c : Nat) : Bool :=
  decide (s.hbm.retiring ≠ []) || flag s Reg.HBM_STK_STATUS_SREF (c / 32)
    || decide (getF s Reg.HBM_CH_STATUS_STATE (c / 32) (c % 32) = 2 ∨ getF s Reg.HBM_CH_STATUS_STATE (c / 32) (c % 32) = 5)

/-- The controllers that an access to `n` bytes at `a` reaches. -/
def State.hbmCtls (s : State) (a n : Nat) : List Nat :=
  ((List.range ((a % 4096 + n + 4095) / 4096)).map (fun k => sectCtl (s.hbmPlace ((a / 4096 + k) * 4096)).1)).eraseDups

/-- The tracker entries of a controller. -/
def State.trk (s : State) (c : Nat) : List Trk := SMap.get [] s.hbm.trk c

def State.setTrk (s : State) (c : Nat) (l : List Trk) : State :=
  setF { s with hbm := { s.hbm with trk := SMap.set [] s.hbm.trk c l } } Reg.HBM_CH_STATUS_OUT l.length (c / 32) (c % 32)

/-- A controller takes nothing: its requests wait, or its 64 entries are in use (R277). -/
def State.hbmFull (s : State) (c : Nat) : Bool := s.hbmWaits c || decide (64 ≤ (s.trk c).length)

/-- An access of `n` bytes at `a` waits. -/
def State.hbmBusy (s : State) (a n : Nat) : Bool := (s.hbmCtls a n).any s.hbmFull

/-- A field of controller c. -/
def State.chF (s : State) (f : Fld) (c : Nat) : Nat := getF s f (c / 32) (c % 32)
def State.setChF (s : State) (f : Fld) (c v : Nat) : State := setF s f v (c / 32) (c % 32)
def State.bumpChF (s : State) (f : Fld) (c : Nat) : State := bumpF s f 1 (c / 32) (c % 32)

/-- The unit of a controller in a report. -/
def hbmUnit (c : Nat) : Nat := unitNo blkHBM c

/-- An uncorrectable read of section g: counted and reported (R288). -/
def State.hbmUncorr (s : State) (c : Nat) : State :=
  ((s.bumpChF Reg.HBM_CH_ERR_UNCORR c).bumpChF Reg.HBM_CH_ERR_LATE c).report 0 (hbmUnit c) []

/-- A section becomes permanent-faulted (R289). -/
def State.sectDue (s : State) (l : List Nat) : State :=
  let new := l.filter (fun g => !s.sectRetired g && !s.hbm.due.contains g && !s.hbm.retiring.contains g)
  if new = [] then s
  else ({ s with hbm := { s.hbm with due := s.hbm.due ++ new } }.reportHard (unitNo blkHBM (new.headD 0)) [1]).raise 26

/-- SECT_RET and STATE of a controller follow the retired sections and its training. -/
def State.showChannel (s : State) (c : Nat) : State :=
  let m := (ctlSects c).foldl (fun m g => if s.sectRetired g then m ||| 2 ^ (2 * (g / 256 % 4) + g / 1024) else m) 0
  let st := if m = 255 then 3 else if s.hbm.untrained.contains c then 0 else if m = 0 then 1 else 4
  s.setChF Reg.HBM_CH_STATUS_SECT_RET c m |>.setChF Reg.HBM_CH_STATUS_STATE c st

/-- TRAINED of a stack: every channel is trained or retired. -/
def State.showStack (s : State) (k : Nat) : State :=
  setF s Reg.HBM_STK_STATUS_TRAINED (bit ((List.range 32).all (fun c => decide (s.chF Reg.HBM_CH_STATUS_STATE (32 * k + c) ≠ 0)))) k

/-! ### LATE (R283) -/

/-- A read of master i waits where R283 does not bound it: it counts once. -/
def State.hbmLate (s : State) (i a n : Nat) : State :=
  let cs := (s.hbmCtls a n).filter s.hbmWaits
  if cs = [] ∨ (i, a) ∈ s.hbm.late then s
  else cs.foldl (fun (s : State) c => s.bumpChF Reg.HBM_CH_ERR_LATE c) { s with hbm := { s.hbm with late := (i, a) :: s.hbm.late } }

/-- A read that waited is accepted. -/
def State.hbmTaken (s : State) (i a : Nat) : State :=
  if (i, a) ∈ s.hbm.late then { s with hbm := { s.hbm with late := s.hbm.late.erase (i, a) } } else s

/-- The accepted reads of a controller meet what R283 does not bound: each counts once. -/
def State.trkLate (s : State) (c : Nat) : State :=
  if (s.trk c).any (fun e => !e.write && !e.late) then
    ((s.trk c).filter (fun e => !e.write && !e.late)).foldl (fun (s : State) _ => s.bumpChF Reg.HBM_CH_ERR_LATE c)
      (s.setTrk c ((s.trk c).map (fun e => { e with late := e.late || !e.write })))
  else s

/-! ### Data -/

/-- One byte. -/
def State.hbmByte (s : State) (a : Nat) : Byte :=
  let k := s.hbmKey a
  (SMap.get none s.hbm.mem k).getD (Config.hbmByte s.hbm.epoch k)

/-- Bytes as they stand. -/
def State.hbmBytes (s : State) (a n : Nat) : List Byte := (List.range n).map (fun i => s.hbmByte (a + i))

def storeOpt (m : SMap (Option Byte)) (k : Nat) : List Byte → SMap (Option Byte)
  | [] => m
  | b :: r => storeOpt (SMap.set none m k (some b)) (k + 1) r

/-- The 64-byte requests that an access is split into: start and length of each part. -/
def hbmParts (a n : Nat) : List (Nat × Nat) :=
  (List.range ((a % 64 + n + 63) / 64)).map (fun i =>
    let lo := max a ((a / 64 + i) * 64)
    (lo, min (a + n) ((a / 64 + i + 1) * 64) - lo))

/-- A command goes to the stack of controller c: one that meets a parity error is reissued once; a second error is an uncorrectable event of the
channel, which makes it permanent-faulted (R288, R289). -/
def State.hbmIssue (s : State) (c : Nat) : State × Bool :=
  match SMap.get 0 s.hbm.caErr c with
  | 0 => (s, false)
  | n =>
    let s := { s with hbm := { s.hbm with caErr := SMap.set 0 s.hbm.caErr c 0, parity := SMap.mod 0 s.hbm.parity c (· + 1) } }
    if n = 1 then (s, false)
    else (((s.bumpChF Reg.HBM_CH_ERR_UNCORR c).report 0 (hbmUnit c) []).sectDue (ctlSects c), true)

/-- One 64-byte request at a controller: counted (counter 0 reads, 1 writes; R422), and its command issued. -/
def State.hbmRequest (s : State) (a which : Nat) : State × Bool :=
  let c := sectCtl (s.hbmPlace a).1
  (s.count (ctrHbm c + which)).hbmIssue c

/-- The error mark of a word. -/
def State.setMark (s : State) (w m : Nat) : State := { s with hbm := { s.hbm with err := SMap.set 0 s.hbm.err w m } }

/-- What the read of the word at place 8 w finds (R287, R288, R476): corrected, and written back so; replayed; or uncorrectable again, which makes its
section permanent-faulted and the answer poisoned. -/
def State.hbmWord (s : State) (w : Nat) : State × Bool :=
  let g := 8 * w / 4096 / 49152
  let c := sectCtl g
  let again (s : State) : State × Bool := ((s.hbmUncorr c).sectDue [g], true)
  match SMap.get 0 s.hbm.err w with
  | 0 => (s, false)
  | 1 => ((s.setMark w 0).bumpChF Reg.HBM_CH_ERR_CORR c, false)
  | 2 => (({ s with hbm := { s.hbm with err := SMap.set 0 s.hbm.err w 0, events := SMap.mod 0 s.hbm.events g (· + 1) } } : State).hbmUncorr c, false)
  | 3 =>
    match (Config.multiBitOutcome s.draws).toNat with
    | 0 => again s.drawn
    | 1 => (s.drawn, false)
    | _ => ((({ s with hbm := { s.hbm with mem := storeOpt s.hbm.mem (8 * w) (leBytes 8 (Config.miscorrected s.draws).toNat) } }.setMark w 0).bumpChF
        Reg.HBM_CH_ERR_CORR c).drawn, false)
  | _ => again s

/-- The words of one request, where some word of HBM is in error. -/
def State.hbmWords (s : State) (a n : Nat) : State × Bool :=
  if s.hbm.err = [] then (s, false)
  else
    let k := s.hbmKey a
    (List.range ((k % 8 + n + 7) / 8)).foldl (fun q i => let r := q.1.hbmWord (k / 8 + i); (r.1, q.2 || r.2)) (s, false)

/-- `n` bytes read through the controllers, in 64-byte requests; the last item says that some request is poisoned. -/
def State.hbmRead (s : State) (a n : Nat) : State × List Byte × Bool :=
  let q := (hbmParts a n).foldl (fun q p =>
    let r := q.1.hbmRequest p.1 0
    let w := r.1.hbmWords p.1 p.2
    (w.1, q.2 || r.2 || w.2)) (s, false)
  (q.1, q.1.hbmBytes a n, q.2)

/-- Whole words that are written are in error no longer, but for a defective cell that fails again (R476). -/
def State.freshWords (s : State) (a n : Nat) : State :=
  if s.hbm.err = [] then s
  else
    let k := s.hbmKey a
    ((List.range (n / 8)).map (fun i => (k + 7) / 8 + i)).foldl (fun (s : State) w =>
      if 8 * w + 8 ≤ k + n then
        if SMap.get 0 s.hbm.err w = 4 then (if Config.cellFails s.draws then s.drawn else (s.setMark w 0).drawn) else s.setMark w 0
      else s) s

/-- Store bytes at their places. -/
def State.hbmStore (s : State) (a : Nat) (bs : List Byte) : State :=
  (hbmParts a bs.length).foldl (fun s p =>
    ({ s with hbm := { s.hbm with mem := storeOpt s.hbm.mem (s.hbmKey p.1) ((bs.drop (p.1 - a)).take p.2) } } : State).freshWords p.1 p.2) s

/-- The requests of a write of `n` bytes. -/
def State.hbmAccept (s : State) (a n : Nat) : State := (hbmParts a n).foldl (fun (s : State) p => (s.hbmRequest p.1 1).1) s

/-- Write bytes through the controllers: accepted in order, so that a later read returns them (R278). -/
def State.hbmWrite (s : State) (a : Nat) (bs : List Byte) : State := (s.hbmAccept a bs.length).hbmStore a bs

/-- HBM contents lost at the places that `p` names: they read as free values from now on. -/
def State.hbmLose (s : State) (p : Nat → Bool) : State :=
  { s with hbm := { s.hbm with mem := SMap.keep (fun k => !p k) s.hbm.mem, err := SMap.keep (fun w => !p (8 * w)) s.hbm.err, epoch := s.hbm.epoch + 1 } }

/-! ### Requests of the memory ports (R339, R340) -/

def State.mp (s : State) (p : Nat) : MpSt := SMap.get MpSt.init s.mps p
def State.setMp (s : State) (p : Nat) (x : MpSt) : State := { s with mps := SMap.set MpSt.init s.mps p x }

/-- An ADDR answer is counted. -/
def State.mpAddr (s : State) (p : Nat) : State := bumpF s Reg.FAB_MP_CNT_ADDR 1 p

/-- The address of the next beat of a request, and the request after that beat. -/
def MpReq.beat (r : MpReq) : Nat := r.len + 1 - r.left
def MpReq.at_ (r : MpReq) : Nat := r.addr + 64 * r.beat
def MpReq.next (r : MpReq) : MpReq := { r with left := r.left - 1 }

/-- Request i of port p becomes `r`. -/
def State.setReq (s : State) (p i : Nat) (r : MpReq) : State := s.setMp p ⟨(s.mp p).reqs.set i r⟩

/-- A request refused part way (R348). -/
def State.mpRefuse (s : State) (p : Nat) : State := (setF s Reg.FAB_MP_STATUS_ADDR 1 p).mpAddr p

/-! ### Accepted requests -/

/-- An accepted request ends: a read's data leave, a write is committed (R277, R288). -/
def State.hbmAnswer (s : State) (e : Trk) (poison : Bool) : State :=
  if e.write then s else s.emit .completion [e.master, e.addr, bit poison] e.data

/-- Every accepted request of every controller completes. -/
def State.hbmDrain (s : State) : State :=
  s.hbm.trk.foldl (fun (s : State) e => (e.2.foldl (fun (s : State) r => s.hbmAnswer r r.bad) s).setTrk e.1 []) s

/-- Every stack enters self-refresh after its accepted requests, or leaves it (R284). -/
def State.selfRefresh (s : State) (on : Bool) : State :=
  (List.range 8).foldl (fun s k => setF s Reg.HBM_STK_STATUS_SREF (bit on) k) (if on then s.hbmDrain else s)

end Sys2Proof.Machine
end

