-- ==== Sys2Proof/Machine/TileMem.lean ====
section
/-! DEFINITION. A tile's memories with their check bits (R106, R116, R163 to R166, R476), its hardware events (R121), and its trace
buffer (R431 to R433). -/

namespace Sys2Proof.Machine

/-! ### Hardware events (R121) -/

/-- Transient events of a tile: counted, and counted against TIL_FLT_LIMIT. -/
def State.hwEvent (s : State) (t : Nat) (n : Nat := 1) : State :=
  (s.countTile t 13 n).modTile t (fun x => { x with fltCount := x.fltCount + n })

/-- An uncorrectable word of memory `m` (2 program memory, 3 operand store, 4 lining): counted and reported. -/
def State.hwReport (s : State) (t m w : Nat) : State := (s.countTile t 13).reportHard (unitNo blkTIL t) (BitVec.ofNat 8 m :: leBytes 4 w)

/-- An uncorrectable word that a read has met: counted, reported, and left to the replay. -/
def State.hwUncorr (s : State) (t m w : Nat) : State :=
  (s.modTile t (fun x => { x with replay := if (m, w) ∈ x.replay then x.replay else x.replay ++ [(m, w)] })).hwReport t m w

/-- What a read finds in a 64-bit word whose error mark is `m` (R476): 0 no error reported, 1 corrected, 2 uncorrectable;
with the wrong word of a miscorrection. -/
def State.eccRead (s : State) (m : Nat) : State × Nat × Option DWord :=
  match m with
  | 0 => (s, 0, none)
  | 1 => (s, 1, none)
  | 2 => (s, 2, none)
  | _ =>
    match (Config.multiBitOutcome s.draws).toNat with
    | 0 => (s.drawn, 2, none)
    | 1 => (s.drawn, 0, none)
    | _ => (s.drawn, 1, some (Config.miscorrected s.draws))

/-! ### Operand store -/

/-- Check word w of the operand store: whether it is uncorrectable. A corrected word is written back and counted (R106). -/
def State.osTouch (s : State) (t w : Nat) : State × Bool :=
  let r := s.eccRead (SMap.get 0 (s.tile t).osErr w)
  match r.2.1 with
  | 1 =>
    let s := r.1.modTile t (fun x => { x with
      osErr := SMap.set 0 x.osErr w 0
      os := match r.2.2 with
        | some v => Mem.store 0 x.os (8 * w) (leBytes 8 v.toNat)
        | none => x.os })
    ((bumpF s Reg.TIL_ERR_CNT_OS_CORR 1 t).hwEvent t, false)
  | 2 => (r.1, true)
  | _ => (r.1, false)

/-- Check `n` words from word w; bit i of the result says that word w + i is uncorrectable. -/
def State.osTouchN (t w : Nat) : Nat → State → State × Nat
  | 0, s => (s, 0)
  | n + 1, s =>
    let r := State.osTouchN t w n s
    let q := r.1.osTouch t (w + n)
    (q.1, r.2 + bit q.2 * 2 ^ n)

/-- The number that `n` bytes at `a` of the operand store spell. -/
def Tile.osNat (x : Tile) (a n : Nat) : Nat := leNat (Mem.bytes 0 x.os a n)

/-- Read a 32-bit word: the word, none where its 64-bit word is uncorrectable. -/
def State.osWord (s : State) (t a : Nat) : State × Option Word :=
  let r := s.osTouch t (a / 8)
  (r.1, if r.2 then none else some (BitVec.ofNat 32 ((r.1.tile t).osNat a 4)))

/-- Read a line with the marks of its uncorrectable words. -/
def State.osPLine (s : State) (t a : Nat) : State × PLine :=
  let r := State.osTouchN t (a / 8) 16 s
  (r.1, ⟨BitVec.ofNat 1024 ((r.1.tile t).osNat a 128), BitVec.ofNat 16 r.2⟩)

/-- Read a line for an instruction: none where a word is uncorrectable. -/
def State.osLine (s : State) (t a : Nat) : State × Option Line :=
  let r := s.osPLine t a
  (r.1, if r.2.bad = 0 then some r.2.data else none)

/-- Read a line for the matrix unit: an uncorrectable word does not fault the tile; it is classified and reported (R153, R157). -/
def State.osStreamLine (s : State) (t a : Nat) : State × PLine :=
  let r := s.osPLine t a
  ((List.range 16).foldl (fun s i => if r.2.bad.getLsbD i then s.hwUncorr t 3 (a / 8 + i) else s) r.1, r.2)

/-- Store whole 64-bit words with fresh check bits. -/
def Tile.osStore (x : Tile) (a : Nat) (bs : List Byte) : Tile :=
  { x with os := Mem.store 0 x.os a bs, osErr := SMap.keep (fun w => decide (w < a / 8 ∨ (a + bs.length) / 8 ≤ w)) x.osErr }

def Tile.osStoreLine (x : Tile) (a : Nat) (v : Line) : Tile := x.osStore a (leBytes 128 v.toNat)

/-- Store 4 bytes by read-modify-write (R106): an uncorrectable word takes the write, stays uncorrectable and is reported,
and no replay overwrites it. -/
def State.osStoreWord (s : State) (t a : Nat) (v : Word) : State :=
  let r := s.osTouch t (a / 8)
  let put (x : Tile) : Tile := { x with os := Mem.store 0 x.os a (leBytes 4 v.toNat) }
  if r.2 then (r.1.modTile t (fun x => { put x with osErr := SMap.set 0 x.osErr (a / 8) 2 })).hwReport t 3 (a / 8)
  else r.1.modTile t (fun x => { put x with osErr := SMap.set 0 x.osErr (a / 8) 0 })

/-! ### Program memory -/

/-- Fetch word a (R116): none where it is uncorrectable; a corrected word is written back and counted. -/
def State.pmemFetch (s : State) (t a : Nat) : State × Option DWord :=
  let r := s.eccRead (SMap.get 0 (s.tile t).pmemErr a)
  match r.2.1 with
  | 1 =>
    let s := r.1.modTile t (fun x => { x with
      pmemErr := SMap.set 0 x.pmemErr a 0
      pmem := match r.2.2 with
        | some v => SMap.set 0 x.pmem a v
        | none => x.pmem })
    ((bumpF s Reg.TIL_ERR_CNT_PMEM_CORR 1 t).hwEvent t, some (SMap.get 0 (s.tile t).pmem a))
  | 2 => (r.1, none)
  | _ => (r.1, some (SMap.get 0 (r.1.tile t).pmem a))

/-- Write a program word with fresh check bits; the loop cache is no longer valid (R115). -/
def Tile.pmemStore (x : Tile) (a : Nat) (v : DWord) : Tile :=
  { x with pmem := SMap.set 0 x.pmem a v, pmemErr := SMap.set 0 x.pmemErr a 0, lcTag := none, lcDone := false }.checkLcv

/-! ### Lining -/

/-- Check word w of the lining: whether it is uncorrectable (R166). A corrected word waits for its write-back (R163). -/
def State.linTouch (s : State) (t w : Nat) : State × Bool :=
  let r := s.eccRead (SMap.get 0 (s.tile t).liningErr w)
  match r.2.1 with
  | 1 =>
    let s := r.1.modTile t (fun x => { x with
      liningErr := SMap.set 0 x.liningErr w 1
      lining := match r.2.2 with
        | some v => Mem.store 0 x.lining (8 * w) (leBytes 8 v.toNat)
        | none => x.lining
      wrBack := if x.wrBack.any (fun e => decide (e.1 = w)) then x.wrBack else x.wrBack ++ [(w, x.ic)] })
    ((bumpF (setF s Reg.TIL_FLOW_STATUS_LIN_CORR 1 t) Reg.TIL_LIN_CNT_CORR 1 t).hwEvent t, false)
  | 2 => ((bumpF (setF r.1 Reg.TIL_FLOW_STATUS_LIN_UNCORR 1 t) Reg.TIL_LIN_CNT_UNCORR 1 t).hwUncorr t 4 w, true)
  | _ => (r.1, false)

/-- Check `n` words from word w of the lining. -/
def State.linTouchN (t w : Nat) : Nat → State → State × Nat
  | 0, s => (s, 0)
  | n + 1, s =>
    let r := State.linTouchN t w n s
    let q := r.1.linTouch t (w + n)
    (q.1, r.2 + bit q.2 * 2 ^ n)

/-- Read a lining line with the marks of its uncorrectable words; `data` says that it moves through the data port (R163). -/
def State.linPLine (s : State) (t a : Nat) (data : Bool := true) : State × PLine :=
  let s := if data then s.countTile t 3 else s
  let r := State.linTouchN t (a / 8) 16 s
  (r.1, ⟨BitVec.ofNat 1024 (leNat (Mem.bytes 0 (r.1.tile t).lining a 128)), BitVec.ofNat 16 r.2⟩)

/-- Store a lining line with fresh check bits; its corrected words no longer wait for a write-back. -/
def Tile.linStore (x : Tile) (a : Nat) (v : Line) : Tile :=
  { x with
    lining := Mem.store 0 x.lining a (leBytes 128 v.toNat)
    liningErr := SMap.keep (fun w => decide (w < a / 8 ∨ a / 8 + 16 ≤ w)) x.liningErr
    wrBack := x.wrBack.filter (fun e => decide (e.1 < a / 8 ∨ a / 8 + 16 ≤ e.1)) }

def State.linStoreLine (s : State) (t a : Nat) (v : Line) : State := (s.countTile t 3).modTile t (fun x => x.linStore a v)

/-- What `lnld` delivers: each 32-bit lane of an uncorrectable word reads 0x7FC0_0000 (R166). -/
def PLine.lanes (l : PLine) : Line := mapLanes (fun i => if l.bad.getLsbD (i / 2) then 0x7FC00000 else lane l.data i)

/-! ### Trace (R431 to R433) -/

/-- A trace record (R431). -/
def traceRec (s : State) (t kind code : Nat) (data : Word) : BitVec 128 :=
  let x := s.tile t
  BitVec.ofNat 128 (kind % 256 + (t % 2048 + getF s Reg.NET_DEV_DEV_ID * 2048) * 2 ^ 8 + code % 65536 * 2 ^ 24
    + x.layer * 2 ^ 40 + x.operator * 2 ^ 56 + data.toNat * 2 ^ 72 + s.ctr (ctrTile t) % 2 ^ 24 * 2 ^ 104)

/-- Kinds 0x02 to 0x07 are made only when enabled (R432). -/
def State.traceOn (s : State) (kind : Nat) : Bool :=
  decide (kind < 2 ∨ 7 < kind) || fbit s Reg.OBS_TRACE_CFG_KINDS (kind - 2)

/-- A dropped trace record: counted, and the first since OVF was cleared sets OVF and raises vector 31 (R433, R434). -/
def State.traceDrop (s : State) (t n : Nat) : State :=
  let s := (s.countTile t 15 n).modTile t (fun x => { x with traceLost := x.traceLost + n })
  if flag s Reg.OBS_TRACE_CTRL_OVF then s else (setF s Reg.OBS_TRACE_CTRL_OVF 1).raise 31

/-- Append a record: dropped while 256 occupy the buffer; a KIND 0x08 record goes first where records were dropped (R433). -/
def State.trace (s : State) (t kind code : Nat) (data : Word) : State :=
  if s.traceOn kind then
    let x := s.tile t
    let lost : List (BitVec 128) := if x.traceLost = 0 then [] else [traceRec s t 8 0 (BitVec.ofNat 32 x.traceLost)]
    if 256 ≤ x.trace.length then s.traceDrop t 1
    else if x.trace.length + lost.length = 256 then
      (s.setTile t { x with trace := x.trace ++ lost, traceLost := 0 }).traceDrop t 1
    else s.setTile t { x with trace := x.trace ++ lost ++ [traceRec s t kind code data], traceLost := 0 }
  else s

end Sys2Proof.Machine
end

