-- ==== Sys2Proof/Machine/Stream.lean ====
section
/-! DEFINITION. Matrix streams (R44, R53, R56, R60, R153, R154, R169 to R172): their shape and timing, what they read in each ic, and the
blocks that their cells complete in each ic. -/

namespace Sys2Proof.Machine

/-! ### Shape and timing -/

def StreamSt.m (st : StreamSt) : Nat := st.ops.mm1.toNat + 1
def StreamSt.n (st : StreamSt) : Nat := st.ops.nm1.toNat + 1
/-- K of a normal stream, the slice length Ks of a fold stream. -/
def StreamSt.len (st : StreamSt) : Nat := st.ops.len.toNat
def StreamSt.planes (st : StreamSt) : Nat := fmtPlanes st.ops.bfmt.toNat
def StreamSt.bl (st : StreamSt) : Nat := if st.ops.bl16 then 16 else 32
def StreamSt.blocks (st : StreamSt) : Nat := (st.len + st.bl - 1) / st.bl
/-- Plane ic of one block step, and of the whole stream at one cell. -/
def StreamSt.stepIc (st : StreamSt) : Nat := st.bl * st.planes
def StreamSt.planeIc (st : StreamSt) : Nat := st.len * st.planes
/-- A records of the stream. -/
def StreamSt.recs (st : StreamSt) : Nat := st.m * st.blocks

/-- ic from the first plane to the completion ic (R53, R58, R61). -/
def StreamSt.span (st : StreamSt) : Nat := (if st.fold then 0 else st.ops.mm1.toNat + st.ops.nm1.toNat) + st.planeIc

/-- The completion ic, for a stream that has started. -/
def StreamSt.doneIc (st : StreamSt) : Option Nat := st.first.map (· + st.span)

/-- Still executing in ic `now`. -/
def StreamSt.busyAt (st : StreamSt) (now : Nat) : Bool :=
  match st.doneIc with
  | some d => decide (now < d)
  | none => true

/-- Whether cell (i, j) takes part: inside the shape and not forced off (R60, R65). -/
def StreamSt.active (st : StreamSt) (i j : Nat) : Bool :=
  decide (i < st.m ∧ j < st.n) && !st.offRow.getLsbD i && !st.offCol.getLsbD j

/-- The plane that cell (i, j) takes in ic `now`, counted from its first. -/
def StreamSt.planeAt (st : StreamSt) (now i j : Nat) : Option Nat :=
  match st.first with
  | none => none
  | some f =>
    let d := f + (if st.fold then 0 else i + j)
    if d ≤ now ∧ now - d < st.planeIc then some (now - d) else none

/-- The block that ends with plane `u` (R43). -/
def StreamSt.blockEnd (st : StreamSt) (u : Nat) : Option Nat :=
  if u + 1 = st.planeIc then some (st.blocks - 1)
  else if (u + 1) % st.stepIc = 0 then some ((u + 1) / st.stepIc - 1)
  else none

/-- The active cells. -/
def StreamSt.cells (st : StreamSt) : List (Nat × Nat) :=
  (List.range st.m).flatMap (fun i => (List.range st.n).filterMap (fun j => if st.active i j then some (i, j) else none))

/-- Whether some cell takes a plane in ic `now`. -/
def StreamSt.takesPlane (st : StreamSt) (now : Nat) : Bool :=
  st.busyAt now && st.cells.any (fun c => (st.planeAt now c.1 c.2).isSome)

/-- The ic of its first plane has come. -/
def StreamSt.begunBy (st : StreamSt) (now : Nat) : Bool :=
  match st.first with
  | some f => decide (f ≤ now)
  | none => false

/-- Two streams that R55 lets continue each other: same mode, m, n and block length. -/
def StreamSt.sameShape (a b : StreamSt) : Bool :=
  a.fold == b.fold && a.ops.mm1 == b.ops.mm1 && a.ops.nm1 == b.ops.nm1 && a.ops.bl16 == b.ops.bl16

/-- All streams of a tile, in issue order. -/
def Tile.allStreams (x : Tile) : List StreamSt := x.streams ++ x.waiting

/-! ### A operands (R154) -/

/-- Record number of block b of row i. -/
def StreamSt.recNo (st : StreamSt) (b i : Nat) : Nat := if st.fold then i * st.blocks + b else b * st.m + i

/-- Blocks of row i that every cell of the row has taken before ic `now`. -/
def StreamSt.rowBlocksDone (st : StreamSt) (now i : Nat) : Nat :=
  match st.first with
  | none => 0
  | some f =>
    let d := f + (if st.fold then 0 else i + st.ops.nm1.toNat)
    if now < d then 0
    else if st.planeIc ≤ now - d then st.blocks
    else if st.stepIc = 0 then 0 else (now - d) / st.stepIc

/-- Records of the stream that stand in the A buffer in ic `now`. -/
def StreamSt.held (st : StreamSt) (now : Nat) : Nat :=
  st.aRecs.length - ((List.range st.m).map (st.rowBlocksDone now)).sum

/-- How many records the next read brings: two, or one where the line or the stream holds no more. -/
def StreamSt.aCount (st : StreamSt) : Nat :=
  let c := st.aRecs.length
  if st.ops.asrc then min (2 - c % 2) (st.recs - c)
  else min (2 - (st.aAddr / 64 + c) % 2) (st.recs - c)

/-- The stream that the A reader serves in this ic: its place in issue order. -/
def Tile.aReader (x : Tile) : Option Nat :=
  match x.allStreams.findIdx? (fun st => decide (st.aRecs.length < st.recs)) with
  | none => none
  | some i =>
    match x.allStreams[i]? with
    | none => none
    | some st =>
      if ((x.allStreams.map (fun u => u.held x.ic)).sum) + st.aCount ≤ 64 then some i else none

/-- The operand-store line that the A reader takes over X in this ic. -/
def Tile.aLine (x : Tile) : Option Nat :=
  match x.aReader with
  | none => none
  | some i =>
    match x.allStreams[i]? with
    | none => none
    | some st => if st.ops.asrc then none else some ((st.aAddr + 64 * st.aRecs.length) / 128 * 128)

/-- The line that holds record `c` of a stream, read now: a register or an operand-store line. -/
def State.readALine (s : State) (t : Nat) (st : StreamSt) (c : Nat) : State × PLine :=
  if st.ops.asrc then (s, ⟨(s.tile t).vec (st.ops.areg.toNat + c / 2), 0⟩)
  else s.osStreamLine t ((st.aAddr + 64 * c) / 128 * 128)

/-- Whether record `c` is the upper half of its line. -/
def StreamSt.upperHalf (st : StreamSt) (c : Nat) : Bool :=
  if st.ops.asrc then decide (c % 2 = 1) else decide ((st.aAddr / 64 + c) % 2 = 1)

/-- The records of one read. -/
def State.readARecs (s : State) (t : Nat) (st : StreamSt) : State × List ARec :=
  let c := st.aRecs.length
  let r := s.readALine t st c
  (r.1, (List.range st.aCount).map (fun k => r.2.half (st.upperHalf (c + k))))

/-! ### B operands (R169 to R172) -/

/-- Scale lines and lines of a block step. -/
def StreamSt.scaleLines (st : StreamSt) : Nat := if st.fold then (if st.ops.bl16 then 12 else 16) else 1
def StreamSt.stepLines (st : StreamSt) : Nat := st.scaleLines + (if st.fold then st.stepIc else (st.stepIc + 31) / 32)

/-- Lines of the whole B region. -/
def StreamSt.regionLines (st : StreamSt) : Nat :=
  if st.fold ∨ st.len % st.bl = 0 then st.blocks * st.stepLines
  else (st.blocks - 1) * st.stepLines + 1 + (st.len % st.bl * st.planes + 31) / 32

/-- The ic before a plane ic: plane ic numbers seen one ic ahead. -/
def StreamSt.ahead (st : StreamSt) (now : Nat) : Option Nat :=
  match st.first with
  | none => none
  | some f => if f ≤ now + 1 ∧ now + 1 - f < st.planeIc then some (now + 1 - f) else none

/-- The plane line that crosses its port in ic `now`: the ic before its first use. -/
def StreamSt.planeLine (st : StreamSt) (now : Nat) : Option Nat :=
  match st.ahead now with
  | none => none
  | some w =>
    let u := w % st.stepIc
    if st.fold then some (w / st.stepIc * st.stepLines + st.scaleLines + u)
    else if u % 32 = 0 then some (w / st.stepIc * st.stepLines + 1 + u / 32)
    else none

/-- The lining scale line that crosses the scale port in ic `now`. -/
def StreamSt.scaleLine (st : StreamSt) (now : Nat) : Option Nat :=
  match st.ahead now with
  | none => none
  | some w => if w % st.stepIc < st.scaleLines then some (w / st.stepIc * st.stepLines + w % st.stepIc) else none

/-- The address of a line of the region. -/
def StreamSt.bLineAddr (st : StreamSt) (l : Nat) : Nat := st.bAddr + 128 * l

/-- Whether the scale port carries a stream's scale read in this ic (R163). -/
def Tile.scaleBusy (x : Tile) : Bool :=
  x.streams.any (fun st => decide (st.ops.bsrc.toNat = 0) && (st.scaleLine x.ic).isSome)

/-- The lining line that a stream's plane read takes in this ic (R164). -/
def Tile.linPlane (x : Tile) : Bool :=
  x.streams.any (fun st => decide (st.ops.bsrc.toNat = 0) && (st.planeLine x.ic).isSome)

/-- The operand-store line that a stream takes over Y in this ic. -/
def Tile.yLine (x : Tile) : Option Nat :=
  x.streams.findSome? (fun st =>
    if st.ops.bsrc.toNat = 1 then (st.planeLine x.ic).map st.bLineAddr else none)

/-- The unread scale lines of the step that holds plane ic `w`, lowest first. -/
def StreamSt.unreadScales (st : StreamSt) (w : Nat) : List Nat :=
  ((List.range st.scaleLines).map (· + w / st.stepIc * st.stepLines)).filter (fun l => (SMap.get none st.bLines l).isNone)

/-- The unread scale lines of the step whose plane ic comes next, lowest first. -/
def StreamSt.openScales (st : StreamSt) (now : Nat) : List Nat :=
  match st.ahead now with
  | none => []
  | some w => st.unreadScales w

/-- The scale lines that a step still lacks in its last plane ic: they are read then, since the reader always completes a step's scale lines
within the step (R172). -/
def StreamSt.lateScales (st : StreamSt) (now : Nat) : List Nat :=
  if st.ops.bsrc.toNat = 1 then
    match st.first with
    | none => []
    | some f => if f ≤ now ∧ now - f < st.planeIc ∧ (st.blockEnd (now - f)).isSome then st.unreadScales (now - f) else []
  else []

/-- The operand-store scale line of a stream in this ic: the lowest one in a bank that its X and Y reads do not use (R172). -/
def Tile.osScale (x : Tile) (st : StreamSt) : Option Nat :=
  if st.ops.bsrc.toNat = 1 then
    (st.openScales x.ic).find? (fun l =>
      x.aLine.map osBank != some (osBank (st.bLineAddr l)) && x.yLine.map osBank != some (osBank (st.bLineAddr l)))
  else none

/-- The banks that the operand-store scale readers take in this ic. -/
def Tile.scaleBanks (x : Tile) : List Nat :=
  x.streams.flatMap (fun st => ((x.osScale st).toList ++ st.lateScales x.ic).map (fun l => osBank (st.bLineAddr l)))

/-- Read line l of a stream's region now; `data` says through which lining port. -/
def State.readB (s : State) (t : Nat) (st : StreamSt) (l : Nat) (data : Bool) : State × PLine :=
  if st.ops.bsrc.toNat = 1 then s.osStreamLine t (st.bLineAddr l) else s.linPLine t (st.bLineAddr l) data

/-- A line that has been read. -/
def StreamSt.bLine (st : StreamSt) (l : Nat) : PLine := (SMap.get none st.bLines l).getD ⟨0, 0⟩

/-- One B line read into a stream. -/
def State.takeB (s : State) (t : Nat) (st : StreamSt) (l : Option Nat) (data : Bool) : State × StreamSt :=
  match l with
  | none => (s, st)
  | some l =>
    if (SMap.get none st.bLines l).isSome then (s, st)
    else
      let r := s.readB t st l data
      (r.1, { st with bLines := SMap.set none st.bLines l (some r.2) })

/-! ### Lines on a weight chain (R173 to R176) -/

/-- The neighbour that a chain direction code names (1 N, 2 E, 3 S, 4 W). -/
def chainTo (t dir : Nat) : Option Nat := if dir = 0 then none else linkTo t (dir - 1)

/-- The members after tile t along the chain. -/
def State.chainAfter (s : State) : Nat → Nat → List Nat
  | 0, _ => []
  | n + 1, t =>
    match chainTo t (getF s Reg.TIL_CHAIN_OUT t) with
    | none => []
    | some q => if getF s Reg.TIL_CHAIN_ROLE q = 2 then q :: State.chainAfter s n q else []

/-- A stream that takes its lines from the chain and still executes. -/
def Tile.chained (x : Tile) (st : StreamSt) : Bool := decide (st.ops.bsrc.toNat = 2) && st.busyAt x.ic

/-- When line l of the region crosses its port: the ic before its plane ic, counted from the ic before plane ic 0. -/
def StreamSt.lineTime (st : StreamSt) (l : Nat) : Nat :=
  let r := l % st.stepLines
  l / st.stepLines * st.stepIc + (if r < st.scaleLines then r else (r - st.scaleLines) * (if st.fold then 1 else 32))

/-- A line on its way along the chain links to the chain streams of tile q; one that a reset member has not passed on stays behind (R176). -/
def State.chainPut (l : Nat) (v : PLine) (s : State) (q : Nat) : State :=
  s.modTile q (fun x => { x with streams := x.streams.map (fun st =>
    if x.chained st && st.tornFrom.all (fun w => decide (st.lineTime l < w)) then { st with bLines := SMap.set none st.bLines l (some v) } else st) })

/-- The head of a chain passes on the line that it has just read (R174, R177). -/
def State.chainSend (s : State) (t : Nat) (st : StreamSt) : Option Nat → State
  | none => s
  | some l =>
    if st.ops.bsrc.toNat = 0 ∧ getF s Reg.TIL_CHAIN_ROLE t = 1 then (s.chainAfter 63 t).foldl (State.chainPut l (st.bLine l)) s else s

/-- A member takes a line as it arrives: one whose parity fails is poisoned and passed on poisoned, and counted (R176); one that a reset
upstream member has not passed on is poisoned. -/
def State.chainTake (s : State) (t : Nat) (st : StreamSt) : Option Nat → State × StreamSt
  | none => (s, st)
  | some l =>
    let bad : StreamSt := { st with bLines := SMap.set none st.bLines l (some PLine.torn), linkErr := st.linkErr.filter (· ≠ l) }
    if l ∈ st.linkErr then
      ((s.chainAfter 63 t).foldl (State.chainPut l PLine.torn)
        ((bumpF (setF s Reg.TIL_FLOW_STATUS_CHAIN_PAR 1 t) Reg.TIL_LIN_CNT_CHAIN_PAR 1 t).hwEvent t), bad)
    else if (SMap.get none st.bLines l).isNone then (s, bad)
    else (s, st)

/-- All B reads of one stream in this ic; `o` is the tile as the ic began, whose bus and bank use the scale reader looks at (R172). -/
def State.readBs (s : State) (t : Nat) (o : Tile) (st : StreamSt) : State × StreamSt :=
  let p := st.planeLine o.ic
  if st.ops.bsrc.toNat = 2 then
    let r := s.chainTake t st p
    r.1.chainTake t r.2 (st.scaleLine o.ic)
  else
    let sc := if st.ops.bsrc.toNat = 0 then st.scaleLine o.ic else o.osScale st
    let r := s.takeB t st p true
    let q := r.1.takeB t r.2 sc false
    ((q.1.chainSend t q.2 p).chainSend t q.2 sc, q.2)

/-- The scale lines that a stream reads in the last plane ic of their step. -/
def State.readLate (s : State) (t : Nat) (o : Tile) (st : StreamSt) : State × StreamSt :=
  (st.lateScales o.ic).foldl (fun a l => a.1.takeB t a.2 (some l) false) (s, st)

/-- A member of a chain is ahead of its IN neighbour: the line that its next ic takes has not yet been passed on (R174). -/
def State.chainBehind (s : State) (t : Nat) : Bool :=
  let x := s.tile t
  match chainTo t (getF s Reg.TIL_CHAIN_IN t), x.streams.find? x.chained with
  | some q, some st =>
    let y := s.tile q
    st.tornFrom.isNone && (match y.streams.find? (fun e => y.chained e || (e.busyAt y.ic && decide (e.ops.bsrc.toNat = 0 ∧ getF s Reg.TIL_CHAIN_ROLE q = 1))) with
      | some e => decide (y.ic + st.first.getD 0 ≤ x.ic + e.first.getD 0)
      | none => false)
  | _, _ => false

/-! ### Blocks -/

/-- Bit `i` of a plane line, and whether an uncorrectable word covers it. -/
def PLine.bitOf (l : PLine) (i : Nat) : Bool := l.data.getLsbD i
def PLine.badBit (l : PLine) (i : Nat) : Bool := l.bad.getLsbD (i / 64)
def PLine.byteOf (l : PLine) (i : Nat) : Nat := l.bits (8 * i + 7) (8 * i)

/-- Line and bit of plane ic u of step q for cell (i, j). -/
def StreamSt.planePlace (st : StreamSt) (q u i j : Nat) : Nat × Nat :=
  if st.fold then (q * st.stepLines + st.scaleLines + u, 32 * i + j)
  else (q * st.stepLines + 1 + u / 32, 32 * (u % 32) + j)

/-- The planes of product k of step q at cell (i, j), plane p at bit p. -/
def StreamSt.planeBits (st : StreamSt) (q k i j : Nat) : Nat → Nat
  | 0 => 0
  | p + 1 =>
    let w := st.planePlace q (k * st.planes + p) i j
    st.planeBits q k i j p + bit ((st.bLine w.1).bitOf w.2) * 2 ^ p

/-- B's S8 code of step q at cell (i, j), its pleats, and whether an uncorrectable word covers either (R170, R171). -/
def StreamSt.scaleOf (st : StreamSt) (q i j : Nat) : Nat × Nat × Bool :=
  let base := q * st.stepLines
  if st.fold then
    let c := 32 * i + j
    let l := st.bLine (base + c / 128)
    let pi := if st.ops.bl16 then c / 2 else c
    let pl := st.bLine (base + 8 + pi / 128)
    let pb := pl.byteOf (pi % 128)
    let pv := if st.ops.bl16 then (if c % 2 = 0 then pb % 16 else pb / 16) else pb
    (l.byteOf (c % 128), pv, l.badBit (8 * (c % 128)) || pl.badBit (8 * (pi % 128)))
  else
    let l := st.bLine base
    (l.byteOf j, (if st.ops.bl16 then l.byteOf (32 + j) % 16 else l.byteOf (32 + j)), l.badBit (8 * j) || l.badBit (8 * (32 + j)))

/-- Products of block b. -/
def StreamSt.blockLen (st : StreamSt) (b : Nat) : Nat := min st.bl (st.len - b * st.bl)

/-- What cell (i, j) takes of the first `len` products of block b, given its A record. -/
def StreamSt.cellPart (st : StreamSt) (len b i j : Nat) (a : ARec) : CellBlock :=
  let sc := st.scaleOf b i j
  let bf := st.ops.bfmt.toNat
  let badPlane := (List.range (len * st.planes)).any (fun u =>
    let w := st.planePlace b u i j
    (st.bLine w.1).badBit w.2)
  { cA := a.s8
    cB := sc.1
    uA := fmtUnit a.fmt
    uB := fmtUnit bf
    poisoned := a.poisoned len || sc.2.2 || badPlane
    badFmt := decide (8 ≤ a.fmt)
    prods := mkProds a bf len (fun k => st.planeBits b k i j st.planes) (fun k => bits sc.2.1 (2 * (k / 8) + 1) (2 * (k / 8))) }

/-- What cell (i, j) takes of block b, given its A record. -/
def StreamSt.cellBlock (st : StreamSt) (b i j : Nat) (a : ARec) : CellBlock := st.cellPart (st.blockLen b) b i j a

/-! ### Block-sum registers (R40, R86, R439) -/

/-- The block that cell (i, j) is inside before ic `now`: its number and the planes taken of it; none between blocks. -/
def StreamSt.inside (st : StreamSt) (now i j : Nat) : Option (Nat × Nat) :=
  match st.first with
  | none => none
  | some f =>
    let u := now - (f + (if st.fold then 0 else i + j))
    if st.active i j ∧ u < st.planeIc ∧ u % st.stepIc ≠ 0 then some (u / st.stepIc, u % st.stepIc) else none

/-- The stream with the lines of a step that it has not yet read, as they stand in its source. -/
def Tile.peekB (x : Tile) (st : StreamSt) (l : Nat) : Option PLine :=
  match SMap.get none st.bLines l with
  | some v => some v
  | none =>
    let a := st.bLineAddr l
    if st.ops.bsrc.toNat = 0 then some ⟨BitVec.ofNat 1024 (leNat (Mem.bytes 0 x.lining a 128)), 0⟩
    else if st.ops.bsrc.toNat = 1 then some ⟨BitVec.ofNat 1024 (x.osNat a 128), 0⟩
    else none

/-- The A record that a stream holds, or that its source holds at the place that it will read. -/
def Tile.peekA (x : Tile) (st : StreamSt) (c : Nat) : ARec :=
  match st.aRecs[c]? with
  | some r => r
  | none => PLine.half (if st.ops.asrc then ⟨x.vec (st.ops.areg.toNat + c / 2), 0⟩
      else ⟨BitVec.ofNat 1024 (x.osNat ((st.aAddr + 64 * c) / 128 * 128) 128), 0⟩) (st.upperHalf c)

/-- What a stream has given cell (i, j) of the block that the cell is inside, and whether a product is in progress. -/
def Tile.cellState (x : Tile) (st : StreamSt) (i j : Nat) : Option (CellBlock × Bool) :=
  (st.inside x.ic i j).map (fun p =>
    let scales := (List.range st.scaleLines).map (· + p.1 * st.stepLines)
    let full : StreamSt := { st with bLines := scales.foldl (fun m l => SMap.set none m l (x.peekB st l)) st.bLines }
    (full.cellPart (p.2 / st.planes) p.1 i j (x.peekA st (st.recNo p.1 i)), decide (p.2 % st.planes ≠ 0)))

/-- The block-sum register of cell (i, j): the exact sum of its block's completed products, none where a code or a scale of them has no value;
and whether a product is in progress. Between blocks both are 0. -/
def Tile.blockSumReg (x : Tile) (i j : Nat) : Option (BitVec 80) × Bool :=
  match x.streams.findSome? (fun st => x.cellState st i j) with
  | none => (some 0, false)
  | some (c, busy) =>
    (if c.poisoned || c.badFmt || c.prods.any (fun p => p.a.special || p.b.special) then none else some (BitVec.ofInt 80 (blockSum c.prods)), busy)

end Sys2Proof.Machine
end

