-- ==== Sys2Proof/Machine/Tick.lean ====
section
/-! DEFINITION. One ic of a tile's island: what the matrix unit does in it (R44 to R64, R154 to R158, R162 to R172) and the counts that
go with time (R121, R422). -/

namespace Sys2Proof.Machine

/-! ### Banks -/

/-- The bank that is front, and the other one (R46, R52). -/
def Tile.frontBank (x : Tile) : SMap AccRec := if x.front then x.bank1 else x.bank0
def Tile.backBank (x : Tile) : SMap AccRec := if x.front then x.bank0 else x.bank1

def Tile.setFront (x : Tile) (b : SMap AccRec) : Tile := if x.front then { x with bank1 := b } else { x with bank0 := b }
def Tile.setBack (x : Tile) (b : SMap AccRec) : Tile := if x.front then { x with bank0 := b } else { x with bank1 := b }

def cellKey (i j : Nat) : Nat := 32 * i + j
def bankGet (b : SMap AccRec) (i j : Nat) : AccRec := SMap.get emptyRec b (cellKey i j)
def bankSet (b : SMap AccRec) (i j : Nat) (r : AccRec) : SMap AccRec := SMap.set emptyRec b (cellKey i j) r

/-- TIL_NUM_CTRL.FALLBACK and OVF_SAT (R100). -/
def State.fallback (s : State) (t : Nat) : Bool := flag s Reg.TIL_NUM_CTRL_FALLBACK t
def State.ovfSat (s : State) (t : Nat) : Bool := flag s Reg.TIL_NUM_CTRL_OVF_SAT t

def State.matFlag (s : State) (t : Nat) (f : Fld) (b : Bool) : State := if b then setF s f 1 t else s

/-! ### Streams -/

/-- The A record of block b of row i, read at its use where the buffer has not brought it. -/
def State.recFor (s : State) (t : Nat) (st : StreamSt) (b i : Nat) : State × ARec :=
  let c := st.recNo b i
  match st.aRecs[c]? with
  | some r => (s, r)
  | none =>
    let r := s.readALine t st c
    (r.1, r.2.half (st.upperHalf c))

/-- One cell of row i adds the block it completes in this ic (R43, R87, R97). In the fallback too, the products of a block that straddles a swap all
go to the bank that is front at the block's end (R46; DESIGN CHOICE, log entry 81). -/
def State.cellAdd (t : Nat) (st : StreamSt) (b i : Nat) (a : ARec) (s : State) (j : Nat) : State :=
  let x := s.tile t
  let r := (st.cellBlock b i j a).add (s.fallback t) (s.ovfSat t) (bankGet x.frontBank i j)
  (s.setTile t (x.setFront (bankSet x.frontBank i j r.1))).matFlag t Reg.TIL_MAT_STATUS_OVF_OUT r.2

/-- The blocks that row i's active cells complete in this ic: the block and its columns. -/
def StreamSt.rowEnds (st : StreamSt) (now i : Nat) : List (Nat × Nat) :=
  (List.range st.n).filterMap (fun j =>
    if st.active i j then
      match st.planeAt now i j with
      | some u => (st.blockEnd u).map (fun b => (b, j))
      | none => none
    else none)

/-- Row i adds the blocks that end in this ic. -/
def State.rowAdd (t : Nat) (st : StreamSt) (s : State) (i : Nat) : State :=
  (st.rowEnds (s.tile t).ic i).foldl (fun s bj =>
    let r := s.recFor t st bj.1 i
    State.cellAdd t st bj.1 i r.2 r.1 bj.2) s

/-- What a stream's cells do in this ic. -/
def State.streamCells (t : Nat) (s : State) (st : StreamSt) : State := (List.range st.m).foldl (State.rowAdd t st) s

/-- The A reader of this ic. -/
def State.aRead (s : State) (t : Nat) : State :=
  let x := s.tile t
  match x.aReader with
  | none => s
  | some i =>
    match x.allStreams[i]? with
    | none => s
    | some st =>
      let r := s.readARecs t st
      let st' := { st with aRecs := st.aRecs ++ r.2 }
      r.1.modTile t (fun y =>
        if i < y.streams.length then { y with streams := y.streams.set i st' } else { y with waiting := y.waiting.set (i - y.streams.length) st' })

/-- Reads by each executing stream in turn. -/
def State.eachStream (s : State) (t : Nat) (k : State → StreamSt → State × StreamSt) : State :=
  let r := (s.tile t).streams.foldl (fun (a : State × List StreamSt) st =>
    let q := k a.1 st
    (q.1, a.2 ++ [q.2])) (s, [])
  r.1.modTile t (fun y => { y with streams := r.2 })

/-- The B reads of this ic, by the tile `o` as the ic began. -/
def State.bRead (s : State) (t : Nat) (o : Tile) : State := s.eachStream t (fun s st => s.readBs t o st)

/-- The scale lines that a step still lacks in its last plane ic (R172). -/
def State.lateRead (s : State) (t : Nat) : State :=
  if (s.tile t).streams.any (fun st => !(st.lateScales (s.tile t).ic).isEmpty) then
    let o := s.tile t
    s.eachStream t (fun s st => s.readLate t o st)
  else s

/-- A stream whose first plane reaches cell (0, 0) in this ic takes the forced-off rows and columns now in force (R65). -/
def State.latchForce (s : State) (t : Nat) : State :=
  let row := BitVec.ofNat 32 (getF s Reg.TIL_MAT_FORCE_ROW_OFF t)
  let col := BitVec.ofNat 32 (getF s Reg.TIL_MAT_FORCE_COL_OFF t)
  s.modTile t (fun y => { y with streams := y.streams.map (fun st => if st.first = some y.ic then { st with offRow := row, offCol := col } else st) })

/-- All stream work of one ic. A stream of K = 0, which takes no plane, also sets the m of the next tree capture (R58; DESIGN CHOICE, log entry 81). -/
def State.streamTick (s : State) (t : Nat) : State :=
  let s := if (s.tile t).streams.isEmpty then s else s.latchForce t
  let x := s.tile t
  if x.streams.isEmpty ∧ x.waiting.isEmpty then s
  else
    let s := if x.streams.any (fun st => st.takesPlane x.ic) then s.countTile t 2 else s
    let ran := x.streams.foldl (fun l st => if st.begunBy x.ic then some (st.m, if st.fold then st.offRow else 0) else l) x.lastRun
    let s := s.modTile t (fun y => { y with lastRun := ran })
    let s := s.lateRead t
    let s := (s.tile t).streams.foldl (State.streamCells t) s
    (s.aRead t).bRead t x

/-! ### Drains, loads and trees -/

/-- Parity errors found in this ic (R64): status, count, hardware events, a report for each failing record. -/
def State.parErrors (s : State) (t n : Nat) : State :=
  if n = 0 then s
  else (List.range n).foldl (fun s _ => s.report 0 (unitNo blkTIL t) [1])
    ((bumpF (setF s Reg.TIL_MAT_STATUS_PAR_ERR 1 t) Reg.TIL_MAT_PARCNT_PAR_CNT n t).hwEvent t n)

/-- A converted lane: its code, whether it is NaN, whether it overflowed (R64, R92, R97). -/
def convLane (fb sat : Bool) (ofmt : Nat) (r : AccRec) : Nat × Bool × Bool :=
  if r.parFail then ((outFmt ofmt).nan, true, false) else r.convert fb sat (outFmt ofmt)

/-- Convert 32 records into a line and set NAN_OUT and OVF_OUT. -/
def State.convertRow (s : State) (t ofmt : Nat) (recs : List AccRec) : State × Line :=
  let c := recs.map (convLane (s.fallback t) (s.ovfSat t) ofmt)
  let s := s.matFlag t Reg.TIL_MAT_STATUS_NAN_OUT (c.any (fun l => l.2.1))
  (s.matFlag t Reg.TIL_MAT_STATUS_OVF_OUT (c.any (fun l => l.2.2)), BitVec.ofNat 1024 (ofLanes (c.map (fun l => BitVec.ofNat 32 l.1))))

/-- Write a line to vector register `dst` or to the operand store at `dst`. -/
def Tile.putLine (x : Tile) (toStore : Bool) (dst : Nat) (v : Line) : Tile :=
  if toStore then x.osStoreLine dst v else x.setVec dst v

/-- The records of row i. -/
def rowRecs (b : SMap AccRec) (i : Nat) : List AccRec := (List.range 32).map (bankGet b i)

/-- Row i replaced. -/
def setRow (b : SMap AccRec) (i : Nat) (f : Nat → AccRec) : SMap AccRec :=
  (List.range 32).foldl (fun b j => bankSet b i j (f j)) b

/-- The record that a bias or load lane makes (R50, R90, R97). -/
def State.loadedRow (s : State) (t : Nat) (v : Line) (j : Nat) : AccRec := loadRec (s.fallback t) (lane v j)

/-- One converted drain row (R49): converted, written, then cleared or loaded with the bias. -/
def State.drainRow (s : State) (t r ofmt : Nat) (toStore : Bool) (dst : Nat) (bias : Option Line) : State :=
  let x := s.tile t
  let recs := rowRecs x.backBank r
  let s := s.parErrors t (recs.countP (fun q => q.parFail))
  let c := s.convertRow t ofmt recs
  let row : Nat → AccRec := match bias with
    | some v => c.1.loadedRow t v
    | none => fun _ => emptyRec
  c.1.modTile t (fun y =>
    (y.setBack (setRow y.backBank r row)).putLine toStore (dst + (if toStore then 128 * r else r)) c.2)

/-- Eight records as one line, failing records with NAN = 1 (R64). -/
def recsLine (l : List AccRec) : Line :=
  BitVec.ofNat 1024 (l.foldr (fun q n => (if q.parFail then { q with nan := true } else q).toBits.toNat + 2 ^ 128 * n) 0)

/-- The c-th quarter of a raw drain row (R49). -/
def State.drainRawPart (s : State) (t k : Nat) (toStore : Bool) (dst : Nat) : State :=
  let recs := ((List.range 8).map (fun q => bankGet (s.tile t).backBank (k / 4) (8 * (k % 4) + q)))
  let s := s.parErrors t (recs.countP (fun q => q.parFail))
  s.modTile t (fun y => y.putLine toStore (dst + (if toStore then 128 * k else k)) (recsLine recs))

/-- The records of one quarter of a row from a line: a record that an uncorrectable word covers loads with NAN = 1 (R157). -/
def loadQuarter (b : SMap AccRec) (i c : Nat) (l : PLine) : SMap AccRec :=
  (List.range 8).foldl (fun b q =>
    let a := AccRec.ofBits (l.bits (128 * q + 127) (128 * q))
    bankSet b i (8 * c + q) (if l.bad.getLsbD (2 * q) || l.bad.getLsbD (2 * q + 1) then { a with nan := true } else a)) b

/-- The k-th ic of a raw load (R50, R157): a quarter of a row from the operand store; four registers in the last ic of their row
(DEDUCED, log entry 79). -/
def State.loadRawPart (s : State) (t row k : Nat) (fromStore : Bool) (src : Nat) : State :=
  if fromStore then
    let r := s.osStreamLine t (src + 128 * k)
    r.1.modTile t (fun y => y.setBack (loadQuarter y.backBank (row + k / 4) (k % 4) r.2))
  else if k % 4 = 3 then
    s.modTile t (fun y => y.setBack ((List.range 4).foldl (fun b c => loadQuarter b (row + k / 4) c ⟨y.vec (src + k - 3 + c), 0⟩) y.backBank))
  else s

/-- ic of back-bank port time that an operation needs (R49, R50). -/
def BBOp.steps : BBOp → Nat
  | .drain rows _ _ _ _ => rows
  | .drainRaw rows _ _ => 4 * rows
  | .loadRow _ _ => 1
  | .loadAll _ _ => 1
  | .loadRaw _ rows _ _ => 4 * rows
  | .clear => 1
  | .swap _ => 0

def BBOp.isSwap : BBOp → Bool
  | .swap _ => true
  | _ => false

def BBOp.isRedSwap : BBOp → Bool
  | .swap (some _) => true
  | _ => false

/-- Whether an operation's steps are drain rows, which use Z. -/
def BBOp.usesZ : BBOp → Bool
  | .drain _ _ _ _ _ => true
  | .drainRaw _ _ _ => true
  | _ => false

/-- Step k of a back-bank operation. -/
def State.bbStep (s : State) (t : Nat) (op : BBOp) (k : Nat) : State :=
  match op with
  | .drain _ ofmt toStore dst bias => s.drainRow t k ofmt toStore dst bias
  | .drainRaw _ toStore dst => s.drainRawPart t k toStore dst
  | .loadRow row reg => s.modTile t (fun y => y.setBack (setRow y.backBank row (s.loadedRow t (y.vec reg))))
  | .loadAll rows reg =>
    s.modTile t (fun y => y.setBack ((List.range rows).foldl (fun b i => setRow b i (s.loadedRow t (y.vec reg))) y.backBank))
  | .loadRaw row _ fromStore src => s.loadRawPart t row k fromStore src
  | .clear => s.modTile t (fun y => y.setBack [])
  | .swap _ => s

/-- A tree result takes Z and the convert stage in this ic (R51, R58). -/
def Tile.treeDue (x : Tile) : Bool := x.tree.any (fun r => decide (r.age = 5))

/-- The running operation does its next step in this ic: a drain row gives way to a tree result (R51). -/
def Tile.bbStepsNow (x : Tile) : Bool :=
  match x.bbRun with
  | some (op, k) => decide (k < op.steps) && !(op.usesZ && x.treeDue)
  | none => false

/-- A drain row or a tree result holds Z in this ic. -/
def Tile.drainZ (x : Tile) : Bool :=
  x.treeDue || (match x.bbRun with
    | some (op, k) => decide (k < op.steps) && op.usesZ
    | none => false)

/-- The line that a raw load takes over X in this ic. -/
def Tile.loadX (x : Tile) : Option Nat :=
  match x.bbRun with
  | some (.loadRaw _ rows true src, k) => if k < 4 * rows then some (src + 128 * k) else none
  | _ => none

/-- The back-bank port in one ic, by the tile `o` as the ic began: a tree result that takes Z in this ic goes first (R51). -/
def State.bbTick (s : State) (t : Nat) (o : Tile) : State :=
  let x := s.tile t
  if o.bbStepsNow then
    match x.bbRun with
    | some (op, k) => (s.bbStep t op k).modTile t (fun y => { y with bbRun := some (op, k + 1) })
    | none => s
  else s

/-- Tree level 1 captures rows 0 to m - 1 and clears the back bank (R58). Of a row forced off the whole back-bank record stays out, a bias loaded
there and its parity too; R65 speaks of the row's slice (DESIGN CHOICE, log entry 81). -/
def State.treeCapture (s : State) (t : Nat) (r : TreeSt) : State × TreeSt :=
  let b := (s.tile t).backBank
  let rows : List (List AccRec) := ((List.range r.rows).filter (fun i => !r.off.getLsbD i)).map (rowRecs b)
  let s := s.parErrors t ((rows.flatten).countP (fun q => q.parFail))
  let cols := (List.range 32).map (fun j => foldTree (s.fallback t) (s.ovfSat t) (rows.map (fun l => l.getD j emptyRec)))
  (s.modTile t (fun y => y.setBack []),
    { r with cols := cols.map (·.1), ovf := cols.any (·.2),
             parFail := (List.range 32).map (fun j => rows.any (fun l => (l.getD j emptyRec).parFail)) })

/-- The trees in one ic. -/
def State.treeTick (s : State) (t : Nat) : State :=
  (s.tile t).tree.foldl (fun s r =>
    let a := if r.age = 0 then s.treeCapture t { r with age := 1 } else (s, { r with age := r.age + 1 })
    a.1.modTile t (fun y => { y with tree := y.tree ++ [a.2] })) (s.modTile t (fun y => { y with tree := [] }))

/-! ### Swaps -/

/-- A bank swap (R46): its tree work (R58) and whether a cell takes a plane in its ic (R48). -/
structure Swap where
  tree : Option TreeSt
  order : Bool

/-- The swap of an `mswap` in this ic; a cell takes a plane by the rows and columns in force in this ic (R65). -/
def State.swapNow (s : State) (t : Nat) (red : Option (Nat × Bool × Nat)) : Swap :=
  let x := (s.latchForce t).tile t
  let run := x.lastRun.getD (32, 0)
  ⟨red.map (fun d => ⟨0, run.1, run.2, d.1, d.2.1, d.2.2, [], false, []⟩), x.streams.any (fun st => st.takesPlane x.ic)⟩

/-- The banks exchange (R46, R58). -/
def State.doSwap (s : State) (t : Nat) (w : Option Swap) : State :=
  match w with
  | none => s
  | some w =>
    let s := s.matFlag t Reg.TIL_MAT_STATUS_SWAP_ORDER w.order
    s.modTile t (fun x => { x with front := !x.front, tree := x.tree ++ w.tree.toList })

/-- A held swap whose turn has come takes place in this ic (R47). -/
def Tile.swapDue (x : Tile) : Bool := x.bbRun.isNone && x.bbWait.head?.any BBOp.isSwap

/-- The held swap of an ic, by the state `o` that the ic began in; an ic in which a swap stays held is a bank stall (R47). -/
def State.heldSwap (s : State) (t : Nat) (o : State) : State :=
  if (o.tile t).swapDue then
    match (o.tile t).bbWait with
    | .swap red :: r =>
      (s.modTile t (fun y => { y with bbWait := r, bbWords := y.bbWords.tail, waiting := y.waiting.map (fun st => { st with swaps := st.swaps - 1 }) })).doSwap t
        (some (o.swapNow t red))
    | _ => s
  else if (o.tile t).bbWait.any BBOp.isSwap then s.countTile t 4
  else s

/-! ### One ic -/

/-- The fault window of R121: a new window begins, with the limits then in force, when the one before it ends. -/
def State.fltWindow (s : State) (t : Nat) : State :=
  let x := s.tile t
  if x.fltWindow = 0 ∨ x.fltWindow * 2 ^ 20 ≤ x.ic - x.fltStart then
    let w := getF s Reg.TIL_FLT_LIMIT_WINDOW t
    let l := getF s Reg.TIL_FLT_LIMIT_COUNT t
    s.setTile t { x with fltWindow := w, fltLimit := l, fltStart := if w = 0 then x.fltStart else x.ic, fltCount := if w = 0 then x.fltCount else 0 }
  else s

/-- A chain stream waits for ready (R174): the oldest waiting stream of a chain member. -/
def State.chainWaits (s : State) (t : Nat) : Bool :=
  match (s.tile t).waiting with
  | [] => false
  | st :: _ => decide (st.ops.bsrc.toNat = 2) || (decide (st.ops.bsrc.toNat = 0) && decide (getF s Reg.TIL_CHAIN_ROLE t = 1))

/-- One ic of the tile: trees, streams, back bank, a held swap, and the counters of time. A tree capture goes before a back-bank operation whose
first ic is the capture's (R47; DESIGN CHOICE, log entry 81). -/
def State.tick (s : State) (t : Nat) : State :=
  let o := s
  let s := s.treeTick t
  let s := s.streamTick t
  let s := (s.bbTick t (o.tile t)).heldSwap t o
  let s := if (s.tile t).run = .running ∨ (s.tile t).run = .halted then s.countTile t 0 else s
  let s := if s.chainWaits t then s.countTile t 12 else s
  let s := s.fltWindow t
  s.modTile t (fun y => { y with ic := y.ic + 1, restart := none, extTook := [] })

/-! ### External accesses (R105, R164) -/

/-- A result that lands in the ic to come writes a bank of the operand store, or, for none, the lining. -/
def Tile.landsOn (x : Tile) (port : Option Nat) : Bool :=
  x.pipe.any (fun e => decide (e.left ≤ 1) && (match e.write, port with
    | .word a _, some b => decide (osBank a = b)
    | .line a _, some b => decide (osBank a = b)
    | .lining _ _, none => true
    | _, _ => false))

/-- The bank of the operand store that a drain row or a tree result writes in the ic to come. -/
def Tile.drainBank (x : Tile) : List Nat :=
  (x.tree.filter (fun r => decide (r.age = 5) && r.toStore)).map (fun r => osBank r.dst)
    ++ (if x.bbStepsNow then match x.bbRun with
      | some (.drain _ _ true dst _, k) => [osBank (dst + 128 * k)]
      | some (.drainRaw _ true dst, k) => [osBank (dst + 128 * k)]
      | _ => []
    else [])

/-- The work that an external access never beats: a drain row at a bank's write port, a plane read at the lining's data port. -/
def Tile.extBarred (x : Tile) (port : Option Nat) : Bool :=
  match port with
  | some b => x.drainBank.contains b
  | none => x.linPlane

/-- The external access that waits has waited 16 ic. -/
def Tile.extRipe (x : Tile) : Bool := x.extSince.any (fun i => decide (i + 16 ≤ x.ic))

/-! ### Matrix events -/

/-- The ic of the oldest waiting stream's first plane (R44, R55), for a stream that is no chain stream. A CONT stream that issues after the last
plane of the executing stream has passed cell (0, 0) starts 2 ic after its issue, with a gap (DESIGN CHOICE, log entry 81). -/
def Tile.computedFirst (x : Tile) (st : StreamSt) : Nat :=
  match x.streams.getLast? with
  | none => st.issued + 2
  | some e =>
    match e.first with
    | none => st.issued + 2
    | some f =>
      if f + e.span ≤ st.issued then st.issued + 2
      else if st.ops.cont ∧ st.sameShape e ∧ st.ops.bsrc.toNat ≠ 2 then max (st.issued + 2) (f + e.planeIc)
      else max (st.issued + 2) (f + e.span + 1)

/-- STREAM_START is due: the oldest waiting stream takes its first plane in the ic after the next, which is after every swap issued before it. -/
def State.startDue (s : State) (t : Nat) : Bool :=
  match (s.tile t).waiting with
  | [] => false
  | st :: _ => !s.chainWaits t && decide ((s.tile t).computedFirst st ≤ (s.tile t).ic + 1)
    && (decide (st.swaps = 0) || (decide (st.swaps = 1) && (s.tile t).swapDue))

/-- BACK_BANK_OP_START is due: the port is free and an operation waits. -/
def Tile.bbStartDue (x : Tile) : Bool := x.bbRun.isNone && x.bbWait.head?.any (fun op => !op.isSwap)

/-- Back-bank operations that wait. -/
def Tile.bbWaiting (x : Tile) : Nat := x.bbWait.countP (fun op => !op.isSwap)

/-- BACK_BANK_OP_COMPLETE is due. -/
def Tile.bbDoneDue (x : Tile) : Bool :=
  match x.bbRun with
  | some (op, k) => decide (op.steps ≤ k)
  | none => false

/-- TREE_RESULT_WRITE is due. -/
def Tile.treeWriteDue (x : Tile) : Bool := x.tree.any (fun r => decide (6 ≤ r.age))

/-- A matrix event of the tile is due before its next ic. -/
def State.eventDue (s : State) (t : Nat) : Bool :=
  s.startDue t || (s.tile t).bbStartDue || (s.tile t).bbDoneDue || (s.tile t).treeWriteDue

/-- TIL_MAT_STATUS.BUSY. -/
def Tile.matBusy (x : Tile) : Bool :=
  !x.waiting.isEmpty || x.streams.any (fun st => st.busyAt x.ic) || x.bbRun.isSome || !x.bbWait.isEmpty || !x.tree.isEmpty

end Sys2Proof.Machine
end

