-- ==== Sys2Proof/Machine/Net.lean ====
section
/-! DEFINITION. The tile network's own operations: links and routes (R186, R195, R206, R207, R213), fences (R209), messages (R190), and
injection by a tile or a port (R191, R200). -/

namespace Sys2Proof.Machine

/-! ### Links (ports 0 N, 1 E, 2 S, 3 W, 4 NX, 5 EX, 6 SX, 7 WX) -/

/-- The direction opposite to a port. -/
def oppositePort (p : Nat) : Nat := if p < 4 then (p + 2) % 4 else 4 + (p + 2) % 4

def linkKey (t port : Nat) : Nat := 8 * t + port

def State.link (s : State) (t port : Nat) : LinkSt := SMap.get LinkSt.init s.links (linkKey t port)

def State.modLink (s : State) (t port : Nat) (f : LinkSt → LinkSt) : State :=
  { s with links := SMap.mod LinkSt.init s.links (linkKey t port) f }

/-- A link direction that carries traffic: it exists and is neither retired nor forced off. -/
def State.linkUp (s : State) (t port : Nat) : Bool :=
  (linkTo t port).isSome && !(s.link t port).retired && !(s.link t port).forced

/-! ### Places of logical tiles -/

/-- The position that answers to a logical number: the tile's own, or that of the spare that took it over (R189). -/
def State.posOf (s : State) (t : Nat) : Nat := match SMap.get 0 s.takeover t with
  | 0 => t
  | n + 1 => n

/-- The logical tile that a router delivers to: its own, or the one whose place it has taken. -/
def State.logicalAt (s : State) (r : Nat) : Nat := ((s.takeover.find? (fun e => decide (e.2 = r + 1))).map (·.1)).getD r

/-- The routers that a dimension-order path visits, by coordinate in steps of `thr` and 1. -/
def lineStops (thr : Nat) : Nat → Nat → Nat → List Nat
  | 0, a, _ => [a]
  | n + 1, a, b =>
    if a = b then [a]
    else if a < b then a :: lineStops thr n (if thr ≤ b - a then a + thr else a + 1) b
    else a :: lineStops thr n (if thr ≤ a - b then a - thr else a - 1) b

/-- Whether router r stands on the dimension-order path from a to b. -/
def onPath (r a b : Nat) : Bool :=
  (decide (tileY r = tileY a) && (lineStops 8 64 (tileX a) (tileX b)).contains (tileX r))
    || (decide (tileX r = tileX b) && (lineStops 4 32 (tileY a) (tileY b)).contains (tileY r))

/-- The panel of a router: that of its tile, or, for a spare in service and the transit routers toward it, that of the tile taken over. -/
def State.posPanel (s : State) (r : Nat) : Option Nat :=
  match s.panelOf r with
  | some p => some p
  | none => s.takeover.findSome? (fun e =>
      match e.2, s.panelOf e.1 with
      | n + 1, some p =>
        if r = n ∨ (s.panelTiles p).any (fun u => onPath r u n || onPath r n u) then some p else none
      | _, _ => none)

/-! ### Gates and fences (R209, R221) -/

/-- Whether tile t is a declared gate of panel p for an edge: 0 N, 1 E, 2 S, 3 W. -/
def State.isGate (s : State) (p t edge : Nat) : Bool :=
  let dx := tileX t - getF s Reg.CMD_PANEL_RECT_X0 p
  let dy := tileY t - getF s Reg.CMD_PANEL_RECT_Y0 p
  s.inPanel p t && (match edge with
    | 0 => decide (dy = 0) && (if dx < 32 then fbit s Reg.CMD_GATE_N_LO_GATE dx p else fbit s Reg.CMD_GATE_N_HI_GATE (dx - 32) p)
    | 2 => decide (tileY t = getF s Reg.CMD_PANEL_RECT_Y1 p)
        && (if dx < 32 then fbit s Reg.CMD_GATE_S_LO_GATE dx p else fbit s Reg.CMD_GATE_S_HI_GATE (dx - 32) p)
    | 3 => decide (dx = 0) && fbit s Reg.CMD_GATE_W_GATE dy p
    | _ => decide (tileX t = getF s Reg.CMD_PANEL_RECT_X1 p) && fbit s Reg.CMD_GATE_E_GATE dy p)

/-- Whether a fence lets a flit cross from router r to router q by a port. -/
def State.crossOk (s : State) (r q port : Nat) : Bool :=
  match s.posPanel r, s.posPanel q with
  | some a, some b => decide (a = b) || (s.isGate a r (port % 4) && s.isGate b q (oppositePort (port % 4)))
  | none, none => true
  | _, _ => false

/-- Whether every hop of a path passes the fences. -/
def State.pathFenced (s : State) (path : List (Nat × Nat)) : Bool :=
  path.all (fun h => match linkTo h.1 h.2 with
    | some q => s.crossOk h.1 q h.2
    | none => false)

/-- The hop crosses a fence into a frozen panel from outside it: the frozen panel's gates pass nothing (R247). -/
def State.intoFrozen (s : State) (h : Nat × Nat) : Bool :=
  match linkTo h.1 h.2 with
  | some q => (match s.posPanel q with
      | some b => decide (s.panelState b = 2 ∧ s.posPanel h.1 ≠ some b)
      | none => false)
  | none => false

/-! ### Routes (R195, R207, R213) -/

/-- The 3-hop detour around a retired ordinary link, on one side. -/
def State.detourSide (s : State) (t port side : Nat) : Option (List (Nat × Nat)) :=
  match linkTo t side with
  | none => none
  | some a =>
    match linkTo a port with
    | none => none
    | some b =>
      if s.linkUp t side && s.linkUp a port && s.linkUp b (oppositePort side)
          && decide (s.posPanel a = s.posPanel t) && decide (s.posPanel b = s.posPanel t)
      then some [(t, side), (a, port), (b, oppositePort side)] else none

/-- One ordinary hop, or its detour: south then north for a row link, east then west for a column link. -/
def State.ordHop (s : State) (t port : Nat) : Option (List (Nat × Nat)) :=
  if s.linkUp t port then some [(t, port)]
  else if port % 2 = 1 then (s.detourSide t port 2).or (s.detourSide t port 0)
  else (s.detourSide t port 1).or (s.detourSide t port 3)

/-- Hops along one line: `dist` tiles in direction `port`, by express links of length `thr` where they are in service;
`ord` ordinary hops are still owed for an express link out of service. -/
def State.lineHops (s : State) (port thr : Nat) : Nat → Nat → Nat → Nat → Option (List (Nat × Nat) × Nat)
  | _, t, 0, _ => some ([], t)
  | 0, _, _ + 1, _ => none
  | n + 1, t, d + 1, ord =>
    match (if ord = 0 ∧ thr ≤ d + 1 ∧ s.linkUp t (port + 4) then linkTo t (port + 4) else none) with
    | some q => (s.lineHops port thr n q (d + 1 - thr) 0).map (fun r => ((t, port + 4) :: r.1, r.2))
    | none =>
      let ord' := if ord = 0 ∧ thr ≤ d + 1 then thr - 1 else ord - 1
      match s.ordHop t port, linkTo t port with
      | some h, some q => (s.lineHops port thr n q d ord').map (fun r => (h ++ r.1, r.2))
      | _, _ => none

/-- A dimension-order route: along the row, then along the column; none where a link has neither service nor a detour. -/
def State.route (s : State) (express : Bool) (a b : Nat) : Option (List (Nat × Nat)) :=
  let tx := if express then 8 else 1000
  let ty := if express then 4 else 1000
  let row := if tileX a ≤ tileX b then s.lineHops 1 tx 64 a (tileX b - tileX a) 0 else s.lineHops 3 tx 64 a (tileX a - tileX b) 0
  match row with
  | none => none
  | some (h, q) =>
    let col := if tileY q ≤ tileY b then s.lineHops 2 ty 32 q (tileY b - tileY q) 0 else s.lineHops 0 ty 32 q (tileY q - tileY b) 0
    col.map (fun r => h ++ r.1)

/-- The two flits of a message counted on every link of its path (R422). -/
def State.countPath (s : State) (cls : Nat) (path : List (Nat × Nat)) : State :=
  path.foldl (fun s h => s.countRouter h.1 cls 2) s

/-- One step of a dimension-order route from router r toward router g: its hops (one, or the three of a detour), the router it ends at, and
the ordinary hops that are then owed; none where neither the link nor a detour is in service. -/
def State.hopToward (s : State) (express : Bool) (r g owed : Nat) : Option (List (Nat × Nat) × Nat × Nat) :=
  let row := decide (tileX r ≠ tileX g)
  let port := if row then (if tileX r ≤ tileX g then 1 else 3) else if tileY r ≤ tileY g then 2 else 0
  let thr := if row then 8 else 4
  let dist := if row then (tileX g - tileX r) + (tileX r - tileX g) else (tileY g - tileY r) + (tileY r - tileY g)
  let fast := express && decide (owed = 0) && decide (thr ≤ dist)
  match (if fast && s.linkUp r (port + 4) then linkTo r (port + 4) else none) with
  | some q => some ([(r, port + 4)], q, 0)
  | none =>
    match s.ordHop r port, linkTo r port with
    | some h, some q => some (h, q, if fast then thr - 1 else owed - 1)
    | _, _ => none

/-! ### Messages (R190) -/

/-- The fields of a message header. -/
structure Hdr where
  cls : Nat := 0
  dlv : Nat := 0
  mc : Bool := false
  torn : Bool := false
  bvoid : Bool := false
  nt : Bool := false
  dst : Nat := 0
  ddev : Nat := 0
  src : Nat := 0
  sdev : Nat := 0
  line : Nat := 0
  stitch : Nat := 0
  deriving DecidableEq, Repr

def Hdr.toWord (h : Hdr) : DWord :=
  BitVec.ofNat 64 (h.cls % 4 + h.dlv % 4 * 2 ^ 2 + bit h.mc * 2 ^ 4 + bit h.torn * 2 ^ 5 + bit h.bvoid * 2 ^ 6 + bit h.nt * 2 ^ 7
    + h.dst % 2 ^ 11 * 2 ^ 8 + h.ddev % 32 * 2 ^ 19 + h.src % 2 ^ 11 * 2 ^ 24 + h.sdev % 32 * 2 ^ 35 + h.line % 2 ^ 14 * 2 ^ 40
    + h.stitch % 2 ^ 10 * 2 ^ 54)

def Hdr.ofWord (w : DWord) : Hdr :=
  let v := w.toNat
  { cls := bits v 1 0, dlv := bits v 3 2, mc := bitAt v 4, torn := bitAt v 5, bvoid := bitAt v 6, nt := bitAt v 7,
    dst := bits v 18 8, ddev := bits v 23 19, src := bits v 34 24, sdev := bits v 39 35, line := bits v 53 40, stitch := bits v 63 54 }

def Msg.h (m : Msg) : Hdr := Hdr.ofWord m.hdr

/-- Trailer: tags, and the torn count. -/
def trailer (layer oper torn : Nat) : DWord := BitVec.ofNat 64 (layer % 65536 + oper % 65536 * 2 ^ 16 + torn % 65536 * 2 ^ 32)

/-- The data of a loss notice or a torn marker: 0x7FC0_0000 in every lane (R203, R208). -/
def nanLine : Line := mapLanes (fun _ => 0x7FC00000)

/-- The header that marks a barrier release message in a queue: the network carries none of its kind, and no message has its bits. -/
def releaseHdr : DWord := BitVec.allOnes 64

/-- A brownout episode is in force (R215). -/
def State.brownout (s : State) : Bool := flag s Reg.PWR_SUPPLY_EPISODE

/-! ### Queues (R192) -/

def Tile.queue (x : Tile) (c : Nat) : List Msg := match c with
  | 0 => x.q0
  | 1 => x.q1
  | 2 => x.q2
  | _ => x.q3

def Tile.setQueue (x : Tile) (c : Nat) (q : List Msg) : Tile := match c with
  | 0 => { x with q0 := q }
  | 1 => { x with q1 := q }
  | 2 => { x with q2 := q }
  | _ => { x with q3 := q }

/-- Room for one more message: 8 places, 6 for ordinary class 2 messages. -/
def Tile.queueRoom (x : Tile) (c : Nat) : Bool :=
  decide ((x.queue c).length < 8) &&
    (decide (c ≠ 2) || decide ((x.q2.filter (fun m => m.hdr ≠ releaseHdr)).length < 6))

def State.enqueue (s : State) (t c : Nat) (m : Msg) : State :=
  (s.modTile t (fun x => x.setQueue c (x.queue c ++ [m]))).countTile t 14

/-! ### Injection (R191, R200) -/

/-- A message discarded or unroutable at its source tile. -/
def State.badRoute (s : State) (t : Nat) : State :=
  bumpF (setF s Reg.TIL_NET_STATUS_BAD_ROUTE 1 t) Reg.TIL_NET_CNT_BAD_ROUTE 1 t

def State.devId (s : State) : Nat := getF s Reg.NET_DEV_DEV_ID

/-- Whether a device number lies inside the suit (R191). -/
def State.inSuit (s : State) (d : Nat) : Bool := decide (d < getF s Reg.LAN_SUIT_SX * getF s Reg.LAN_SUIT_SY)

/-- The tiles of multicast group g (R206). -/
def State.groupTiles (s : State) (g : Nat) : List Nat :=
  rectTiles (getF s Reg.NET_MCG_X0 g) (getF s Reg.NET_MCG_X1 g) (getF s Reg.NET_MCG_Y0 g) (getF s Reg.NET_MCG_Y1 g)

/-- Whether a group is valid for a sender at tile t. -/
def State.groupOk (s : State) (g t : Nat) : Bool := flag s Reg.NET_MCG_VALID g && s.inPanel (getF s Reg.NET_MCG_PANEL g) t

/-- Whether a route word of classes 1 to 3 is one that R191 accepts, for a sender at tile t. -/
def State.routeOk (s : State) (t cls : Nat) (route : Nat) : Bool :=
  let dst := bits route 10 0
  let ddev := bits route 15 11
  let mc := bitAt route 16
  let dlv := bits route 18 17
  decide (bits route 31 29 = 0) && decide (dlv < 2) && s.inSuit ddev &&
    (if mc then decide (cls = 2) && decide (bits route 10 8 = 0) && (decide (ddev ≠ s.devId) || s.groupOk (dst % 256) t)
     else decide (ddev ≠ s.devId) || (!(s.tile dst).retired && !s.heldTile dst))

/-- The header that a tile or a hem port builds from its route word (R191, R333). -/
def State.routeHdr (s : State) (t cls : Nat) (route : Nat) : Hdr :=
  { cls := cls, dlv := bits route 18 17, mc := bitAt route 16, bvoid := s.brownout, dst := bits route 10 0, ddev := bits route 15 11,
    src := t, sdev := s.devId, line := if bits route 18 17 = 1 then bits route 28 19 else 0 }

/-- The destinations of a message: the tiles of its group, or its own. -/
def State.targets (s : State) (h : Hdr) : List Nat :=
  if h.mc && decide (h.ddev = s.devId) then s.groupTiles (h.dst % 256) else [h.dst]

/-- A message of classes 1 to 3 enters the network at a router. -/
def State.launchMsg (s : State) (o : Origin) (entry : Nat) (m : Msg) : State :=
  { s with
    flights := s.flights ++ [⟨s.nextId, o, entry, m, s.targets m.h, entry, 8, 0⟩]
    nextId := s.nextId + 1 }

/-- Whether stitch n may be used by a source: reserved or releasing, and starting there. -/
def State.stitchFrom (s : State) (n kind src : Nat) : Bool :=
  match s.stitch n with
  | some st => s.stitchLive n && decide (st.srcKind = kind) && decide (st.src = src)
  | none => false

/-- The interval of R308 has passed: one message per 3 ic toward a lane port. -/
def Stitch.paced (st : Stitch) (ic : Nat) : Bool :=
  decide (st.dstKind ≠ 2) || (match st.lastAdmit with
    | some l => decide (l + 3 ≤ ic)
    | none => true)

/-- Class 0 admission (R200): a credit for DLV 0; one message per 3 ic toward a lane port. -/
def State.admits (s : State) (n ic : Nat) : Bool :=
  match s.stitch n with
  | none => false
  | some st =>
    (decide (st.dlv = 1) || decide (0 < getF s Reg.NET_ST_STATUS_CREDIT n)) && st.paced ic

/-- A class 0 message enters its stitch; `src` is its source tile and device (R190). -/
def State.stitchSend (s : State) (n : Nat) (src : Nat × Nat) (ic : Nat) (data : Line) (trl : DWord) : State :=
  match s.stitch n with
  | none => s
  | some st =>
    let h : Hdr := { cls := 0, dlv := st.dlv, bvoid := s.brownout, dst := if st.dstKind = 0 then st.dst else 0, ddev := s.devId,
                     src := src.1, sdev := src.2, stitch := n,
                     line := if st.dlv = 1 then st.rbase + (if st.rlen = 0 then 0 else st.sent % st.rlen) else 0 }
    let m : CMsg := ⟨st.sent, ⟨h.toWord, data, trl⟩, st.points, none⟩
    let s := s.setStitch n (some { st with sent := st.sent + 1, flight := st.flight ++ [m], lastAdmit := some ic })
    if st.dlv = 0 then setF s Reg.NET_ST_STATUS_CREDIT (getF s Reg.NET_ST_STATUS_CREDIT n - 1) n else s

/-- The links that the undelivered messages of one class from a tile have still to cross or wait on. -/
def State.linksHeld (s : State) (l : List Flight) : List (Nat × Nat) :=
  (l.flatMap (fun f => f.dsts.flatMap (fun d => (s.route (!f.msg.h.mc) f.pos (s.posOf d)).getD []))).eraseDups

/-- Messages of a class in the input buffer of router q that input `via` fills (R192). -/
def State.inBuffer (s : State) (q via cls : Nat) : Nat :=
  (s.flights.filter (fun e => decide (e.pos = q ∧ e.via = via ∧ e.msg.h.cls = cls))).length

/-- The room for messages of a class in the input buffer at the far end of a link: four flits, two messages (R192). -/
def State.linkRoom (s : State) (cls : Nat) (h : Nat × Nat) : Nat :=
  match linkTo h.1 h.2 with
  | some q => 2 - s.inBuffer q (oppositePort h.2) cls
  | none => 0

/-- The injection port of tile t takes no further message of a class: more of them stand at its router than the input buffers of the links on
their way have room for (R192; DEDUCED, log entry 22). -/
def State.injectionFull (s : State) (t cls : Nat) : Bool :=
  let l := s.flights.filter (fun f => decide (f.origin = .tile t ∧ f.msg.h.cls = cls ∧ f.msg.h.ddev = s.devId ∧ f.pos = s.posOf t ∧ f.via = 8))
  decide (((s.linksHeld l).map (s.linkRoom cls)).sum < l.length)

/-- What the injection port does with a tile's message (R191). -/
def State.injectTile (s : State) (t cls : Nat) (route : Word) (data : Line) : State :=
  let x := s.tile t
  let w := route.toNat
  let trl := trailer x.layer x.operator 0
  if cls = 0 then
    if bits w 31 10 = 0 ∧ s.stitchFrom (w % 1024) 0 t then s.stitchSend (w % 1024) (t, s.devId) x.ic data trl
    else (s.badRoute t).postIrq t 0
  else if s.routeOk t cls w then
    s.launchMsg (.tile t) (s.posOf t) ⟨(s.routeHdr t cls w).toWord, data, trl⟩
  else (s.badRoute t).postIrq t 0

end Sys2Proof.Machine
end

