-- ==== Sys2Proof/Machine/PciOps.lean ====
section
/-! DEFINITION. The endpoint's configuration space and error counts (R371, R372, R383 to R386). The spec names the capabilities and leaves
their offsets to the endpoint; PRESUMED, log entry 9 gives the layout used here. -/

namespace Sys2Proof.Machine

/-! ### Offsets of the capabilities -/

def capPM : Nat := 0x40
def capMSIX : Nat := 0x48
def capEXP : Nat := 0x60
def capAER : Nat := 0x100
def capREBAR : Nat := 0x150
def capATS : Nat := 0x160
def capPRI : Nat := 0x170
def capDOE : Nat := 0x180

/-- Reset values of the writable bits (PRESUMED, log entry 9): Max Read Request Size 512 bytes, Target Link Speed 64 GT/s, and the AER masks
and severities of the base specification. -/
def cfgRst (o : Nat) : Nat :=
  match o with
  | 0x68 => 0x2000
  | 0x90 => 6
  | 0x108 => 0x00400000
  | 0x10C => 0x00462030
  | 0x114 => 0x0000E000
  | _ => 0

/-- The writable bits that doubleword `o` of configuration space holds. The store keeps what differs from the reset value. -/
def State.cfgBits (s : State) (o : Nat) : Nat := SMap.get 0 s.pciCfg (o / 4) ^^^ cfgRst (o / 4 * 4)

def State.setCfgBits (s : State) (o v : Nat) : State := { s with pciCfg := SMap.set 0 s.pciCfg (o / 4) (v ^^^ cfgRst (o / 4 * 4)) }

/-- ATS Enable and PRI Enable. -/
def State.atsEn (s : State) : Bool := bitAt (s.cfgBits (capATS + 4)) 31
def State.priEn (s : State) : Bool := bitAt (s.cfgBits (capPRI + 4)) 0

/-- A bit of the AER Uncorrectable or Correctable Error Status register is set. -/
def State.aerStatus (s : State) (off b : Nat) : State :=
  s.setCfgBits (capAER + off) (s.cfgBits (capAER + off) ||| 2 ^ b)

/-- An uncorrectable error, by its status bit in the base specification: logged, counted, and a fault report (R383). -/
def State.aerUncorr (s : State) (b : Nat) : State := (bumpF (s.aerStatus 4 b) Reg.PCI_ERR_CNT_UNCORR).report 0 (unitNo blkPCI 0) []

/-- Status bits: Poisoned TLP Received, Completion Timeout, Completer Abort, Unexpected Completion, Unsupported Request. -/
def aerPoisoned : Nat := 12
def aerTimeout : Nat := 14
def aerAbort : Nat := 15
def aerUnexpected : Nat := 16

/-- A page enters the translation cache of 1,024 entries (R384). -/
def State.cachePage (s : State) (a : Nat) : State :=
  let pg := a % 2 ^ 57 / 4096
  if !s.atsEn || s.atc.contains pg then s else { s with atc := (s.atc ++ [pg]).drop (s.atc.length + 1 - 1024) }

end Sys2Proof.Machine
end

