-- ==== Sys2Proof/Machine/MoverOps.lean ====
section
/-! DEFINITION. Movers: channels, descriptors and their checks (R253 to R263), completion of a `move` (R265), and how a descriptor ends
(R267 to R272). -/

namespace Sys2Proof.Machine

/-! ### Channels -/

def chanKey (k n : Nat) : Nat := 64 * k + n

def State.chan (s : State) (k n : Nat) : Chan := SMap.get Chan.init s.chans (chanKey k n)

def State.setChan (s : State) (k n : Nat) (c : Chan) : State :=
  setF { s with chans := SMap.set Chan.init s.chans (chanKey k n) c } Reg.MOV_CH_STATUS_QDEPTH c.waiting.length k n

def State.modChan (s : State) (k n : Nat) (f : Chan → Chan) : State := s.setChan k n (f (s.chan k n))

/-- MOV_CH_STATUS.STATE as the channel itself holds it: 5 is shown only while its panel is frozen. -/
def State.chanState (s : State) (k n : Nat) : Nat := getF s Reg.MOV_CH_STATUS_STATE k n

def State.setChanState (s : State) (k n v : Nat) : State := setF s Reg.MOV_CH_STATUS_STATE v k n

/-- The channel is bound to panel p (R254). -/
def State.boundTo (s : State) (k n p : Nat) : Bool :=
  flag s Reg.MOV_CH_CFG_BOUND k n && decide (getF s Reg.MOV_CH_CFG_PANEL k n = p)

/-- The channel is held: its cluster is stopped by a device freeze, or the panel it is bound to is frozen (R246, R272, R436). -/
def State.chanHeld (s : State) (k n : Nat) : Bool :=
  s.arrayFrozen || (flag s Reg.MOV_CH_CFG_BOUND k n && decide (s.panelState (getF s Reg.MOV_CH_CFG_PANEL k n) = 2))

/-- The network port of cluster k that serves tile t: t mod 8, or the next in service after it (R252). -/
def State.moverPort (s : State) (k t : Nat) : Option Nat :=
  ((List.range 8).map (fun i => (t + i) % 8)).find? (fun p => !(s.tile (moverRouter k p)).routerRetired)

/-! ### Events (R380, R381) -/

/-- A completion event of a channel: its PCI_MOV_DONE bit and vector 16 + k. -/
def State.chanDone (s : State) (k n : Nat) : State := (setFbit s Reg.PCI_MOV_DONE_CH (n % 32) true k (n / 32)).raise (16 + k)

/-- An error event of a channel: its PCI_MOV_ERR bit and vector 25. -/
def State.chanErr (s : State) (k n : Nat) : State := (setFbit s Reg.PCI_MOV_ERR_CH (n % 32) true k (n / 32)).raise 25

/-! ### Descriptors (R257 to R259) -/

def Desc.num (d : Desc) (at_ n : Nat) : Nat := leNat ((d.bytes.drop at_).take n)

def Desc.src (d : Desc) : Nat := d.num 0 8
def Desc.dst (d : Desc) : Nat := d.num 8 8
def Desc.len0 (d : Desc) : Nat := d.num 16 4
def Desc.ctrl (d : Desc) : Nat := d.num 28 4
def Desc.ndim (d : Desc) : Nat := bits d.ctrl 2 0
def Desc.shuf (d : Desc) : Nat := bits d.ctrl 5 3
def Desc.ewm1 (d : Desc) : Nat := bits d.ctrl 8 6
def Desc.waysm1 (d : Desc) : Nat := bits d.ctrl 12 9
def Desc.gran (d : Desc) : Nat := 2 ^ bits d.ctrl 14 13
def Desc.irq (d : Desc) : Bool := bitAt d.ctrl 17

/-- Bytes of a delivery block. -/
def Desc.dblk (d : Desc) : Nat := match bits d.ctrl 16 15 with
  | 0 => 4096
  | 1 => 1024
  | 2 => 16384
  | _ => 65536

/-- Raw count and strides of dimension i (1 to 4). -/
def Desc.rawCnt (d : Desc) (i : Nat) : Nat := d.num (20 + 2 * (i - 1)) 2
def Desc.sstr (d : Desc) (i : Nat) : Int := sgn 32 (d.num (32 + 8 * (i - 1)) 4)
def Desc.dstr (d : Desc) (i : Nat) : Int := sgn 32 (d.num (36 + 8 * (i - 1)) 4)

/-- The count of dimension i in the walk: an unused dimension runs once. -/
def Desc.cnt (d : Desc) (i : Nat) : Nat := if i < d.ndim then d.rawCnt i else 1

/-- Innermost runs and bytes of the walk. -/
def Desc.runs (d : Desc) : Nat := d.cnt 1 * d.cnt 2 * d.cnt 3 * d.cnt 4
def Desc.total (d : Desc) : Nat := d.len0 * d.runs

/-- Index of dimension i in run r. -/
def Desc.idx (d : Desc) (r i : Nat) : Nat := match i with
  | 1 => r % d.cnt 1
  | 2 => r / d.cnt 1 % d.cnt 2
  | 3 => r / (d.cnt 1 * d.cnt 2) % d.cnt 3
  | _ => r / (d.cnt 1 * d.cnt 2 * d.cnt 3)

def wrap64 (v : Int) : Nat := (v % 2 ^ 64).toNat

/-- Source and destination of run r (R256, R259). -/
def Desc.runSrc (d : Desc) (r : Nat) : Nat :=
  wrap64 (d.src + d.idx r 1 * d.sstr 1 + d.idx r 2 * d.sstr 2 + d.idx r 3 * d.sstr 3 + d.idx r 4 * d.sstr 4)
def Desc.runDst (d : Desc) (r : Nat) : Nat :=
  wrap64 (d.dst + d.idx r 1 * d.dstr 1 + d.idx r 2 * d.dstr 2 + d.idx r 3 * d.dstr 3 + d.idx r 4 * d.dstr 4)

/-- Lowest and highest address of a walk from `base` with strides `str` (R260). -/
def Desc.extent (d : Desc) (base : Nat) (str : Nat → Int) : Int × Int :=
  let ends (i : Nat) : Int := ((d.cnt i : Int) - 1) * str i
  let sum (f : Int → Int) : Int := f (ends 1) + f (ends 2) + f (ends 3) + f (ends 4)
  ((base : Int) + sum (min 0), (base : Int) + sum (max 0) + d.len0 - 1)

def Desc.srcExtent (d : Desc) : Int × Int := d.extent d.src d.sstr
def Desc.dstExtent (d : Desc) : Int × Int := d.extent d.dst d.dstr

/-! ### Addresses (R255) -/

def spaceOf (a : Nat) : Nat := bits a 63 60
def addrDev (a : Nat) : Nat := bits a 47 43
def addrTile (a : Nat) : Nat := bits a 58 48
def addrByte (a : Nat) : Nat := bits a 20 0

/-- The reserved bits of a mover address are 0 and its space is not reserved. -/
def addrFields (a : Nat) : Bool := match spaceOf a with
  | 0 => decide (bits a 59 39 = 0)
  | 1 | 2 => decide (bits a 42 21 = 0 ∧ bits a 59 59 = 0)
  | 3 => decide (bits a 59 57 = 0)
  | _ => false

/-- The alignment of a space. -/
def spaceAlign (sp : Nat) : Nat := if sp = 1 ∨ sp = 2 then 128 else 64

/-- Bytes of a tile space. -/
def tileSpaceSize (sp : Nat) : Nat := if sp = 1 then 0x20000 else 0x200000

/-- Every byte of a run in a tile space stands in a tile that the descriptor may touch. -/
def State.tileRunOk (s : State) (sp a len : Nat) : Bool :=
  decide (spaceOf a = sp) && addrFields a && decide (addrByte a + len ≤ tileSpaceSize sp) && s.inSuit (addrDev a)
    && (decide (addrDev a ≠ s.devId) || (!(s.tile (addrTile a)).retired && !s.heldTile (addrTile a)))

/-- Some granule of an HBM range lies in a section under retirement (R290). -/
def State.hbmGoing (s : State) (a n : Nat) : Bool :=
  (List.range ((a % 4096 + n + 4095) / 4096)).any (fun i => s.hbm.retiring.contains (s.hbmSlot ((a / 4096 + i) * 4096)))

/-- Every touched address of one operand lies within its space, and HBM serves it (R260, DERR 4; R290, R292). -/
def State.operandOk (s : State) (d : Desc) (sp : Nat) (ext : Int × Int) (run : Nat → Nat) : Bool :=
  match sp with
  | 0 => decide (0 ≤ ext.1) && decide (ext.2 < s.hbmCap) && !s.hbm.outOfService
      && (decide (s.hbm.retiring = []) || (List.range d.runs).all (fun r => !s.hbmGoing (run r) d.len0))
  | 3 => decide ((3 * 2 ^ 60 : Int) ≤ ext.1) && decide (ext.2 < 3 * 2 ^ 60 + 2 ^ 57)
  | _ => (List.range d.runs).all (fun r => s.tileRunOk sp (run r) d.len0)

/-- Bytes that two operands touch in one tile: lowest and highest. -/
def Desc.tileSpan (d : Desc) (run : Nat → Nat) (key : Nat) : Option (Nat × Nat) :=
  (List.range d.runs).foldl (fun o r =>
    let a := run r
    if a / 2 ^ 43 = key then
      let lo := addrByte a
      let hi := addrByte a + d.len0 - 1
      match o with
      | none => some (lo, hi)
      | some (l, h) => some (min l lo, max h hi)
    else o) none

/-- Source and destination extents overlap (DERR 5). -/
def Desc.overlap (d : Desc) : Bool :=
  let sp := spaceOf d.src
  decide (sp = spaceOf d.dst) &&
    (if sp = 1 ∨ sp = 2 then
      (((List.range d.runs).map (fun r => d.runSrc r / 2 ^ 43)).eraseDups).any (fun key =>
        match d.tileSpan d.runSrc key, d.tileSpan d.runDst key with
        | some a, some b => decide (a.1 ≤ b.2 ∧ b.1 ≤ a.2)
        | _, _ => false)
     else decide (d.srcExtent.1 ≤ d.dstExtent.2 ∧ d.dstExtent.1 ≤ d.srcExtent.2))

/-- The checks of R260 in their order: the first that fails, 0 for none. -/
def State.derr (s : State) (k : Nat) (d : Desc) : Nat :=
  let sh := d.shuf
  let used (i : Nat) : Bool := decide (i < d.ndim)
  let dims := [1, 2, 3, 4]
  let sa := spaceAlign (spaceOf d.src)
  let da := spaceAlign (spaceOf d.dst)
  if decide (d.ndim = 0 ∨ 5 < d.ndim ∨ 4 < sh ∨ bits d.ctrl 31 18 ≠ 0)
      || (decide (d.ewm1 ≠ 0) && decide (sh ≠ 1 ∧ sh ≠ 2))
      || (decide (sh = 3 ∨ sh = 4) != decide (d.waysm1 ≠ 0))
      || (decide (bits d.ctrl 14 13 ≠ 0) && decide (sh ≠ 3 ∧ sh ≠ 4))
      || dims.any (fun i => !used i && decide (d.rawCnt i ≠ 0 ∨ d.sstr i ≠ 0 ∨ d.dstr i ≠ 0))
      || !addrFields d.src || !addrFields d.dst then 1
  else if decide (d.src % sa ≠ 0 ∨ d.dst % da ≠ 0 ∨ d.len0 % max sa da ≠ 0)
      || dims.any (fun i => used i && decide (d.sstr i % sa ≠ 0 ∨ d.dstr i % da ≠ 0)) then 2
  else if k ≠ 8 ∧ (spaceOf d.src = 3 ∨ spaceOf d.dst = 3) then 3
  else if d.total ≠ 0 ∧ ¬ (s.operandOk d (spaceOf d.src) d.srcExtent d.runSrc ∧ s.operandOk d (spaceOf d.dst) d.dstExtent d.runDst) then 4
  else if d.total ≠ 0 ∧ d.overlap then 5
  else if decide ((sh = 1 ∨ sh = 2) ∧ d.len0 % (64 * (d.ewm1 + 1)) ≠ 0)
      || decide ((sh = 3 ∨ sh = 4) ∧ d.len0 % (64 * (d.waysm1 + 1)) ≠ 0) then 6
  else if 2 ^ 40 < d.total then 7
  else 0

/-- The reason for which the charter refuses a descriptor of cluster k (R261, R403): 1 window, 3 space right, 0 none; with the direction
and the extent refused. -/
def State.descRefused (s : State) (k : Nat) (d : Desc) : Nat × Bool × Int × Int :=
  let one (write : Bool) (sp : Nat) (e : Int × Int) : Nat :=
    match sp with
    | 0 => if s.hbmGranted (idMover k) write e.1.toNat e.2.toNat then 0 else 1
    | 3 => if s.mflag (idMover k) 0 then 0 else 3
    | _ => if s.mflag (idMover k) (if write then 2 else 1) then 0 else 3
  let r := one false (spaceOf d.src) d.srcExtent
  if s.fuseFault then (3, false, d.srcExtent)
  else if r ≠ 0 then (r, false, d.srcExtent)
  else (one true (spaceOf d.dst) d.dstExtent, true, d.dstExtent)

/-! ### Delivery blocks (R263) -/

/-- Bytes of the delivery block that begins at output offset `off`. -/
def Desc.blockLen (d : Desc) (off : Nat) : Nat :=
  let b := if d.shuf = 0 ∨ d.len0 = 0 then d.dblk else max 1 (d.dblk / d.len0) * d.len0
  min b (d.total - off)

/-- The pieces of output bytes [off, off + len): run, first byte in the run, length. -/
def Desc.pieces (d : Desc) (off len : Nat) : List (Nat × Nat × Nat) :=
  (List.range ((off + len + d.len0 - 1) / d.len0 - off / d.len0)).map (fun i =>
    let r := off / d.len0 + i
    let lo := max off (r * d.len0)
    (r, lo - r * d.len0, min (off + len) ((r + 1) * d.len0) - lo))

/-- Bit e of the number that a little-endian byte list spells. -/
def bitOf (bs : List Byte) (i : Nat) : Bool := (bs.getD (i / 8) 0).getLsbD (i % 8)

def packBits (n : Nat) (f : Nat → Bool) : List Byte :=
  (List.range n).map (fun j => BitVec.ofNat 8 ((List.range 8).foldl (fun v i => v + bit (f (8 * j + i)) * 2 ^ i) 0))

/-- The reshuffle of one run (R262). -/
def Desc.reshuffle (d : Desc) (bs : List Byte) : List Byte :=
  let l := bs.length
  let ew := d.ewm1 + 1
  let w := d.waysm1 + 1
  let g := d.gran
  let n := 8 * l / ew
  match d.shuf with
  | 1 => packBits l (fun i => bitOf bs (i % n * ew + i / n))
  | 2 => packBits l (fun i => bitOf bs (i % ew * n + i / ew))
  | 3 => (List.range l).map (fun o => bs.getD (o / g % w * (l / w) + o / (g * w) * g + o % g) 0)
  | 4 => (List.range l).map (fun i => bs.getD (i % (l / w) / g * (g * w) + i / (l / w) * g + i % g) 0)
  | _ => bs

/-! ### The tiles a destination reaches -/

/-- The tiles of this device that the destination of a descriptor reaches. -/
def State.dstTiles (s : State) (d : Desc) : List Nat :=
  if spaceOf d.dst = 1 ∨ spaceOf d.dst = 2 then
    (((List.range d.runs).map d.runDst).filterMap (fun a => if addrDev a = s.devId then some (addrTile a) else none)).eraseDups
  else []

/-! ### How a descriptor ends -/

/-- A `move` is complete: it leaves its queue (R231, R265). -/
def State.moveDone (s : State) (m : Option MoveRef) : State :=
  match m with
  | none => s
  | some r => s.modPanel r.panel (fun x => { x with
      queues := SMap.mod [] x.queues r.queue (fun l => l.filter (fun c => c.ord ≠ r.ord)) })

/-- The walk position after `done` bytes: I1 to I4 as items 1 to 4, the offset B in the innermost run as item 0. -/
def Desc.place (d : Desc) (done : Nat) : Nat → Nat
  | 0 => done % d.len0
  | i => d.idx (done / d.len0) i

/-- Residue and cursor registers for `done` announced bytes (R268); the cursor of a walk with no unannounced block is a free value (DESIGN
CHOICE, DESIGN CHOICE, log entry 80). -/
def State.setCursor (s : State) (k n : Nat) (d : Desc) (done : Nat) : State :=
  let left := d.total - done
  let at' : Nat → Nat := if done < d.total then d.place done else Config.endCursor s.draws
  let s := if done < d.total then s else s.drawn
  let s := setF (setF s Reg.MOV_CH_RESID_LO_RESID left k n) Reg.MOV_CH_RESID_HI_RESID (left / 2 ^ 32) k n
  let s := setF s Reg.MOV_CH_CUR_B_B (at' 0) k n
  let s := setF (setF s Reg.MOV_CH_CUR_I12_I1 (at' 1) k n) Reg.MOV_CH_CUR_I12_I2 (at' 2) k n
  setF (setF s Reg.MOV_CH_CUR_I34_I3 (at' 3) k n) Reg.MOV_CH_CUR_I34_I4 (at' 4) k n

/-- One more descriptor has ended: counted, and every marker behind it has one less ahead (R422, R426). -/
def State.countEnd (s : State) (k n : Nat) : State :=
  (s.count (ctrChan k n + 3)).modChan k n (fun c => { c with marks := c.marks.map (fun m => { m with ahead := m.ahead - 1 }) })

/-- The current descriptor ends with a status (1 OK, 2 REJECTED, 3 BUS_ERR, 4 XLATE_FAIL, 5 ABORTED, 6 CHARTER). -/
def State.endDesc (s : State) (k n status : Nat) : State :=
  match (s.chan k n).cur with
  | none => s
  | some d =>
    let s := setF s Reg.MOV_CH_STATUS_LAST status k n
    let s := if status = 1 then s else
      setF (setF (setF s Reg.MOV_CH_ERR_SEQ_VALUE d.seq k n) Reg.MOV_CH_ERR_TAGS_LAYER d.layer k n) Reg.MOV_CH_ERR_TAGS_OPERATOR d.oper k n
    let s := s.modChan k n (fun c => { c with cur := none, done := 0, held := 0, response := none }.rewind)
    let s := ((s.countEnd k n).moveDone d.move).setChanState k n 0
    if status = 1 then (if d.irq then s.chanDone k n else s) else s.chanErr k n

/-- What a bus error or a translation failure with status `st` does once the bursts in flight are complete (R267, R269, R270). -/
def State.failDesc (s : State) (k n st : Nat) (addr : Nat) : State :=
  match (s.chan k n).cur with
  | none => s
  | some d =>
    let s := s.setCursor k n d (s.chan k n).done
    let s := setF (setF s Reg.MOV_CH_FAIL_LO_VALUE addr k n) Reg.MOV_CH_FAIL_HI_VALUE (addr / 2 ^ 32) k n
    let s := s.reportHard (unitNo blkMOV k) [BitVec.ofNat 8 st, BitVec.ofNat 8 n]
    let s := match d.move with
      | some _ => (s.dstTiles d).foldl (fun (a : State) t => a.postIrq t 0) s
      | none => s
    let s := s.modChan k n Chan.rewind
    if flag s Reg.MOV_CH_CFG_HALT_ON_ERR k n then
      ((s.modChan k n (fun c => { c with held := st })).setChanState k n 2).chanErr k n
    else s.endDesc k n st

/-! ### Blocks and bursts in flight (R264, R265, R267, R271) -/

/-- Messages of a channel wait on some link to another device. -/
def State.onLinks (s : State) (k n : Nat) : Bool :=
  s.lan.any (fun e => e.2.queue.any (fun m => decide (m.mover = some (k, n))) || e.2.retry.any (fun f => decide (f.of.mover = some (k, n))))

/-- A message of a channel, or an acknowledgement for it, is on its way in this device. -/
def State.onMesh (s : State) (k n : Nat) : Bool :=
  s.flights.any (fun f => match f.origin with
    | .mover a b => decide (a = k ∧ b = n)
    | .ack a b _ => decide (a = k ∧ b = n)
    | _ => false)

/-- Some burst of the channel is in flight. -/
def State.inFlight (s : State) (k n : Nat) : Bool :=
  s.onMesh k n || s.onLinks k n || (s.chan k n).buf.any (fun b => decide (b.raw.length < b.len))

/-- Every byte of the first unannounced block has been written out. -/
def Chan.blockOut (c : Chan) (d : Desc) : Bool := decide (c.done < d.total) && decide (c.wr = c.done + d.blockLen c.done)

/-- The first unannounced block is written (R264): its messages have arrived and their acknowledgements have come back, but for those that
another device owes. -/
def State.blockHere (s : State) (k n : Nat) (d : Desc) : Bool :=
  (s.chan k n).blockOut d && decide ((s.chan k n).acks = []) && !s.onMesh k n && !s.onLinks k n

/-- The first unannounced block is announced (R265). -/
def State.announce (s : State) (k n : Nat) (d : Desc) : State :=
  let done := (s.chan k n).done + d.blockLen (s.chan k n).done
  let s := s.modChan k n (fun c => { c with done := done, far := false })
  setF ((s.count (ctrChan k n + 2)).setCursor k n d done) Reg.MOV_CH_STATUS_BLOCKS (getF s Reg.MOV_CH_STATUS_BLOCKS k n + 1) k n

/-- The first block is announced if it is written; what another device owes comes when a free value says so (DESIGN CHOICE, log entry 8). -/
def State.announceIf (s : State) (k n : Nat) (d : Desc) : State × Bool :=
  if !s.blockHere k n d then (s, false)
  else if (s.chan k n).far then (if Config.remoteDone s.draws then (s.drawn.announce k n d, true) else (s.drawn, false))
  else (s.announce k n d, true)

/-- A page of host memory has no translation: a page request is sent, or the descriptor fails (R270). -/
def State.needPage (s : State) (k n : Nat) (d : Desc) (addr : Nat) : State :=
  if flag s Reg.MOV_HOST_CFG_PRI_EN ∧ s.priEn ∧ ¬ s.priStopped then
    let s := (s.setCursor k n d (s.chan k n).done).modChan k n (fun c => { c.rewind with failAt := addr })
    (s.setChanState k n 4).emit .pageRequest [n, addr % 2 ^ 57 / 4096 * 4096]
  else s.failDesc k n 4 addr

/-- A descriptor that is to stop does so once its bursts in flight are complete; the block that is written by then is announced (R267). -/
def State.settleChan (s : State) (k n : Nat) : State :=
  match (s.chan k n).stop, (s.chan k n).cur with
  | some (st, addr), some d =>
    if s.inFlight k n then s
    else
      let s := (s.announceIf k n d).1
      if st = 4 then s.needPage k n d addr else s.failDesc k n st addr
  | _, _ => s

def State.settleMovers (s : State) : State :=
  (s.chans.filter (fun e => e.2.stop.isSome)).foldl (fun (s : State) e => s.settleChan (e.1 / 64) (e.1 % 64)) s

/-- An active channel is to stop with a status at an address. -/
def State.stopDesc (s : State) (k n st addr : Nat) : State :=
  if s.chanState k n ≠ 1 then s
  else (s.modChan k n (fun c => { c with stop := c.stop.or (some (st, addr)) })).settleChan k n

/-- A bus error (R267); during an abort it only leaves ERR_SEEN (R273). -/
def State.chanBusError (s : State) (k n addr : Nat) : State :=
  if s.chanState k n = 1 ∨ s.chanState k n = 3 then (s.modChan k n (fun c => { c with errSeen := true })).stopDesc k n 3 addr else s

/-- The mover address that a message of a mover names. -/
def Msg.movAddr (m : Msg) : Nat := m.h.dlv * 2 ^ 60 + m.h.dst * 2 ^ 48 + m.h.ddev * 2 ^ 43 + 128 * m.h.line

/-- An abort begins (R271): no effect on an idle channel. -/
def State.startAbort (s : State) (k n : Nat) : State :=
  let c := s.chan k n
  if c.cur.isNone ∧ c.waiting = [] then s
  else (setF s Reg.MOV_CH_CTRL_ABORT 1 k n).setChanState k n 3

/-- The waiting descriptors end ABORTED with nothing moved. -/
def State.abortWaiting (s : State) (k n : Nat) : State :=
  (s.chan k n).waiting.foldl (fun (s : State) d =>
    let s := (setF (setF (setF (setF s Reg.MOV_CH_ERR_SEQ_VALUE d.seq k n) Reg.MOV_CH_ERR_TAGS_LAYER d.layer k n)
      Reg.MOV_CH_ERR_TAGS_OPERATOR d.oper k n) Reg.MOV_CH_STATUS_LAST 5 k n).setCursor k n d 0
    (setF (s.countEnd k n) Reg.MOV_CH_STATUS_BLOCKS 0 k n).moveDone d.move) (s.modChan k n (fun c => { c with waiting := [] }))

/-- An abort completes (R271, R273). -/
def State.finishAbort (s : State) (k n : Nat) : State :=
  if s.chanState k n ≠ 3 ∨ s.inFlight k n then s
  else
    let s := match (s.chan k n).cur with
      | some d => (s.announceIf k n d).1
      | none => s
    let c := s.chan k n
    let s := match c.cur with
      | some d => (s.setCursor k n d c.done).endDesc k n 5
      | none => s.chanErr k n
    let s := setF s Reg.MOV_CH_STATUS_ERR_SEEN (bit c.errSeen) k n
    let s := (s.abortWaiting k n).modChan k n (fun c => { c with errSeen := false })
    (setF s Reg.MOV_CH_CTRL_ABORT 0 k n).setChanState k n (if c.charter then 6 else 0)

/-! ### Buffer entries (R251, R253) -/

/-- The buffer entries of cluster k that channels other than `n` have reserved. -/
def State.reserved (s : State) (k : Nat) (n : Option Nat) : Nat :=
  ((List.range 64).filter (fun c => some c ≠ n)).foldl (fun a c => a + getF s Reg.MOV_CH_CFG_RSV k c) 0

/-- Entries of 128 bytes that hold `n` bytes; a reshuffled run passes through at most 16 of them (DESIGN CHOICE, log entry 45). -/
def entriesOf (n : Nat) : Nat := min 16 ((n + 127) / 128)

/-- Buffer entries in use by a channel. -/
def Chan.entries (c : Chan) : Nat :=
  match c.buf with
  | [] => 0
  | b :: r => entriesOf (b.len - c.used) + r.foldl (fun n x => n + entriesOf x.len) 0

/-- Entries of cluster k that no channel reserves, and those of them in use. -/
def State.pool (s : State) (k : Nat) : Nat := 4096 - s.reserved k none
def State.borrowed (s : State) (k : Nat) : Nat :=
  s.chans.foldl (fun a e => if e.1 / 64 = k then a + (e.2.entries - getF s Reg.MOV_CH_CFG_RSV k (e.1 % 64)) else a) 0

/-- Entries that a channel may still take: the rest of its reservation, and unreserved ones. -/
def State.entryRoom (s : State) (k n : Nat) : Nat :=
  (getF s Reg.MOV_CH_CFG_RSV k n - (s.chan k n).entries) + (s.pool k - s.borrowed k)

end Sys2Proof.Machine
end

