-- ==== Sys2Proof/Machine/LaneOps.lean ====
section
/-! DEFINITION. Lanes and links: state, width and failure of a link (R296 to R298, R308, R316, R317), routing through a suit (R301), sending on
a link (R304 to R307), and changes of the active lane set (R305, R312). -/

namespace Sys2Proof.Machine

def State.lnk (s : State) (d : Nat) : LaneLink := SMap.get LaneLink.init s.lan d
def State.setLnk (s : State) (d : Nat) (x : LaneLink) : State := { s with lan := SMap.set LaneLink.init s.lan d x }
def State.modLnk (s : State) (d : Nat) (f : LaneLink → LaneLink) : State := s.setLnk d (f (s.lnk d))

def State.laneSt (s : State) (l : Nat) : LaneSt := SMap.get LaneSt.init s.lanes l
def State.modLane (s : State) (l : Nat) (f : LaneSt → LaneSt) : State := { s with lanes := SMap.mod LaneSt.init s.lanes l f }

/-- The lanes of a link, and the link of a lane (R296). -/
def lanesOf (d : Nat) : List Nat := (List.range 8).map (fun i => 8 * d + i)
def linkOfLane (l : Nat) : Nat := l / 8

/-- LAN_LINK_CFG.PROTO: 0 off, 1 stitch link, 2 Ethernet, 3 bridge. -/
def State.proto (s : State) (d : Nat) : Nat := getF s Reg.LAN_LINK_CFG_PROTO d

/-- LAN_LINK_STATUS.STATE. -/
def State.lnkState (s : State) (d : Nat) : Nat := getF s Reg.LAN_LINK_STATUS_STATE d

/-- The link is up, at any width. -/
def State.lnkUp (s : State) (d : Nat) : Bool := decide (s.lnkState d = 2 ∨ s.lnkState d = 3)

/-- A stitch link that is up: it carries tile-network traffic. -/
def State.suitUp (s : State) (d : Nat) : Bool := decide (s.proto d = 1) && s.lnkUp d

/-- MIN_WIDTH in force. -/
def State.minWidth (s : State) (d : Nat) : Nat := min 8 (max 1 (getF s Reg.LAN_LINK_CFG_MIN_WIDTH d))

def popcount8 (m : Nat) : Nat := ((List.range 8).filter (bitAt m)).length

/-- STATE of a lane: 0 off, 1 training, 2 active, 3 slipped, 4 retired, 5 in loop. -/
def State.laneState (s : State) (l : Nat) : Nat := getF s Reg.LAN_LANE_STATUS_STATE l
def State.setLaneState (s : State) (l v : Nat) : State := setF s Reg.LAN_LANE_STATUS_STATE v l

/-- Logical lane of a physical lane: reversed links count downwards (R310). -/
def State.logical (s : State) (l : Nat) : Nat :=
  if flag s Reg.LAN_LINK_STATUS_REV (linkOfLane l) then 7 - l % 8 else l % 8

/-- The mask of the logical lanes of link d whose state satisfies `p`. -/
def State.laneMask (s : State) (d : Nat) (p : Nat → Bool) : Nat :=
  (lanesOf d).foldl (fun m l => if p (s.laneState l) then m ||| 2 ^ s.logical l else m) 0

/-- RETIRED and SLIPPED follow the lane states. -/
def State.showMasks (s : State) (d : Nat) : State :=
  setF (setF s Reg.LAN_LINK_MASK_RETIRED (s.laneMask d (· = 4)) d) Reg.LAN_LINK_MASK_SLIPPED (s.laneMask d (fun v => v = 3 || v = 5)) d

/-- The stitches that start or end at a lane port of link d. -/
def State.stitchesOnLink (s : State) (d : Nat) : List Nat :=
  s.stitches.filterMap (fun e => match e.2 with
    | some st => if (st.srcKind = 2 ∧ st.src / 8 = d) ∨ (st.dstKind = 2 ∧ st.dst / 8 = d) then some e.1 else none
    | none => none)

/-- Stitches at the link's ports become broken (R308, R317). -/
def State.breakOnLink (s : State) (d : Nat) : State := (s.stitchesOnLink d).foldl (fun s n => s.breakStitch n 0) s

def State.countDrop (s : State) (d : Nat) (n : Nat := 1) : State := bumpF s Reg.LAN_LINK_CNT_DROP n d

/-- A link state change raises vector 27 (R380). -/
def State.setLnkState (s : State) (d v : Nat) : State :=
  if s.lnkState d = v then s else (setF s Reg.LAN_LINK_STATUS_STATE v d).raise 27

/-- Everything queued for the link is discarded and counted; the movers' descriptors whose messages it held meet a bus error (R316). -/
def State.dropQueue (s : State) (d : Nat) : State :=
  let x := s.lnk d
  let q := x.queue ++ (x.retry.filter (·.tail)).map (·.of)
  let s := (s.setLnk d { LaneLink.init with in0 := x.in0 }).countDrop d (q.length + x.out0.length)
  q.foldl (fun (s : State) m => match m.mover with
    | some c => s.chanBusError c.1 c.2 m.msg.movAddr
    | none => s) s

/-- The link leaves service: `v` is 0 down or 4 failed. Its lanes are off, but for the retired ones (R316, R317). -/
def State.lnkOff (s : State) (d v cause : Nat) : State :=
  let s := (lanesOf d).foldl (fun s l => if s.laneState l = 4 then s else setF (s.setLaneState l 0) Reg.LAN_LANE_STATUS_STEP 0 l) s
  let s := setF (setF (setF (setF s Reg.LAN_LINK_STATUS_CAUSE cause d) Reg.LAN_LINK_STATUS_WIDTH 0 d) Reg.LAN_LINK_MASK_ACTIVE 0 d) Reg.LAN_LINK_CFG_UP 0 d
  (((s.showMasks d).setLnkState d v).dropQueue d).breakOnLink d

/-! ### Blocks and codewords sent (R303 to R305) -/

/-- The payload of a control block by its TYPE and fields (R305). -/
def ctlValue : List Nat → Nat
  | [0x2D, a, x, y, z] => 0x2D + a % 4096 * 2 ^ 8 + x % 256 * 2 ^ 20 + y % 256 * 2 ^ 28 + z % 256 * 2 ^ 36
  | [0x33, f] => 0x33 + f % 4096 * 2 ^ 8
  | [0x4B, m, c] => 0x4B + m % 256 * 2 ^ 8 + c % 65536 * 2 ^ 16
  | [0x71, l, k, w, c] => 0x71 + l % 8 * 2 ^ 8 + k % 2 * 2 ^ 11 + w % 2 * 2 ^ 12 + c % 16 * 2 ^ 13
  | [0x72, i, v] => 0x72 + i % 8 * 2 ^ 8 + v % 2 ^ 32 * 2 ^ 16
  | t :: _ => t
  | [] => 0

/-- The physical lanes over which blocks are dealt, in ascending logical order: the active set, or, in the parameter exchange, the lanes that are
aligned. -/
def State.striped (s : State) (d : Nat) : List Nat :=
  let p (l : Nat) : Bool := if s.lnkUp d then bitAt (getF s Reg.LAN_LINK_MASK_ACTIVE d) (s.logical l)
    else decide (s.laneState l = 1 ∧ 5 ≤ getF s Reg.LAN_LANE_STATUS_STEP l)
  (List.range 8).filterMap (fun i => (lanesOf d).find? (fun l => decide (s.logical l = i) && p l))

/-- One codeword on every lane of the set: block i goes to lane i mod w, and every trailer carries the map of the lanes with class 0 blocks (R303,
R304). -/
def State.sendCodewords (s : State) (d : Nat) : State :=
  let l := s.striped d
  let w := l.length
  let x := s.lnk d
  let share (i : Nat) : List Block := (List.range 77).map (fun j => x.tx.getD (w * j + i) Block.idle)
  let map := (l.zipIdx).foldl (fun m e => if (share e.2).any (·.c0) then m ||| 2 ^ s.logical e.1 else m) 0
  let s := (l.zipIdx).foldl (fun (s : State) e =>
    let c := buildCodeword (share e.2) (s.laneSt e.1).scr (s.logical e.1) x.txSeq map
    (s.modLane e.1 (fun y => { y with scr := c.1 })).emit .codeword [e.1, x.txSeq] (leBytes 680 c.2)) s
  s.setLnk d { x with tx := x.tx.drop (77 * w), txSeq := (x.txSeq + 1) % 65536 }

def State.fillN (d : Nat) : Nat → State → State
  | 0, s => s
  | n + 1, s =>
    let w := (s.striped d).length
    if w = 0 ∨ (s.lnk d).tx.length < 77 * w then s else State.fillN d n (s.sendCodewords d)

/-- Blocks join the link's stream, and full codewords go out. -/
def State.dealBlocks (s : State) (d : Nat) (bs : List Block) : State :=
  let s := s.modLnk d (fun x => { x with tx := x.tx ++ bs })
  State.fillN d ((s.lnk d).tx.length / 77 + 1) s

/-- Codewords that are begun are filled with IDLE blocks and sent: the stream on a lane never stops (R303; DESIGN CHOICE, log entry 82). -/
def State.flushLane (s : State) (d : Nat) : State :=
  if (s.lnk d).tx = [] ∨ s.striped d = [] ∨ ¬ (s.proto d = 1 ∨ s.proto d = 3) then s else s.sendCodewords d

/-- A control block is sent on link d. -/
def State.sendCtl (s : State) (d : Nat) (l : List Nat) : State := (s.emit .laneBlock (d :: l)).dealBlocks d [⟨true, ctlValue l, false⟩]

/-- The lanes of link d in bring-up. -/
def State.training (s : State) (d : Nat) : List Nat := (lanesOf d).filter (fun l => decide (s.laneState l = 1))

/-! ### The active set (R304, R305, R312) -/

/-- The active set becomes `m`: the width follows, stitches break below width 5, the link fails below MIN_WIDTH (R308, R316). -/
def State.applyMask (s : State) (d m : Nat) : State :=
  let w := popcount8 m
  let s := (setF (setF s Reg.LAN_LINK_MASK_ACTIVE m d) Reg.LAN_LINK_STATUS_WIDTH w d).showMasks d
  let s := if w < 5 then s.breakOnLink d else s
  if w < s.minWidth d then s.lnkOff d 4 1
  else s.setLnkState d (if w = 8 then 2 else 3)

/-- A LANE block is sent: the new set takes effect 4 codewords ahead (R312). -/
def State.sendMask (s : State) (d m : Nat) : State :=
  let at_ := ((s.lnk d).txSeq + 4) % 65536
  (s.modLnk d (fun x => { x with nextMask := some (m, at_) })).sendCtl d [0x4B, m, at_]

/-- The set that stands or has been announced. -/
def State.plannedMask (s : State) (d : Nat) : Nat :=
  match (s.lnk d).nextMask with
  | some m => m.1
  | none => getF s Reg.LAN_LINK_MASK_ACTIVE d

/-- The lanes that an Ethernet link of the selected mode uses, and those of MAC k (R302). -/
def State.etherLanes (s : State) (d : Nat) : List Nat :=
  let per := match getF s Reg.LAN_LINK_CFG_ETH_MODE d with
    | 0 => 4
    | 1 => 2
    | _ => 1
  (lanesOf d).filter (fun l => decide (l % 4 < per))

def State.macLanes (s : State) (k : Nat) : List Nat := (s.etherLanes (k / 2)).filter (fun l => decide (l / 4 = k))

/-- Every lane of a MAC's port is trained (R302). -/
def State.macReady (s : State) (k : Nat) : Bool := (s.macLanes k).all (fun l => decide (s.laneState l = 2))

/-- ACTIVE, WIDTH and STATE of an Ethernet link follow its two ports (R302, R316): the link is up while one of them runs. -/
def State.showEther (s : State) (d : Nat) : State :=
  let m := (lanesOf d).foldl (fun m l => if s.macReady (l / 4) && (s.etherLanes d).contains l then m ||| 2 ^ s.logical l else m) 0
  let some1 := decide (s.training d ≠ [])
  let s := (setF (setF s Reg.LAN_LINK_MASK_ACTIVE m d) Reg.LAN_LINK_STATUS_WIDTH (popcount8 m) d).showMasks d
  (setF s Reg.LAN_LINK_CFG_UP (bit some1) d).setLnkState d (if popcount8 m = 8 then 2 else if m ≠ 0 then 3 else if some1 then 1 else 0)

/-- A lane leaves striping (R312, R316, R320): a LANE block on the others, or, with no other lane, the link goes down. -/
def State.removeLane (s : State) (l : Nat) : State :=
  let d := linkOfLane l
  let m := s.plannedMask d
  let b := s.logical l
  if s.proto d = 2 then s.showEther d
  else if ¬ bitAt m b then s.showMasks d
  else if popcount8 m = 1 then
    ((setF (setF (s.modLnk d (fun x => { x with nextMask := none })) Reg.LAN_LINK_MASK_ACTIVE 0 d) Reg.LAN_LINK_STATUS_WIDTH 0 d).showMasks d).setLnkState d 0
      |>.breakOnLink d
  else (s.sendMask d (m - 2 ^ b)).showMasks d

/-- A lane joins striping again through a LANE block (R313); a link that a slip took down comes up with it. -/
def State.joinLane (s : State) (l : Nat) : State :=
  let d := linkOfLane l
  let s := (setF ((s.setLaneState l 2).modLane l (fun x => { x with ofs := some 0, looped := false })) Reg.LAN_LANE_STATUS_STEP 6 l).showMasks d
  if s.proto d = 2 then s.showEther d
  else if s.lnkUp d then s.sendMask d (s.plannedMask d ||| 2 ^ s.logical l) else s.applyMask d (2 ^ s.logical l)

/-! ### Lane events (R316) -/

def State.laneEvent (s : State) (l : Nat) : State :=
  (bumpF s Reg.LAN_LANE_ERR_EVENTS 1 l).modLane l (fun x => { x with events := x.events + 1 })

/-- A lane retires: black-box record, fault report, vector 27; it leaves striping, and an Ethernet port goes down (R316). -/
def State.retireLane (s : State) (l : Nat) : State :=
  let d := linkOfLane l
  if s.laneState l = 4 then s
  else
    let was := s.laneState l
    let s := ((s.setLaneState l 4).report 7 (unitNo blkLAN l) [BitVec.ofNat 8 l, BitVec.ofNat 8 (getF s Reg.LAN_LINK_STATUS_WIDTH d)]).armFreeze 2
    let s := s.raise 27
    if s.proto d = 2 then
      let s := ((lanesOf d).filter (fun k => decide (k / 4 = l / 4) && decide (s.laneState k ≠ 4))).foldl (fun (s : State) k => s.setLaneState k 0) s
      if s.macReady (2 * d) || s.macReady (2 * d + 1) then s.showEther d else s.lnkOff d 0 1
    else if was = 2 then (if s.plannedMask d = 2 ^ s.logical l then s.lnkOff d 4 1 else s.removeLane l)
    else if s.lnkState d = 0 ∧ (lanesOf d).all (fun k => decide (s.laneState k = 0 ∨ s.laneState k = 4)) then s.lnkOff d 4 1
    else s.showMasks d

/-! ### Sending on a link (R304 to R307) -/

/-- The bits that a flit's CRC covers, in the order in which they go on the line (R305). -/
def flitBits (head : Nat) (ctl : DWord) (data : BitVec 512) : List Bool :=
  (List.range 48).map (bitAt head) ++ (List.range 64).map ctl.getLsbD ++ (List.range 512).map data.getLsbD

/-- CRC-16 with polynomial 0x1021 and initial value 0xFFFF. -/
def crc16 (l : List Bool) : BitVec 16 :=
  l.foldl (fun c b => if c.getLsbD 15 != b then (c <<< 1) ^^^ 0x1021 else c <<< 1) 0xFFFF

/-- Payload bits [47:0] of a FLIT control block (R305). -/
def flitHead (cls vc : Nat) (tail : Bool) (port seq : Nat) : Nat :=
  0x1E + cls % 4 * 2 ^ 8 + vc % 2 * 2 ^ 10 + bit tail * 2 ^ 11 + port % 8 * 2 ^ 12 + seq % 4096 * 2 ^ 16

/-- The control word and the data of a message's head or tail flit (R190). -/
def Msg.flit (m : Msg) (tail : Bool) : DWord × BitVec 512 :=
  if tail then (m.trl, (m.data >>> 512).setWidth 512) else (m.hdr, m.data.setWidth 512)

/-- A flit leaves on link d as 10 blocks: the FLIT block, its control word, and its data (R304). -/
def State.sendFlit (s : State) (d cls vc port seq : Nat) (tail : Bool) (m : Msg) : State :=
  let h := flitHead cls vc tail port seq
  let f := m.flit tail
  let v := h + (crc16 (flitBits h f.1 f.2)).toNat * 2 ^ 48
  let c0 := decide (cls = 0)
  ((s.count (ctrLink d)).emit .laneFlit [d, v, f.1.toNat] (leBytes 64 f.2.toNat)).dealBlocks d
    (⟨true, v, c0⟩ :: ⟨false, f.1.toNat, c0⟩ :: (List.range 8).map (fun i => ⟨false, f.2.toNat / 2 ^ (64 * i) % 2 ^ 64, c0⟩))

/-- BVOID is set in what the lane block forwards during a brownout episode (R318). -/
def State.voided (s : State) (m : Msg) : Msg := if s.brownout then { m with hdr := m.hdr ||| 64 } else m

/-- Credits of a class on a link: 256 at bring-up. -/
def LaneLink.creditOf (x : LaneLink) (c : Nat) : Nat := SMap.get 256 x.credit c

/-- Send what may be sent: oldest first, two credits and two retry places a message; a partner that is frozen is sent nothing (R301, R306). -/
def State.pumpN (d : Nat) : Nat → State → State
  | 0, s => s
  | n + 1, s =>
    let x := s.lnk d
    if ¬ s.lnkUp d ∨ 1022 < x.retry.length then s
    else match x.queue.find? (fun m => decide (2 ≤ x.creditOf m.cls)) with
      | none => s
      | some m =>
        let m := { m with msg := s.voided m.msg }
        let a := x.nextSeq
        let b := (a + 1) % 4096
        let s := s.setLnk d { x with queue := x.queue.eraseIdx (x.queue.findIdx (fun m => decide (2 ≤ x.creditOf m.cls))), retry := x.retry ++ [⟨a, false, m⟩, ⟨b, true, m⟩], nextSeq := (a + 2) % 4096,
                                     credit := SMap.set 256 x.credit m.cls (x.creditOf m.cls - 2) }
        State.pumpN d n ((s.sendFlit d m.cls m.vc m.port a false m.msg).sendFlit d m.cls m.vc m.port b true m.msg)

/-- The two flits of a class 0 message leave on link d. -/
def State.emit0 (s : State) (d port : Nat) (m : Msg) : State :=
  let m := s.voided m
  ((s.count (ctrLink d + 2)).sendFlit d 0 0 port 0 false m).sendFlit d 0 0 port 0 true m

/-- What waits for the link is sent: class 0 ahead of everything not started (R307). -/
def State.pump (s : State) (d : Nat) : State :=
  let q := (s.lnk d).out0
  let s := if q = [] ∨ ¬ s.lnkUp d then s else q.foldl (fun (s : State) e => s.emit0 d e.1 e.2) (s.modLnk d (fun x => { x with out0 := [] }))
  State.pumpN d (s.lnk d).queue.length s

/-- A message of classes 1 to 3 is handed to link d. -/
def State.laneSend (s : State) (d port vc : Nat) (m : Msg) (mover : Option (Nat × Nat)) : State :=
  (s.modLnk d (fun x => { x with queue := x.queue ++ [⟨m.h.cls, vc, port, m, mover⟩] })).pump d

/-- A class 0 message is handed to link d: sent at once, held while the partner is frozen (R318), dropped with a link that is not up. -/
def State.laneSend0 (s : State) (d port : Nat) (m : Msg) : State :=
  if s.lnkUp d then s.emit0 d port m
  else if s.lnkState d = 5 then s.modLnk d (fun x => { x with out0 := x.out0 ++ [(port, m)] })
  else s.countDrop d

/-! ### Routing through a suit (R301) -/

/-- The link by which a message for a device leaves, in the chosen way and the other way; none for this device itself. -/
def State.suitLinks (s : State) (ddev : Nat) : Option (Nat × Nat) :=
  let sx := getF s Reg.LAN_SUIT_SX
  let sy := getF s Reg.LAN_SUIT_SY
  let me := s.devId
  let way (n a b plus : Nat) : Option (Nat × Nat) :=
    let f := (b + n - a) % n
    if f = 0 then none else if f ≤ n - f then some (plus, plus + 1) else some (plus + 1, plus)
  (way sx (me % sx) (ddev % sx) 0).or (way sy (me / sx) (ddev / sx) 2)

/-- The link that a message takes: the chosen way while it is up or its partner is frozen, else the other way while that is up;
`.inr` names the link in whose DROP the message is counted. -/
def State.suitLink (s : State) (ddev : Nat) : Nat ⊕ Nat :=
  match s.suitLinks ddev with
  | none => .inr 0
  | some (a, b) =>
    if s.proto a = 1 ∧ (s.lnkUp a ∨ s.lnkState a = 5) then .inl a
    else if s.suitUp b then .inl b
    else .inr a

/-- The crossing of link d is the wrap of its ring. -/
def State.wraps (s : State) (d : Nat) : Bool :=
  let sx := getF s Reg.LAN_SUIT_SX
  let sy := getF s Reg.LAN_SUIT_SY
  let me := s.devId
  match d with
  | 0 => decide (me % sx = sx - 1)
  | 1 => decide (me % sx = 0)
  | 2 => decide (me / sx = sy - 1)
  | _ => decide (me / sx = 0)

/-- The virtual channel on link d of a message that came on channel `vc` of link `src` (none: it starts here). -/
def State.vcOn (s : State) (d : Nat) (src : Option (Nat × Nat)) : Nat :=
  if s.wraps d then 1
  else match src with
    | some (e, vc) => if e / 2 = d / 2 then vc else 0
    | none => 0

/-- A lane port in service: its router is not retired (R298). -/
def State.portUp (s : State) (n : Nat) : Bool := !(s.tile (laneRouter n)).routerRetired

/-! ### Class 0 off a link (R205, R307, R308, R318) -/

/-- The stitch that starts at lane port n. -/
def State.stitchFromLane (s : State) (n : Nat) : Option Nat := (s.stitches.map (·.1)).find? (fun k => s.stitchFrom k 2 n)

/-- The newest message of a stitch as it came over the lanes: with the BVOID it carried, or lost before it entered. -/
def Stitch.stamp (st : Stitch) (m : Msg) (lost : Bool) : Stitch :=
  let fix (c : CMsg) : CMsg :=
    { c with msg := { c.msg with hdr := c.msg.hdr ||| (m.hdr &&& 64) }, lostAt := if lost then some 0 else c.lostAt }
  { st with flight := st.flight.dropLast ++ (st.flight.getLast?.map fix).toList }

/-- The stitch that starts at port n takes its next message now, with the source that the message names. -/
def State.enter0 (s : State) (k : Nat) (st : Stitch) (m : Msg) (lost : Bool) : State :=
  let s := s.stitchSend k (m.h.src, m.h.sdev) (s.tile st.startTile).ic m.data m.trl
  match s.stitch k with
  | some st => s.setStitch k (some (st.stamp m lost))
  | none => s

/-- Class 0 messages that wait at the ports of link d enter their stitches: none while the stitch is stopped, one per 3 ic toward a lane port; one
whose stitch is gone is discarded and counted. -/
def State.drainN (d : Nat) : Nat → State → State
  | 0, s => s
  | f + 1, s =>
    match (s.lnk d).in0 with
    | [] => s
    | (n, m, lost) :: r =>
      let s' := s.modLnk d (fun x => { x with in0 := r })
      match (s.stitchFromLane n).bind (fun k => (s.stitch k).map (fun st => (k, st))) with
      | none => State.drainN d f (s'.countDrop d)
      | some (k, st) =>
        if s.tileFrozen st.startTile || !st.paced (s.tile st.startTile).ic then s
        else State.drainN d f (s'.enter0 k st m lost)

def State.drain0 (s : State) (d : Nat) : State := State.drainN d (s.lnk d).in0.length s

def State.drainAll0 (s : State) : State := (List.range 4).foldl (fun (s : State) d => s.drain0 d) s

/-- A class 0 message arrives for port n, whole or lost. While its stitch is stopped, 64 are held per link, and the others are lost (R318). -/
def State.laneEnter0 (s : State) (n : Nat) (m : Msg) (lost : Bool) : State :=
  let d := n / 8
  match (s.stitchFromLane n).bind (fun k => s.stitch k) with
  | none => s.countDrop d
  | some st =>
    let full := s.tileFrozen st.startTile && decide (64 ≤ ((s.lnk d).in0.filter (fun e => !e.2.2)).length)
    (s.modLnk d (fun x => { x with in0 := x.in0 ++ [(n, m, lost || full)] })).drain0 d

/-- A message of which nothing is known but that it is lost. -/
def lostMsg : Msg := ⟨0, nanLine, 0⟩

/-- A class 0 message that was coming over link d is lost: the stitch that starts at a port of the link reports it (R307). -/
def State.lose0 (s : State) (d : Nat) : State :=
  match (lanesOf d).find? (fun n => (s.stitchFromLane n).isSome) with
  | some n => s.laneEnter0 n lostMsg true
  | none => s.countDrop d

end Sys2Proof.Machine
end

