-- ==== Sys2Proof/Machine/HemOps.lean ====
section
/-! DEFINITION. Hem ports: when a port is in service (R332), its queues (R336), and the delivery of messages to a tile or to the hem port that
captures its class (R105, R164, R196, R203, R208, R215). -/

namespace Sys2Proof.Machine

def State.hem (s : State) (h : Nat) : Hem := SMap.get Hem.init s.hems h
def State.setHem (s : State) (h : Nat) (x : Hem) : State := { s with hems := SMap.set Hem.init s.hems h x }
def State.modHem (s : State) (h : Nat) (f : Hem → Hem) : State := s.setHem h (f (s.hem h))

/-- The attachment tile is a gate of its panel for the edge of port h. -/
def State.hemGate (s : State) (h : Nat) : Bool :=
  match s.panelOf (hemRouter h) with
  | some p => s.isGate p (hemRouter h) (hemEdge h)
  | none => false

/-- A port that is enabled and whose attachment serves it, whatever the charter grants (R332). -/
def State.hemAttached (s : State) (h : Nat) : Bool :=
  flag s Reg.FAB_HEM_CFG_EN h && s.hemGate h && !(s.tile (hemRouter h)).routerRetired
    && !(decide (getF s Reg.MGT_PROFILE_PROFILE = 1) && decide (160 ≤ h))

/-- A port in service (R332). -/
def State.hemUp (s : State) (h : Nat) : Bool := s.hemAttached h && s.hemRight h 0 && !s.fuseFault

/-- FAB_HEM_STATUS.STATE (R332, R335, R337). -/
def State.hemState (s : State) (h : Nat) : Nat :=
  if ¬ flag s Reg.FAB_HEM_CFG_EN h then 0
  else if s.frozenMaster (idHem h) then 4
  else if ¬ s.hemUp h then 2
  else if s.tileFrozen (hemRouter h) then 3
  else 1

def Hem.rx (x : Hem) (c : Nat) : List Msg := match c with
  | 0 => x.rx0
  | 1 => x.rx1
  | 2 => x.rx2
  | _ => x.rx3

def Hem.setRx (x : Hem) (c : Nat) (q : List Msg) : Hem := match c with
  | 0 => { x with rx0 := q }
  | 1 => { x with rx1 := q }
  | 2 => { x with rx2 := q }
  | _ => { x with rx3 := q }

def State.hemDrop (s : State) (h : Nat) (n : Nat := 1) : State := bumpF s Reg.FAB_HEM_CNT_DROP n h

/-- A message arrives in a port's queue; a port out of service discards it (R332). -/
def State.hemTake (s : State) (h c : Nat) (m : Msg) : State :=
  if s.hemUp h then s.modHem h (fun x => x.setRx c (x.rx c ++ [m])) else s.hemDrop h

/-- The hem ports attached to a tile. -/
def hemsAt (t : Nat) : List Nat := (List.range 192).filter (fun h => hemRouter h = t)

/-- The port that takes class c messages of tile t in place of the ejection queue (R336). -/
def State.capturing (s : State) (t c : Nat) : Option Nat :=
  (hemsAt t).find? (fun h => s.hemUp h && fbit s Reg.FAB_HEM_CFG_CAP (c - 1) h)

/-! ### External accesses of a tile's memories (R105, R164) -/

/-- The instruction at the program counter reads the lining in the slot to come. -/
def State.readsLining (s : State) (t : Nat) : Bool :=
  let x := s.tile t
  decide (x.run = .running) && decide (x.gap = 0) && decide (x.fetchWait = 0) && x.entering.isNone && !x.rtiPend
    && (match decodeTile (BitVec.ofNat 11 t) (SMap.get 0 x.pmem x.pc.toNat) with
      | some (.lnld _ _ _) => true
      | _ => false)

/-- An instruction uses the port in the ic to come: a result lands there, or an `lnld` stands at the program counter. -/
def State.instrPort (s : State) (t : Nat) (port : Option Nat) : Bool := (s.tile t).landsOn port || (port.isNone && s.readsLining t)

/-- An external access gets a port of tile t: the write port of a bank of the operand store, or for none the lining's data port. It never beats a
drain row or a plane read; it beats an instruction once it has waited 16 ic. -/
def State.portFree (s : State) (t : Nat) (port : Option Nat) (ripe : Bool) : Bool :=
  !(s.tile t).extBarred port && (ripe || !s.instrPort t port)

/-- The access takes the port: an instruction that needs it in this ic is held (R105). -/
def State.takePort (s : State) (t : Nat) (port : Option Nat) : State :=
  if s.instrPort t port then s.modTile t (fun x => { x with extTook := x.extTook ++ [(x.ic, port)] }) else s

/-- An external access goes through: none waits any more. -/
def State.extWrite (s : State) (t : Nat) (port : Option Nat) : State := (s.takePort t port).modTile t (fun x => { x with extSince := none })

/-- An external access is turned away: the ic is kept from which it waits. -/
def State.extWait (s : State) (t : Nat) : State := s.modTile t (fun x => { x with extSince := x.extSince.or (some x.ic) })

/-- The port that a message needs at its tile (R196). -/
def Msg.port (m : Msg) : Option (Option Nat) :=
  match m.h.dlv with
  | 0 => none
  | 1 => some (some (osBank (128 * m.h.line)))
  | _ => some none

/-- A message that is an external access gets its port; a torn marker is none. -/
def State.msgPortFree (s : State) (t : Nat) (m : Msg) : Bool :=
  match m.port with
  | some p => m.h.torn || s.portFree t p (s.tile t).extRipe
  | none => true

/-! ### Delivery to a tile -/

/-- BVOID of a delivered message shows in the tile's status (R215). -/
def State.noteVoid (s : State) (t : Nat) (m : Msg) : State := if m.h.bvoid then setF s Reg.TIL_NET_STATUS_BVOID 1 t else s

/-- A torn marker is delivered at a tile (R208). -/
def State.noteTorn (s : State) (t : Nat) : State :=
  (bumpF (setF s Reg.TIL_NET_STATUS_TORN 1 t) Reg.TIL_NET_CNT_TORN 1 t).postIrq t 0

/-- A loss notice of stitch n is delivered at a tile (R203). -/
def State.noteLoss (s : State) (t n : Nat) : State :=
  bumpF ((bumpF (setF s Reg.TIL_NET_STATUS_LOSS 1 t) Reg.TIL_NET_CNT_LOSS 1 t).postIrq t 0) Reg.NET_ST_STATUS_LOSS 1 n

/-- Room for a message of classes 1 to 3 at its destination. -/
def State.canDeliver (s : State) (t : Nat) (m : Msg) : Bool :=
  let h := m.h
  if h.dlv ≠ 0 then s.msgPortFree t m
  else match s.capturing t h.cls with
    | some p => decide (((s.hem p).rx h.cls).length < 8)
    | none => (s.tile t).queueRoom h.cls

/-- A message of classes 1 to 3 is delivered at tile t (R196, R208). -/
def State.deliver (s : State) (t : Nat) (m : Msg) : State :=
  let h := m.h
  let s := s.noteVoid t m
  if h.torn then
    let s := s.noteTorn t
    if h.dlv = 0 then match s.capturing t h.cls with
      | some p => (setF s Reg.FAB_HEM_STATUS_TORN 1 p).hemTake p h.cls m
      | none => s.enqueue t h.cls m
    else s
  else match h.dlv with
    | 0 => match s.capturing t h.cls with
      | some p => s.hemTake p h.cls m
      | none => s.enqueue t h.cls m
    | 1 => ((s.extWrite t (some (osBank (128 * h.line)))).countTile t 14).modTile t (fun x => x.osStoreLine (128 * h.line) m.data)
    | _ => ((s.extWrite t none).countTile t 14).linStoreLine t (128 * h.line) m.data

/-! ### What a hem port sends (R333, R334, R337) -/

/-- A credit taken at the acceptance of a head goes back to its stitch. -/
def State.giveBack (s : State) (n : Nat) : State :=
  match s.stitch n with
  | some st => if st.dlv = 0 then setF s Reg.NET_ST_STATUS_CREDIT (min st.credits (getF s Reg.NET_ST_STATUS_CREDIT n + 1)) n else s
  | none => s

/-- A head at port h that R191 does not accept. -/
def State.hemBadRoute (s : State) (h : Nat) : State :=
  bumpF (setF s Reg.FAB_HEM_STATUS_BAD_ROUTE 1 h) Reg.FAB_HEM_CNT_BAD_ROUTE 1 h

/-- A hem port's message enters the network at its attachment router (R333, R334). The credit of a class 0 message was taken with its head where
`m.1` says so; a stitch that has gone since makes it a route failure. -/
def State.hemInject (s : State) (h : Nat) (m : Bool × Msg) : State :=
  let t := hemRouter h
  let k := m.2.h.stitch
  if m.2.h.cls = 0 then
    if s.stitchFrom k 1 h then (if m.1 then s.giveBack k else s).stitchSend k (t, s.devId) (s.tile t).ic m.2.data m.2.trl
    else s.hemBadRoute h
  else s.launchMsg (.hem h) t m.2

/-- A message that port h has stored can leave: one that a credit is still owed waits for it. -/
def State.hemGoes (s : State) (h : Nat) (m : Bool × Msg) : Bool :=
  decide (m.2.h.cls ≠ 0) || m.1 || s.admits m.2.h.stitch (s.tile (hemRouter h)).ic || !s.stitchFrom m.2.h.stitch 1 h

/-- What port h has stored leaves, in order within a class, unless its island is stopped (R334, R337). -/
def State.pumpHem (s : State) (h : Nat) : State :=
  if (s.hem h).tx = [] ∨ s.tileFrozen (hemRouter h) = true then s
  else (s.hem h).tx.foldl (fun (s : State) m =>
    if (s.hem h).tx.any (fun y => y.2.h.cls = m.2.h.cls) || !s.hemGoes h m then s.modHem h (fun x => { x with tx := x.tx ++ [m] })
    else s.hemInject h m) (s.modHem h (fun x => { x with tx := [] }))

/-- What hem ports have stored leaves where it can. -/
def State.pumpHems (s : State) : State := s.hems.foldl (fun (s : State) e => s.pumpHem e.1) s

end Sys2Proof.Machine
end

