-- ==== Sys2Proof/Machine/Engine.lean ====
section
/-! DEFINITION. The read and write engines of the mover clusters and their buffers (R251 to R253, R256, R262 to R264, R267). -/

namespace Sys2Proof.Machine

/-! ### Accesses -/

/-- The path between the network port of cluster k that serves tile t and the tile. -/
def State.moverPath (s : State) (k t : Nat) : Option (List (Nat × Nat)) :=
  (s.moverPort k t).bind (fun p => s.route true (moverRouter k p) (s.posOf t))

/-- An access to `len` bytes at mover address `a` is a bus error: HBM refuses it in the middle of a transfer, or the tile is retired, out of reach,
or asleep (R213, R267, R290, R292, R454). -/
def State.accessBad (s : State) (k a len : Nat) : Bool :=
  match spaceOf a with
  | 0 => s.hbmRefused (idMover k) (a % 2 ^ 39) (a % 2 ^ 39 + len - 1)
  | 3 => false
  | sp => decide (addrDev a = s.devId)
      && ((s.tile (addrTile a)).retired || (decide (sp = 1) && s.tileAsleep (addrTile a)) || (s.moverPath k (addrTile a)).isNone)

/-- A read of `len` bytes at mover address `a` waits: for HBM, for a stopped island on the way, or for the lining's data port (R164). -/
def State.readWaits (s : State) (k a len : Nat) : Bool :=
  match spaceOf a with
  | 0 => s.hbmBusy (a % 2 ^ 39) len
  | 3 => false
  | sp => decide (addrDev a = s.devId)
      && (s.tileFrozen (addrTile a) || (decide (sp = 2) && !s.portFree (addrTile a) none (s.tile (addrTile a)).extRipe)
          || ((s.moverPath k (addrTile a)).getD []).any (fun h => s.tileFrozen h.1))

/-- A waiting read is noted: it counts as LATE at HBM (R283), and as an external access at a tile (R164). -/
def State.noteWait (s : State) (k a len : Nat) : State :=
  match spaceOf a with
  | 0 => s.hbmLate (idMover k) (a % 2 ^ 39) len
  | 2 => if s.tileFrozen (addrTile a) then s else s.extWait (addrTile a)
  | _ => s

/-- The messages of a read of `len` bytes of tile t, the requests and the data that come back, counted on their way (R256, R422). -/
def State.countMover (s : State) (k t len : Nat) : State :=
  match s.moverPath k t with
  | none => s
  | some path =>
    let s := (List.range (len / 128)).foldl (fun (s : State) _ => s.countPath 1 path) s
    match s.route true (s.posOf t) ((path.head?.map (·.1)).getD (s.posOf t)) with
    | some p => (List.range (len / 128)).foldl (fun (s : State) _ => s.countPath 1 p) s
    | none => s

/-- The bytes of one line of a tile's operand store or lining, none where a word is uncorrectable. -/
def State.readTileLine (s : State) (sp t a : Nat) : State × Option (List Byte) :=
  let r := if sp = 1 then s.osPLine t a else s.linPLine t a
  (r.1, if r.2.bad = 0 then some (leBytes 128 r.2.data.toNat) else none)

/-- Bytes read from tile t in whole lines, or the line offset of the first one with an uncorrectable word. -/
def State.readTile (sp t : Nat) : Nat → Nat → State → State × Except Nat (List Byte)
  | 0, _, s => (s, .ok [])
  | m + 1, a, s =>
    let r := s.readTileLine sp t a
    match r.2 with
    | none => (r.1, .error a)
    | some x =>
      let q := State.readTile sp t m (a + 128) r.1
      (q.1, q.2.map (x ++ ·))

/-- A class 1 message of a mover for the line at mover address `a`: a write of it, or the request of a read (R256). -/
def State.moverMsg (s : State) (d : Desc) (a : Nat) (v : Line) : Msg :=
  let h : Hdr := { cls := 1, dlv := spaceOf a, nt := true, dst := addrTile a, ddev := addrDev a, sdev := s.devId, line := addrByte a / 128,
                   bvoid := s.brownout }
  ⟨h.toWord, v, trailer d.layer d.oper 0⟩

/-- The router at which a mover message for tile t enters the network. -/
def State.moverEntry (s : State) (k t : Nat) : Nat := moverRouter k ((s.moverPort k t).getD 0)

/-! ### Reading (R253) -/

/-- The next read burst at output offset `off`: source address and length. It is at most 2 KiB and crosses no 4 KiB boundary (R271), and holds no more
than `room` buffer entries; a run that is reshuffled is read whole (DESIGN CHOICE, log entry 45). -/
def Desc.readUnit (d : Desc) (off room : Nat) : Nat × Nat :=
  if d.shuf ≠ 0 then (d.runSrc (off / d.len0), d.len0)
  else
    let a := d.runSrc (off / d.len0) + off % d.len0
    (a, min (d.len0 - off % d.len0) (min 2048 (min (4096 - a % 4096) (128 * room))))

/-- The channel's descriptor goes on: active, not held, not about to stop (R253, R272). -/
def State.chanGoes (s : State) (k n : Nat) : Bool := decide (s.chanState k n = 1) && !s.chanHeld k n && (s.chan k n).stop.isNone

/-- The next read burst of a channel that has one and the entries for it (R253). -/
def State.nextRead (s : State) (k n : Nat) : Option (Desc × Nat × Nat) :=
  let c := s.chan k n
  match c.cur with
  | none => none
  | some d =>
    let room := s.entryRoom k n
    let u := d.readUnit c.rd room
    if s.chanGoes k n && decide (c.rd < d.total) && decide (0 < room) && decide (entriesOf u.2 ≤ room) then some (d, u) else none

/-- The channel that cluster k's read engine serves: the highest MOV_CH_CFG.PRIO first, round-robin within one (R253). -/
def State.readTurn (s : State) (k : Nat) : Option Nat :=
  let ready := (s.chans.filterMap (fun e => if e.1 / 64 = k then some (e.1 % 64) else none)).filter (fun n =>
    match s.nextRead k n with
    | some (_, a, len) => s.accessBad k a len || !s.readWaits k a len
    | none => false)
  let prio (n : Nat) : Nat := getF s Reg.MOV_CH_CFG_PRIO k n
  let top := ready.foldl (fun m n => max m (prio n)) 0
  let last := SMap.get 0 s.movTurn (4 * k + top)
  ((List.range 64).map (fun i => (last + 1 + i) % 64)).find? (fun n => ready.contains n && decide (prio n = top))

/-- The 2 KiB bursts of a host read of `len` bytes. -/
def hostBursts : Nat → Nat → Nat → List (Nat × Nat)
  | 0, _, _ => []
  | f + 1, a, len =>
    if len = 0 then []
    else
      let m := min len (min 2048 (4096 - a % 4096))
      (a, m) :: hostBursts f (a + m) (len - m)

/-- Channel n has `len` source bytes of a burst. -/
def State.addBurst (s : State) (k n : Nat) (b : Burst) : State :=
  s.modChan k n (fun c => { c with buf := c.buf ++ [b], rd := c.rd + b.len })

/-- One read burst (R251, R256): HBM and local tiles answer in the same step; host memory and another device answer later. -/
def State.readBurst (s : State) (k n : Nat) (d : Desc) (a len : Nat) : State :=
  if s.accessBad k a len then s.chanBusError k n a
  else
    let s := s.count (ctrChan k n) len
    match spaceOf a with
    | 0 =>
      let r := (s.hbmTaken (idMover k) (a % 2 ^ 39)).hbmRead (a % 2 ^ 39) len
      if r.2.2 then r.1.chanBusError k n a else r.1.addBurst k n ⟨a, len, r.2.1, [], []⟩
    | 3 => (hostBursts len a len).foldl (fun (s : State) b => s.emit .hostRead [n, b.1 % 2 ^ 57, b.2]) (s.addBurst k n ⟨a, len, [], [], []⟩)
    | sp =>
      let t := addrTile a
      if addrDev a = s.devId then
        let s := s.countMover k t len
        let r := State.readTile sp t (len / 128) (addrByte a) (if sp = 2 then s.extWrite t none else s)
        match r.2 with
        | .ok bs => r.1.addBurst k n ⟨a, len, bs, [], []⟩
        | .error x => r.1.chanBusError k n (a - addrByte a + x)
      else
        let l := (List.range (len / 128)).map (fun i => s.moverMsg d (a + 128 * i) 0)
        let ids := (List.range l.length).map (s.nextId + ·)
        (l.foldl (fun (s : State) m => s.launchMsg (.mover k n) (s.moverEntry k t) m) s).addBurst k n ⟨a, len, [], ids, []⟩

/-- The read engine of cluster k takes its next turn. -/
def State.readStep (s : State) (k : Nat) : Option State :=
  match s.readTurn k with
  | none => none
  | some n => match s.nextRead k n with
    | none => none
    | some (d, a, len) =>
      some ({ s with movTurn := SMap.set 0 s.movTurn (4 * k + getF s Reg.MOV_CH_CFG_PRIO k n) n }.readBurst k n d a len)

/-- The read engine works until no channel can read. -/
def State.readAll (k : Nat) : Nat → State → State
  | 0, s => s
  | f + 1, s => match s.readStep k with
    | none => s
    | some s' => State.readAll k f s'

/-- Host memory is asked for the data of the current descriptor (R253). -/
def State.askHost (s : State) (k n : Nat) : State :=
  match (s.chan k n).cur with
  | none => s
  | some d => if spaceOf d.src = 3 then State.readAll k 8192 s else s

/-- Data that another device owes has come: free bytes, once its requests have left and a free value says so (R256; DESIGN CHOICE, log entry 8). -/
def State.farData (s : State) (k n : Nat) : State :=
  match (s.chan k n).buf.findIdx? (fun b => decide (b.asked ≠ [] ∧ b.raw.length < b.len)) with
  | none => s
  | some i =>
    if s.onLinks k n || s.flights.any (fun f => decide (f.origin = .mover k n)) then s
    else if Config.remoteDone s.draws then
      s.drawn.modChan k n (fun c => { c with buf := c.buf.modify i (fun b =>
        { b with raw := (List.range b.len).map (fun j => Config.remoteByte (s.draws * 2 ^ 32 + j)) }) })
    else s.drawn

/-! ### Writing (R253, R262, R264) -/

/-- The bytes of a burst as they leave the buffer: reshuffled where the descriptor says so (R262). -/
def Desc.outBytes (d : Desc) (b : Burst) : List Byte := if d.shuf = 0 then b.raw else d.reshuffle b.raw

/-- The buffered bytes that stand ready at the head of a channel, and no more than `m` of them. -/
def Desc.readyBytes (d : Desc) (buf : List Burst) (used m : Nat) : List Byte :=
  (((buf.takeWhile (fun b => decide (b.raw.length = b.len))).flatMap d.outBytes).drop used).take m

/-- `m` bytes have left the buffer: bursts that are written whole give up their entries. -/
def dropBytes : List Burst → Nat → List Burst × Nat
  | [], u => ([], u)
  | b :: r, u => if b.len ≤ u then dropBytes r (u - b.len) else (b :: r, u)

/-- The buffer words of a burst that is about to leave (R251, R476): a single-bit error is corrected and counted, an uncorrectable word says so. -/
def State.bufWords (s : State) (k : Nat) (b : Burst) : State × Burst × Bool :=
  b.marks.foldl (fun q e =>
    let s := q.1
    let corr (s : State) : State := bumpF s Reg.MOV_CL_STATUS_BUF_CORR 1 k
    match e.2 with
    | 1 => (corr s, q.2)
    | 2 => (s, q.2.1, true)
    | _ =>
      match (Config.multiBitOutcome s.draws).toNat with
      | 0 => (s.drawn, q.2.1, true)
      | 1 => (s.drawn, q.2)
      | _ => ((corr s).drawn, { q.2.1 with raw := (q.2.1.raw.take (8 * e.1) ++ leBytes 8 (Config.miscorrected s.draws).toNat
          ++ q.2.1.raw.drop (8 * e.1 + 8)).take b.raw.length }, q.2.2)) (s, { b with marks := [] }, false)

/-- The next write burst of a channel: destination address and bytes, within the first unannounced block and its run; whole lines for a tile
space. -/
def Chan.nextWrite (c : Chan) (d : Desc) : Nat × List Byte :=
  let a := d.runDst (c.wr / d.len0) + c.wr % d.len0
  let m := min (d.len0 - c.wr % d.len0) (min 2048 (min (4096 - a % 4096) (c.done + d.blockLen c.done - c.wr)))
  let bs := d.readyBytes c.buf c.used m
  (a, bs.take (bs.length / spaceAlign (spaceOf a) * spaceAlign (spaceOf a)))

/-- The line at output offset `off` is the last of its block that its network port carries (R264). -/
def State.lastOnPort (s : State) (k : Nat) (d : Desc) (done off : Nat) : Bool :=
  let port (x : Nat) : Nat := (s.moverPort k (addrTile (d.runDst (x / d.len0)))).getD 8
  let e := done + d.blockLen done
  decide (e ≤ (off / d.len0 + 1) * d.len0 ∧ off + 128 = e)
    || (decide ((off + 128) % d.len0 = 0) && (List.range ((e - 1) / d.len0 - off / d.len0)).all (fun i => decide (port (off + 128 + i * d.len0) ≠ port off)))

/-- One line of a tile space leaves as a class 1 message; the last of the block on its port asks for an acknowledgement (R256, R264). -/
def State.writeLine (s : State) (k n : Nat) (d : Desc) (off a : Nat) (v : Line) : State :=
  let here := decide (addrDev a = s.devId)
  let id := s.nextId
  let last := here && s.lastOnPort k d (s.chan k n).done off
  (s.launchMsg (.mover k n) (s.moverEntry k (addrTile a)) (s.moverMsg d a v)).modChan k n (fun c =>
    { c with acks := if last then c.acks ++ [id] else c.acks, far := c.far || !here })

/-- The bytes at the head of the buffer go to mover address `a` (R256, R264). -/
def State.writeBurst (s : State) (k n : Nat) (d : Desc) (a : Nat) (bs : List Byte) : State :=
  let off := (s.chan k n).wr
  let s := match spaceOf a with
    | 0 => s.hbmWrite (a % 2 ^ 39) bs
    | 3 => (s.cachePage a).emit .hostWrite [a % 2 ^ 57] bs
    | _ => (List.range (bs.length / 128)).foldl (fun s i =>
        s.writeLine k n d (off + 128 * i) (a + 128 * i) (BitVec.ofNat 1024 (leNat ((bs.drop (128 * i)).take 128)))) s
  (s.count (ctrChan k n + 1) bs.length).modChan k n (fun c =>
    let r := dropBytes c.buf (c.used + bs.length)
    { c with wr := c.wr + bs.length, buf := r.1, used := r.2 })

/-- The write engine takes a turn for channel n; none where it has nothing ready or the destination waits. -/
def State.writeStep (s : State) (k n : Nat) (d : Desc) : Option State :=
  let c := s.chan k n
  match c.buf.findIdx? (fun b => decide (b.raw.length = b.len) && !b.marks.isEmpty) with
  | some i =>
    match c.buf[i]? with
    | none => none
    | some b =>
      let q := s.bufWords k b
      let s := q.1.modChan k n (fun c => { c with buf := c.buf.set i q.2.1 })
      some (if q.2.2 then s.chanBusError k n b.addr else s)
  | none =>
    let w := c.nextWrite d
    if w.2 = [] then none
    else if s.accessBad k w.1 w.2.length then some (s.chanBusError k n w.1)
    else if decide (spaceOf w.1 = 0) && s.hbmBusy (w.1 % 2 ^ 39) w.2.length then none
    else some (s.writeBurst k n d w.1 w.2)

/-- The engines of cluster k work until the first unannounced block of channel n has been written out, or nothing more can be done. -/
def State.engines (k n : Nat) (d : Desc) : Nat → State → State
  | 0, s => s
  | f + 1, s =>
    if !s.chanGoes k n || (s.chan k n).blockOut d then s
    else match s.writeStep k n d with
      | some s' => State.engines k n d f s'
      | none => match s.readStep k with
        | some s' => State.engines k n d f s'
        | none => match s.nextRead k n with
          | some (_, a, len) => s.noteWait k a len
          | none => s

end Sys2Proof.Machine
end

