-- ==== Sys2Proof/Machine/Issue.lean ====
section
/-! DEFINITION. The issue of tile instructions (R105, R108 to R115, R120 to R125, R132 to R136): holds, empty slots, waits, the landing of
results, repeats, branches, interrupts and synchronous faults. -/

namespace Sys2Proof.Machine

/-! ### Landing of results -/

/-- `vtap`'s accumulation, onto the register as it stands when it lands (R151): the line and the exceptions. -/
def tapLine (ty : Nat) (rnd : Rnd) (x h d : Line) : Line × Exc :=
  let l := (List.range 32).map (fun i => laneFma ty rnd (lane x i) (lane h i) (lane d i))
  (BitVec.ofNat 1024 (ofLanes (l.map (·.1))), l.foldl (fun e r => e.or r.2) Exc.none)

/-- One write takes effect; the sticky bits that it raises only now. -/
def State.applyWrite (s : State) (t : Nat) : PWrite → State × Word
  | .gen c v => (s.modTile t (fun x => x.setGen c v), 0)
  | .genZN c v => (s.modTile t (fun x =>
      (x.setGen c v).setSprRaw sprFLAGS ((x.flags &&& ~~~maskZN) ||| znOf v)), 0)
  | .flags m v => (s.modTile t (fun x => x.setSprRaw sprFLAGS (((x.flags &&& ~~~m) ||| (v &&& m)) &&& maskFlags)), 0)
  | .spr c v => (s.modTile t (fun x => x.setSpr c v), 0)
  | .vec n v => (s.modTile t (fun x => x.setVec n v), 0)
  | .half n up v => (s.modTile t (fun x =>
      let o := x.vec n
      x.setVec n (if up then v ++ o.extractLsb' 0 512 else o.extractLsb' 512 512 ++ v)), 0)
  | .word a v => (s.osStoreWord t a v, 0)
  | .line a v => (s.modTile t (fun x => x.osStoreLine a v), 0)
  | .tap n ty rnd x h =>
    let r := tapLine ty (Rnd.ofRD rnd) x h ((s.tile t).vec n)
    (s.modTile t (fun y => y.setVec n r.1), r.2.mask)
  | .lining a v => (s.linStoreLine t a v, 0)
  | .inject c r v => (s.injectTile t c r v, 0)
  | .arrive => (s.modTile t (fun x => { x with barPend := x.barPend + 1 }), 0)

/-- Several writes in order, with the sticky bits they raise. -/
def State.applyWrites (s : State) (t : Nat) (l : List PWrite) : State × Word :=
  l.foldl (fun a w => let r := a.1.applyWrite t w; (r.1, a.2 ||| r.2)) (s, 0)

/-- The sticky bits of a slot, set in addition to any write of flags (R102). -/
def State.stickies (s : State) (t : Nat) (m : Word) : State :=
  if m = 0 then s else s.modTile t (fun x => x.setSprRaw sprFLAGS (x.flags ||| m))

/-- The writes that land at the end of this slot, and the entries left in flight. -/
def landingNow (p : List PEntry) : List PEntry := p.filter (fun e => decide (e.left ≤ 1))
def stillFlying (p : List PEntry) : List PEntry :=
  (p.filter (fun e => decide (1 < e.left))).map (fun e => { e with left := e.left - 1 })

/-- The end of a slot: what was in flight lands, oldest first, then this instruction's own writes, then the sticky bits. -/
def State.slotEnd (s : State) (t : Nat) (own : List PWrite) : State :=
  let p := (s.tile t).pipe
  let s := s.modTile t (fun x => { x with pipe := stillFlying p })
  let r := s.applyWrites t ((landingNow p).map (·.write))
  let q := r.1.applyWrites t own
  q.1.stickies t ((landingNow p).foldl (fun m e => m ||| e.sticky) (r.2 ||| q.2))

/-- An empty slot: one ic passes and results land (R108, R134, R135). -/
def State.emptySlot (s : State) (t : Nat) : State := (s.tick t).slotEnd t []


/-! ### Ports and holds (R105, R134) -/

/-- The ports an instruction uses: operand-store lines read over X and Y, the lining port in its own slot, the latency at which it uses
Z, and the operand-store address it writes over Z. -/
structure Use where
  x : Option Nat := none
  y : Option Nat := none
  lin : Bool := false
  z : Option Nat := none
  zStore : Option Nat := none

/-- A tree result holds Z in the ic `o` ic from now. -/
def Tile.treeZ (x : Tile) (o : Nat) : Bool := x.tree.any (fun r => decide (r.age + o = 5))

/-- The operation at the back-bank port in an ic, and what waits behind it: a swap has an ic of its own. -/
def bbPort (run : Option (BBOp × Nat)) (wait : List BBOp) : Option (BBOp × Nat) × List BBOp :=
  match run with
  | some (op, k) => if k < op.steps then (run, wait) else
    match wait with
    | .swap _ :: r => (none, r)
    | op :: r => (some (op, 0), r)
    | [] => (none, [])
  | none =>
    match wait with
    | .swap _ :: r => (none, r)
    | op :: r => (some (op, 0), r)
    | [] => (none, [])

/-- A drain row of an issued operation holds Z `n` ic from the ic that is `o` ic from now (R51). -/
def Tile.drainZAt (x : Tile) : Nat → Nat → Option (BBOp × Nat) → List BBOp → Bool
  | n, o, run, wait =>
    match bbPort run wait with
    | (some (op, k), r) =>
      match n with
      | 0 => op.usesZ
      | n + 1 => Tile.drainZAt x n (o + 1) (some (op, if op.usesZ && x.treeZ o then k else k + 1)) r
    | (none, r) =>
      match n with
      | 0 => false
      | n + 1 => Tile.drainZAt x n (o + 1) none r

/-- A drain row of an issued operation or a tree result holds Z in the ic `o` ic from now. -/
def Tile.zBusy (x : Tile) (o : Nat) : Bool := x.treeZ o || x.drainZAt o 0 x.bbRun x.bbWait

/-- The Z use of an instruction about to issue meets an earlier one (R134, R151). -/
def Tile.zConflict (x : Tile) (u : Use) : Bool :=
  match u.z with
  | none => false
  | some l =>
    x.pipe.any (fun e => e.z && decide (e.left = l)) || x.zBusy (l - 1) ||
      (match u.zStore with
       | none => false
       | some a => x.pipe.any (fun e => !e.z && decide (e.left = l) && (match e.write with
           | .line b _ => decide (osBank a = osBank b)
           | _ => false)))

/-- The hold of this ic, by its stall counter, in the order of R105: 6 drain, 5 stream, 7 external, 4 bank. -/
def Tile.hold (x : Tile) (u : Use) : Option Nat :=
  let landing := landingNow x.pipe
  let bankOf (a : Option Nat) : Option Nat := a.map osBank
  if x.drainZ && landing.any (fun e => e.z) then some 6
  else if (u.x.isSome && (x.aLine.isSome || x.loadX.isSome)) || (u.y.isSome && x.yLine.isSome)
      || (x.linPlane && (u.lin || landing.any (fun e => match e.write with
            | .lining _ _ => true
            | _ => false)))
      || x.scaleBanks.any (fun b => decide (bankOf u.x = some b ∨ bankOf u.y = some b)) then some 5
  else if x.extTook.any (fun p => decide (p.1 = x.ic) && (x.landsOn p.2 || (p.2.isNone && u.lin))) then some 7
  else if (u.y.isSome && decide (bankOf u.y = bankOf x.aLine ∨ bankOf u.y = bankOf x.loadX))
      || (u.x.isSome && decide (bankOf u.x = bankOf x.yLine))
      || (u.x.isSome && decide (bankOf u.x = bankOf u.y) && !x.yHeld) then some 4
  else none

/-- Whether a hold is the instruction's own X and Y in one bank: its X operand is then read and Y follows. -/
def Tile.ownClash (x : Tile) (u : Use) : Bool :=
  u.x.isSome && decide (u.x.map osBank = u.y.map osBank) && !x.yHeld

/-- A held ic: every stage of the pipelines stands still (R105). -/
def State.heldIc (s : State) (t c : Nat) (clash : Bool) : State :=
  ((s.tick t).countTile t c).modTile t (fun x => { x with yHeld := x.yHeld || (clash && decide (c = 4)) })

/-- An ic in which nothing issues: what is in flight lands, unless a port that it needs is taken (R105). -/
def State.passIc (s : State) (t : Nat) : State :=
  match (s.tile t).hold {} with
  | some c => s.heldIc t c false
  | none => s.emptySlot t

/-- ic pass until nothing is in flight. -/
def State.drainPipe (t : Nat) : Nat → State → State
  | 0, s => s
  | n + 1, s => if (s.tile t).pipe.isEmpty then s else State.drainPipe t n (s.passIc t)

/-! ### Synchronous faults (R120) -/

/-- A synchronous fault at the program counter: what was issued completes, the tile stops, the fault is recorded and reported, the panel
learns of it. `word` names the uncorrectable word of PMEM_UNCORR and OS_UNCORR. -/
def State.tileFault (s : State) (t code word : Nat) : State :=
  let pc := (s.tile t).pc
  let s := State.drainPipe t 1024 (s.modTile t (fun x => { x with run := .faulted }))
  let s := s.modTile t (fun x => { (x.setSprRaw sprIPEND 0) with
      delay := none, gap := 0, rtiPend := false, entering := none, fetchWait := 0, yHeld := false })
  let s := setF (setF s Reg.TIL_FAULT_CODE code t) Reg.TIL_FAULT_PC pc.toNat t
  let s := s.trace t 5 code (BitVec.ofNat 32 pc.toNat)
  let s := if code = fltPMEM ∨ code = fltOS then s.hwUncorr t code word
           else s.report 0 (unitNo blkTIL t) [BitVec.ofNat 8 code]
  (s.launchIssued t).tilePanelFault t

/-! ### What an instruction asks of its slot -/

/-- Where control goes after an instruction. -/
inductive Ctl where
  | seq
  | branch (target : Option (BitVec 12))
  | skip (target : BitVec 12)
  | openLevel (count : Word) (stop : BitVec 12)
  | closeLevels (n : Nat)
  | halt
  | rti (target : BitVec 12)
  deriving DecidableEq, Repr

/-- An instruction that issues: the state after its reads, its writes of latency 1, its writes of longer latency (with the latency, Z use
and sticky bits), where control goes, and a swap. -/
structure Eff where
  st : State
  own : List PWrite := []
  later : List PEntry := []
  ctl : Ctl := .seq
  swap : Option Swap := none

/-- What becomes of an instruction considered for issue: a synchronous fault (with the word that caused it), a wait counted in a stall
counter (R135), or its issue. -/
inductive Issue where
  | fault (s : State) (code word : Nat)
  | wait (ctr : Nat)
  | go (e : Eff)

def Issue.isFault : Issue → Bool
  | .fault _ _ _ => true
  | _ => false

/-- The ports that an instruction uses in its slot: none where its address check fails, since it then has no effect (R120, R138). -/
def Issue.uses (b : Issue) (u : Use) : Use :=
  match b with
  | .fault _ c _ => if c = fltADDR ∨ c = fltALIGN then {} else u
  | _ => u

/-! ### Repeats (R113 to R115) -/

/-- Words of a body. -/
def bodyWords (ls le : Nat) : Nat := (le + 4096 - ls) % 4096 + 1

/-- The cache begins to fill with a body of 64 words or fewer. -/
def Tile.startFill (x : Tile) (ls le : Nat) : Tile :=
  if bodyWords ls le ≤ 64 then { x with lcTag := some (ls, le), lcDone := false } else x

/-- The end of the innermost body is reached at `pc` while LM = 1. -/
def Tile.loopEnd (x : Tile) (pc : Nat) : Bool :=
  flagLM x.flags && decide (0 < x.depth) && decide ((x.sprv (sprLE (x.depth - 1))).toNat = pc)

/-- The fill completes at the end of the body that the cache is tagged with. -/
def Tile.fillDone (x : Tile) : Tile :=
  let d := x.depth
  if x.lcTag = some ((x.sprv (sprLS (d - 1))).toNat, (x.sprv (sprLE (d - 1))).toNat) ∧ x.lcDone = false then
    { x with lcDone := true }.setLst d true
  else x

/-- Levels that end here close; the first that goes on gives the back edge (R113). -/
def Tile.loopTurn : Nat → Tile → Nat → Tile × Option (BitVec 12)
  | 0, x, _ => (x, none)
  | n + 1, x, pc =>
    let l := x.depth - 1
    if x.loopEnd pc then
      let lc := x.sprv (sprLC l)
      if 1 < lc.toNat then
        let ls := (x.sprv (sprLS l)).toNat
        let x := x.setSprRaw (sprLC l) (lc - 1)
        ((if x.lcv then x else { (x.startFill ls pc) with fetchWait := 2 }), some (BitVec.ofNat 12 ls))
      else Tile.loopTurn n ((x.setLst l x.lcv).checkLcv) pc
    else (x, none)

/-- The decision at the end of an innermost body. -/
def Tile.loopStep (x : Tile) (pc : Nat) : Tile × Option (BitVec 12) :=
  if x.loopEnd pc then Tile.loopTurn 5 x.fillDone pc else (x, none)

/-- A level opens (R113, R114); LCV stays set only where the cache holds its body (R115). -/
def Tile.openLevel (x : Tile) (count : Word) (ls stop : BitVec 12) : Tile :=
  let d := x.depth
  let x := ((x.setSprRaw (sprLC d) count).setSprRaw (sprLS d) (BitVec.ofNat 32 ls.toNat)).setSprRaw (sprLE d) (BitVec.ofNat 32 stop.toNat)
  if x.lcv ∧ x.lcDone ∧ x.lcTag = some (ls.toNat, stop.toNat) then x.setLst (d + 1) true
  else (x.startFill ls.toNat stop.toNat).setLst (d + 1) false

/-- Levels close (`rbrk`). -/
def Tile.closeLevels (x : Tile) (n : Nat) : Tile := (x.setLst (x.depth - n) x.lcv).checkLcv

/-! ### Control -/

/-- The address after the program counter. -/
def nextPc (pc : BitVec 12) : BitVec 12 := pc + 1

/-- The program counter and the delay slots after an instruction, given the back edge that the loop decided; a branch that is not taken decides
no address (R139). -/
def Tile.advance (x : Tile) (back : Option (BitVec 12)) : Tile :=
  let seq := back.getD (nextPc x.pc)
  match x.delay with
  | some (0, g) => { x with delay := none, pc := g.getD seq }
  | some (1, g) => { x with delay := none, pc := if back.isSome && Config.loopBeatsBranch then seq else g.getD seq }
  | some (n + 2, g) => { x with delay := some (n + 1, g), pc := seq }
  | none => { x with pc := seq }

/-- The loop decision of the slot in which an instruction issues at `pc` (R113, R114): a level that it opens or closes counts (DEDUCED, log
entry 79), and a `rep` of count 0 names its own next instruction. -/
def Tile.loopDecide (x : Tile) (pc : BitVec 12) : Ctl → Tile × Option (BitVec 12)
  | .skip _ => (x, none)
  | .openLevel c e => (x.openLevel c (nextPc pc) e).loopStep pc.toNat
  | .closeLevels n => (x.closeLevels n).loopStep pc.toNat
  | _ => x.loopStep pc.toNat

/-- Level `d` and `lst` as `z` holds them, over a write that lands in the same slot (R109). -/
def Tile.keepLevel (x z : Tile) (d : Nat) : Tile :=
  (((x.setSprRaw (sprLC d) (z.sprv (sprLC d))).setSprRaw (sprLS d) (z.sprv (sprLS d))).setSprRaw (sprLE d) (z.sprv (sprLE d))).setSprRaw sprLST
    (z.sprv sprLST)

/-- The effect of an instruction on control; `z` is the tile after its loop decision. -/
def Tile.control (x z : Tile) (pc : BitVec 12) : Ctl → Tile
  | .seq => x
  | .branch g => { x with delay := some (2, g) }
  | .skip g => { x with pc := g }
  | .openLevel _ _ => x.keepLevel z (z.depth - 1)
  | .closeLevels _ => x.setSprRaw sprLST (z.sprv sprLST)
  | .halt => { x with run := .halted, haltPc := pc,
                      haltAck := (x.sprv sprIPEND).getLsbD 1 || (x.inHandler && decide (x.sprv sprICAUSE = 2)) }
  | .rti g => { x with pc := g, rtiPend := true, gap := 2, inHandler := false }


/-! ### Issue -/

/-- A pending interrupt that the sequencer would take before the next slot (R122). -/
def Tile.irqReady (x : Tile) : Bool :=
  flagIE x.flags && x.delay.isNone && decide (x.sprv sprIPEND &&& 7 ≠ 0)

/-- The tile's sequencer runs: its program runs and its island is neither stopped nor powered off. -/
def State.sequencing (s : State) (t : Nat) : Bool :=
  decide ((s.tile t).run = .running) && !(s.tile t).retired && !s.tileFrozen t && !s.tileAsleep t

/-- The slot in which an instruction issues (R108 to R115). -/
def State.issueSlot (s : State) (t : Nat) (e : Eff) : State :=
  let pc := (s.tile t).pc
  let s1 := e.st.tick t
  let r := (s1.tile t).loopDecide pc e.ctl
  let s2 := (s1.setTile t r.1).slotEnd t e.own
  let s3 := s2.modTile t (fun x =>
    let y : Tile := { (x.advance r.2) with pipe := x.pipe ++ e.later.map (fun p => { p with left := p.left - 1, word := SMap.get 0 x.pmem pc.toNat }), yHeld := false }
    y.control r.1 pc e.ctl)
  ((s3.doSwap t e.swap).countTile t 1).launchIssued t

/-- Whether instruction i is a branch in one of the last three positions of the innermost body while LM = 1 (R112). -/
def Tile.branchAtEnd (x : Tile) (i : Instr) : Bool :=
  isBranch i && flagLM x.flags && decide (0 < x.depth) &&
    decide (((x.sprv (sprLE (x.depth - 1))).toNat + 4096 - x.pc.toNat) % 4096 ≤ 2)

def isHalt : Instr → Bool
  | .halt _ => true
  | _ => false

/-- An instruction considered in the next slot of tile t, once the sequencer may issue: a pending interrupt comes before a hold of the
instruction's own (R122), a synchronous fault or a `halt` before the interrupt (R125). -/
def State.consider (s : State) (t : Nat) (i : Instr) (u : State → Use) (body : State → Issue) : State :=
  let x := s.tile t
  match s.pmemFetch t x.pc.toNat with
  | (s, none) => s.tileFault t fltPMEM x.pc.toNat
  | (s', some w) =>
    if encodeTile i ≠ some (usedBits w) then s
    else if !legalTile i || (x.delay.isSome && forbiddenInDelay i) then s'.tileFault t fltILLEGAL 0
    else if x.branchAtEnd i then s'.tileFault t fltLOOP 0
    else
      let b := body s'
      match x.hold (b.uses (u s)) with
      | some c => if x.irqReady && !isHalt i && !b.isFault && decide (x.hold {} = none) then s else s.heldIc t c (x.ownClash (u s))
      | none =>
        match b with
        | .fault r c w => r.tileFault t c w
        | .wait c => if x.irqReady then s else (s.emptySlot t).countTile t c
        | .go e =>
          if x.irqReady && !isHalt i then s
          else if x.zConflict (u s) then (s.emptySlot t).countTile t 9
          else s'.issueSlot t e

/-- What stands before an instruction is considered: nothing happens while the tile does not run, its island is stopped, or a matrix
event is due first; an interrupt entry or an `rti` in progress takes the ic; an uncached back edge takes it as a fetch stall. -/
def State.atSlot (s : State) (n : Nat) (k : State → State) : State :=
  let x := s.tile n
  if !s.sequencing n || s.eventDue n || x.entering.isSome || s.chainBehind n then s
  else if 0 < x.gap ∨ (x.rtiPend = true ∧ x.pipe ≠ []) then (s.passIc n).modTile n (fun y => { y with gap := y.gap - 1 })
  else
    let s := if x.rtiPend then
        s.modTile n (fun y => { (y.setSprRaw sprFLAGS (y.sprv sprIFLAGS &&& maskFlags)) with rtiPend := false })
      else s
    if 0 < x.fetchWait then
      match x.hold {} with
      | some c => s.heldIc n c false
      | none => ((s.emptySlot n).countTile n 8).modTile n (fun y => { y with fetchWait := y.fetchWait - 1 })
    else k s

/-- A tile instruction is presented for the next slot. -/
def State.issue (t : TileNo) (i : Instr) (u : State → Use) (body : State → Issue) (s : State) : State :=
  s.atSlot t.toNat (fun s => s.consider t.toNat i u body)

/-- No ports. -/
def noUse : State → Use := fun _ => {}

/-- A result of latency `l`. -/
def later (l : Nat) (z : Bool) (w : PWrite) (sticky : Word := 0) : PEntry := ⟨l, z, w, sticky, 0⟩

end Sys2Proof.Machine
end

