-- ==== Sys2Proof/Machine/TileEvents.lean ====
section
/-! DEFINITION. Events of a tile that are no instruction: completion (R119), interrupt entry (R123), faults and replay (R121), the choice
of a spare (R189), tile reset (R127), scrub and write-back of the lining (R163, R167), chains (R174 to R176), reserved encodings (R128), and the
registers that force cells off (R65). -/

namespace Sys2Proof.Machine

/-- MAT_FORCE_WRITE (R65): the host sets the rows or columns forced off. -/
def execMatForceWrite (t : TileNo) (col : Bool) (val : Word) (s : State) : Res :=
  let f := if col then Reg.TIL_MAT_FORCE_COL_OFF else Reg.TIL_MAT_FORCE_ROW_OFF
  .next (s.hostWrite f t.toNat 0 (fun s => setF s f val.toNat t.toNat))

/-! ### Completion (R119, R125) -/

/-- A halted tile with nothing left to do. -/
def Tile.complete (x : Tile) : Bool := decide (x.run = .halted) && x.pipe.isEmpty && !x.matBusy

/-- The completion: the tile is idle, pending interrupts are discarded, an acknowledged preempt is counted, a trace record is made. -/
def State.completeTile (s : State) (t : Nat) : State :=
  let x := s.tile t
  let s := s.trace t 3 x.haltPc.toNat (BitVec.ofNat 32 (bit x.haltAck))
  let s := s.modTile t (fun y => { (y.setSprRaw sprIPEND 0) with run := .idle, inHandler := false, haltAck := false })
  if x.haltAck then
    match s.panelOf t with
    | some p => bumpF s Reg.CMD_POST_ACKS 1 p
    | none => s
  else s

/-- TILE_COMPLETION (R119): a halted tile completes once its work has drained; until then one ic passes. -/
def execTileCompletion (t : TileNo) (s : State) : Res :=
  let n := t.toNat
  .next (if (s.tile n).run ≠ .halted ∨ s.tileFrozen n ∨ s.eventDue n then s
    else if (s.tile n).complete then s.completeTile n
    else if s.chainBehind n then s
    else s.passIc n)

/-! ### Interrupts (R122, R123) -/

/-- The cause of the interrupt that is taken: 1 fault, 2 preempt, 3 snapshot request. -/
def irqCause (pend : Word) : Nat := if pend.getLsbD 0 then 1 else if pend.getLsbD 1 then 2 else 3

/-- Step 3 of R123. -/
def State.enterHandler (s : State) (t cause : Nat) : State :=
  let x := s.tile t
  let y := (x.setSprRaw sprIPC (x.pc.setWidth 32)).setSprRaw sprIFLAGS x.flags
  let y := (y.setSprRaw sprICAUSE (BitVec.ofNat 32 cause)).setSprRaw sprIPEND (y.sprv sprIPEND &&& ~~~(BitVec.ofNat 32 (2 ^ (cause - 1))))
  let y := y.setSprRaw sprFLAGS (y.flags &&& ~~~(maskIE ||| maskLM))
  let s := s.setTile t { y with pc := (y.sprv sprIVEC).setWidth 12, inHandler := true, gap := 3, entering := none, fetchWait := 0 }
  s.trace t 4 cause (x.pc.setWidth 32)

/-! ### Faults (R30, R121, R189) -/

/-- A tile retires: it is reported and recorded, and its panel freezes (R30, R245). -/
def State.retireTile (s : State) (t : Nat) : State :=
  if (s.tile t).retired then s
  else
    let s := s.modTile t (fun x => { x with retired := true, run := .faulted, delay := none, pipe := [], gap := 0, rtiPend := false,
                                              entering := none })
    let s := s.launchIssued t
    let site := s.siteOf (s.posOf t)
    let s := (s.reportHard (unitNo blkTIL t) [0xFF]).report 4 (unitNo blkTIL t) (leBytes 2 t ++ leBytes 2 site)
    let s := { s with failed := s.failed ++ [(t, site)] }
    s.retireFreeze t

/-- FAULT_LIMIT_EXCEEDED (R121): more transient events than TIL_FLT_LIMIT allows in a window make the fault permanent. -/
def execFaultLimitExceeded (t : TileNo) (s : State) : Res :=
  let x := s.tile t.toNat
  .next (if x.fltWindow ≠ 0 ∧ x.fltLimit < x.fltCount then s.retireTile t.toNat else s)

/-- UNCORRECTABLE_REPLAY (R121): the management controller writes a test pattern to the failing word and reads it back twice. -/
def execUncorrectableReplay (t : TileNo) (recurs : Bool) (s : State) : Res :=
  let n := t.toNat
  let x := s.tile n
  .next (match x.replay with
    | [] => s
    | (m, w) :: r =>
      let x := { x with replay := r }
      let v := Config.testPattern s.draws
      if recurs then (s.setTile n x).retireTile n
      else
        (s.setTile n (match m with
          | 2 => x.pmemStore w v
          | 3 => { x with os := Mem.store 0 x.os (8 * w) (leBytes 8 v.toNat), osErr := SMap.set 0 x.osErr w 0 }
          | _ => { x with lining := Mem.store 0 x.lining (8 * w) (leBytes 8 v.toNat), liningErr := SMap.set 0 x.liningErr w 0,
                          wrBack := x.wrBack.filter (fun e => e.1 ≠ w) })).drawn)

/-- A held tile not yet used and not itself retired; one that has served and failed is used (R30). -/
def State.freeSpare (s : State) (r : Nat) : Bool :=
  s.heldTile r && !(s.tile r).retired && !s.spent.contains r

/-- The held tiles of a row in the order of R189: x = 62 before x = 63. -/
def State.rowSpare (s : State) (y : Nat) : Option Nat := [tileAt 62 y, tileAt 63 y].find? s.freeSpare

/-- The spare for tile t: in its own row, else in the nearest row, the lower y on a tie (R189). -/
def State.chooseSpare (s : State) (t : Nat) : Option Nat :=
  (List.range 32).findSome? (fun d =>
    let y := tileY t
    let up := if d ≤ y then s.rowSpare (y - d) else none
    up.or (if y + d ≤ 31 then s.rowSpare (y + d) else none))

/-- The register fields of a tile's block. -/
def tileFlds : List Fld := allFlds.filter (fun f => f.cls = 11)

/-- Fields of copy i taken to their reset values. -/
def State.resetFlds (s : State) (l : List Fld) (i : Nat) : State := l.foldl (fun s f => setF s f (f.rst i) i) s

/-- The stitches that have tile t as source, destination or drop point. -/
def State.stitchesAt (s : State) (t : Nat) : List Nat :=
  s.stitches.filterMap (fun e => match e.2 with
    | some st =>
      let drop := st.points.any (fun h => ((st.hops[h]?).map (fun o => s.logicalAt o.1)) = some t)
      if (st.srcKind = 0 ∧ st.src = t) ∨ (st.dstKind = 0 ∧ st.dst = t) ∨ drop then some e.1 else none
    | none => none)

/-! ### Tile reset (R127, R52, R176, R184) -/

/-- A member is reset during a chain stream: it passes on no line that it has not yet taken, and the members after it take those lines
poisoned (R176). -/
def State.tearChain (s : State) (t : Nat) : State :=
  let x := s.tile t
  match x.streams.find? (fun st => st.busyAt x.ic && decide (st.ops.bsrc.toNat = 2 ∨ (st.ops.bsrc.toNat = 0 ∧ getF s Reg.TIL_CHAIN_ROLE t = 1))) with
  | none => s
  | some st =>
    let w := x.ic + 1 - st.first.getD 0
    (s.chainAfter 63 t).foldl (fun s q =>
      if (s.tile q).streams.any (s.tile q).chained then
        let s := s.modTile q (fun y => { y with streams := y.streams.map (fun e =>
          if y.chained e then { e with tornFrom := some (min (e.tornFrom.getD w) w), bLines := SMap.keep (fun l => decide (e.lineTime l < w)) e.bLines } else e) })
        (setF s Reg.TIL_FLOW_STATUS_CHAIN_TORN 1 q).postIrq q 0
      else s) s

/-- The state that a tile reset leaves: the memories, counters' companions, trace buffer and error marks stay (R127, R433). -/
def Tile.afterReset (x : Tile) : Tile :=
  { Tile.init with
    retired := x.retired, routerRetired := x.routerRetired, ic := x.ic, pmem := x.pmem, pmemErr := x.pmemErr, os := x.os, osErr := x.osErr,
    lining := x.lining, liningErr := x.liningErr, wrBack := x.wrBack, scrubPos := x.scrubPos, layer := x.layer, operator := x.operator,
    trace := x.trace, traceLost := x.traceLost, snapNum := x.snapNum, restart := x.restart, fltCount := x.fltCount, fltStart := x.fltStart,
    fltLimit := x.fltLimit, fltWindow := x.fltWindow, replay := x.replay, lastDone := some 0 }

/-- The fields that a tile reset clears (R127, and the network registers of the tile). -/
def tileResetFlds : List Fld :=
  [Reg.TIL_FAULT_CODE, Reg.TIL_FAULT_PC, Reg.TIL_NUM_CTRL_FALLBACK, Reg.TIL_NUM_CTRL_OVF_SAT, Reg.TIL_NUM_CTRL_PROMOTE_VANISH,
   Reg.TIL_NUM_CTRL_POCKET_GAP, Reg.TIL_QB_VANISH_COUNT, Reg.TIL_QB_CLIP_COUNT, Reg.TIL_QB_PROMOTE_COUNT, Reg.TIL_QB_POCKET_COUNT,
   Reg.TIL_NET_STATUS_LOSS, Reg.TIL_NET_STATUS_TORN, Reg.TIL_NET_STATUS_BAD_ROUTE, Reg.TIL_NET_STATUS_BVOID, Reg.TIL_NET_CNT_LOSS,
   Reg.TIL_NET_CNT_TORN, Reg.TIL_NET_CNT_BAD_ROUTE, Reg.TIL_CTRL_RESET]

/-- Credit counters of the stitches that start or end at the tile return to CREDITS. -/
def State.refillCredits (s : State) (t : Nat) : State :=
  s.stitches.foldl (fun s e => match e.2 with
    | some st =>
      if (st.srcKind = 0 ∧ st.src = t) ∨ (st.dstKind = 0 ∧ st.dst = t) then
        setF (s.setStitch e.1 (some { st with returning := 0 })) Reg.NET_ST_STATUS_CREDIT st.credits e.1
      else s
    | none => s) s

/-- A tile reset (R127). -/
def State.tileReset (s : State) (t : Nat) : State :=
  (((((s.tearChain t).launchIssued t).modTile t Tile.afterReset).resetFlds tileResetFlds t).refillCredits t)

/-- TILE_RESET (R127): the host writes TIL_CTRL.RESET; the reset of a frozen tile takes effect at the thaw. -/
def execTileReset (t : TileNo) (s : State) : Res :=
  let n := t.toNat
  .next (s.hostWrite Reg.TIL_CTRL_RESET n 0 (fun s =>
    if s.tileAsleep n then s
    else if s.tileFrozen n then setF s Reg.TIL_CTRL_RESET 1 n
    else s.tileReset n))

/-! ### Lining upkeep (R163, R167) -/

/-- The scale port is free for upkeep, in a tile whose island runs. -/
def State.scaleFree (s : State) (t : Nat) : Bool := !(s.tile t).scaleBusy && !s.tileFrozen t

/-- PATROL_SCRUB_READ (R167). -/
def execPatrolScrubRead (t : TileNo) (s : State) : Res :=
  let n := t.toNat
  .next (if flag s Reg.TIL_LIN_SCRUB_EN n ∧ s.scaleFree n then
    let r := s.linPLine n (128 * (s.tile n).scrubPos) false
    r.1.modTile n (fun x => { x with scrubPos := (x.scrubPos + 1) % 16384 })
  else s)

/-- A corrected word waits for its write-back, and the ic of the read that found it has passed (R163). -/
def Tile.wrBackDue (x : Tile) (w : Nat) : Bool := x.wrBack.any (fun e => decide (e.1 = w ∧ e.2 < x.ic))

/-- CORRECTED_WRITE_BACK (R163, R166). -/
def execCorrectedWriteBack (t : TileNo) (word : BitVec 18) (s : State) : Res :=
  let n := t.toNat
  let w := word.toNat
  .next (if (s.tile n).wrBackDue w ∧ s.scaleFree n then
    s.modTile n (fun x => { x with liningErr := SMap.set 0 x.liningErr w 0, wrBack := x.wrBack.filter (fun e => e.1 ≠ w) })
  else s)

/-! ### Weight chains (R173 to R175) -/

/-- Whether a member's waiting chain stream has met its condition: it waits and no stream executes. -/
def State.chainMet (s : State) (t : Nat) : Bool :=
  s.chainWaits t && (s.tile t).waiting.head?.all (fun st => decide (st.swaps = 0)) && !(s.tile t).streams.any (fun st => st.busyAt (s.tile t).ic) && !s.tileFrozen t

/-- What the ready signal carries. -/
def StreamSt.chainParams (st : StreamSt) : Bool × Nat × Bool × Nat := (st.fold, st.ops.bfmt.toNat, st.ops.bl16, st.len)

def State.waitingParams (s : State) (t : Nat) : Option (Bool × Nat × Bool × Nat) := (s.tile t).waiting.head?.map StreamSt.chainParams

/-- One member's chain stream starts, `pos` ic after the head's. -/
def State.chainStart (s : State) (t lead pos : Nat) : State :=
  let x := s.tile t
  match x.waiting with
  | [] => s
  | st :: r =>
    let f := x.ic + lead + pos
    s.setTile t { x with waiting := r, lastDone := if r.isEmpty then some (f + st.span) else none,
                         streams := x.streams.filter (fun e => e.busyAt x.ic) ++ [{ st with first := some f, bLines := [] }] }

/-- How far ready comes along the members, tail first, each comparing what it receives with its own stream as ready arrives: to a member whose
parameters differ, or to the head or not. -/
def State.readyAt (s : State) : List Nat → Option (Bool × Nat × Bool × Nat) → Nat ⊕ Bool
  | [], _ => .inr true
  | q :: r, p =>
    if !s.chainWaits q then .inr false
    else if p.any (fun v => decide (s.waitingParams q ≠ some v)) then .inl q
    else if !s.chainMet q then .inr false
    else State.readyAt s r (s.waitingParams q)

/-- A waiting chain stream is discarded: it takes no plane and leaves the banks unchanged (R175). -/
def State.chainDrop (s : State) (m : Nat) : State :=
  (if s.chainWaits m then
    s.modTile m (fun x => { x with waiting := x.waiting.tail, lastDone := if x.waiting.tail.isEmpty then some x.ic else none })
  else s).postIrq m 0

/-- CHAIN_READY (R174, R175): ready passes from the tail towards head `t`; the chain starts, or a mismatch discards its streams. -/
def execChainReady (t : TileNo) (s : State) : Res :=
  let h := t.toNat
  let chain := h :: s.chainAfter 63 h
  .next (if getF s Reg.TIL_CHAIN_ROLE h ≠ 1 ∨ chain.length ≠ getF s Reg.TIL_CHAIN_LENM1 h + 1 then s
    else match s.readyAt chain.reverse none with
      | .inr false => s
      | .inl q => chain.foldl State.chainDrop (setF s Reg.TIL_FLOW_STATUS_CHAIN_MISMATCH 1 q)
      | .inr true =>
        match (s.tile h).waiting with
        | [] => s
        | st :: _ =>
          let lead := max (st.issued + 2) ((s.tile h).ic + 1) - (s.tile h).ic
          chain.foldl (fun s m => s.chainStart m lead (getF s Reg.TIL_CHAIN_POS m)) s)

/-! ### Reserved encodings (R128, R136) -/

/-- RESERVED_ENCODING (R128, R136): a reserved word at the program counter raises ILLEGAL when it would issue. -/
def execReservedEncoding (t : TileNo) (w : DWord) (s : State) : Res :=
  .next (s.atSlot t.toNat (fun s =>
    let n := t.toNat
    let x := s.tile n
    match s.pmemFetch n x.pc.toNat with
    | (s, none) => s.tileFault n fltPMEM x.pc.toNat
    | (s', some v) =>
      if v ≠ w then s
      else match decodeTile t w with
        | none => s'.tileFault n fltILLEGAL 0
        | some i => if x.delay.isSome && forbiddenInDelay i then s'.tileFault n fltILLEGAL 0 else s))

end Sys2Proof.Machine
end

