-- ==== Sys2Proof/Machine/Network.lean ====
section
/-! DEFINITION. Commands of the tile network: deliveries (R194 to R196, R201 to R203), link faults (R211 to R214), multicast detachment (R208),
and the registers that force links off (R217) and define groups (R206). -/

namespace Sys2Proof.Machine

/-! ### Messages of classes 1 to 3 -/

/-- The way of a message that cannot go further: it is discarded and its source hears of it (R191, R213, R267). -/
def State.unroutable (s : State) (f : Flight) : State :=
  match f.origin with
  | .tile t => s.badRoute t
  | .hem h => bumpF (setF s Reg.FAB_HEM_STATUS_BAD_ROUTE 1 h) Reg.FAB_HEM_CNT_BAD_ROUTE 1 h
  | .mover k n => (s.modChan k n (fun c => { c with acks := c.acks.filter (· ≠ f.id) })).chanBusError k n f.msg.movAddr
  | .ack k n i => (s.modChan k n (fun c => { c with acks := c.acks.filter (· ≠ i) })).chanBusError k n f.msg.movAddr
  | _ => s

/-- A crossing that the fences forbid: counted at the source panel, and nothing else (R209). -/
def State.fenceDrop (s : State) (r : Nat) : State :=
  match s.posPanel r with
  | some p => bumpF s Reg.NET_FENCE_DROP_COUNT 1 p
  | none => s

/-- Whether an earlier message in flight must arrive first (R194). -/
def Flight.after (f e : Flight) : Bool :=
  !f.msg.h.torn && decide (e.id < f.id ∧ e.msg.h.cls = f.msg.h.cls ∧ e.msg.h.dlv = f.msg.h.dlv ∧ e.msg.h.ddev = f.msg.h.ddev
    ∧ e.msg.h.src = f.msg.h.src ∧ e.msg.h.sdev = f.msg.h.sdev ∧ e.origin = f.origin) && f.dsts.any e.dsts.contains

/-- Some router of a path has its island stopped. -/
def State.pathFrozen (s : State) (path : List (Nat × Nat)) : Bool := path.any (fun h => s.tileFrozen h.1)

/-- The lane port by which a message leaves the device on link d (R299). -/
def State.exitPort (s : State) (f : Flight) (d : Nat) : Option Nat :=
  if f.msg.h.nt then ((List.range 8).map (fun i => 8 * d + (f.msg.h.dst + i) % 8)).find? s.portUp
  else (lanesOf d).find? (fun n => s.portUp n && (match s.posPanel f.entry with
    | some p => s.isGate p (laneRouter n) (laneEdge n)
    | none => false))

/-- The way out of a router for one destination: the output port (8 ejection), the hops (three for a detour), the router beyond them, and the
ordinary hops then owed. -/
structure Hop where
  out : Nat
  hops : List (Nat × Nat)
  next : Nat
  owed : Nat
  deriving DecidableEq, Repr

/-- The lane port of a message that leaves the device; none while it has none. -/
def State.awayPort (s : State) (f : Flight) : Option Nat :=
  match s.suitLink f.msg.h.ddev with
  | .inl d => s.exitPort f d
  | .inr _ => none

/-- The acknowledgement of a mover message: it goes to a router, for the mover's port there. -/
def Flight.isAck (f : Flight) : Bool :=
  match f.origin with
  | .ack _ _ _ => true
  | _ => false

/-- The router at which a message leaves the network for destination d. -/
def State.goal (s : State) (f : Flight) (d : Nat) : Nat :=
  if f.isAck then d
  else if f.msg.h.ddev = s.devId then s.posOf d else ((s.awayPort f).map laneRouter).getD f.pos

/-- The next hop of a message toward destination d (R195, R207, R213): by ordinary links only for a multicast copy. -/
def State.nextHop (s : State) (f : Flight) (d : Nat) : Option Hop :=
  let g := s.goal f d
  if f.pos = g then some ⟨8, [], g, 0⟩
  else (s.hopToward (!f.msg.h.mc) f.pos g f.owed).map (fun h => ⟨((h.1.head?).map (·.2)).getD 8, h.1, h.2.1, h.2.2⟩)

/-- The destinations that a message reaches by output `o` of its router, with their hop. -/
def State.branch (s : State) (f : Flight) (o : Nat) : Option Hop × List Nat :=
  let l := f.dsts.filter (fun d => (s.nextHop f d).any (fun h => decide (h.out = o)))
  (l.head?.bind (s.nextHop f), l)

/-- The fences let a hop pass: they stop no traffic of movers and loads, acknowledgements among it (R209, R210), and of the mesh's they let nothing
into a frozen panel (R247). -/
def State.hopFenced (s : State) (f : Flight) (h : Hop) : Bool :=
  f.isAck || f.msg.h.nt || (s.pathFenced h.hops && !h.hops.any s.intoFrozen)

/-- The input of the next router by which a hop enters it. -/
def Hop.input (h : Hop) : Nat := ((h.hops.getLast?).map (fun x => oppositePort x.2)).getD 8

/-- A detached output of the message's router still owes its torn marker to the group, or has yet to send it (R208). -/
def State.owesTorn (s : State) (f : Flight) (o : Nat) : Bool :=
  f.msg.h.mc && !f.msg.h.torn && (s.torn.any (fun w => decide (w.group = f.msg.h.dst % 256 ∧ w.router = f.pos ∧ w.port = o))
    || s.flights.any (fun e => e.msg.h.torn && decide (e.via = 9 ∧ e.pos = f.pos ∧ e.msg.h.dst % 256 = f.msg.h.dst % 256)
        && !(s.branch e o).2.isEmpty))

/-- An output takes the message's branch: it has credit (4 flits of an input buffer, two messages; a place at ejection), and no island on the
way is stopped (R192, R208, R215). -/
def State.hasCredit (s : State) (f : Flight) (h : Hop) (ds : List Nat) : Bool :=
  !s.tileFrozen f.pos && (if h.out = 8 then
      f.isAck || decide (f.msg.h.ddev ≠ s.devId) || ds.all (fun d => !s.tileFrozen d && s.canDeliver d f.msg)
    else !s.pathFrozen h.hops && !s.tileFrozen h.next && decide (s.inBuffer h.next h.input f.msg.h.cls < 2))

/-- A branch may leave by an output: its marker has gone first, the message of its series before it has arrived, and the output has credit. -/
def State.mayLeave (s : State) (f : Flight) (h : Hop) (ds : List Nat) : Bool :=
  !s.owesTorn f h.out && s.hasCredit f h ds && s.hopFenced f h && !(decide (h.out = 8) && s.flights.any f.after)

/-- The first output, in the order of their numbers, by which some branch of a message may leave. -/
def State.wayOut (s : State) (f : Flight) : Option (Hop × List Nat) :=
  (List.range 9).findSome? (fun o => match s.branch f o with
    | (some h, ds) => if s.mayLeave f h ds then some (h, ds) else none
    | _ => none)

/-- The message before `f` in the same input of its router and class: an input releases its messages in order (R190, R208). -/
def State.inFront (s : State) (f : Flight) : Option Flight :=
  ((s.flights.takeWhile (· ≠ f)).find? (fun e =>
    decide (e.pos = f.pos ∧ e.via = f.via ∧ e.msg.h.cls = f.msg.h.cls) && (decide (f.via ≠ 8) || decide (e.origin = f.origin))))

/-- The messages that could take output `o` of router r in this turn. -/
def State.contenders (s : State) (r o : Nat) : List Flight :=
  s.flights.filter (fun f => decide (f.pos = r) && (s.inFront f).isNone && (match s.branch f o with
    | (some h, ds) => s.mayLeave f h ds
    | _ => false))

/-- The class that an output grants (R193): class 1 after 3 lost turns, class 3 after 63, else 2 before 1 before 3. -/
def grantClass (l : LinkSt) (has : Nat → Bool) : Nat :=
  if has 1 && decide (3 ≤ l.lost1) then 1
  else if has 3 && decide (63 ≤ l.lost3) then 3
  else if has 2 then 2
  else if has 1 then 1
  else 3

/-- The message that output `o` of router r grants among its contenders: a resent one first, in the order of the retry buffer (R211, R213), then
the class of R193, and within it the next input in turn. -/
def State.granted (s : State) (r o : Nat) (l : List Flight) : Option Flight :=
  let resent := ((List.range 8).flatMap (fun p => (s.link r p).retry)).findSome? (fun i => l.find? (fun f => decide (f.id = i)))
  match resent with
  | some f => some f
  | none =>
    let k := s.link r o
    let c := grantClass k (fun c => l.any (fun f => decide (f.msg.h.cls = c)))
    let m := l.filter (fun f => decide (f.msg.h.cls = c))
    let last := SMap.get 0 k.lastIn c
    (List.range 10).findSome? (fun i => m.find? (fun f => decide (f.via = (last + 1 + i) % 10)))

/-- The turns that a grant of two flits of class c costs the other classes that were ready (R193). -/
def LinkSt.turn (l : LinkSt) (has : Nat → Bool) (c via : Nat) : LinkSt :=
  { l with
    lost1 := if c = 1 then 0 else if has 1 then l.lost1 + 2 else l.lost1
    lost3 := if c = 3 then 0 else if has 3 then l.lost3 + 2 else l.lost3
    lastIn := SMap.set 0 l.lastIn c via }

/-- A branch leaves its place: the other branches of the message stay. -/
def State.leave (s : State) (f : Flight) (ds : List Nat) : State :=
  let rest := f.dsts.filter (fun d => !ds.contains d)
  { s with flights := if rest = [] then s.flights.erase f else s.flights.map (fun e => if e = f then { e with dsts := rest } else e) }

/-- A branch crosses to the next router (R187, R215): two flits counted on each link, BVOID during a brownout. -/
def State.cross (s : State) (f : Flight) (h : Hop) (ds : List Nat) : State × Flight :=
  let g : Flight := { f with dsts := ds, pos := h.next, via := h.input, owed := h.owed, msg := s.voided f.msg }
  let s := (s.leave f ds).countPath f.msg.h.cls h.hops
  let s := (List.range 8).foldl (fun s p => if f.id ∈ (s.link f.pos p).retry then
    s.modLink f.pos p (fun l => { l with retry := l.retry.filter (· ≠ f.id) }) else s) s
  ({ s with flights := s.flights ++ [g] }, g)

/-- The tile acknowledges the last message of a block on its port, with a class 1 message to that port (R264). -/
def State.sendAck (s : State) (f : Flight) : State :=
  match f.origin with
  | .mover k n =>
    if (s.chan k n).acks.contains f.id then
      let h : Hdr := { cls := 1, dlv := f.msg.h.dlv, dst := f.msg.h.dst, src := f.msg.h.dst, ddev := s.devId, sdev := s.devId, line := f.msg.h.line }
      { s with flights := s.flights ++ [⟨s.nextId, .ack k n f.id, f.pos, ⟨h.toWord, 0, f.msg.trl⟩, [f.entry], f.pos, 8, 0⟩], nextId := s.nextId + 1 }
    else s
  | _ => s

/-- An acknowledgement has come back. -/
def State.ackBack (s : State) (f : Flight) : State :=
  match f.origin with
  | .ack k n i => s.modChan k n (fun c => { c with acks := c.acks.filter (· ≠ i) })
  | _ => s

/-- A message leaves the network: into its tiles' queues or memories (R196), or to a lane port (R299). -/
def State.eject (s : State) (f : Flight) (ds : List Nat) : State :=
  let s' := s.leave f ds
  if f.isAck then s'.ackBack f
  else if f.msg.h.ddev = s.devId then (ds.foldl (fun s d => s.deliver d (s.voided f.msg)) s').sendAck f
  else match s.awayPort f with
    | some p => s'.laneSend (p / 8) (p % 8) (s.vcOn (p / 8) none) (s.voided f.msg) (match f.origin with
        | .mover k c => some (k, c)
        | _ => none)
    | none => s'

/-- An output's turn: the granted message takes it. Answers the message at its next router, none once it has left the network. -/
def State.grantTurn (s : State) (r o : Nat) : State × Option (Flight × Option Flight) :=
  let l := s.contenders r o
  match s.granted r o l with
  | none => (s, none)
  | some w =>
    match s.branch w o with
    | (some h, ds) =>
      let s := if l.length = 1 then s else s.modLink r o (fun k => k.turn (fun c => l.any (fun f => decide (f.msg.h.cls = c))) w.msg.h.cls w.via)
      if o = 8 then (s.eject w ds, some (w, none))
      else let q := s.cross w h ds
           (q.1, some (w, some q.2))
    | _ => (s, none)

/-- The branches of a message that cannot go on from its router: without a way they are discarded, and the source hears of it once (R213); across
a fence they are dropped (R209); into a sleeping tile they are discarded. -/
def State.cull (s : State) (f : Flight) : State × Flight :=
  let lost := f.dsts.filter (fun d => (s.nextHop f d).isNone ||
    (!f.isAck && decide (f.msg.h.ddev = s.devId ∧ f.pos = s.posOf d) && ((s.tileAsleep d && decide (f.msg.h.dlv < 2))
      || (f.msg.h.nt && (s.tile d).retired))))
  let fenced := f.dsts.filter (fun d => !lost.contains d && (s.nextHop f d).any (fun h => !s.hopFenced f h && !s.tileFrozen f.pos))
  let s := if lost = [] then s else (s.leave f lost).unroutable f
  let g : Flight := { f with dsts := f.dsts.filter (fun d => !lost.contains d) }
  let s := if fenced = [] then s else (s.leave g fenced).fenceDrop f.entry
  (s, { g with dsts := g.dsts.filter (fun d => !fenced.contains d) })

/-- A message that has come to its tile and finds the port taken waits as an external access (R105, R164). -/
def State.waitsHere (s : State) (f : Flight) : State :=
  f.dsts.foldl (fun s d =>
    if ¬ f.isAck ∧ f.msg.h.ddev = s.devId ∧ f.pos = s.posOf d ∧ ¬ s.tileFrozen d ∧ ¬ s.msgPortFree d f.msg then s.extWait d else s) s

/-- A message goes on as far as it can: at each router the message before it in its input goes first, and each output is granted in turn. -/
def State.carry : Nat → State → Flight → State
  | 0, s, _ => s
  | n + 1, s, f =>
    match s.inFront f with
    | some e =>
      match s.wayOut e with
      | some (h, _) => State.carry n (s.grantTurn e.pos h.out).1 f
      | none => let r := s.cull e
                if r.2 = e then s else State.carry n r.1 f
    | none =>
      let r := s.cull f
      if r.2.dsts = [] then r.1
      else match r.1.wayOut r.2 with
        | none => r.1.waitsHere r.2
        | some (h, _) =>
          match r.1.grantTurn f.pos h.out with
          | (s', some (w, none)) => if w = r.2 then s' else State.carry n s' r.2
          | (s', some (w, some g)) => State.carry n s' (if w = r.2 then g else r.2)
          | (s', none) => s'

/-- A message for another device that finds no lane port is dropped where it stands (R299, R301). -/
def State.dropAway (s : State) (f : Flight) : Option State :=
  if f.msg.h.ddev = s.devId then none
  else
    let s' := s.leave f f.dsts
    match s.suitLink f.msg.h.ddev with
    | .inr d => some ((s'.countDrop d).unroutable { f with origin := match f.origin with
        | .mover k c => .mover k c
        | _ => .bridge })
    | .inl d => match s.exitPort f d with
      | some _ => none
      | none => some (if f.msg.h.nt then (s'.countDrop d).unroutable f else s'.fenceDrop f.entry)

/-- A `load` whose messages have all left the network is complete (R180). -/
def State.settleLoads (s : State) : State :=
  (List.range 16).foldl (fun (s : State) p => match ((s.panel p).queue 0).head? with
    | some c => if c.op = 2 ∧ c.issued ∧ s.flights.all (fun f => decide (f.origin ≠ .load p)) then s.popCmd p 0 c.ord else s
    | none => s) s

/-- MESSAGE_DELIVERY (R193 to R196, R207): message `n` of those in flight goes on toward its tile, or the first branch of a multicast message
that can, and is delivered if it gets there; it waits where an input or an output holds it. -/
def execMessageDelivery (n : Nat) (s : State) : Res :=
  .next (match s.flights[n]? with
    | none => s
    | some f =>
      if s.arrayFrozen then s
      else match s.dropAway f with
        | some s' => s'.settleMovers
        | none => (State.carry 4096 s f).settleLoads.settleMovers)

/-! ### Class 0 (R200 to R205) -/

/-- The loss notice of a class 0 message (R203). -/
def CMsg.notice (m : CMsg) : Msg := { m.msg with data := nanLine }

/-- Delivery of a class 0 message, or of its loss notice, at tile t. -/
def State.deliver0 (s : State) (n t : Nat) (m : CMsg) (lost : Bool) : State :=
  let s := s.noteVoid t m.msg
  let s := if lost then s.noteLoss t n else s
  if m.msg.h.dlv = 0 then s.enqueue t 0 (if lost then m.notice else m.msg)
  else if lost then s
  else (s.countTile t 14).modTile t (fun x => { x with landing := x.landing ++ [⟨m.msg.h.line, m.msg.data, x.ic⟩] })

/-- Delivery at the destination of a stitch: a tile, a hem port (R336) or a lane port (R205). -/
def State.deliverEnd (s : State) (n : Nat) (st : Stitch) (m : CMsg) (lost : Bool) : State :=
  match st.dstKind with
  | 0 => s.deliver0 n st.dst m lost
  | 1 =>
    let s := if lost then bumpF (setF s Reg.FAB_HEM_STATUS_LOSS 1 st.dst) Reg.NET_ST_STATUS_LOSS 1 n else s
    s.hemTake st.dst 0 (if lost then m.notice else m.msg)
  | _ => if lost then bumpF s Reg.NET_ST_STATUS_LOSS 1 n else s.laneSend0 (st.dst / 8) (st.dst % 8) m.msg

/-- The first message in flight that has still to reach a point, with its place. -/
def Stitch.nextAt (st : Stitch) (p : Nat) : Option (Nat × CMsg) :=
  (st.flight.findIdx? (fun m => m.points.contains p)).bind (fun i => (st.flight[i]?).map (fun m => (i, m)))

/-- The two flits of a class 0 message go ahead of what waits at the outputs that they take (R193). -/
def State.loseTurns (s : State) (leg : List (Nat × Nat)) : State :=
  leg.foldl (fun s h =>
    let l := s.contenders h.1 h.2
    if l = [] then s else s.modLink h.1 h.2 (fun k => k.turn (fun c => l.any (fun f => decide (f.msg.h.cls = c))) 0 (SMap.get 0 k.lastIn 0))) s

/-- The message of stitch n reaches the point after `p` hops. -/
def State.stitchArrive (s : State) (n p : Nat) : State :=
  match s.stitch n with
  | none => s
  | some st =>
    match st.nextAt p with
    | none => s
    | some (i, m) =>
      let prev := (st.points.filter (· < p)).foldl max 0
      let leg := (st.hops.drop prev).take (p - prev)
      let t := if st.points.getLast? = some p then st.endTile else ((st.hops[p]?).map (fun h => s.logicalAt h.1)).getD 0
      let lost := match m.lostAt with
        | some h => decide (h ≤ p)
        | none => false
      if s.arrayFrozen || m.points.head? ≠ some p || s.pathFrozen leg || s.tileFrozen t then s
      else if m.msg.h.dlv = 1 ∧ (s.tile t).landing.length = 16 then s
      else if s.tileAsleep t && (st.dstKind = 0 || decide (t ≠ st.endTile)) then s
      else
        let left := m.points.filter (· ≠ p)
        let fl := if left = [] then st.flight.eraseIdx i else st.flight.set i { m with points := left }
        let m := { m with msg := s.voided m.msg }
        let s := ((s.setStitch n (some { st with flight := fl })).countPath 0 leg).loseTurns leg
        if st.points.getLast? = some p then s.deliverEnd n st m lost else s.deliver0 n t m lost

/-- STITCH_DELIVERY (R201, R202): the oldest message of a stitch that has not reached the point after `point` hops reaches it. -/
def execStitchDelivery (n : BitVec 10) (point : Nat) (s : State) : Res := .next (s.stitchArrive n.toNat point)

/-- The first landed line whose bank's write port is free, but for the banks in `used`: a line 16 ic after its delivery takes the port of an
instruction (R105, R202). -/
def State.landable (s : State) (t : Nat) (used : List Nat) : Option Landed :=
  (s.tile t).landing.find? (fun l => !used.contains (osBank (128 * l.line)) && s.portFree t (some (osBank (128 * l.line))) (decide (l.at_ + 16 ≤ (s.tile t).ic)))

/-- One landed line is written into its ring line. -/
def State.land (s : State) (t : Nat) (l : Landed) : State :=
  (s.takePort t (some (osBank (128 * l.line)))).modTile t (fun x => { x with landing := x.landing.erase l }.osStoreLine (128 * l.line) l.data)

/-- LANDING_STAGE_WRITE (R202): up to two landed lines, in different banks, are written into their ring lines; a line whose bank is taken is
passed by later lines in other banks. -/
def execLandingStageWrite (t : TileNo) (s : State) : Res :=
  let n := t.toNat
  .next (if s.tileFrozen n then s
    else match s.landable n [] with
      | none => s
      | some l =>
        let s := s.land n l
        match s.landable n [osBank (128 * l.line)] with
        | none => s
        | some m => s.land n m)

/-- CREDIT_RETURN (R200, R205): a credit reaches the source counter; a stitch that starts at a lane port hands it on across the lanes, and
one that ends at a lane port gets it from there. -/
def execCreditReturn (n : BitVec 10) (s : State) : Res :=
  let k := n.toNat
  .next (match s.stitch k with
    | none => s
    | some st =>
      let c := getF s Reg.NET_ST_STATUS_CREDIT k
      let back := decide (0 < st.returning)
      let far := decide (st.dstKind = 2)
      if st.dlv ≠ 0 ∨ ¬ (back ∨ far) ∨ st.credits ≤ c ∨ s.arrayFrozen ∨ s.tileFrozen st.startTile then s
      else
        let s := setF (s.setStitch k (some { st with returning := st.returning - 1 })) Reg.NET_ST_STATUS_CREDIT (c + 1) k
        if st.srcKind = 2 then s.emit .laneCredit [st.src / 8, st.src % 8]
        else if st.srcKind = 1 then s.pumpHem st.src
        else s)

/-! ### Link events (R211, R212) -/

/-- A link event, counted for the register and for the window in force of the receiving router's island. -/
def State.linkEvent (s : State) (t port : Nat) : State :=
  match linkTo t port with
  | none => s
  | some q =>
    let ic := (s.tile q).ic
    let span := getF s Reg.NET_LINK_LIMIT_WINDOW * 2 ^ 20
    s.modLink t port (fun l =>
      let l := { l with events := satAdd 0xFFFF l.events 1 }
      if l.winStart + span ≤ ic then { l with winStart := ic, inWindow := 1 } else { l with inWindow := l.inWindow + 1 })

/-- The two directions of a link: the given one and its reverse. -/
def bothWays (t port : Nat) : List (Nat × Nat) :=
  match linkTo t port with
  | some q => [(t, port), (q, oppositePort port)]
  | none => []

/-- The hop of a stitch that uses a link direction. -/
def Stitch.hopAt (st : Stitch) (t port : Nat) : Nat := st.hops.findIdx (fun h => h = (t, port))

/-- Break every stitch that reserves one of these link directions (R213). -/
def State.breakOver (s : State) (l : List (Nat × Nat)) : State :=
  l.foldl (fun s h => match (s.link h.1 h.2).rsv with
    | some n => match s.stitch n with
      | some st => s.breakStitch n (st.hopAt h.1 h.2)
      | none => s
    | none => s) s

/-- A link retires in both directions (R212, R213): a record, a fault report, and its stitches break. -/
def State.retireLink (s : State) (t port : Nat) : State :=
  if (linkTo t port).isNone ∨ (s.link t port).retired then s
  else
    let w := bothWays t port
    let s := w.foldl (fun s h => s.modLink h.1 h.2 (fun l => { l with retired := true, fails := 0 })) s
    ((s.report 5 (unitNo blkNET t) (leBytes 2 t ++ [BitVec.ofNat 8 port])).armFreeze 2).breakOver w

/-- CLASS0_CRC_FAILURE (R203): the oldest message of the stitch that has still to pass hop `hop` is lost there. -/
def execClass0CrcFailure (n : BitVec 10) (hop : Nat) (s : State) : Res :=
  let k := n.toNat
  .next (match s.stitch k with
    | none => s
    | some st =>
      match st.hops[hop]?, st.flight.findIdx? (fun m => m.lostAt.isNone && m.points.any (hop < ·)) with
      | some h, some i =>
        if s.tileFrozen h.1 then s
        else
          let fl := st.flight.modify i (fun m => { m with lostAt := some (hop + 1) })
          ((s.setStitch k (some { st with flight := fl })).linkEvent h.1 h.2).report 0 (unitNo blkNET h.1) []
      | _, _ => s)

/-- The messages that router t holds for its output `port`, oldest first: the retry buffer holds 16 flits, eight messages (R211). -/
def State.resend (s : State) (t port : Nat) : List Nat :=
  ((s.flights.filter (fun f => decide (f.pos = t) && !(s.branch f port).2.isEmpty)).map (·.id)).take 8

/-- LINK_REPLAY (R211): a flit of classes 1 to 3 fails its CRC and is replayed, and those after it are resent in order; `again` says that it is the
flit whose replay has just failed. The third failed replay is uncorrectable and retires the link (R212). -/
def execLinkReplay (t : TileNo) (port : BitVec 3) (again : Bool) (s : State) : Res :=
  let n := t.toNat
  let p := port.toNat
  let l := s.link n p
  .next (if !s.linkUp n p || s.tileFrozen n then s
    else
      let s := if again then s else s.modLink n p (fun l => { l with retry := s.resend n p })
      if again && decide (2 ≤ l.fails) then s.retireLink n p
      else (s.modLink n p (fun l => { l with fails := if again then l.fails + 1 else 0 })).linkEvent n p)

/-- LINK_EVENT_LIMIT_EXCEEDED (R212): more events than NET_LINK_LIMIT allows in a window retire the link. -/
def execLinkEventLimitExceeded (t : TileNo) (port : BitVec 3) (s : State) : Res :=
  let n := t.toNat
  let p := port.toNat
  .next (if getF s Reg.NET_LINK_LIMIT_WINDOW ≠ 0 ∧ getF s Reg.NET_LINK_LIMIT_COUNT < (s.link n p).inWindow then s.retireLink n p else s)

/-- What a hem port holds is discarded and counted when its router retires (R337). -/
def State.emptyHem (s : State) (h : Nat) : State :=
  let x := s.hem h
  let n := x.tx.length + x.rx0.length + x.rx1.length + x.rx2.length + x.rx3.length + bit x.head.isSome
  if n = 0 then s else (s.setHem h Hem.init).hemDrop h n

/-- ROUTER_FAULT (R214): every link of the router retires, and its tile with it. -/
def execRouterFault (t : TileNo) (s : State) : Res :=
  let n := t.toNat
  .next (if (s.tile n).routerRetired then s
    else
      let s := (List.range 8).foldl (fun s p => s.retireLink n p) s
      let s := s.modTile n (fun x => { x with routerRetired := true })
      let s := (hemsAt n).foldl (fun s h => s.emptyHem h) s
      s.retireTile n)

/-! ### Multicast (R206 to R208) -/

/-- The oldest message of group g at router r with a branch by output `port`, and the tiles of that branch. -/
def State.heldBranch (s : State) (g r port : Nat) : Option (Flight × List Nat) :=
  (s.flights.find? (fun f => f.msg.h.mc && !f.msg.h.torn && decide (f.msg.h.dst % 256 = g ∧ f.msg.h.ddev = s.devId ∧ f.pos = r)
    && !(s.branch f port).2.isEmpty)).map (fun f => (f, (s.branch f port).2))

/-- Losses counted for an output and group: one more message. -/
def addTorn (l : List Torn) (r port g : Nat) (last : Flight) (beyond : List Nat) : List Torn :=
  if l.any (fun w => w.router = r ∧ w.port = port ∧ w.group = g) then
    l.map (fun w => if w.router = r ∧ w.port = port ∧ w.group = g then
      { w with count := satAdd 0xFFFF w.count 1, last := last, beyond := (w.beyond ++ beyond).eraseDups } else w)
  else l ++ [⟨r, port, g, 1, last, beyond⟩]

/-- MULTICAST_DETACH (R208): an output of router `t` (0 to 7 a link, 8 the ejection port) has withheld credit for HOLD counted ic: the
branch beyond it is dropped and counted. HOLD 0 never detaches, and no ic counts while the group's panel or the device is frozen. An
output that has credit has withheld none. -/
def execMulticastDetach (g : Byte) (t : TileNo) (port : BitVec 4) (s : State) : Res :=
  .next (if getF s Reg.NET_MCAST_HOLD_HOLD = 0 ∨ s.arrayFrozen ∨ s.panelState (getF s Reg.NET_MCG_PANEL g.toNat) = 2 then s
    else match s.heldBranch g.toNat t.toNat port.toNat with
      | none => s
      | some (f, ds) =>
        if (s.branch f port.toNat).1.any (fun h => s.hasCredit f h ds) then s
        else { s.leave f ds with torn := addTorn s.torn t.toNat port.toNat g.toNat f ds })

/-- A torn marker made from a lost message (R208). -/
def Torn.marker (w : Torn) : Msg :=
  let h := w.last.msg.h
  ⟨{ h with torn := true }.toWord, nanLine, trailer (bits w.last.msg.trl.toNat 15 0) (bits w.last.msg.trl.toNat 31 16) w.count⟩

/-- The marker as it stands at its router, ahead of any later message of the group. -/
def State.markerFlight (s : State) (w : Torn) : Flight := ⟨s.nextId, w.last.origin, w.last.entry, w.marker, w.beyond, w.router, 9, 0⟩

/-- TORN_MARKER (R208): the output has credit again, and the marker goes ahead of any later message of the group. -/
def execTornMarker (t : TileNo) (port : BitVec 4) (g : Byte) (s : State) : Res :=
  let mine (w : Torn) : Bool := decide (w.router = t.toNat ∧ w.port = port.toNat ∧ w.group = g.toNat)
  .next (match s.torn.find? mine with
    | none => s
    | some w =>
      let f := s.markerFlight w
      if (s.branch f port.toNat).1.any (fun h => s.hasCredit f h w.beyond) then
        { s with flights := f :: s.flights, nextId := s.nextId + 1, torn := s.torn.filter (fun v => !mine v) }
      else s)

/-! ### Registers with a row of their own -/

/-- LINK_FORCE_WRITE (R217): the host forces the link that NET_LINK_SEL names out of service, or back into it. -/
def execLinkForceWrite (off : Bool) (s : State) : Res :=
  .next (s.hostWrite Reg.NET_LINK_FORCE_OFF 0 0 (fun s =>
    let w := bothWays (getF s Reg.NET_LINK_SEL_TILE) (getF s Reg.NET_LINK_SEL_PORT)
    if off then
      if w.any (fun h => (s.link h.1 h.2).rsv.isSome) then s.discard (Reg.NET_LINK_FORCE_OFF.addr 0 0) 1
      else w.foldl (fun s h => s.modLink h.1 h.2 (fun l => { l with forced := true, lateRsv := false })) s
    else w.foldl (fun s h => s.modLink h.1 h.2 (fun l => { l with forced := false, lateRsv := l.forced || l.lateRsv })) s))

/-- A group that may be valid (R189, R206). -/
def State.groupValid (s : State) (x0 x1 y0 y1 p : Nat) : Bool :=
  decide (x0 ≤ x1 ∧ y0 ≤ y1) && decide (s.panelState p ≠ 0) && s.inPanelRect p (tileAt x0 y0) && s.inPanelRect p (tileAt x1 y1)
    && s.takeover.all (fun e => !inRect x0 x1 y0 y1 e.1)

/-- MCAST_GROUP_WRITE (R206): the host defines group g. -/
def execMcastGroupWrite (g : Byte) (val : Word) (s : State) : Res :=
  let n := g.toNat
  let v := val.toNat
  .next (s.hostWrite Reg.NET_MCG_X0 n 0 (fun s =>
    let x0 := bits v 5 0
    let x1 := bits v 11 6
    let y0 := bits v 16 12
    let y1 := bits v 21 17
    let p := bits v 25 22
    let s := setF (setF (setF (setF (setF s Reg.NET_MCG_X0 x0 n) Reg.NET_MCG_X1 x1 n) Reg.NET_MCG_Y0 y0 n) Reg.NET_MCG_Y1 y1 n) Reg.NET_MCG_PANEL p n
    if bitAt v 26 then
      if s.groupValid x0 x1 y0 y1 p then setF s Reg.NET_MCG_VALID 1 n
      else (setF s Reg.NET_MCG_VALID 0 n).logErr 4 idHost (Reg.NET_MCG_X0.addr n 0) v
    else setF s Reg.NET_MCG_VALID 0 n))

end Sys2Proof.Machine
end

