-- ==== Sys2Proof/Machine/PanelOps.lean ====
section
/-! DEFINITION. Command processors: queues and what holds them (R178 to R180, R231, R233, R246), refusals (R233), snapshot markers
(R239, R426), and panel reset (R244). -/

namespace Sys2Proof.Machine

/-! ### Queues -/

/-- Places of a queue (R230). -/
def queueSize (q : Nat) : Nat := if q = 0 then 128 else 256

/-- The command processor of panel p stands still: undefined, in reset, frozen, asleep, or frozen by the charter. -/
def State.cmdStopped (s : State) (p : Nat) : Bool :=
  decide (s.panelState p ≠ 1) || s.arrayFrozen || flag s Reg.CMD_PANEL_STATUS_SLEEP p || s.frozenMaster (idCmd p)

/-- Queue q of panel p may issue: FAULT_ACT 1 stops every queue (R245), a refusal may hold its own (R233). -/
def State.queueRuns (s : State) (p q : Nat) : Bool := !s.cmdStopped p && !(s.panel p).stopped && !SMap.get false (s.panel p).held q

/-- The command at the head of queue 0, when it is of kind `op` and may start, or has been issued and goes on. -/
def State.head0 (s : State) (p op : Nat) : Option QCmd :=
  (((s.panel p).queue 0).head?).filter (fun c => decide (c.op = op) && (if c.issued then !s.cmdStopped p else s.queueRuns p 0))

/-- A command of queue q has been issued. -/
def State.markIssued (s : State) (p q ord : Nat) : State :=
  s.modPanel p (fun x => x.setQueue q ((x.queue q).map (fun c => if c.ord = ord then { c with issued := true } else c)))

/-- A command is refused (R233): it has no effect, is complete for marks, is recorded, and may hold its queue. -/
def State.refuseCmd (s : State) (p q : Nat) (c : QCmd) (cause detail : Nat) : State :=
  let s := s.popCmd p q c.ord
  let s := setF (setF (setF (setF s Reg.CMD_ERR_CAUSE cause p) Reg.CMD_ERR_QUEUE q p) Reg.CMD_ERR_DETAIL detail p) Reg.CMD_ERR_SEQ_VALUE c.seq p
  let s := s.raise p
  if flag s Reg.CMD_PANEL_CTRL_HALT_ON_REFUSE p then
    setF (s.modPanel p (fun x => { x with held := SMap.set false x.held q true })) Reg.CMD_PANEL_STATUS_HELD 1 p
  else s

/-- Every queue of panel p holds only commands that are no unsatisfied `wait` before `ord`. -/
def waitBefore (l : List QCmd) (ord : Nat) : Bool := l.any (fun c => decide (c.op = 5 ∧ c.ord < ord))

/-- Moves of a queue outstanding (R179). -/
def outstanding (l : List QCmd) : Nat := (l.filter (fun c => c.op = 3 ∧ c.issued)).length

/-- CMD_QLIMIT_q.LIMIT_M1 + 1. -/
def State.qLimit (s : State) (p q : Nat) : Nat := getF s Reg.CMD_QLIMIT_LIMIT_M1 p (q - 1) + 1

/-! ### Snapshots (R239, R426, R428) -/

/-- The channels bound to a panel. -/
def State.boundChans (s : State) (p : Nat) : List (Nat × Nat) :=
  (List.range 9).flatMap (fun k => ((List.range 64).filter (fun n => s.boundTo k n p)).map (fun n => (k, n)))

/-- A panel's snapshot is complete once nothing has still to copy (R428). -/
def State.finishSnaps (s : State) (p : Nat) : State :=
  let fin (m : SnapSt) : Bool := decide (m.queues = [] ∧ m.tiles = [] ∧ m.chans = [])
  ((s.panel p).snaps.filter fin).foldl (fun s m => (setF s Reg.OBS_SNAP_DONE_SNAP m.num p).raise 31)
    (s.modPanel p (fun x => { x with snaps := x.snaps.filter (fun m => !fin m) }))

/-- Every mover queue has passed a marker: whatever was committed before it has issued, and every such move has reached its channel. -/
def Panel.passed (x : Panel) (m : SnapSt) : Bool :=
  (List.range 7).all (fun q => (x.queue (q + 1)).all (fun c => decide (m.ord < c.ord) || (c.issued && (decide (c.op ≠ 3) || c.sent))))
    && x.packets.all (fun k => decide (k.queue = 0 ∨ m.ord < k.cmd.ord))

/-- A marker that the mover queues have not passed stands before a command of commit order `ord`. -/
def Panel.marksBefore (x : Panel) (ord : Nat) : Bool := x.snaps.any (fun m => m.queues.contains 1 && decide (m.ord < ord))

/-- Markers that every mover queue has passed go behind the descriptors that the bound channels hold (R426). -/
def State.placeMarks (s : State) (p : Nat) : State :=
  let x := s.panel p
  let go (m : SnapSt) : Bool := m.queues.contains 1 && x.passed m
  let chans := s.boundChans p
  let s := (x.snaps.filter go).foldl (fun s m => chans.foldl (fun s c =>
    s.modChan c.1 c.2 (fun y => { y with marks := y.marks ++ [⟨p, m.ord, m.num, m.layer, m.oper, y.waiting.length + bit y.cur.isSome⟩] })) s) s
  (s.modPanel p (fun x => { x with snaps := x.snaps.map (fun m => if go m then { m with queues := m.queues.filter (· ≠ 1), chans := chans } else m) })).finishSnaps p

/-! ### Panel reset (R244) -/

/-- Stitches released: their links and allowances become free (R204). -/
def State.freeStitch (s : State) (n : Nat) : State :=
  let s := { s with links := SMap.mapAll LinkSt.init (fun _ l => if l.rsv = some n then { l with rsv := none } else l) s.links }
  setF (setF (setF (s.setStitch n none) Reg.NET_ST_STATUS_STATE 0 n) Reg.NET_ST_STATUS_PANEL 0 n) Reg.NET_ST_STATUS_CREDIT 0 n

/-- The stitches that panel p owns. -/
def State.stitchesOf (s : State) (p : Nat) : List Nat :=
  (s.stitches.map (·.1)).filter (fun n => decide (getF s Reg.NET_ST_STATUS_STATE n ≠ 0 ∧ getF s Reg.NET_ST_STATUS_PANEL n = p))

/-- The fields that panel p owns and that a panel reset takes to their reset values (R13). -/
def panelFlds : List Fld :=
  (allFlds.filter (fun f => f.cls = 4 ∧ ¬ f.keptP)) ++ [Reg.OBS_SNAP_DONE_SNAP, Reg.NET_FENCE_DROP_COUNT]

/-- The fields of a tile that a panel reset takes to their reset values (R13). -/
def panelTileFlds : List Fld := tileFlds.filter (fun f => !f.keptP)

/-- Fields of every copy of panel p taken to their reset values, but for `keep`. -/
def State.resetPanelFlds (s : State) (p : Nat) (keep : List Fld) : State :=
  (panelFlds.filter (fun f => !keep.contains f)).foldl (fun s f =>
    (List.range f.n2).foldl (fun s j => setF s f (f.rst p) p j) s) s

/-- The engine's requests of panel p report to nobody any more (R370). -/
def State.forgetPatch (s : State) (p : Nat) : State :=
  let f (r : EngReq) : EngReq := { r with origin := r.origin.filter (fun o => o.1 ≠ p) }
  { s with cfg := { s.cfg with queue := s.cfg.queue.map f, cur := s.cfg.cur.map f } }

/-- Steps 1 to 5 of R244; the moves outstanding begin to abort. A holding copy or a held lower write stays (DESIGN CHOICE, log entry 81). -/
def State.panelResetSteps (s : State) (p : Nat) : State :=
  let tiles := s.panelTiles p
  let s := (s.boundChans p).foldl (fun (s : State) c =>
    (s.startAbort c.1 c.2).modChan c.1 c.2 (fun y => { y with marks := y.marks.filter (fun m => m.panel ≠ p) })) s
  let s := tiles.foldl (fun (s : State) t => (s.tileReset t).resetFlds panelTileFlds t) s
  let s := (s.stitchesOf p).foldl (fun (s : State) n => setF (s.freeStitch n) Reg.NET_ST_STATUS_LOSS 0 n) s
  let s := (List.range 256).foldl (fun s g => if getF s Reg.NET_MCG_PANEL g = p then setF s Reg.NET_MCG_VALID 0 g else s) s
  let s := tiles.foldl (fun (s : State) t => s.modTile t (fun x => { x with layer := 0, operator := 0 })) s
  let s := (s.forgetPatch p).setPanel p { Panel.init with words := (s.panel p).words, undefining := (s.panel p).undefining }
  s.resetPanelFlds p [Reg.CMD_PANEL_STATUS_STATE, Reg.CMD_PANEL_CTRL_UNDEFINE, Reg.CMD_PANEL_CTRL_RESET, Reg.CMD_PANEL_STATUS_SLEEP]

/-- A panel reset starts: STATE reads 3. -/
def State.startPanelReset (s : State) (p : Nat) : State := setF (s.panelResetSteps p) Reg.CMD_PANEL_STATUS_STATE 3 p

/-- The definition goes; the panel's tiles belong to no panel (R222). -/
def State.removePanel (s : State) (p : Nat) : State :=
  setF (setF (s.setPanel p Panel.init) Reg.CMD_PANEL_STATUS_STATE 0 p) Reg.CMD_PANEL_CTRL_UNDEFINE 0 p

/-- A panel's tiles as a wake leaves them (R454): as after a tile reset, with program memory and operand store at zero. -/
def State.wakeTile (s : State) (t : Nat) : State :=
  (s.tileReset t).modTile t (fun x => { x with pmem := [], pmemErr := [], os := [], osErr := [], replay := x.replay.filter (fun r => r.1 = 4) })

/-- A sleeping panel wakes (R249, R454). -/
def State.wakePanel (s : State) (p : Nat) : State :=
  let s := (s.panelTiles p).foldl (fun (s : State) t => s.wakeTile t) s
  let late := (s.panel p).faultAtWake
  let s := setFbit (setFbit (setF s Reg.CMD_PANEL_STATUS_SLEEP 0 p) Reg.PWR_PSLEEP_SLEEP p false) Reg.PWR_PWAKE_WAKE p false
  let s := s.modPanel p (fun x => { x with faultAtWake := false, wakeAtThaw := false })
  if late then s.faultAction p else s

/-! ### Thaw (R248, R337) -/

/-- Tile resets written while the tiles were frozen are done now (R127). -/
def State.lateResets (s : State) (tiles : List Nat) : State :=
  tiles.foldl (fun (s : State) t => if flag s Reg.TIL_CTRL_RESET t then s.tileReset t else s) s

/-- Page responses recorded while a panel was frozen are acted on (R273). -/
def State.lateResponse (respond : State → Nat → Nat → Nat → State) (s : State) (c : Nat × Nat) : State :=
  match (s.chan c.1 c.2).response with
  | some r => respond (s.modChan c.1 c.2 (fun y => { y with response := none })) c.1 c.2 r
  | none => s

/-- What a page response does (R270): 0 Success resumes the channel; anything else is a translation failure. -/
def State.pageRespond (s : State) (k n code : Nat) : State :=
  if s.chanState k n ≠ 4 then s
  else if code = 0 then (s.setChanState k n 1).askHost k n
  else match (s.chan k n).cur with
    | some _ => s.failDesc k n 4 (s.chan k n).failAt
    | none => s

/-- A frozen panel goes on in the state it held (R248). -/
def State.thawPanel (s : State) (p : Nat) : State :=
  let s := setF s Reg.CMD_PANEL_STATUS_STATE 1 p
  let tiles := s.panelTiles p
  let s := ((s.lateResets tiles).pumpHems).drainAll0
  let s := (s.boundChans p).foldl (State.lateResponse State.pageRespond) s
  if (s.panel p).wakeAtThaw then s.wakePanel p else s

end Sys2Proof.Machine
end

