-- ==== Sys2Proof/Machine/Panel.lean ====
section
/-! DEFINITION. Panels: definition (R218 to R222), reset (R244), thaw (R248), takeover (R189), queue resume (R233), and interrupts from the host (R243). -/

namespace Sys2Proof.Machine

/-- A mask bit beyond the panel's width or height (R219, cause 4). -/
def State.gateBeyond (s : State) (p : Nat) : Bool :=
  let w := getF s Reg.CMD_PANEL_RECT_X1 p + 1 - getF s Reg.CMD_PANEL_RECT_X0 p
  let h := getF s Reg.CMD_PANEL_RECT_Y1 p + 1 - getF s Reg.CMD_PANEL_RECT_Y0 p
  let wide (lo hi : Fld) : Nat := getF s lo p + getF s hi p * 2 ^ 32
  decide (2 ^ w ≤ wide Reg.CMD_GATE_N_LO_GATE Reg.CMD_GATE_N_HI_GATE ∨ 2 ^ w ≤ wide Reg.CMD_GATE_S_LO_GATE Reg.CMD_GATE_S_HI_GATE
    ∨ 2 ^ h ≤ getF s Reg.CMD_GATE_W_GATE p ∨ 2 ^ h ≤ getF s Reg.CMD_GATE_E_GATE p)

/-- Two panels' rectangles share a tile. -/
def State.rectsMeet (s : State) (p q : Nat) : Bool :=
  decide (getF s Reg.CMD_PANEL_RECT_X0 p ≤ getF s Reg.CMD_PANEL_RECT_X1 q ∧ getF s Reg.CMD_PANEL_RECT_X0 q ≤ getF s Reg.CMD_PANEL_RECT_X1 p
    ∧ getF s Reg.CMD_PANEL_RECT_Y0 p ≤ getF s Reg.CMD_PANEL_RECT_Y1 q ∧ getF s Reg.CMD_PANEL_RECT_Y0 q ≤ getF s Reg.CMD_PANEL_RECT_Y1 p)

/-- A panel that takes part in an overlap: defined, or being defined. -/
def State.panelTaken (s : State) (q : Nat) : Bool := decide (s.panelState q ≠ 0) || (s.panel q).defining

/-- A tile that R219 keeps out of a panel: held, or taken over in service (R250; DEDUCED, log entry 74), in the availability profile; retired in
the latency profile. -/
def State.tileBarred (s : State) (t : Nat) : Bool :=
  if getF s Reg.MGT_PROFILE_PROFILE = 1 then s.heldTile t || decide (SMap.get 0 s.takeover t ≠ 0) else (s.tile t).retired

/-- The cause for which a definition is refused (R219), 0 for none; a defined panel has cause 5 whatever else holds (R249). -/
def State.defCause (s : State) (p : Nat) : Nat :=
  if s.panelState p ≠ 0 then 5
  else if getF s Reg.CMD_PANEL_RECT_X1 p < getF s Reg.CMD_PANEL_RECT_X0 p ∨ getF s Reg.CMD_PANEL_RECT_Y1 p < getF s Reg.CMD_PANEL_RECT_Y0 p then 1
  else if (List.range 16).any (fun q => decide (q ≠ p) && s.panelTaken q && s.rectsMeet p q) then 2
  else if ((List.range 2048).filter (s.inPanelRect p)).any s.tileBarred then 3
  else if s.gateBeyond p then 4
  else if s.profileFresh then 6
  else 0

/-- PANEL_DEFINE (R218, R219): the definition is refused with DEF_CAUSE, or under way until PANEL_DEFINE_COMPLETE. -/
def execPanelDefine (p : PanelNo) (s : State) : Res :=
  let n := p.toNat
  .next (s.hostWrite Reg.CMD_PANEL_CTRL_DEFINE n 0 (fun s =>
    if flag s Reg.CMD_PANEL_CTRL_DEFINE n then s
    else
      let c := s.defCause n
      if c = 0 then (setF s Reg.CMD_PANEL_CTRL_DEFINE 1 n).modPanel n (fun x => { x with defining := true })
      else setF (setF s Reg.CMD_PANEL_STATUS_DEF_ERR 1 n) Reg.CMD_PANEL_STATUS_DEF_CAUSE c n))

/-- PANEL_DEFINE_COMPLETE (R220): the panel stands in its initial state. -/
def execPanelDefineComplete (p : PanelNo) (s : State) : Res :=
  let n := p.toNat
  .next (if (s.panel n).defining ∧ ¬ s.arrayFrozen then
    let s := s.setPanel n { Panel.init with words := (s.panel n).words }
    let s := setF (setF s Reg.CMD_PANEL_CTRL_DEFINE 0 n) Reg.CMD_PANEL_STATUS_STATE 1 n
    let s := setF (setF (setF s Reg.CMD_INTAKE_PTR_NEXT 0 n) Reg.CMD_INTAKE_PTR_CONSUMED 0 n) Reg.CMD_INTAKE_SEQ_VALUE 0 n
    let s := setF (setF (setF s Reg.CMD_TAGS_LAYER 0 n) Reg.CMD_TAGS_OPERATOR 0 n) Reg.CMD_BARRIER_COUNT 0 n
    let s := (List.range 8).foldl (fun s q => setF s Reg.CMD_QMARK_REACHED 0 n q) s
    (s.panelTiles n).foldl (fun (s : State) t => s.modTile t (fun x => { x with layer := 0, operator := 0 })) s
  else s)

/-- A panel's reset or removal during a device freeze is discarded (R443). -/
def State.panelCtl (s : State) (f : Fld) (p : Nat) (k : State → State) : State :=
  s.hostWrite f p 0 (fun s => if s.arrayFrozen then s.discard (f.addr p 0) (2 ^ f.lo) else k s)

/-- A sleeping panel is woken, and a frozen one thawed, before its reset (R248, R249). -/
def State.readyForReset (s : State) (p : Nat) : State :=
  let s := if s.panelState p = 2 then s.thawPanel p else s
  if flag s Reg.CMD_PANEL_STATUS_SLEEP p then s.wakePanel p else s

/-- PANEL_UNDEFINE (R222): a panel reset, after which the definition goes. -/
def execPanelUndefine (p : PanelNo) (s : State) : Res :=
  let n := p.toNat
  .next (s.panelCtl Reg.CMD_PANEL_CTRL_UNDEFINE n (fun s =>
    if s.panelState n = 0 then s
    else
      let s := (setF s Reg.CMD_PANEL_CTRL_UNDEFINE 1 n).modPanel n (fun x => { x with undefining := true })
      if s.panelState n = 3 then s else (s.readyForReset n).startPanelReset n))

/-- PANEL_RESET (R244): discarded for a command processor that the charter has frozen (R248). -/
def execPanelReset (p : PanelNo) (s : State) : Res :=
  let n := p.toNat
  .next (s.panelCtl Reg.CMD_PANEL_CTRL_RESET n (fun s =>
    if s.frozenMaster (idCmd n) then s.discard (Reg.CMD_PANEL_CTRL_RESET.addr n 0) 4
    else if s.panelState n = 0 ∨ s.panelState n = 3 then s
    else (setF (s.readyForReset n) Reg.CMD_PANEL_CTRL_RESET 1 n).startPanelReset n))

/-- PANEL_RESET_COMPLETE (R244, R222): once the aborted moves have ended, STATE leaves 3. -/
def execPanelResetComplete (p : PanelNo) (s : State) : Res :=
  let n := p.toNat
  .next (if s.panelState n ≠ 3 ∨ s.arrayFrozen ∨ (s.boundChans n).any (fun c => decide (s.chanState c.1 c.2 = 3)) then s
    else
      let s := setF s Reg.CMD_PANEL_CTRL_RESET 0 n
      if (s.panel n).undefining then s.removePanel n else setF s Reg.CMD_PANEL_STATUS_STATE 1 n)

/-- PANEL_THAW (R248, R249): discarded in a device freeze and for a command processor frozen by the charter; without effect, and
recorded, for a sleeping panel. -/
def execPanelThaw (p : PanelNo) (s : State) : Res :=
  let n := p.toNat
  let a := Reg.CMD_PANEL_CTRL_THAW.addr n 0
  .next (s.panelCtl Reg.CMD_PANEL_CTRL_THAW n (fun s =>
    if s.frozenMaster (idCmd n) then s.discard a 8
    else if s.panelState n = 2 then s.thawPanel n
    else if flag s Reg.CMD_PANEL_STATUS_SLEEP n then s.discard a 8
    else s))

/-- QUEUE_RESUME (R233, R249): HELD clears and the queue restarts. -/
def execQueueResume (p : PanelNo) (s : State) : Res :=
  let n := p.toNat
  .next (s.hostWrite Reg.CMD_PANEL_CTRL_RESUME n 0 (fun s =>
    if flag s Reg.CMD_PANEL_STATUS_SLEEP n then s.discard (Reg.CMD_PANEL_CTRL_RESUME.addr n 0) 16
    else setF (s.modPanel n (fun x => { x with held := [] })) Reg.CMD_PANEL_STATUS_HELD 0 n))

/-! ### Takeover (R189, R30) -/

/-- TILE_TAKEOVER (R189): in the availability profile a held spare takes over a retired logical tile, and the panel
frozen for it is thawed (R30) unless another of its tiles waits for a takeover of its own (DEDUCED, log entry 74). -/
def execTileTakeover (t : TileNo) (s : State) : Res :=
  let n := t.toNat
  .next (if getF s Reg.MGT_PROFILE_PROFILE ≠ 1 ∨ ¬ (s.tile n).retired ∨ s.heldTile n then s
    else match s.chooseSpare n with
      | none => s
      | some r =>
        let dead := (s.tile n).routerRetired
        let old := s.posOf n
        let s := (s.resetFlds tileFlds n).setTile n { Tile.init with routerRetired := dead }
        let s := { s with takeover := SMap.set 0 s.takeover n (r + 1), spent := s.spent ++ [r] }
        let s := setF s Reg.MGT_PROFILE_SPARES_LEFT (getF s Reg.MGT_PROFILE_SPARES_LEFT - 1)
        let s := (s.stitchesAt n).foldl (fun s k => s.breakStitch k 0) s
        let s := (List.range 256).foldl (fun s g =>
          if flag s Reg.NET_MCG_VALID g ∧ n ∈ s.groupTiles g then setF s Reg.NET_MCG_VALID 0 g else s) s
        let s := s.report 4 (unitNo blkTIL n) (leBytes 2 n ++ leBytes 2 (s.siteOf old) ++ leBytes 2 (s.siteOf r))
        match s.panelOf n with
        | some p => if s.panelState p = 2 ∧ (s.panelTiles p).all (fun q => !(s.tile q).retired) then s.thawPanel p else s
        | none => s)

/-! ### Panel sleep (R454) -/

/-- The conditions for sleep. -/
def State.maySleep (s : State) (p : Nat) : Bool :=
  decide (s.panelState p = 1) && !s.arrayFrozen && (List.range 8).all (fun q => decide ((s.panel p).queue q = []))
    && (s.panelTiles p).all (fun t => decide ((s.tile t).run = .idle) && !(s.tile t).matBusy && (s.tile t).pipe.isEmpty)
    && s.stitches.all (fun e => decide (getF s Reg.NET_ST_STATUS_STATE e.1 = 0) || (decide (getF s Reg.NET_ST_STATUS_PANEL e.1 ≠ p)
        && (match e.2 with
          | some st => !s.inPanel p st.endTile
          | none => true)))
    && (s.boundChans p).all (fun c => decide (s.chanState c.1 c.2 = 0) && decide ((s.chan c.1 c.2).waiting = []))

/-- PANEL_SLEEP (R454): bit p of PWR_PSLEEP.SLEEP is written with 1. -/
def execPanelSleep (p : PanelNo) (s : State) : Res :=
  let n := p.toNat
  .next (s.hostWrite Reg.PWR_PSLEEP_SLEEP 0 0 (fun s =>
    if fbit s Reg.PWR_PSLEEP_SLEEP n then s
    else if s.maySleep n then setF (setFbit s Reg.PWR_PSLEEP_SLEEP n true) Reg.CMD_PANEL_STATUS_SLEEP 1 n
    else (setFbit s Reg.PWR_PSLEEP_REFUSED n true).discard (Reg.PWR_PSLEEP_SLEEP.addr 0 0) (2 ^ n)))

/-- PANEL_WAKE (R249, R454): bit p of PWR_PWAKE.WAKE is written with 1; a frozen panel wakes at its thaw. -/
def execPanelWake (p : PanelNo) (s : State) : Res :=
  let n := p.toNat
  .next (s.hostWrite Reg.PWR_PWAKE_WAKE 0 0 (fun s =>
    if ¬ flag s Reg.CMD_PANEL_STATUS_SLEEP n then s
    else if s.panelFrozen n then (setFbit s Reg.PWR_PWAKE_WAKE n true).modPanel n (fun x => { x with wakeAtThaw := true })
    else s.wakePanel n))

/-! ### Interrupts from the host (R125, R243) -/

/-- Post interrupt k to a tile of the panel; a preempt to an idle tile counts as acknowledged. -/
def State.hostPost (s : State) (p t k : Nat) : State :=
  if ¬ s.inPanel p t then s
  else if k = 1 ∧ (s.tile t).run = .idle then bumpF s Reg.CMD_POST_ACKS 1 p
  else s.postIrq t k

/-- The tiles that a CMD_POST value names. -/
def State.postTargets (s : State) (p v : Nat) : List Nat := if bitAt v 11 then s.panelTiles p else [bits v 10 0]

/-- A write of CMD_POST with GO: its fields are set and the interrupt is posted; without effect on a sleeping panel (R249). -/
def State.post (s : State) (p k : Nat) (v : Nat) : State :=
  s.hostWrite Reg.CMD_POST_GO p 0 (fun s =>
    let a := Reg.CMD_POST_GO.addr p 0
    if flag s Reg.CMD_PANEL_STATUS_SLEEP p ∨ flag s Reg.CMD_POST_BUSY p then s.discard a v
    else
      let s := setF (setF (setF s Reg.CMD_POST_TILE (bits v 10 0) p) Reg.CMD_POST_ALL (bits v 11 11) p) Reg.CMD_POST_KIND k p
      (s.postTargets p v).foldl (fun s t => s.hostPost p t k) s)

/-- POST_PREEMPT (R243): KIND 1 with GO; TILE in bits [10:0] of the value, ALL in bit 11. -/
def execPostPreempt (p : PanelNo) (val : Word) (s : State) : Res := .next (s.post p.toNat 1 val.toNat)

/-- POST_SNAPSHOT_REQUEST (R243): KIND 2 with GO. -/
def execPostSnapshotRequest (p : PanelNo) (val : Word) (s : State) : Res := .next (s.post p.toNat 2 val.toNat)

end Sys2Proof.Machine
end

