-- ==== Sys2Proof/Machine/Intake.lean ====
section
/-! DEFINITION. The intake windows (R223 to R230, R378): storing words, committing packets, deciding and consuming them. -/

namespace Sys2Proof.Machine

/-! ### CRC-32C (R226) -/

/-- One bit of the reflected CRC-32C. -/
def crcStep (c : Word) : Word := if c.getLsbD 0 then (c >>> 1) ^^^ 0x82F63B78 else c >>> 1

/-- One byte. -/
def crcByte (c : Word) (b : Byte) : Word :=
  let x := c ^^^ b.setWidth 32
  crcStep (crcStep (crcStep (crcStep (crcStep (crcStep (crcStep (crcStep x)))))))

/-- CRC-32C of a byte list: reflected, initial value and final XOR 0xFFFF_FFFF. -/
def crc32c (l : List Byte) : Word := l.foldl crcByte 0xFFFFFFFF ^^^ 0xFFFFFFFF

/-! ### The window (R224) -/

/-- The word of the window at a byte offset. -/
def Panel.word (x : Panel) (off : Nat) : Word := SMap.get 0 x.words (off % 65536 / 4)

/-- `n` bytes of the ring from `off`; offset 0 follows offset 0xFFFC. -/
def Panel.bytes (x : Panel) (off n : Nat) : List Byte :=
  (List.range (n / 4)).flatMap (fun i => leBytes 4 (x.word (off + 4 * i)).toNat)

/-- LEN of the packet that begins at `off` (R225). -/
def Panel.lenAt (x : Panel) (off : Nat) : Nat := bits (x.word off).toNat 15 0

/-- A LEN that R225 allows. -/
def lenOk (n : Nat) : Bool := decide (n % 8 = 0 ∧ 16 ≤ n ∧ n ≤ 32768)

def State.inNext (s : State) (p : Nat) : Nat := getF s Reg.CMD_INTAKE_PTR_NEXT p
def State.inConsumed (s : State) (p : Nat) : Nat := getF s Reg.CMD_INTAKE_PTR_CONSUMED p

/-- A byte of a packet that is committed and not consumed; a rejected packet's bytes are free at once (R229), also behind an older packet that
still waits (DEDUCED, log entry 39). -/
def State.protectedAt (s : State) (p off : Nat) : Bool :=
  (s.panel p).packets.any (fun k => decide ((off + 65536 - k.off) % 65536 < k.len))

/-- The intake of panel p decides nothing and defers every commit: frozen, asleep, or in reset (R24, R246, R454). -/
def State.intakeWaits (s : State) (p : Nat) : Bool :=
  decide (s.panelState p ≠ 1) || s.arrayFrozen || flag s Reg.CMD_PANEL_STATUS_SLEEP p

/-- Commits that were deferred take place: their bytes are the window's now. -/
def Panel.commitNow (x : Panel) : Panel :=
  { x with undecided := x.undecided.map (fun u => { u with bytes := some (u.bytes.getD (x.bytes u.off u.len)) }) }

/-- A status bit of the intake that raises the panel's vector (R380). -/
def State.intakeFlag (s : State) (f : Fld) (p : Nat) : State := (setF s f 1 p).raise p

/-- One word at offset `off` of window p: discarded, or stored, and perhaps the header or the commit word (R223, R224, R227, R228). -/
def State.intakeWord (s : State) (p off : Nat) (w : Word) (bad : Bool) : State :=
  if s.panelState p = 0 ∨ bad then s.intakeFlag Reg.CMD_INTAKE_STATUS_BAD_WRITE p
  else if s.panelState p = 3 ∨ flag s Reg.CMD_INTAKE_STATUS_STOPPED p then s
  else
    let shut := s.protectedAt p off
    let s := if shut then s.intakeFlag Reg.CMD_INTAKE_STATUS_OVERWRITE p else s
    let x := if s.intakeWaits p then s.panel p else (s.panel p).commitNow
    let x := if shut then x else { x with words := SMap.set 0 x.words (off / 4) w, hdrHeld := x.hdrHeld || decide (off = x.fill) }
    let n := x.lenAt x.fill
    if ¬ shut ∧ off = x.fill ∧ ¬ lenOk n then setF (s.setPanel p x) Reg.CMD_INTAKE_STATUS_STOPPED 1 p
    else if x.hdrHeld ∧ off = (x.fill + n - 4) % 65536 then
      let u : Undecided := ⟨x.fill, n, if s.intakeWaits p then none else some (x.bytes x.fill n)⟩
      s.setPanel p { x with undecided := x.undecided ++ [u], fill := (x.fill + n) % 65536, hdrHeld := false }
    else s.setPanel p x

/-- The words of one write in ascending address order. -/
def State.intakeWords (bad : Bool) : Nat → List Word → State → State
  | _, [], s => s
  | off, w :: r, s =>
    State.intakeWords bad (off + 4) r (if 0x100000 ≤ off then s else s.intakeWord (off / 65536) (off % 65536) w bad)

/-- The host may not write BAR4: refused as a charter refusal (R377, R403). -/
def State.intakeRefused (s : State) : Bool := s.frozenMaster idHost || s.fuseFault || !s.mflag idHost 3

/-- INTAKE_WRITE (R223, R378): a BAR4 write of whole words, aligned unless bit 0 or 1 of the offset is set; `partialBe` says that a
byte enable was negated, `poisoned` that the write carried EP = 1 (R383). -/
def execIntakeWrite (off : BitVec 22) (words : List Word) (partialBe poisoned : Bool) (s : State) : Res :=
  .next (if !s.hostServed || s.warming.isSome then s
    else if s.intakeRefused then
      s.violation { master := idHost, kind := 1, reason := 6, addr := off.toNat, len := 4 * words.length }
    else
      let s := if poisoned then (bumpF s Reg.PCI_ERR_CNT_UNCORR).report 0 (unitNo blkPCI 0) [] else s
      State.intakeWords (partialBe || poisoned || decide (off.toNat % 4 ≠ 0)) off.toNat words s)

/-- INTAKE_RESYNC (R227): uncommitted words are discarded, NEXT goes back to CONSUMED, and the intake runs again. -/
def execIntakeResync (p : PanelNo) (s : State) : Res :=
  let n := p.toNat
  .next (s.hostWrite Reg.CMD_INTAKE_CTRL_RESYNC n 0 (fun s =>
    let c := s.inConsumed n
    let s := s.modPanel n (fun x => { x with undecided := [], fill := c, hdrHeld := false })
    setF (setF s Reg.CMD_INTAKE_PTR_NEXT c n) Reg.CMD_INTAKE_STATUS_STOPPED 0 n))

/-! ### The decision (R228, R229, R232, R236) -/

/-- A committed packet as its bytes spell it. -/
structure Pkt where
  bytes : List Byte
  deriving DecidableEq, Repr

def Pkt.num (k : Pkt) (at_ n : Nat) : Nat := leNat ((k.bytes.drop at_).take n)
def Pkt.word (k : Pkt) (at_ : Nat) : Nat := k.num at_ 4
def Pkt.len (k : Pkt) : Nat := bits (k.word 0) 15 0
def Pkt.op (k : Pkt) : Nat := bits (k.word 0) 23 16
def Pkt.queue (k : Pkt) : Nat := bits (k.word 0) 26 24
def Pkt.seq (k : Pkt) : Nat := k.word 4
/-- A word of the body, by its offset within the body. -/
def Pkt.body (k : Pkt) (at_ : Nat) : Nat := k.word (16 + at_)

/-- The CRC of R226. -/
def Pkt.crcOk (k : Pkt) : Bool :=
  decide ((crc32c (k.bytes.take 8 ++ [0, 0, 0, 0] ++ k.bytes.drop 12)).toNat = k.word 8)

/-- OP is listed (R232). -/
def opListed (op : Nat) : Bool := decide (1 ≤ op ∧ op ≤ 11)

/-- QUEUE is allowed for OP. -/
def queueAllowed (op q : Nat) : Bool := match op with
  | 3 => decide (1 ≤ q)
  | 4 | 5 => true
  | _ => decide (q = 0)

/-- Body bytes that OP has, padding left out. -/
def Pkt.bodyLen (k : Pkt) : Nat := match k.op with
  | 1 => 40
  | 2 => 16 + k.body 8
  | 3 => 80
  | 4 | 5 | 8 | 9 | 10 => 8
  | 7 => 32
  | 11 => 24
  | _ => 0

/-- LEN fits OP: exactly, or rounded up to 8 for a `patch` (R232). -/
def Pkt.lenFits (k : Pkt) : Bool := decide (k.len = if k.op = 11 then (16 + k.bodyLen + 7) / 8 * 8 else 16 + k.bodyLen)

/-- No reserved field of a `launch` body is set (R234, R100). -/
def Pkt.launchOk (k : Pkt) : Bool :=
  let w0 := k.body 0
  let rect := bitAt w0 31
  let r := k.body 4
  decide (bits w0 30 11 = 0 ∧ bits r 31 22 = 0 ∧ bits (k.body 8) 15 12 = 0 ∧ bits (k.body 8) 31 28 = 0
      ∧ bits (k.body 12) 31 11 = 0 ∧ bits (k.body 12) 2 2 = 0 ∧ bits (k.body 16) 31 20 = 0 ∧ k.body 36 = 0)
    && (if rect then decide (k.body 16 = 0 ∧ bits r 5 0 ≤ bits r 11 6 ∧ bits r 16 12 ≤ bits r 21 17) else decide (r = 0))

/-- A `load` body fits its target (R235). -/
def Pkt.loadOk (k : Pkt) : Bool :=
  let w0 := k.body 0
  let a := k.body 4
  let n := k.body 8
  decide (bits w0 11 11 = 0 ∧ bits w0 31 14 = 0 ∧ k.body 12 = 0)
    && (match bits w0 13 12 with
      | 0 => decide (n % 8 = 0 ∧ a + n / 8 ≤ 4096)
      | 1 => decide (n % 128 = 0 ∧ a % 128 = 0 ∧ a + n ≤ 0x20000)
      | 2 => decide (n % 128 = 0 ∧ a % 128 = 0 ∧ a + n ≤ 0x200000)
      | _ => false)

/-- A `patch` body (R361). -/
def Pkt.patchOk (k : Pkt) : Bool :=
  let w0 := k.body 0
  let op := bits w0 1 0
  let a := k.num 24 8
  decide (bits w0 7 2 < 48 ∧ bits w0 31 9 = 0 ∧ k.body 4 = 0 ∧ k.body 20 = 0 ∧ a < 2 ^ 39)
    && (decide (op < 2) || decide (bits w0 8 8 = 0))
    && (if op = 0 ∨ op = 2 then decide (a % 64 = 0) else decide (a = 0 ∧ k.body 16 = 0))

/-- The body's own checks (R228, check 6). A stitch descriptor is checked whole by the setup logic (R198). -/
def State.bodyOk (s : State) (p : Nat) (k : Pkt) : Bool :=
  let marks (q : Nat) : Nat := SMap.get 0 (s.panel p).marks q
  match k.op with
  | 1 => k.launchOk
  | 2 => k.loadOk
  | 3 => decide (bits (k.body 0) 3 0 ≤ 8 ∧ bits (k.body 0) 31 10 = 0 ∧ k.body 4 = 0 ∧ k.body 8 = 0 ∧ k.body 12 = 0)
  | 4 => decide (bits (k.body 0) 31 16 = 0 ∧ k.body 4 = 0 ∧ bits (k.body 0) 15 0 = (marks k.queue + 1) % 65536)
  | 5 =>
    let q := bits (k.body 0) 18 16
    decide (bits (k.body 0) 31 19 = 0 ∧ k.body 4 = 0 ∧ (marks q + 65536 - bits (k.body 0) 15 0 % 65536) % 65536 < marks q)
  | 8 => decide (k.body 0 ≠ 0 ∧ bits (k.body 4) 31 1 = 0)
  | 9 => decide (k.body 4 = 0)
  | 10 => decide (32 ≤ bits (k.body 4) 7 0 ∧ bits (k.body 4) 31 8 = 0)
  | 11 => k.patchOk
  | _ => true

/-- Header fields that are reserved, and the padding after the body, are 0. -/
def Pkt.cleanOk (k : Pkt) : Bool :=
  decide (bits (k.word 0) 31 27 = 0 ∧ k.word 12 = 0) && (k.bytes.drop (16 + k.bodyLen)).all (· = 0)

/-- The first failing check of R228, 0 for none. -/
def State.packetCause (s : State) (p : Nat) (k : Pkt) : Nat :=
  if ¬ k.crcOk then 1
  else if k.seq ≠ getF s Reg.CMD_INTAKE_SEQ_VALUE p then 2
  else if ¬ opListed k.op then 3
  else if ¬ queueAllowed k.op k.queue then 4
  else if ¬ k.lenFits then 5
  else if ¬ (k.cleanOk ∧ s.bodyOk p k) then 6
  else 0

/-- What the acceptance of a packet changes beside the intake: the mark numbers, the tags at the commit position, and the snapshot marker that
a `snap` puts into every queue there (R239). -/
def Panel.accept (x : Panel) (off : Nat) (k : Pkt) : Panel :=
  let c : QCmd := { op := k.op, seq := k.seq, body := (k.bytes.drop 16).take k.bodyLen, layer := x.layer, oper := x.oper, ord := x.ord,
                    issued := false, sent := false }
  let x := { x with packets := x.packets ++ [⟨off, k.len, k.queue, c⟩], ord := x.ord + 1 }
  match k.op with
  | 4 => { x with marks := SMap.set 0 x.marks k.queue (SMap.get 0 x.marks k.queue + 1) }
  | 8 => { x with snaps := x.snaps ++ [⟨k.body 0, c.layer, c.oper, c.ord, [0, 1], [], []⟩] }
  | 9 => { x with layer := bits (k.body 0) 15 0, oper := bits (k.body 0) 31 16 }
  | _ => x

/-- PACKET_DECISION (R228, R229): the oldest committed packet is accepted or rejected; NEXT advances either way. -/
def execPacketDecision (p : PanelNo) (s : State) : Res :=
  let n := p.toNat
  .next (match (s.panel n).undecided with
    | [] => s
    | ⟨off, len, held⟩ :: r =>
      if s.intakeWaits n then s
      else
        let k : Pkt := ⟨held.getD ((s.panel n).bytes off len)⟩
        let cause := s.packetCause n k
        let s := s.modPanel n (fun x => { x with undecided := r })
        let s := setF s Reg.CMD_INTAKE_PTR_NEXT (off + len) n
        if cause = 0 then
          (setF (s.modPanel n (fun x => x.accept off k)) Reg.CMD_INTAKE_SEQ_VALUE (getF s Reg.CMD_INTAKE_SEQ_VALUE n + 1) n).placeMarks n
        else
          let s := if (s.panel n).packets = [] then setF s Reg.CMD_INTAKE_PTR_CONSUMED (off + len) n else s
          (setF (setF s Reg.CMD_INTAKE_STATUS_CAUSE cause n) Reg.CMD_INTAKE_REJ_SEQ_VALUE k.seq n).intakeFlag Reg.CMD_INTAKE_STATUS_REJ n)

/-- PACKET_CONSUME (R230): the oldest committed packet moves into its queue, once the queue has room. -/
def execPacketConsume (p : PanelNo) (s : State) : Res :=
  let n := p.toNat
  .next (match (s.panel n).packets with
    | [] => s
    | k :: r =>
      let x := s.panel n
      if s.intakeWaits n ∨ queueSize k.queue ≤ (x.queue k.queue).length then s
      else
        let s := s.setPanel n ({ x with packets := r }.setQueue k.queue (x.queue k.queue ++ [k.cmd]))
        setF s Reg.CMD_INTAKE_PTR_CONSUMED (match r with
          | [] => s.inNext n
          | j :: _ => j.off) n)

end Sys2Proof.Machine
end

