-- ==== Sys2Proof/Machine/Command.lean ====
section
/-! DEFINITION. The commands of the queues, but for `patch` (R178 to R184, R233 to R241), and stitches (R197 to R204). -/

namespace Sys2Proof.Machine

/-! ### launch (R118, R234) -/

/-- A tile that still runs a program. -/
def Tile.busyRun (x : Tile) : Bool := decide (x.run = .running ∨ x.run = .halted)

/-- The chain word refuses the launch of tile t in panel p (R234, steps 3 and 4). -/
def State.chainRefused (s : State) (p t w : Nat) : Bool :=
  let role := bits w 1 0
  let inD := bits w 4 2
  let outD := bits w 7 5
  let pos := bits w 13 8
  let lenm1 := bits w 19 14
  let near (d : Nat) : Bool := decide (d = 0) || (match (if d ≤ 4 then chainTo t d else none) with
    | some q => s.inPanel p q
    | none => false)
  let local_ := decide (role = 1 ∧ pos = 0 ∧ inD = 0 ∨ role = 2 ∧ inD ≠ 0)
      && decide (pos ≤ lenm1 ∧ (inD ≠ 0 ∨ pos = 0) ∧ (outD = 0 ↔ pos = lenm1)) && near inD && near outD
  let back := match (if inD = 0 then none else chainTo t inD) with
    | none => true
    | some q => decide (getF s Reg.TIL_CHAIN_ROLE q = 0)
        || (decide (chainTo q (getF s Reg.TIL_CHAIN_OUT q) = some t) && decide (getF s Reg.TIL_CHAIN_POS q + 1 = pos))
  decide (w ≠ 0) && !(local_ && back)

/-- The cause for which a `launch` is refused, 0 for none (R234). -/
def State.launchCause (s : State) (p : Nat) (c : QCmd) : Nat :=
  if c.targets.any (fun t => s.inPanel p t && ((s.tile t).retired || decide ((s.tile t).run = .faulted))) then 1
  else if c.targets.any (fun t => !s.inPanel p t) then 2
  else if c.targets.any (fun t => s.chainRefused p t (c.word 16)) then 4
  else 0

/-- A tile takes its program (R98, R118, R425, R432). -/
def State.launchTile (s : State) (c : QCmd) (t : Nat) : State :=
  let nc := c.word 12
  let ch := c.word 16
  let s := if getF s Reg.TIL_NUM_CTRL_FALLBACK t = bits nc 0 0 then s else s.modTile t (fun x => { x with bank0 := [], bank1 := [] })
  let s := setF (setF (setF (setF s Reg.TIL_NUM_CTRL_FALLBACK (bits nc 0 0) t) Reg.TIL_NUM_CTRL_OVF_SAT (bits nc 1 1) t)
    Reg.TIL_NUM_CTRL_PROMOTE_VANISH (bits nc 7 3) t) Reg.TIL_NUM_CTRL_POCKET_GAP (bits nc 10 8) t
  let s := setF (setF (setF (setF (setF s Reg.TIL_CHAIN_ROLE (bits ch 1 0) t) Reg.TIL_CHAIN_IN (bits ch 4 2) t)
    Reg.TIL_CHAIN_OUT (bits ch 7 5) t) Reg.TIL_CHAIN_POS (bits ch 13 8) t) Reg.TIL_CHAIN_LENM1 (bits ch 19 14) t
  let olds := (List.range 16).map (fun i => s.ctr (ctrTile t + i))
  let per := flag s Reg.OBS_CTR_CFG_PER_LAUNCH
  let s := if per then (List.range 16).foldl (fun s i => s.setCtr (ctrTile t + i) 0) s else s
  let x := s.tile t
  let y := (List.range 4).foldl (fun (y : Tile) i => y.setGen i (BitVec.ofNat 32 (c.word (20 + 4 * i)))) x
  let y := ((y.setSprRaw sprIVEC (BitVec.ofNat 32 (bits (c.word 8) 27 16))).setSprRaw sprFLAGS (maskIE ||| maskLM)).setSprRaw sprLST 0
  let s := s.setTile t { (y.setSprRaw sprIPEND 0) with
    pc := BitVec.ofNat 12 (bits (c.word 8) 11 0), run := .running, launching := true, inHandler := false, delay := none, fetchWait := 0, gap := 0,
    rtiPend := false, entering := none, yHeld := false, haltAck := false, barPend := 0, lcTag := none, lcDone := false,
    restart := if per then some olds else x.restart }
  s.trace t 2 (bits (c.word 8) 11 0) (BitVec.ofNat 32 c.seq)

/-- LAUNCH (R118, R234): waits for the targets to be idle and for their snapshot markers, then starts every one or none. It stands in its queue
until each of them has issued its first instruction (R180). -/
def execLaunch (p : PanelNo) (s : State) : Res :=
  let n := p.toNat
  .next (match s.head0 n 1 with
    | none => s
    | some c =>
      if c.issued || c.targets.any (fun t => (s.tile t).busyRun) || (s.panel n).snaps.any (fun m => c.targets.any m.tiles.contains) then s
      else match s.launchCause n c with
        | 0 => c.targets.foldl (fun (s : State) t => s.launchTile c t) (s.markIssued n 0 c.ord)
        | k => s.refuseCmd n 0 c k 0)

/-! ### load (R117, R235) -/

/-- The data of a `load`. -/
def QCmd.data (c : QCmd) : List Byte := c.body.drop 16

/-- The target of a `load`: 0 program memory, 1 operand store, 2 lining. -/
def QCmd.target (c : QCmd) : Nat := bits (c.word 0) 13 12

/-- The cause for which a `load` is refused, 0 for none. -/
def State.loadCause (s : State) (p : Nat) (c : QCmd) : Nat :=
  let t := bits (c.word 0) 10 0
  if ¬ s.inPanel p t then 2
  else if (s.tile t).retired then 1
  else if c.target = 0 ∧ (s.tile t).busyRun then 3
  else if s.fuseFault ∨ ¬ s.mflag (idCmd p) 2 then 8
  else 0

/-- Lines of a byte list. -/
def linesOf (bs : List Byte) : List Line :=
  (List.range (bs.length / 128)).map (fun i => BitVec.ofNat 1024 (leNat ((bs.drop (128 * i)).take 128)))

/-- The data of a `load` written to program memory through the control port. -/
def State.loadProgram (s : State) (t : Nat) (c : QCmd) : State :=
  (List.range (c.data.length / 8)).foldl (fun s i =>
    s.modTile t (fun x => x.pmemStore (c.word 4 + i) (BitVec.ofNat 64 (leNat ((c.data.drop (8 * i)).take 8))))) s

/-- Line `i` of a `load` as the class 1 message that carries it. -/
def State.loadMsg (s : State) (t : Nat) (c : QCmd) (i : Nat) (v : Line) : Msg :=
  ⟨({ cls := 1, dlv := c.target, nt := true, dst := t, ddev := s.devId, sdev := s.devId, line := c.word 4 / 128 + i } : Hdr).toWord, v,
   trailer c.layer c.oper 0⟩

/-- The messages of a `load` enter at the network port of cluster 8 that serves the tile, in the order of the data. -/
def State.loadSend (s : State) (p t : Nat) (c : QCmd) : State :=
  match s.moverPort 8 t with
  | none => s
  | some k => (linesOf c.data).zipIdx.foldl (fun (s : State) l => s.launchMsg (.load p) (moverRouter 8 k) (s.loadMsg t c l.2 l.1)) s

/-- LOAD (R117, R235): the data is sent whole, or the command is refused. A `load` to the operand store or the lining stands in its queue until
its messages are delivered (R180). -/
def execLoad (p : PanelNo) (s : State) : Res :=
  let n := p.toNat
  .next (match s.head0 n 2 with
    | none => s
    | some c =>
      let t := bits (c.word 0) 10 0
      if c.issued then s
      else match s.loadCause n c with
      | 0 => if c.target = 0 then (s.popCmd n 0 c.ord).loadProgram t c else ((s.markIssued n 0 c.ord).loadSend n t c).settleLoads
      | 8 => (s.refuseCmd n 0 c 8 0).violation { master := idCmd n, kind := 1, reason := 3, addr := c.word 4, len := c.word 8, seq := c.seq,
                                                  tags := c.layer + c.oper * 65536 }
      | k => s.refuseCmd n 0 c k 0)

/-! ### Mover queues (R179, R180, R236) -/

/-- The oldest command of queue q that satisfies `f`. -/
def State.firstCmd (s : State) (p q : Nat) (f : QCmd → Bool) : Option QCmd := ((s.panel p).queue q).find? f

/-- Cluster and channel of a `move`. -/
def QCmd.chan (c : QCmd) : Nat × Nat := (bits (c.word 0) 3 0, bits (c.word 0) 9 4)

/-- The channel of a `move` has room, or will refuse it. -/
def State.moveRoom (s : State) (p : Nat) (c : QCmd) : Bool :=
  !s.boundTo c.chan.1 c.chan.2 p || decide ((s.chan c.chan.1 c.chan.2).waiting.length < 16)

/-- MOVE_ISSUE (R179): the queue's next `move` issues, within the outstanding limit and behind no unsatisfied `wait`. -/
def execMoveIssue (p : PanelNo) (q : BitVec 3) (s : State) : Res :=
  let n := p.toNat
  let k := q.toNat
  let l := (s.panel n).queue k
  .next (match s.firstCmd n k (fun c => decide (c.op = 3 ∧ ¬ c.issued)) with
    | none => s
    | some c =>
      if k ≠ 0 ∧ s.queueRuns n k ∧ outstanding l < s.qLimit n k ∧ ¬ waitBefore l c.ord ∧ s.moveRoom n c then s.markIssued n k c.ord else s)

/-- MOVE (R236, R254): an issued `move` hands its descriptor to the channel, or is refused with cause 6. -/
def execMove (p : PanelNo) (q : BitVec 3) (s : State) : Res :=
  let n := p.toNat
  let k := q.toNat
  .next (match s.firstCmd n k (fun c => decide (c.op = 3) && c.issued && !c.sent) with
    | none => s
    | some c =>
      let ch := c.chan
      if s.cmdStopped n ∨ SMap.get false (s.panel n).held k ∨ (s.panel n).marksBefore c.ord then s
      else if ¬ s.boundTo ch.1 ch.2 n then (s.refuseCmd n k c 6 0).placeMarks n
      else if 16 ≤ (s.chan ch.1 ch.2).waiting.length then s
      else
        let d : Desc := ⟨c.body.drop 16, c.seq, c.layer, c.oper, some ⟨n, k, c.ord⟩⟩
        let s := s.modChan ch.1 ch.2 (fun x => { x with waiting := x.waiting ++ [d] })
        (s.modPanel n (fun x => x.setQueue k ((x.queue k).map (fun e => if e.ord = c.ord then { e with sent := true } else e)))).placeMarks n)

/-- The oldest command of kind `op` not yet begun; in queue 0 only the head. -/
def State.unbegun (s : State) (p q op : Nat) : Option QCmd :=
  if q = 0 then (s.head0 p op).filter (fun c => !c.issued) else s.firstCmd p q (fun c => decide (c.op = op ∧ ¬ c.issued))

/-- MARK (R236): the mark stands in its queue until every command before it is complete. -/
def execMark (p : PanelNo) (q : BitVec 3) (s : State) : Res :=
  .next (match s.unbegun p.toNat q.toNat 4 with
    | none => s
    | some c => if s.queueRuns p.toNat q.toNat then (s.markIssued p.toNat q.toNat c.ord).placeMarks p.toNat else s)

/-- MARK_REACHED (R180, R236): the mark at the head of its queue is reached, and REACHED takes its number. -/
def execMarkReached (p : PanelNo) (q : BitVec 3) (s : State) : Res :=
  let n := p.toNat
  let k := q.toNat
  .next (match ((s.panel n).queue k).head? with
    | none => s
    | some c => if c.op = 4 ∧ c.issued ∧ ¬ s.cmdStopped n then setF (s.popCmd n k c.ord) Reg.CMD_QMARK_REACHED (bits (c.word 0) 15 0) n k else s)

/-- WAIT (R236): the wait holds its queue. -/
def execWait (p : PanelNo) (q : BitVec 3) (s : State) : Res :=
  .next (match s.unbegun p.toNat q.toNat 5 with
    | none => s
    | some c => if s.queueRuns p.toNat q.toNat then (s.markIssued p.toNat q.toNat c.ord).placeMarks p.toNat else s)

/-- A `wait` is satisfied: (REACHED_Q − N) mod 2^16 < 2^15 (R236). -/
def State.waitMet (s : State) (p : Nat) (c : QCmd) : Bool :=
  decide ((getF s Reg.CMD_QMARK_REACHED p (bits (c.word 0) 18 16) + 65536 - bits (c.word 0) 15 0) % 65536 < 32768)

/-- WAIT_SATISFIED (R236): the oldest wait of the queue is satisfied, and the queue goes on. -/
def execWaitSatisfied (p : PanelNo) (q : BitVec 3) (s : State) : Res :=
  let n := p.toNat
  let k := q.toNat
  .next (match (if k = 0 then s.head0 n 5 else s.firstCmd n k (fun c => decide (c.op = 5))) with
    | none => s
    | some c => if c.issued ∧ ¬ s.cmdStopped n ∧ s.waitMet n c then s.popCmd n k c.ord else s)

/-! ### barrier (R181 to R184, R237) -/

/-- BARRIER (R181): the barrier holds queue 0. -/
def execBarrier (p : PanelNo) (s : State) : Res :=
  .next (match s.head0 p.toNat 6 with
    | none => s
    | some c => s.markIssued p.toNat 0 c.ord)

/-- A tile has arrived: it is idle, or its arrival is pending. -/
def Tile.arrived (x : Tile) : Bool := decide (x.run = .idle ∨ 0 < x.barPend)

/-- A barrier release message (R182). -/
def releaseMsg (num layer oper : Nat) : Msg := ⟨releaseHdr, BitVec.ofNat 1024 (num % 2 ^ 32 + layer % 65536 * 2 ^ 32 + oper % 65536 * 2 ^ 48), 0⟩

/-- BARRIER_RELEASE (R181, R182, R237): every tile has arrived and every covered move is complete. -/
def execBarrierRelease (p : PanelNo) (s : State) : Res :=
  let n := p.toNat
  .next (match s.head0 n 6 with
    | none => s
    | some c =>
      let tiles := s.panelTiles n
      let covered (q : Nat) : Bool := ((s.panel n).queue q).any (fun e => decide (e.op = 3 ∧ e.ord < c.ord))
      if ¬ c.issued ∨ (List.range 8).any covered ∨ tiles.any (fun t => !(s.tile t).arrived) then s
      else
        let num := (getF s Reg.CMD_BARRIER_COUNT n + 1) % 2 ^ 32
        let s := setF (s.popCmd n 0 c.ord) Reg.CMD_BARRIER_COUNT num n
        (tiles.filter (fun t => decide (0 < (s.tile t).barPend))).foldl (fun (s : State) t =>
          (s.modTile t (fun x => { x with barPend := x.barPend - 1 })).enqueue t 2 (releaseMsg num c.layer c.oper)) s)

/-! ### stitch (R197 to R204, R238) -/

def QCmd.stNum (c : QCmd) : Nat := bits (c.word 0) 9 0
def QCmd.stOp (c : QCmd) : Nat := bits (c.word 0) 11 10
def QCmd.stDlv (c : QCmd) : Nat := bits (c.word 0) 13 12
def QCmd.stCredits (c : QCmd) : Nat := bits (c.word 0) 17 14
def QCmd.stSrcK (c : QCmd) : Nat := bits (c.word 0) 19 18
def QCmd.stDstK (c : QCmd) : Nat := bits (c.word 0) 21 20
def QCmd.stLegs (c : QCmd) : Nat := bits (c.word 0) 31 24
def QCmd.stSrc (c : QCmd) : Nat := bits (c.word 4) 10 0
def QCmd.stDst (c : QCmd) : Nat := bits (c.word 4) 21 11
def QCmd.stRbase (c : QCmd) : Nat := bits (c.word 8) 9 0
def QCmd.stRlen (c : QCmd) : Nat := bits (c.word 8) 20 10
def QCmd.leg (c : QCmd) (i : Nat) : Nat := c.num (16 + i) 1

/-- Endpoint numbers of a kind: 2,048 tiles, 192 hem ports, 32 lane ports. -/
def endpointOk (kind n : Nat) : Bool := decide (n < (if kind = 1 then 192 else if kind = 2 then 32 else 2048))

/-- Every field of a reservation holds a value that R197 allows. -/
def QCmd.stFields (c : QCmd) : Bool :=
  let n := c.stLegs
  decide (c.stOp < 2 ∧ c.stDlv < 2 ∧ c.stSrcK < 3 ∧ c.stDstK < 3 ∧ 1 ≤ n ∧ n ≤ 16)
    && decide (bits (c.word 0) 23 22 = 0 ∧ bits (c.word 4) 31 22 = 0 ∧ bits (c.word 8) 31 21 = 0 ∧ c.word 12 = 0)
    && endpointOk c.stSrcK c.stSrc && endpointOk c.stDstK c.stDst
    && (if c.stDlv = 0 then decide (1 ≤ c.stCredits ∧ c.stCredits ≤ 8 ∧ c.stRbase = 0 ∧ c.stRlen = 0)
        else decide (c.stCredits = 0 ∧ c.stRbase % 4 = 0 ∧ c.stRlen % 4 = 0 ∧ 4 ≤ c.stRlen ∧ c.stRlen ≤ 1024))
    && (List.range 16).all (fun i => if i < n then decide (1 ≤ bits (c.leg i) 7 4) && !(decide (i + 1 = n) && bitAt (c.leg i) 3)
        else decide (c.leg i = 0))

/-- A release gives only NUM and OP. -/
def QCmd.relFields (c : QCmd) : Bool := decide (c.word 0 / 2 ^ 12 = 0) && (c.body.drop 4).all (· = 0)

/-- The hops of `n` steps by one port from router t, none where a link does not exist. -/
def legHops (port : Nat) : Nat → Nat → Option (List (Nat × Nat) × Nat)
  | 0, t => some ([], t)
  | n + 1, t => match linkTo t port with
    | none => none
    | some q => (legHops port n q).map (fun r => ((t, port) :: r.1, r.2))

/-- The hops of the legs, the hop counts of the drop points, and the last router. -/
def legsPath : List Nat → Nat → Nat → Option (List (Nat × Nat) × List Nat × Nat)
  | [], t, _ => some ([], [], t)
  | b :: r, t, h =>
    match legHops (bits b 1 0 + (if bitAt b 2 then 4 else 0)) (bits b 7 4) t with
    | none => none
    | some (l, q) => (legsPath r q (h + l.length)).map (fun o =>
        (l ++ o.1, (if bitAt b 3 then [h + l.length] else []) ++ o.2.1, o.2.2))

/-- The router of an endpoint: a tile's position, which a takeover moves (R189). -/
def State.endpointPos (s : State) (kind n : Nat) : Nat := if kind = 0 then s.posOf n else endpointTile kind n

/-- The path of a descriptor's legs, from the position of its source. -/
def State.stPath (s : State) (c : QCmd) : Option (List (Nat × Nat) × List Nat × Nat) :=
  legsPath ((List.range c.stLegs).map c.leg) (s.endpointPos c.stSrcK c.stSrc) 0

/-- The port endpoint lies at a gate of its router's panel (R209). -/
def State.portGate (s : State) (kind n : Nat) : Bool := match kind with
  | 1 => s.hemGate n
  | 2 => (match s.panelOf (laneRouter n) with
    | some p => s.isGate p (laneRouter n) (laneEdge n)
    | none => false)
  | _ => true

/-- The reserved stitches with their descriptors. -/
def State.liveStitches (s : State) : List Stitch := s.stitches.filterMap (·.2)

/-- An endpoint limit of R199 or R308 would be exceeded. -/
def State.stitchLimit (s : State) (p : Nat) (c : QCmd) : Bool :=
  let l := s.liveStitches
  let ends := l.filter (fun st => st.dstKind = c.stDstK ∧ st.dst = c.stDst)
  let credits := (ends.filter (fun st => st.dlv = 0)).foldl (fun n st => n + st.credits) c.stCredits
  (decide (c.stDlv = 0) && decide (c.stDstK ≠ 2) && decide (8 < credits))
    || (decide (c.stDlv = 1) && decide (2 ≤ (ends.filter (fun st => st.dlv = 1)).length))
    || (decide (c.stDstK = 2) && (l.any (fun st => st.dstKind = 2 ∧ st.dst / 8 = c.stDst / 8) || !s.inPanel p (laneRouter c.stDst) || !s.portGate 2 c.stDst))
    || (decide (c.stSrcK = 2) && (l.any (fun st => st.srcKind = 2 ∧ st.src / 8 = c.stSrc / 8) || !s.inPanel p (laneRouter c.stSrc) || !s.portGate 2 c.stSrc))

/-- A lane port that is not trained for a stitch (R198, R308). -/
def State.portUntrained (s : State) (kind n : Nat) : Bool :=
  decide (kind = 2) && (!s.suitUp (n / 8) || decide (getF s Reg.LAN_LINK_STATUS_WIDTH (n / 8) < 5) || !s.portUp n)

/-- The index of the first condition of R198 that refuses a reservation, 0 for none. -/
def State.stitchCause (s : State) (p : Nat) (c : QCmd) : Nat :=
  if (s.stitch c.stNum).isSome then 1
  else if ¬ c.stFields then 2
  else match s.stPath c with
    | none => 3
    | some (hops, drops, last) =>
      if last ≠ s.endpointPos c.stDstK c.stDst then 3
      else if hops.any (fun h => (s.link h.1 h.2).rsv.isSome || (s.link h.1 h.2).retired || (s.link h.1 h.2).forced || (s.link h.1 h.2).lateRsv)
          ∨ hops.length ≠ hops.eraseDups.length then 4
      else if ¬ (s.inPanel p (endpointTile c.stSrcK c.stSrc) ∧ s.pathFenced hops
          ∧ (c.stSrcK ≠ 1 ∨ s.portGate 1 c.stSrc) ∧ (c.stDstK ≠ 1 ∨ s.portGate 1 c.stDst)) then 5
      else if c.stDlv = 0 ∧ drops ≠ [] then 6
      else if c.stDlv = 1 ∧ (c.stDstK ≠ 0 ∨ 1024 < c.stRbase + c.stRlen) then 7
      else if s.stitchLimit p c then 8
      else if s.portUntrained c.stSrcK c.stSrc ∨ s.portUntrained c.stDstK c.stDst then 9
      else 0

/-- A reservation takes effect. -/
def State.reserveStitch (s : State) (p : Nat) (c : QCmd) : State :=
  match s.stPath c with
  | none => s
  | some (hops, drops, _) =>
    let n := c.stNum
    let st : Stitch := { dlv := c.stDlv, credits := c.stCredits, srcKind := c.stSrcK, src := c.stSrc, dstKind := c.stDstK, dst := c.stDst,
                         rbase := c.stRbase, rlen := c.stRlen, hops := hops, points := drops ++ [hops.length], sent := 0, lastAdmit := none,
                         flight := [], returning := 0, releasing := false }
    let s := hops.foldl (fun s h => s.modLink h.1 h.2 (fun l => { l with rsv := some n })) (s.setStitch n (some st))
    setF (setF (setF s Reg.NET_ST_STATUS_STATE 1 n) Reg.NET_ST_STATUS_PANEL p n) Reg.NET_ST_STATUS_CREDIT c.stCredits n

/-- Links released from a forcing are free for the reservations after this one (R217). -/
def State.settleForced (s : State) : State :=
  { s with links := SMap.mapAll LinkSt.init (fun _ l => { l with lateRsv := false }) s.links }

/-- STITCH_RESERVE (R198, R199): reserves whole, or is refused with cause 5 and the index of the failed condition. -/
def execStitchReserve (p : PanelNo) (s : State) : Res :=
  let n := p.toNat
  .next (match s.head0 n 7 with
    | none => s
    | some c =>
      if c.stOp = 1 then s
      else match s.stitchCause n c with
        | 0 => ((s.popCmd n 0 c.ord).reserveStitch n c).settleForced
        | k => (s.refuseCmd n 0 c 5 k).settleForced)

/-- STITCH_RELEASE (R198, R204): the release starts; it is refused when the panel has not reserved NUM. -/
def execStitchRelease (p : PanelNo) (s : State) : Res :=
  let n := p.toNat
  .next (match s.head0 n 7 with
    | none => s
    | some c =>
      if c.stOp ≠ 1 ∨ c.issued then s
      else if ¬ c.relFields then s.refuseCmd n 0 c 5 2
      else match s.stitch c.stNum with
        | some st =>
          if getF s Reg.NET_ST_STATUS_PANEL c.stNum ≠ n then s.refuseCmd n 0 c 5 10
          else
            let s := (s.setStitch c.stNum (some { st with releasing := true })).markIssued n 0 c.ord
            if getF s Reg.NET_ST_STATUS_STATE c.stNum = 1 then setF s Reg.NET_ST_STATUS_STATE 2 c.stNum else s
        | none => s.refuseCmd n 0 c 5 10)

/-- STITCH_RELEASE_EFFECT (R204): once nothing is in flight the links are free and the command is complete. -/
def execStitchReleaseEffect (stitch : BitVec 10) (s : State) : Res :=
  let k := stitch.toNat
  .next (match s.stitch k with
    | none => s
    | some st =>
      let p := getF s Reg.NET_ST_STATUS_PANEL k
      if ¬ st.releasing ∨ st.flight ≠ [] ∨ s.panelFrozen p then s
      else
        let s := s.freeStitch k
        match ((s.panel p).queue 0).head? with
        | some c => if c.op = 7 ∧ c.stOp = 1 ∧ c.stNum = k ∧ c.issued then s.popCmd p 0 c.ord else s
        | none => s)

/-! ### snap, tag, signal (R239 to R241) -/

/-- SNAP (R239): the marker, which has stood in every queue since its commit, passes queue 0 and goes to the tiles. -/
def execSnap (p : PanelNo) (s : State) : Res :=
  let n := p.toNat
  .next (match s.head0 n 8 with
    | none => s
    | some c =>
      let tiles := s.panelTiles n
      let pass (m : SnapSt) : SnapSt := if m.ord = c.ord then { m with queues := m.queues.filter (· ≠ 0), tiles := tiles } else m
      let s := (s.popCmd n 0 c.ord).modPanel n (fun x => { x with snaps := x.snaps.map pass })
      let s := if bitAt (c.word 4) 0 then tiles.foldl (fun (s : State) t => s.postIrq t 2) s else s
      s.placeMarks n)

/-- TAG (R240): the command processor and every tile of the panel take the pair. -/
def execTag (p : PanelNo) (s : State) : Res :=
  let n := p.toNat
  .next (match s.head0 n 9 with
    | none => s
    | some c =>
      let l := bits (c.word 0) 15 0
      let o := bits (c.word 0) 31 16
      let s := setF (setF (s.popCmd n 0 c.ord) Reg.CMD_TAGS_LAYER l n) Reg.CMD_TAGS_OPERATOR o n
      (s.panelTiles n).foldl (fun (s : State) t => s.modTile t (fun x => { x with layer := l, operator := o })) s)

/-- SIGNAL (R241): VALUE and SEQ are written, and then the vector's message is sent. -/
def execSignal (p : PanelNo) (s : State) : Res :=
  let n := p.toNat
  .next (match s.head0 n 10 with
    | none => s
    | some c =>
      (setF (setF (s.popCmd n 0 c.ord) Reg.CMD_SIGNAL_VAL_VALUE (c.word 0) n) Reg.CMD_SIGNAL_SEQ_VALUE c.seq n).sendVector (bits (c.word 4) 7 0))

end Sys2Proof.Machine
end

