-- ==== Sys2Proof/Machine/Sm3.lean ====
section
/-! DEFINITION. The SM3 digest that the spec uses by name (R388, R393, R409, R412). The spec gives no algorithm: this is the published
standard's (PRESUMED, log entry 10). -/

namespace Sys2Proof.Machine

/-- The permutations P0 and P1. -/
def sm3P0 (x : Word) : Word := x ^^^ x.rotateLeft 9 ^^^ x.rotateLeft 17
def sm3P1 (x : Word) : Word := x ^^^ x.rotateLeft 15 ^^^ x.rotateLeft 23

/-- The next word of the expanded block, from the last 16, newest first. -/
def sm3Next (l : List Word) : Word :=
  let w (k : Nat) : Word := l.getD (k - 1) 0
  sm3P1 (w 16 ^^^ w 9 ^^^ (w 3).rotateLeft 15) ^^^ (w 13).rotateLeft 7 ^^^ w 6

/-- The block expanded to `n` more words, newest first. -/
def sm3Expand : Nat → List Word → List Word
  | 0, l => l
  | n + 1, l => sm3Expand n (sm3Next l :: l)

/-- The eight chaining words. -/
structure Sm3St where
  a : Word
  b : Word
  c : Word
  d : Word
  e : Word
  f : Word
  g : Word
  h : Word
  deriving DecidableEq, Repr

def Sm3St.init : Sm3St :=
  ⟨0x7380166F, 0x4914B2B9, 0x172442D7, 0xDA8A0600, 0xA96F30BC, 0x163138AA, 0xE38DEE4D, 0xB0FB0E4E⟩

/-- Round j with word w and w XOR the word four later. -/
def sm3Round (v : Sm3St) (j : Nat) (w w' : Word) : Sm3St :=
  let t : Word := if j < 16 then 0x79CC4519 else 0x7A879D8A
  let ss1 := (v.a.rotateLeft 12 + v.e + t.rotateLeft (j % 32)).rotateLeft 7
  let ss2 := ss1 ^^^ v.a.rotateLeft 12
  let ff := if j < 16 then v.a ^^^ v.b ^^^ v.c else (v.a &&& v.b) ||| (v.a &&& v.c) ||| (v.b &&& v.c)
  let gg := if j < 16 then v.e ^^^ v.f ^^^ v.g else (v.e &&& v.f) ||| (~~~v.e &&& v.g)
  let tt1 := ff + v.d + ss2 + w'
  let tt2 := gg + v.h + ss1 + w
  ⟨tt1, v.a, v.b.rotateLeft 9, v.c, sm3P0 tt2, v.e, v.f.rotateLeft 19, v.g⟩

/-- One block of 16 words. -/
def sm3Block (v : Sm3St) (blk : List Word) : Sm3St :=
  let w := (sm3Expand 52 blk.reverse).reverse
  let r := (List.range 64).foldl (fun v j => sm3Round v j (w.getD j 0) (w.getD j 0 ^^^ w.getD (j + 4) 0)) v
  ⟨v.a ^^^ r.a, v.b ^^^ r.b, v.c ^^^ r.c, v.d ^^^ r.d, v.e ^^^ r.e, v.f ^^^ r.f, v.g ^^^ r.g, v.h ^^^ r.h⟩

/-- Bytes of a number, most significant first. -/
def beBytes (n v : Nat) : List Byte := (List.range n).map (fun i => BitVec.ofNat 8 (v / 256 ^ (n - 1 - i)))

/-- The number that bytes spell, most significant first. -/
def beNat (l : List Byte) : Nat := l.foldl (fun n b => n * 256 + b.toNat) 0

/-- The message padded to whole blocks. -/
def sm3Pad (l : List Byte) : List Byte :=
  l ++ [0x80] ++ List.replicate ((119 - l.length % 64) % 64) 0 ++ beBytes 8 (8 * l.length)

/-- The words of block i of the padded message. -/
def sm3Words (l : List Byte) (i : Nat) : List Word :=
  (List.range 16).map (fun j => BitVec.ofNat 32 (beNat ((l.drop (64 * i + 4 * j)).take 4)))

/-- The 32-byte digest. -/
def sm3 (l : List Byte) : List Byte :=
  let p := sm3Pad l
  let v := (List.range (p.length / 64)).foldl (fun v i => sm3Block v (sm3Words p i)) Sm3St.init
  [v.a, v.b, v.c, v.d, v.e, v.f, v.g, v.h].flatMap (fun w => beBytes 4 w.toNat)

end Sys2Proof.Machine
end

