-- ==== Sys2Proof/Machine/MgmtOps.lean ====
section
/-! DEFINITION. The black box (R411 to R419): its records, how one is committed, the retirement summaries and what they list; and whether
firmware runs (R391). -/

namespace Sys2Proof.Machine

/-! ### The controller -/

/-- MGT_BOOT_STATUS.STATE. -/
def State.mgmtState (s : State) : Nat := getF s Reg.MGT_BOOT_STATUS_STATE

/-- Firmware runs: started, and not stopped by a full freeze (R391, R436). -/
def State.firmware (s : State) : Bool := decide (s.mgmtState = 1) && decide (getF s Reg.OBS_FRZ_STATUS_STATE ≠ 3)

/-- The availability profile is in force. -/
def State.availability (s : State) : Bool := decide (getF s Reg.MGT_PROFILE_PROFILE = 1)

/-! ### Records (R411, R412) -/

/-- The 64 bytes of slot n. -/
def State.bbSlot (s : State) (n : Nat) : List Byte :=
  let l := SMap.get [] s.bbox n
  if l = [] then List.replicate 64 0 else l

/-- The slot of record SEQ. -/
def bbRing (seq : Nat) : Nat := 2 + seq % 8190

/-- The header slot. -/
def bbHeader : List Byte := leBytes 4 0x43424231 ++ leBytes 4 1 ++ leBytes 4 8190 ++ List.replicate 52 0

/-- The first 8 bytes of a digest. -/
def bbSum (l : List Byte) : List Byte := (sm3 l).take 8

/-- A record's own check. -/
def bbSound (r : List Byte) : Bool := decide ((r.drop 56).take 8 = bbSum (r.take 56))

def State.bbSeq (s : State) : Nat := getF s Reg.MGT_BB_SEQ_VALUE

/-- The next record; its TIME is a free value (DESIGN CHOICE, log entry 11). -/
def State.bbRecord (s : State) (typ unit : Nat) (payload : List Byte) : List Byte :=
  let seq := s.bbSeq + 1
  let flags := bit s.bbBreak + 2 * bit (decide (typ = 0x0E))
  let prev := if seq = 1 then List.replicate 8 0 else bbSum (s.bbSlot (bbRing (seq - 1)))
  let body := leBytes 4 seq ++ [BitVec.ofNat 8 typ, BitVec.ofNat 8 flags] ++ leBytes 2 unit ++ leBytes 4 s.boots
    ++ leBytes 6 (Config.bootMicros s.draws).toNat ++ [0, 0] ++ (payload ++ List.replicate 28 0).take 28 ++ prev
  body ++ bbSum body

/-- Both phases of a commit (R414): the journal, then the ring. -/
def State.bbCommit (s : State) (typ unit : Nat) (payload : List Byte) : State :=
  let r := s.bbRecord typ unit payload
  let seq := s.bbSeq + 1
  let s := { s with bbox := SMap.set [] (SMap.set [] s.bbox 1 r) (bbRing seq) r, bbBreak := false, sinceSum := s.sinceSum + 1 }
  (setF (setF s Reg.MGT_BB_SEQ_VALUE seq) Reg.MGT_BB_HEAD_SLOT (bbRing seq)).drawn

/-- The record types that vector 29 announces as written for a fault (R380). -/
def faultType (typ : Nat) : Bool := decide (typ = 4 ∨ typ = 5 ∨ typ = 6 ∨ typ = 7 ∨ typ = 9 ∨ typ = 0x0C)

/-- The next queued record is committed; dropped reports come first, as one record (R416). Reports that write no record leave the queue. -/
def State.commitNext (s : State) : State :=
  if s.lostPend ≠ 0 then { s with lostPend := 0 }.bbCommit 0x0F (unitNo blkMGT 0) (leBytes 4 s.lostPend)
  else match s.faultQ.dropWhile (fun r => decide (r.typ = 0)) with
    | [] => { s with faultQ := [] }
    | r :: q =>
      let s := { s with faultQ := q }.bbCommit r.typ r.unit r.payload
      if faultType r.typ then s.raise 29 else s

/-- Everything queued is committed. -/
def State.commitAll (s : State) : State :=
  (List.range (s.faultQ.length + 1)).foldl (fun (s : State) _ => if s.lostPend = 0 ∧ s.faultQ = [] then s else s.commitNext) s

/-- A record of the management plane's own enters the queue; it reports no fault. -/
def State.mgmtRecord (s : State) (typ : Nat) (payload : List Byte) : State :=
  { s.report typ (unitNo blkMGT 0) payload with faultPend := s.faultPend }

/-- MGT_BB_HEAD.PENDING. -/
def State.bbPending (s : State) : Nat := min 255 ((s.faultQ.filter (fun r => decide (r.typ ≠ 0))).length + bit (decide (s.lostPend ≠ 0)))

/-! ### Retirement summaries (R417) -/

/-- The bitmap of a set of numbers. -/
def bitmap (l : List Nat) : Nat := l.foldl (fun n k => n ||| 2 ^ k) 0

/-- The retired tiles, sections and lanes. -/
def State.deadTiles (s : State) : List Nat := s.tiles.filterMap (fun e => if e.2.retired then some e.1 else none)
def State.deadLanes (s : State) : List Nat := (List.range 32).filter (fun l => decide (getF s Reg.LAN_LANE_STATUS_STATE l = 4))

/-- One summary record. -/
def sumPayload (kind chunk map : Nat) : List Byte :=
  [BitVec.ofNat 8 kind, BitVec.ofNat 8 chunk] ++ leBytes 24 (map / 2 ^ (192 * chunk) % 2 ^ 192)

/-- The payloads of a complete set. -/
def summarySet (tiles sects lanes : List Nat) : List (List Byte) :=
  (List.range 11).map (fun c => sumPayload 0 c (bitmap tiles)) ++ (List.range 11).map (fun c => sumPayload 1 c (bitmap sects))
    ++ [sumPayload 2 0 (bitmap lanes)]

/-- A complete set is written. -/
def State.writeSummaries (s : State) (tiles sects lanes : List Nat) : State :=
  { (summarySet tiles sects lanes).foldl (fun (s : State) p => s.bbCommit 0x10 (unitNo blkMGT 0) p) s with sinceSum := 0 }

/-! ### What the black box lists -/

/-- The records of the ring, newest first. -/
def State.bbRecs (s : State) : List (List Byte) := (List.range (min s.bbSeq 8190)).map (fun i => s.bbSlot (bbRing (s.bbSeq - i)))

def recType (r : List Byte) : Nat := (r.getD 4 0).toNat
def recPay (r : List Byte) (at_ n : Nat) : Nat := leNat ((r.drop (20 + at_)).take n)

/-- Where the newest complete set begins. -/
def setStart (l : List (List Byte)) : Option Nat :=
  (List.range l.length).find? (fun i => decide (((l.drop i).take 23).length = 23) && ((l.drop i).take 23).all (fun r => decide (recType r = 0x10)))

/-- The numbers of a chunk's bitmap. -/
def chunkNumbers (r : List Byte) : List Nat :=
  ((List.range 192).filter (bitAt (recPay r 2 24))).map (fun b => 192 * recPay r 1 1 + b)

/-- Numbers that records of type `typ`, and summary chunks of a kind, list as retired, oldest first. -/
def State.listed (s : State) (kind typ bytes : Nat) : List Nat :=
  let l := s.bbRecs
  let newer := match setStart l with
    | some i => l.take i
    | none => l
  let old := match setStart l with
    | some i => ((l.drop i).take 23).reverse.flatMap (fun r => if recPay r 0 1 = kind then chunkNumbers r else [])
    | none => []
  (old ++ (newer.reverse.filterMap (fun r => if recType r = typ then some (recPay r 0 bytes) else none))).eraseDups

/-- Every tile that a record names. -/
def State.namedTiles (s : State) : List Nat := s.listed 0 4 2
def State.listedSects (s : State) : List Nat := s.listed 1 6 2
def State.listedLanes (s : State) : List Nat := s.listed 2 7 1

/-! ### Substitution by spare sites (R30, R397, R446 step 6) -/

/-- Spare sites of row y (fuse word 48). -/
def State.rowSites (s : State) (y : Nat) : Nat := bits (s.fuse 48) (2 * y + 1) (2 * y)

/-- The sites that the black box names as failed, oldest first. -/
def State.failedSites (s : State) : List Nat :=
  let named := s.namedTiles
  ((s.failed.filter (fun e => named.contains e.1)).map (·.2)).eraseDups

/-- The sites for which firmware substitutes at a reset, in the latency profile: per row, as many as the row has spare sites, a substitute that
has failed in its turn among them. -/
def State.substituted (s : State) : List Nat :=
  if s.availability then s.soft
  else
    let l := s.failedSites.filter (fun site => !(s.rowHarvest (site / 128)).contains (site % 128))
    (List.range 32).flatMap (fun y => (l.filter (fun site => decide (site / 128 = y))).take (s.rowSites y))

/-- The links of a router, in both directions. -/
def routerLinks (t : Nat) : List (Nat × Nat) :=
  (List.range 8).flatMap (fun p => match linkTo t p with
    | some q => [(t, p), (q, oppositePort p)]
    | none => [])

/-- The harvest map and the retirements are applied: a logical tile whose router comes to stand on a failed site is retired, unless a held spare
has taken its place (R189); one that has come to stand on another site is in service, with a router of its own. -/
def State.applyRetirements (s : State) : State :=
  let old := s
  let s : State := { s with soft := s.substituted }
  let bad := s.failedSites
  let dead (t : Nat) : Bool := bad.contains (s.siteOf t) && decide (SMap.get 0 s.takeover t = 0)
  let rows := ((bad.map (· / 128)) ++ (s.deadTiles.map tileY)).eraseDups
  (rows.flatMap (fun y => (List.range 64).map (fun x => tileAt x y))).foldl (fun (s : State) t =>
    if dead t then s.modTile t (fun x => { x with retired := true })
    else if old.siteOf t = s.siteOf t then s
    else
      let s := if (s.tile t).routerRetired then
          (routerLinks t).foldl (fun (s : State) (h : Nat × Nat) => s.modLink h.1 h.2 (fun l => { l with retired := false })) s
        else s
      s.modTile t (fun x => { x with retired := false, routerRetired := false })) s

end Sys2Proof.Machine
end

