-- ==== Sys2Proof/Machine/CfgOps.lean ====
section
/-! DEFINITION. Configuration memory: frames and their code (R350 to R353), images and their checks (R354 to R357), and what a load writes
(R356, R360, R362). -/

namespace Sys2Proof.Machine

/-! ### Regions (R350) -/

def staticRegion : Nat := 48

/-- The region of a frame address, none where FA names no frame. -/
def faRegion (fa : Nat) : Option Nat :=
  let i := fa % 2 ^ 17
  if 2 ^ 18 ≤ fa then none
  else if bitAt fa 17 then (if i < 41472 then some (i / 864) else none)
  else if i < 98304 then some (i / 2048)
  else if i < 114688 then some staticRegion
  else none

/-- Memory port of a patch, and the patch of a memory port, a hem port and a user pin. -/
def patchMp (p : Nat) : Option Nat := if p % 6 = 5 then some ((p - 5) / 6) else none
def mpPatch (m : Nat) : Nat := 6 * m + 5
def hemPatch (h : Nat) : Nat := h / 4
def pinPatch (b i : Nat) : Nat := 6 * b + i / 8

/-! ### Frames (R352, R353) -/

def State.frame (s : State) (fa : Nat) : Frame := SMap.get Frame.blank s.cfg.frames fa

def State.setFrame (s : State) (fa : Nat) (f : Frame) : State :=
  { s with cfg := { s.cfg with frames := SMap.set Frame.blank s.cfg.frames fa f } }

/-- HAM and PAR of data bits. -/
def frameHam (d : BitVec 4096) : Nat := (List.range 4096).foldl (fun h k => if d.getLsbD k then h ^^^ (k + 1) else h) 0
def framePar (d : BitVec 4096) : Nat := (List.range 4096).foldl (fun h k => if d.getLsbD k then 1 - h else h) 0
def frameCrc (d : BitVec 4096) : Nat := (crc32c (leBytes 512 d.toNat)).toNat

/-- The frame code of data bits. -/
def frameCode (d : BitVec 4096) : BitVec 48 := BitVec.ofNat 48 (frameHam d + framePar d * 2 ^ 13 + frameCrc d * 2 ^ 14)

/-- What the check of a frame finds. -/
inductive FrameCheck where
  | clean
  /-- the code bits were damaged, or one data bit: the frame as it should be -/
  | fixed (f : Frame)
  | bad
  deriving DecidableEq, Repr

/-- R353. -/
def Frame.check (f : Frame) : FrameCheck :=
  let c := f.code.toNat
  let s := bits c 12 0 ^^^ frameHam f.data
  let q := bits c 13 13 ^^^ framePar f.data
  if bits c 45 14 = frameCrc f.data then
    if s = 0 ∧ q = 0 then .clean else .fixed ⟨f.data, frameCode f.data⟩
  else if q = 1 ∧ 1 ≤ s ∧ s ≤ 4096 then
    let d := f.data ^^^ BitVec.ofNat 4096 (2 ^ (s - 1))
    if bits c 45 14 = frameCrc d then .fixed ⟨d, f.code⟩ else .bad
  else .bad

/-! ### Images (R354, R355) -/

/-- A number of `n` bytes at an offset, and a slice. -/
def imNum (l : List Byte) (at_ n : Nat) : Nat := leNat ((l.drop at_).take n)
def imSlice (l : List Byte) (at_ n : Nat) : List Byte := (l.drop at_).take n

def imSects (l : List Byte) : Nat := imNum l 16 4
def imTotal (l : List Byte) : Nat := imNum l 20 4

/-- A section-table entry: offset, length, region (48 for the static one; a number above 48 names none), release clock. -/
structure Sect where
  offset : Nat
  length : Nat
  region : Nat
  rclk : Nat
  spare : Nat
  digest : List Byte
  deriving DecidableEq, Repr

def imSect (l : List Byte) (i : Nat) : Sect :=
  let b := 128 + 48 * i
  ⟨imNum l b 4, imNum l (b + 4) 4, if imNum l (b + 8) 1 = 0xFF then staticRegion else if imNum l (b + 8) 1 = staticRegion then 0xFF else imNum l (b + 8) 1, imNum l (b + 9) 1, imNum l (b + 10) 6,
   imSlice l (b + 16) 32⟩

def imTable (l : List Byte) : List Sect := (List.range (imSects l)).map (imSect l)

/-- The end of the section table, where SIG stands. -/
def imTableEnd (l : List Byte) : Nat := 128 + 48 * imSects l

/-! ### Fused rights to load (R357, R397) -/

/-- The number of 1 bits of a voted word. -/
def State.thermometer (s : State) (w : Nat) : Nat :=
  ((List.range 64).filter (fun b => decide (2 ≤ bit (bitAt (s.fuse w) b) + bit (bitAt (s.fuse (w + 1)) b) + bit (bitAt (s.fuse (w + 2)) b)))).length

/-- Key slot k is revoked. -/
def State.revoked (s : State) (k : Nat) : Bool :=
  decide (2 ≤ bit (bitAt (s.fuse 30) k) + bit (bitAt (s.fuse 31) k) + bit (bitAt (s.fuse 32) k))

/-- The 32 bytes of key hash k. -/
def State.keyHash (s : State) (k : Nat) : List Byte := (List.range 4).flatMap (fun i => leBytes 8 (s.fuse (8 + 4 * k + i)))

/-- The key of a slot is accepted. -/
def State.keyOk (s : State) (k : Nat) (pub : List Byte) : Bool := decide (k < 4) && !s.revoked k && decide (sm3 pub = s.keyHash k)

/-! ### Sections (R356) -/

/-- A write of a section. -/
abbrev FrameWrite := Nat × Frame

/-- The records of a section: `left` bytes, the writes so far (newest first), the last FRAME. An engine code where a record breaks a rule. -/
def records (region : Nat) : Nat → List Byte → List FrameWrite → Option Frame → Except Nat (List FrameWrite)
  | 0, _, _, _ => .error 6
  | n + 1, l, acc, last =>
    let typ := imNum l 0 1
    let arg := imNum l 4 4
    let fits (fa : Nat) : Bool := decide (faRegion fa = some region) && !(acc.any (fun w => w.1 = fa))
    if l.length < 8 ∨ imNum l 1 3 ≠ 0 then .error 6
    else match typ with
      | 1 =>
        let f : Frame := ⟨BitVec.ofNat 4096 (imNum l 8 512), BitVec.ofNat 48 (imNum l 520 6)⟩
        if l.length < 528 ∨ ¬ fits arg ∨ imNum l 526 2 ≠ 0 then .error 6
        else if f.check ≠ .clean then .error 7
        else records region n (l.drop 528) ((arg, f) :: acc) (some f)
      | 2 =>
        let size := 8 + (4 * arg + 7) / 8 * 8
        let fas := (List.range arg).map (fun i => imNum l (8 + 4 * i) 4)
        match last with
        | none => .error 6
        | some f =>
          if arg = 0 ∨ 65535 < arg ∨ l.length < size ∨ imNum l (8 + 4 * arg) (size - 8 - 4 * arg) ≠ 0 ∨ ¬ fas.all fits ∨ fas.eraseDups.length ≠ fas.length
          then .error 6
          else records region n (l.drop size) ((fas.map (fun a => (a, f))).reverse ++ acc) last
      | 3 => if arg = 0 ∧ l.length = 8 then .ok acc.reverse else .error 6
      | _ => .error 6

/-- The writes of section `e` of an image, after its digest has been checked. -/
def sectWrites (l : List Byte) (e : Sect) : Except Nat (List FrameWrite) :=
  let b := imSlice l e.offset e.length
  if b.length ≠ e.length ∨ sm3 b ≠ e.digest then .error 5
  else if e.offset % 8 ≠ 0 ∨ e.spare ≠ 0 ∨ (e.region ≠ staticRegion ∧ 15 < e.rclk) then .error 6
  else records e.region (e.length + 1) b [] none

/-! ### Checks of an image (R357) -/

/-- Step 1, for a full image or for a partial image of some patch. -/
def headerOk (full : Bool) (l : List Byte) : Bool :=
  decide (imNum l 0 4 = 0x43454C31 ∧ imNum l 4 4 = 1 ∧ imNum l 28 4 = 0x4820 ∧ imTotal l % 8 = 0 ∧ imTotal l ≤ l.length)
    && (if full then decide (imNum l 8 4 = 0 ∧ imNum l 12 4 = 0 ∧ 2 ≤ imSects l ∧ imSects l ≤ 49 ∧ imTotal l ≤ 80 * 2 ^ 20)
        else decide (imNum l 8 4 = 1 ∧ imNum l 12 4 < 48 ∧ imSects l = 1 ∧ imTotal l ≤ 2 * 2 ^ 20))

/-- Steps 1 to 4: the engine code of the first that fails, 0 for none. -/
def State.imageCode (s : State) (full : Bool) (l : List Byte) : Nat :=
  let e := imTableEnd l
  if ¬ headerOk full l then 1
  else if ¬ s.keyOk (imNum l 24 4) (imSlice l 64 64) then 2
  else if imNum l 32 4 < s.thermometer 24 then 3
  else if ¬ Config.sm2Verify (imSlice l 64 64) (l.take e) (imSlice l e 64) then 4
  else if imNum l 36 28 ≠ 0 then 6
  else 0

/-- All checks of a partial image for patch p, `len` bytes long as its request says: its writes, or the engine code. -/
def State.partialCheck (s : State) (p len : Nat) (l : List Byte) : Except Nat (Sect × List FrameWrite) :=
  let c := s.imageCode false l
  if 2 * 2 ^ 20 < len then .error 11
  else if c ≠ 0 then .error c
  else if imNum l 12 4 ≠ p then .error 11
  else
    let e := imSect l 0
    if e.region ≠ p then .error 6
    else match sectWrites l e with
      | .ok w => .ok (e, w)
      | .error c => .error c

/-- The sections of a full image, in table order: their writes, or the code of the first failure (R360 step 3). -/
def fullWrites (l : List Byte) : List Sect → Except Nat (List FrameWrite)
  | [] => .ok []
  | e :: r => match sectWrites l e, fullWrites l r with
    | .ok a, .ok b => .ok (a ++ b)
    | .error c, _ => .error c
    | _, .error c => .error c

/-- Every check of a full image. -/
def State.fullCheck (s : State) (l : List Byte) : Except Nat (List FrameWrite) :=
  let c := s.imageCode true l
  let t := imTable l
  if c ≠ 0 then .error c
  else if (t.filter (fun e => e.region = staticRegion)).length ≠ 1 ∨ (t.map (·.region)).eraseDups.length ≠ t.length
      ∨ t.any (fun e => decide (staticRegion < e.region)) then .error 6
  else fullWrites l t

/-! ### Writing -/

/-- Every frame of a region is written, blank where the image is silent (R356). -/
def State.writeRegion (s : State) (r : Nat) (w : List FrameWrite) : State :=
  let s := { s with cfg := { s.cfg with frames := SMap.keep (fun fa => decide (faRegion fa ≠ some r)) s.cfg.frames } }
  w.foldl (fun (s : State) x => s.setFrame x.1 x.2) s

/-- Everything blank. -/
def State.blankAll (s : State) : State :=
  let s := { s with cfg := { s.cfg with frames := [], loads := [], rclk := [], engaged := [], signed := [] }
                    fab := { FabSt.init with resets := s.fab.resets } }
  (List.range 48).foldl (fun (s : State) p => setF s Reg.CFG_PATCH_STATUS_STATE 0 p) s

def State.loadOf (s : State) (r : Nat) : Nat := SMap.get 0 s.cfg.loads r

/-- What the image of region r declares for an item; blank regions declare nothing. -/
def State.declared (s : State) (r item : Nat) : Nat := if s.loadOf r = 0 then 0 else Config.declared (s.loadOf r) item

/-- The voltage that the image declares for bank b, and which bit MISMATCH holds (R347). -/
def State.bankMv (s : State) (b : Nat) : Nat := s.declared (6 * b) (200 + b)

def State.showMismatch (s : State) (b : Nat) : State :=
  let v := SMap.get 0 s.vccio b
  let s := setFbit s Reg.FAB_IO_STATUS_VCCIO_OK b (decide (v ≠ 0))
  setFbit s Reg.FAB_IO_STATUS_MISMATCH b (decide (s.loadOf (6 * b) ≠ 0 ∧ v ≠ 0 ∧ v ≠ s.bankMv b))

/-- The ports of a patch take their CLKSEL, and its bank is compared again. -/
def State.takeClocks (s : State) (p : Nat) : State :=
  let s := (List.range 4).foldl (fun (s : State) i => setF s Reg.FAB_HEM_CFG_CLKSEL (s.declared p (4 * p + i)) (4 * p + i)) s
  let s := match patchMp p with
    | some m => setF s Reg.FAB_MP_CFG_CLKSEL (s.declared p (192 + m)) m
    | none => s
  s.showMismatch (p / 6)

/-- A region now holds a new load. -/
def State.newLoad (s : State) (r rclk : Nat) : State :=
  let c := s.cfg
  let s := { s with cfg := { c with loads := SMap.set 0 c.loads r c.nextLoad, nextLoad := c.nextLoad + 1, rclk := SMap.set 0 c.rclk r rclk } }
  if r < 48 then s.takeClocks r else s

/-! ### Seams and holds (R362, R363) -/

/-- The patch's seam is engaged. -/
def State.engaged (s : State) (p : Nat) : Bool := s.cfg.engaged.contains p

def State.engage (s : State) (p : Nat) : State := { s with cfg := { s.cfg with engaged := (s.cfg.engaged ++ [p]).eraseDups } }
def State.release (s : State) (p : Nat) : State := { s with cfg := { s.cfg with engaged := s.cfg.engaged.filter (· ≠ p) } }

/-- A full load is running. -/
def State.fullLoading (s : State) : Bool := decide (s.cfg.phase = 4)

/-- The ports of a patch are held: its seam is engaged, or a full load runs (R360, R362). -/
def State.patchHeld (s : State) (p : Nat) : Bool := s.fullLoading || s.engaged p

/-- A patch is quiet: no hem port holds a head, and its memory port has nothing outstanding. -/
def State.patchQuiet (s : State) (p : Nat) : Bool :=
  (List.range 4).all (fun i => (s.hem (4 * p + i)).head.isNone) &&
    (match patchMp p with
      | some m => decide ((SMap.get MpSt.init s.mps m).reqs = [])
      | none => true)

/-- A byte of the configuration flash. -/
def State.flashAt (s : State) (a : Nat) : Byte := (SMap.get none s.flash a).getD (Config.flashByte a)
def State.flashBytes (s : State) (a n : Nat) : List Byte := (List.range n).map (fun i => s.flashAt (a + i))

end Sys2Proof.Machine
end

