-- ==== Sys2Proof/Machine/Logic.lean ====
section
/-! DEFINITION. The user's logic in the fabric: nets (R325), RAM blocks (R327, R328), clock and reset trees (R329, R330), user pins (R346, R347,
R349), seams (R363), and one moment of the fabric's clocks. What the images define is Config.design (DESIGN CHOICE, log entry 14). -/

namespace Sys2Proof.Machine

/-! ### What is defined -/

/-- What the frames of region r define now. -/
def State.design (s : State) (r : Nat) : Design :=
  Config.design r ((s.cfg.frames.filter (fun e => faRegion e.1 = some r)).map (fun e => (e.1, e.2.data)))

/-- The regions that hold a load. -/
def State.regions (s : State) : List Nat := s.cfg.loads.map (·.1)

def State.clusterOf (s : State) (k : Nat) : Option Cluster :=
  if k < 144000 then lookup? k (s.design (Config.clusterRegion k).val).clusters else none

def State.cellOf (s : State) (c : Nat) : Option Cell := (s.clusterOf (c / 8)).bind (fun k => k.cells[c % 8]?)

def Cell.ff (x : Cell) (second : Bool) : FfCfg := if second then x.ff1 else x.ff0
def RamCfg.port (x : RamCfg) (second : Bool) : RamPort := if second then x.port1 else x.port0
def Cluster.tree (k : Cluster) (second : Bool) : Fin 16 := if second then k.tree1 else k.tree0

def State.pinOf (s : State) (b i : Nat) : Option PinCfg := lookup? (40 * b + i) (s.design (pinPatch b i)).pins
def State.treeOf (s : State) (g : Nat) : Option TreeSource := lookup? g (s.design staticRegion).trees
def State.resetOf (s : State) (r : Nat) : Option ResetTree := lookup? r (s.design staticRegion).resets

/-! ### Seams (R363) -/

/-- The entry of a seam position: MODE and STROBE, three bits counted across the patch's three seam frames. -/
def State.seamEntry (s : State) (p pos : Nat) : Nat × Bool :=
  let b (k : Nat) : Bool := (s.frame (98304 + 3 * p + k / 4096)).data.getLsbD (k % 4096)
  (bit (b (3 * pos)) + 2 * bit (b (3 * pos + 1)), b (3 * pos + 2))

/-- An engaged net position, and an engaged pin position. -/
def State.seamNet (s : State) (p pos : Nat) : Bool :=
  let e := s.seamEntry p pos
  if e.2 then false
  else match e.1 with
    | 0 => SMap.get false s.fab.heldNets (4096 * p + pos)
    | 1 => false
    | _ => true

/-! ### Nets (R325) -/

/-- Which entry of the table the inputs choose. -/
def Cell.index (x : Cell) (n : Nat) (v : Net → Bool) : Nat := ((x.ins.take n).zipIdx).foldl (fun a e => a + bit (v e.1) * 2 ^ e.2) 0

/-- An output of the table: any function of six inputs, or two of the same five. -/
def Cell.look (x : Cell) (upper : Bool) (v : Net → Bool) : Bool :=
  if x.split then x.table.getLsbD (x.index 5 v + if upper then 32 else 0) else !upper && x.table.getLsbD (x.index 6 v)

/-- What a pin's input buffer reads: 0 while the bank's supply differs from what the image declares (R347). -/
def State.pinIn (s : State) (b i : Nat) : Bool :=
  !fbit s Reg.FAB_IO_STATUS_MISMATCH b && Config.pinLevel s.draws (40 * b + i)

/-- What a global reset tree is asserted by, beside its source net (R330): a full load, FAB_RST, and what is left of an earlier reason. -/
def State.resetHeld (s : State) (r : Nat) : Bool :=
  s.fullLoading || fbit s Reg.FAB_RST_ASSERT r || s.fab.resets.getLsbD r

/-- Nets that a value rests on are at most this deep where nothing loops. -/
def netDepth : Nat := 2 ^ 23

/-- The value of a net. A loop of combinational logic has a free value. -/
def State.net (s : State) : Nat → Net → Bool
  | 0, _ => Config.outside s.draws
  | n + 1, x =>
    let rst (i : InitSource) : Bool := match i with
      | .tree r => s.resetHeld r.val || (match (s.resetOf r.val).bind (·.source) with
        | some y => State.net s n y
        | none => false)
      | .net y => State.net s n y
    let carryIn (c : Nat) : Bool :=
      if c % 8 ≠ 0 then State.net s n (.carry (c - 1))
      else match Config.clusterSouth (c / 8) with
        | some k => State.net s n (.carry (8 * k + 7))
        | none => Config.edgeCarry c
    match x with
    | .const v => v
    | .table c upper => (match s.cellOf c with
      | some d => d.look upper (State.net s n)
      | none => false)
    | .sum c => (match s.cellOf c with
      | some d => xor (xor (State.net s n d.addA) (State.net s n d.addB)) (carryIn c)
      | none => false)
    | .carry c => (match s.cellOf c with
      | some d => decide (2 ≤ bit (State.net s n d.addA) + bit (State.net s n d.addB) + bit (carryIn c))
      | none => false)
    | .ff c second => (match s.cellOf c with
      | some d =>
        let f := d.ff second
        if f.atOnce && rst f.init then f.initial else SMap.get false s.fab.ffs (2 * c + bit second)
      | none => false)
    | .ram b second k => (SMap.get RamOut.init s.fab.ramOut (2 * b + bit second)).word.getLsbD k
    | .fix b => (SMap.get RamOut.init s.fab.ramOut (2 * b + 1)).fix
    | .bad b => (SMap.get RamOut.init s.fab.ramOut (2 * b + 1)).bad
    | .pin b i => s.pinIn b i
    | .pinReg b i falling => SMap.get false s.fab.io (4 * (40 * b + i) + 2 + bit falling)
    | .seam p pos =>
      if s.engaged p then s.seamNet p pos
      else (match lookup? pos (s.design p).seams with
        | some y => State.net s n y
        | none => false)
    | .port k => Config.portNet s.draws k

def State.value (s : State) (x : Net) : Bool := s.net netDepth x

/-- Nets as a number, the first the lowest bit. -/
def State.bus (s : State) (l : List Net) : Nat := l.zipIdx.foldl (fun a e => a + bit (s.value e.1) * 2 ^ e.2) 0

/-! ### Global reset trees (R330) -/

/-- The tree is asserted. -/
def State.grst (s : State) (r : Nat) : Bool :=
  s.resetHeld r || (match (s.resetOf r).bind (·.source) with
    | some y => s.value y
    | none => false)

/-- The tree stays asserted until its release clock; a tree for which no image names a release clock goes with its reason. -/
def State.latchReset (s : State) (r : Nat) : State :=
  if s.grst r && (s.resetOf r).isSome then { s with fab := { s.fab with resets := s.fab.resets ||| BitVec.ofNat 4 (2 ^ r) } } else s

def State.latchResets (s : State) : State := (List.range 4).foldl (fun (s : State) r => s.latchReset r) s

/-- What keeps a tree asserted at an edge of its release clock, apart from the 16 edges. -/
def State.resetCause (s : State) (r : Nat) : Bool :=
  s.fullLoading || fbit s Reg.FAB_RST_ASSERT r || (match (s.resetOf r).bind (·.source) with
    | some y => s.value y
    | none => false)

/-- An edge of the release clock of tree r. -/
def FabSt.releaseEdge (x : FabSt) (r : Nat) (cause : Bool) : FabSt :=
  let left := SMap.get 0 x.resetLeft r
  if cause then x
  else { x with
    resets := if left ≤ 1 then x.resets &&& ~~~BitVec.ofNat 4 (2 ^ r) else x.resets
    resetLeft := SMap.set 0 x.resetLeft r (left - 1) }

/-- A full load has ended: every tree that the image names stays asserted for 16 edges. -/
def State.resetAfterLoad (s : State) : State :=
  (List.range 4).foldl (fun (s : State) r =>
    if (s.resetOf r).isSome then
      { s with fab := { s.fab with resets := s.fab.resets ||| BitVec.ofNat 4 (2 ^ r), resetLeft := SMap.set 0 s.fab.resetLeft r 16 } }
    else s) s

/-! ### Initial values (R326) -/

/-- The flip-flops of a region, by 2 × cell and the second of a cell, with their trees. -/
def State.ffsOf (s : State) (r : Nat) : List (Nat × Fin 16 × FfCfg) :=
  ((s.design r).clusters.filter (fun e => decide (e.1 < 144000 ∧ (Config.clusterRegion e.1).val = r))).flatMap (fun e =>
    (e.2.cells.take 8).zipIdx.flatMap (fun c =>
      [(2 * (8 * e.1 + c.2), e.2.tree c.1.ff0.second, c.1.ff0), (2 * (8 * e.1 + c.2) + 1, e.2.tree c.1.ff1.second, c.1.ff1)]))

/-- At the end of a load, the flip-flops of the region hold their initial values; its RAM ports show 0 (DESIGN CHOICE, log entry 14). -/
def State.initRegion (s : State) (r : Nat) : State :=
  let f := s.fab
  { s with fab := { f with
    ffs := (s.ffsOf r).foldl (fun m e => SMap.set false m e.1 e.2.2.initial)
      (SMap.keep (fun k => decide ((Config.clusterRegion (k / 16)).val ≠ r)) f.ffs)
    ramPipe := SMap.keep (fun k => decide (k / 192 ≠ r)) f.ramPipe
    ramOut := SMap.keep (fun k => decide (k / 192 ≠ r)) f.ramOut } }

/-! ### RAM blocks (R327, R328) -/

/-- Bits of one word, and words, of a port. -/
def RamCfg.width (x : RamCfg) (p : RamPort) : Nat := match x.mode with
  | .dual => 3 * 2 ^ p.shape.val
  | _ => 96
def RamCfg.words (x : RamCfg) (p : RamPort) : Nat := 36864 / x.width p
def RamCfg.addrBits (x : RamCfg) (p : RamPort) : Nat := match x.mode with
  | .dual => 14 - p.shape.val
  | _ => 9

/-- The contents of block b: the data bits of its nine RAM frames in ascending FA (PRESUMED order, DESIGN CHOICE, log entry 16). -/
def State.ramBits (s : State) (b : Nat) : BitVec 36864 :=
  BitVec.ofNat 36864 ((List.range 9).foldl (fun a k => a + (s.frame (2 ^ 17 + 9 * b + k)).data.toNat * 2 ^ (4096 * k)) 0)

def State.setRamBits (s : State) (b : Nat) (v : BitVec 36864) : State :=
  (List.range 9).foldl (fun (s : State) k =>
    let fa := 2 ^ 17 + 9 * b + k
    s.setFrame fa { s.frame fa with data := v.extractLsb' (4096 * k) 4096 }) s

/-- The check bits of a word of check mode: 80 data bits below, the check bits of the lower and of the upper half above (PRESUMED places, DESIGN CHOICE, log
entry 16). -/
def ramEncode (d : BitVec 80) : BitVec 96 := Config.ramCheck (d.extractLsb' 40 40) ++ Config.ramCheck (d.extractLsb' 0 40) ++ d

/-- One half against its check bits: the data, corrected, bad. -/
def halfDecode (d : BitVec 40) (c : Byte) : BitVec 40 × Bool × Bool :=
  let diff := Config.ramCheck d ^^^ c
  if diff = 0 then (d, false, false)
  else if (List.range 8).any (fun k => diff = BitVec.ofNat 8 (2 ^ k)) then (d, true, false)
  else match (List.range 40).find? (fun k => Config.ramCheck (d ^^^ BitVec.ofNat 40 (2 ^ k)) = c) with
    | some k => (d ^^^ BitVec.ofNat 40 (2 ^ k), true, false)
    | none => (d, false, true)

/-- What a read in check mode returns for a stored word. -/
def ramDecode (w : BitVec 96) : RamOut :=
  let lo := halfDecode (w.extractLsb' 0 40) (w.extractLsb' 80 8)
  let hi := halfDecode (w.extractLsb' 40 40) (w.extractLsb' 88 8)
  ⟨(hi.1 ++ lo.1).setWidth 96, lo.2.1 || hi.2.1, lo.2.2 || hi.2.2⟩

/-- An access of a port at an edge of its clock: the bits it touches, what it writes there, whether it reads. -/
structure RamAccess where
  port : RamPort
  low : Nat
  width : Nat
  within : Bool
  reads : Bool
  writes : Bool
  data : Nat

/-- The access of a port whose tree has an edge. -/
def State.ramAccess (s : State) (x : RamCfg) (second : Bool) (rise : BitVec 16) : Option RamAccess :=
  let p := x.port second
  let a := s.bus (p.addr.take (x.addrBits p))
  let d := s.bus (p.data.take (x.width p))
  if rise.getLsbD p.tree.val then some
    { port := p, low := x.width p * a, width := x.width p, within := decide (a < x.words p),
      reads := s.value p.read && (decide (x.mode = .dual) || second),
      writes := s.value p.write && (decide (x.mode = .dual) || !second) && decide (a < x.words p),
      data := if x.mode = .check then (ramEncode (BitVec.ofNat 80 d)).toNat else d }
  else none

/-- The bits that an access touches; contents after its write. -/
def RamAccess.mask (a : RamAccess) : BitVec 36864 := BitVec.ofNat 36864 ((2 ^ a.width - 1) * 2 ^ a.low)
def RamAccess.put (a : RamAccess) (v : BitVec 36864) : BitVec 36864 :=
  if a.writes then (v &&& ~~~a.mask) ||| (BitVec.ofNat 36864 (a.data * 2 ^ a.low) &&& a.mask) else v

def putOpt (a : Option RamAccess) (v : BitVec 36864) : BitVec 36864 := (a.map (fun x => x.put v)).getD v

/-- `x` with the bits of `y` where `sel` says so: a bitwise mixture. -/
def mixed (sel x y : BitVec 36864) : BitVec 36864 := (x &&& ~~~sel) ||| (y &&& sel)

/-- The contents after both ports' accesses: common bits take the second port's data on one tree, and either or a mixture on two. -/
def ramAfter (a b : Option RamAccess) (mix v : BitVec 36864) : BitVec 36864 :=
  let w := putOpt b (putOpt a v)
  match a, b with
  | some p, some q =>
    if p.writes && q.writes && decide (p.port.tree ≠ q.port.tree) then mixed (p.mask &&& q.mask &&& mix) w (p.put v) else w
  | _, _ => w

/-- The word of an access in contents `v`. -/
def RamAccess.word (a : RamAccess) (v : BitVec 36864) : BitVec 96 := (v.extractLsb' a.low a.width).setWidth 96

/-- What the read of access `a` finds beside the other port's: none where the port's previous output is repeated. -/
def ramRead (check : Bool) (a : RamAccess) (other : Option RamAccess) (mix beyond : BitVec 36864) (v : BitVec 36864) : Option RamOut :=
  let own := if a.port.collision = .after then a.put v else v
  let race := match other with
    | some o => o.writes && decide (o.port.tree ≠ a.port.tree)
    | none => false
  let seen (u : BitVec 36864) : RamOut := if check then ramDecode (a.word u) else ⟨a.word u, false, false⟩
  if ¬ a.reads then none
  else if ¬ a.within then some ⟨(beyond.extractLsb' 0 a.width).setWidth 96, false, false⟩
  else if a.writes && decide (a.port.collision = .previous) then none
  else if race then
    let x := seen own
    let y := seen (putOpt other own)
    some ⟨(x.word &&& ~~~a.word mix) ||| (y.word &&& a.word mix), x.fix || y.fix, x.bad || y.bad⟩
  else some (seen own)

/-- A port's pipeline at an edge of its clock: the word shows at the second edge after the address edge, one later with the pipeline register. -/
def FabSt.ramEdge (x : FabSt) (key : Nat) (piped : Bool) (r : Option RamOut) : FabSt :=
  let l := r :: SMap.get [] x.ramPipe key
  let show_ : Option RamOut := (l[if piped then 3 else 2]?).join
  { x with
    ramPipe := SMap.set [] x.ramPipe key (l.take (if piped then 3 else 2))
    ramOut := match show_ with
      | some o => SMap.set RamOut.init x.ramOut key o
      | none => x.ramOut }

/-- The accesses of block b at the edges `rise`; nets are read in `v`. -/
def State.ramTick (s v : State) (rise : BitVec 16) (b : Nat) (x : RamCfg) : State :=
  let a := v.ramAccess x false rise
  let c := v.ramAccess x true rise
  let old := v.ramBits b
  let chk := decide (x.mode = .check)
  let edge (f : FabSt) (acc other : Option RamAccess) (second : Bool) : FabSt := match acc with
    | none => f
    | some p => f.ramEdge (2 * b + bit second) p.port.piped
        (ramRead chk p other (Config.ramMix v.draws b (1 + bit second)) ((Config.ramBeyond v.draws b).setWidth 36864) old)
  let s := { s with fab := edge (edge s.fab a c false) c a true }
  if (a.map (·.writes)).getD false || (c.map (·.writes)).getD false then s.setRamBits b (ramAfter a c (Config.ramMix v.draws b 0) old) else s

/-! ### Clock trees (R329) -/

/-- The level of tree g now: 0 where it has no source. -/
def State.treeLevel (s : State) (g : Nat) : Bool := match s.treeOf g with
  | none => false
  | some (.pll o) => Config.pllLevel s.draws o
  | some (.pin b second) => s.pinIn b.val (bit second)
  | some (.net y) => s.value y

def State.treeLevels (s : State) : BitVec 16 :=
  BitVec.ofNat 16 ((List.range 16).foldl (fun a g => a + bit (s.treeLevel g) * 2 ^ g) 0)

/-! ### Pins (R346, R347, R349) -/

/-- The device lets no user pin be driven: no load has completed, one runs, or the device is in standby. -/
def State.pinsOff (s : State) : Bool := decide (s.loadOf staticRegion = 0) || s.fullLoading || decide (getF s Reg.PWR_STBY_STATE ≠ 0)

/-- The level that the design puts on a pin's output: from the net, or from the I/O registers. -/
def State.pinOut (s : State) (b i : Nat) (c : PinCfg) : Bool :=
  let q (k : Nat) : Bool := SMap.get false s.fab.io (4 * (40 * b + i) + k)
  match c.outReg with
  | .none => s.value c.out
  | .single _ => q 0
  | .double t => if s.fab.clocks.getLsbD t.val then q 0 else q 1

/-- What the design does with a pin. -/
def State.pinUser (s : State) (b i : Nat) : PinSt := match s.pinOf b i with
  | none => .hiZ .none
  | some c => if s.value c.enable then .drive (s.pinOut b i c) c.std.mA c.fast else .hiZ c.pull

/-- The channel of the bank whose probe drives pin i. -/
def State.probeOn (s : State) (b i : Nat) : Option Nat :=
  (List.range 4).find? (fun c => flag s Reg.FAB_PROBE_EN b c && decide (getF s Reg.FAB_PROBE_PIN b c = i))

/-- The net that a probe channel has selected. -/
def State.probeNet (s : State) (b c : Nat) : Bool :=
  match (s.regions.filterMap (fun r => lookup? (4096 * b + getF s Reg.FAB_PROBE_SEL b c) (s.design r).probes))[0]? with
  | some y => s.value y
  | none => false

/-- What an engaged seam makes of a pin (R363): positions 4,088 to 4,095 are the patch's pins. -/
def State.pinSeam (s : State) (b i : Nat) : PinSt :=
  let e := s.seamEntry (pinPatch b i) (4088 + i % 8)
  let lvl (v : Bool) : PinSt := match s.pinOf b i with
    | some c => .drive v c.std.mA c.fast
    | none => .drive v 8 false
  if e.2 then lvl false
  else match e.1 with
    | 0 => SMap.get (.hiZ .none) s.fab.heldPins (40 * b + i)
    | 1 => lvl false
    | 2 => lvl true
    | _ => .hiZ .none

/-- The state of pin i of bank b. -/
def State.pinState (s : State) (b i : Nat) : PinSt :=
  if SMap.get 0 s.vccio b = 0 ∨ s.pinsOff = true then .hiZ .none
  else if fbit s Reg.FAB_IO_STATUS_MISMATCH b then
    .hiZ (match s.pinOf b i with
      | some c => c.pull
      | none => .none)
  else match s.probeOn b i with
    | some c => .drive (s.probeNet b c) 8 true
    | none => if s.engaged (pinPatch b i) then s.pinSeam b i else s.pinUser b i

/-- The seam of a patch engages (R362, R363): its nets and its pins are held as they are. -/
def State.engageSeam (s : State) (p : Nat) : State :=
  if s.engaged p then s
  else
    let f := s.fab
    { (s.engage p) with fab := { f with
      heldNets := ((s.design p).seams.filter (fun e => decide (e.1 < 4088))).foldl (fun m e => SMap.set false m (4096 * p + e.1) (s.value e.2))
        (SMap.keep (fun k => decide (k / 4096 ≠ p)) f.heldNets)
      heldPins := if p % 6 = 5 then f.heldPins
        else (List.range 8).foldl (fun m i => SMap.set (.hiZ .none) m (40 * (p / 6) + 8 * (p % 6) + i) (s.pinState (p / 6) (8 * (p % 6) + i))) f.heldPins } }

/-- The number before the bank and the number of a user pin in an output. -/
def pinUSER : Nat := 4

/-! ### One moment of the fabric -/

/-- A flip-flop at the edges `rise`; nets are read in `v`. -/
def FabSt.ffTick (x : FabSt) (v : State) (rise : BitVec 16) (e : Nat × Fin 16 × FfCfg) : FabSt :=
  let f := e.2.2
  let edge := rise.getLsbD e.2.1.val
  let init := match f.init with
    | .tree r => v.grst r.val
    | .net y => v.value y
  if init && (f.atOnce || edge) then { x with ffs := SMap.set false x.ffs e.1 f.initial }
  else if edge && v.value f.enable then { x with ffs := SMap.set false x.ffs e.1 (v.value f.data) }
  else x

/-- The I/O registers of a pin at rising and falling edges. -/
def FabSt.ioTick (x : FabSt) (v : State) (rise fall : BitVec 16) (pin : Nat) (c : PinCfg) : FabSt :=
  let set (x : FabSt) (k : Nat) (b : Bool) : FabSt := { x with io := SMap.set false x.io (4 * pin + k) b }
  let at_ (w : BitVec 16) (r : IoReg) : Bool := (r.tree?.map (fun t => w.getLsbD t.val)).getD false
  let double (r : IoReg) : Bool := match r with
    | .double _ => true
    | _ => false
  let input := v.pinIn (pin / 40) (pin % 40)
  let x := if at_ rise c.outReg then set x 0 (v.value c.out) else x
  let x := if at_ fall c.outReg && double c.outReg then set x 1 (v.value c.outFall) else x
  let x := if at_ rise c.inReg then set x 2 input else x
  if at_ fall c.inReg && double c.inReg then set x 3 input else x

/-- The trees whose edges fall together now, less than 1 ns apart; everything reads the nets as they were before (DESIGN CHOICE, log entry 14). -/
def State.fabTick (s : State) : State :=
  if s.cfg.loads = [] ∨ getF s Reg.PWR_STBY_STATE ≠ 0 then s
  else
    let v := s.latchResets
    let lv := v.treeLevels
    let rise := lv &&& ~~~v.fab.clocks
    let fall := ~~~lv &&& v.fab.clocks
    let ds := v.regions.map (fun r => (r, v.design r))
    let f := ds.foldl (fun f d => (v.ffsOf d.1).foldl (fun f e => f.ffTick v rise e) f) v.fab
    let f := ds.foldl (fun f d => (d.2.pins.filter (fun e => decide (e.1 < 320))).foldl (fun f e => f.ioTick v rise fall e.1 e.2) f) f
    let f := (List.range 4).foldl (fun f r => match v.resetOf r with
      | some t => if rise.getLsbD t.release.val then f.releaseEdge r (v.resetCause r) else f
      | none => f) f
    let t := { v with fab := { f with clocks := lv }, draws := v.draws + 1 }
    ds.foldl (fun t d => (d.2.rams.filter (fun e => decide (e.1 < 4608 ∧ e.1 / 96 = d.1))).foldl (fun t e => t.ramTick v rise e.1 e.2) t) t

end Sys2Proof.Machine
end

