-- ==== Sys2Proof/Machine/Hbm.lean ====
section
/-! DEFINITION. Commands of the HBM controllers: requests (R277, R278, R287, R288), retirement and map rebuild (R289 to R292), training
(R285, R286) and the expert training aids (R295), stack temperature (R284). -/

namespace Sys2Proof.Machine

/-- HBM works: neither a full freeze nor a thermal shutdown has stopped it. -/
def State.hbmRuns (s : State) : Bool := decide (getF s Reg.OBS_FRZ_STATUS_STATE ≠ 3) && !s.shutdown && s.warming.isNone

/-! ### Requests -/

/-- HBM_REQUEST_ACCEPT (R277, R278, R281): a request that meeting point 2 grants takes a tracker entry; a full controller, and one whose
requests wait, take nothing. A write is visible from now on, and a read takes what stands now. -/
def execHbmRequestAccept (r : HbmReq) (s : State) : Res :=
  let i := r.master.toNat
  let a := r.addr.toNat / 64 * 64
  .next (if ¬ s.hbmRuns then s
    else if !s.hbmGranted i r.write a (a + 63) then
      s.violation { master := i, kind := bit r.write, reason := 1, addr := a, len := 64 }
    else if s.hbmRefused i a (a + 63) then s
    else
      let g := (s.hbmPlace a).1
      let c := sectCtl g
      if s.hbmFull c then (if r.write then s else s.hbmLate i a 64)
      else if r.write then
        let s := (s.hbmRequest a 1).1.hbmStore a (r.data.take 64)
        s.setTrk c (s.trk c ++ [⟨i, true, a, g, [], false, false⟩])
      else
        let q := (s.hbmTaken i a).hbmRequest a 0
        q.1.setTrk c (q.1.trk c ++ [⟨i, false, a, g, q.1.hbmBytes a 64, false, q.2⟩]))

/-- HBM_READ_DATA (R283, R287, R288): entry n of controller `ctl` is a read whose data leave. `ecc`: 0 clean, 1 corrected, 2 replayed and then
clean, 3 uncorrectable again: poisoned. An error mark that stands on a word of the request acts besides. -/
def execHbmReadData (ctl : Byte) (n : BitVec 6) (ecc : BitVec 2) (s : State) : Res :=
  let c := ctl.toNat
  .next (match (s.trk c)[n.toNat]? with
    | none => s
    | some e =>
      if e.write ∨ ¬ s.hbmRuns then s
      else
        let q := (s.setTrk c ((s.trk c).eraseIdx n.toNat)).hbmWords e.addr 64
        let s := q.1.hbmAnswer { e with data := if s.hbm.err = [] then e.data else q.1.hbmBytes e.addr 64 } (ecc = 3 || q.2 || e.bad)
        match ecc.toNat with
        | 0 => s
        | 1 => s.bumpChF Reg.HBM_CH_ERR_CORR c
        | 2 =>
          let s := s.hbmUncorr c
          { s with hbm := { s.hbm with events := SMap.mod 0 s.hbm.events e.sect (· + 1) } }
        | _ => (s.hbmUncorr c).sectDue [e.sect])

/-- HBM_WRITE_COMMIT (R278): entry n is a write, and is freed. -/
def execHbmWriteCommit (ctl : Byte) (n : BitVec 6) (s : State) : Res :=
  let c := ctl.toNat
  .next (match (s.trk c)[n.toNat]? with
    | none => s
    | some e => if !e.write || !s.hbmRuns then s else s.setTrk c ((s.trk c).eraseIdx n.toNat))

/-- HBM_REFRESH (R284): a per-bank refresh delays requests to its bank, and changes no state. -/
def execHbmRefresh (s : State) : Res := .next s

/-- HBM_EVENT_LIMIT_EXCEEDED (R289): bit k of `sections` names a section of the channel with more transient events than HBM_CH_LIMIT allows in a
window; bit 8 says that the channel's own events do. -/
def execHbmEventLimitExceeded (ctl : Byte) (sections : Nat) (s : State) : Res :=
  let c := ctl.toNat
  let limit := getF s Reg.HBM_CH_LIMIT_COUNT
  let mine := ctlSects c
  .next (if getF s Reg.HBM_CH_LIMIT_WINDOW = 0 ∨ ¬ s.hbmRuns then s
    else if bitAt sections 8 ∧ limit < SMap.get 0 s.hbm.parity c then s.sectDue mine
    else s.sectDue (((List.range 8).filter (bitAt sections)).filterMap (fun k => (mine[k]?).filter (fun g => decide (limit < SMap.get 0 s.hbm.events g)))))

/-! ### Retirement (R290 to R292) -/

/-- The rebuild's effect on map and contents (R290 step 3, R292). -/
def State.rebuildMap (s : State) (l : List Nat) : State :=
  let s := l.foldl (fun (s : State) g => setFbit s Reg.HBM_RETIRED_SECT (g % 32) true (g / 32)) s
  let n := s.retiredSects.length
  let t := 49152 - 24 * n
  let s := setF (setF s Reg.HBM_MAP_CTRL_RETIRED n) Reg.HBM_CAP_ROWS t
  let s := s.hbmLose (fun k => s.sectRetired (k / 4096 / 49152) || decide (t ≤ k / 4096 % 49152))
  let s := { s with hbm := { s.hbm with events := SMap.keep (fun g => !l.contains g) s.hbm.events } }
  (l.map sectCtl).eraseDups.foldl (fun (s : State) c => (s.showChannel c).showStack (c / 32)) s

/-- What a retirement of the sections l would exceed: at most 512 may be retired. -/
def State.tooMany (s : State) (l : List Nat) : Bool := decide (512 < s.retiredSects.length + l.length)

/-- HBM goes out of service (R292). -/
def State.hbmOut (s : State) : State :=
  ({ s with hbm := { s.hbm with outOfService := true, due := [], retiring := [] } }.reportHard (unitNo blkHBM 0) [2]).raise 26

/-- Service 0x03 ends with a result (R395). -/
def State.retrainResult (s : State) (svc : Bool) (v : Nat) : State :=
  if svc then setF (setF s Reg.MGT_SVC_CTRL_RESULT v) Reg.MGT_SVC_CTRL_GO 0 else s

/-- A retraining in progress is abandoned: the channel keeps its settings and serves again (R293). -/
def State.abandonRetrain (s : State) : State :=
  match s.hbm.retraining with
  | none => s
  | some (c, svc) => (({ s with hbm := { s.hbm with retraining := none } }.showChannel c).showStack (c / 32)).retrainResult svc 3

/-- The units that an accepted memory-port write has still to bring for a section under retirement are refused (R348). -/
def State.refuseWrites (s : State) (l : List Nat) : State :=
  s.mps.foldl (fun (s : State) e => (List.range e.2.reqs.length).foldl (fun (s : State) i =>
    match (s.mp e.1).reqs[i]? with
    | none => s
    | some r => if r.write ∧ r.status = 0 ∧ r.left ≠ 0 ∧ s.hbmSlot r.at_ ∈ l then (s.mpRefuse e.1).setReq e.1 i { r with status := 2 } else s) s) s

/-- SECTION_RETIREMENT (R290): the permanent-faulted section of lowest number is refused, every controller holds, and the rebuild begins; the
sections of a whole channel go together. Reads that are accepted then are LATE (R283). -/
def execSectionRetirement (s : State) : Res :=
  let g := s.hbm.due.foldl min (s.hbm.due.headD 0)
  let chan := ctlSects (sectCtl g)
  let l := if chan.all s.hbm.due.contains then chan else [g]
  .next (if ¬ s.hbmRuns ∨ s.hbm.retiring ≠ [] ∨ s.hbm.due = [] then s
    else if s.tooMany l then s.hbmOut
    else
      let s := if (s.hbm.retraining.any (fun r => l.any (fun h => sectCtl h = r.1))) then s.abandonRetrain else s
      let s := setF { s with hbm := { s.hbm with retiring := l, due := s.hbm.due.filter (fun h => !l.contains h) } } Reg.HBM_MAP_CTRL_BUSY 1
      (s.hbm.trk.foldl (fun (s : State) e => s.trkLate e.1) s).refuseWrites l)

/-- MAP_REBUILD_COMPLETE (R290 steps 3 to 5). -/
def execMapRebuildComplete (s : State) : Res :=
  let l := s.hbm.retiring
  .next (if l = [] ∨ ¬ s.hbmRuns then s
    else
      let s := { s with hbm := { s.hbm with retiring := [] } }.rebuildMap l
      let s := l.foldl (fun (s : State) g => s.report 6 (unitNo blkHBM g) (leBytes 2 g ++ leBytes 2 s.hbmT)) (setF s Reg.HBM_MAP_CTRL_BUSY 0)
      s.raise 26)

/-! ### Training (R285, R286) -/

/-- Every channel is trained, but for those under expert control, which keep their settings (R17, R295); a channel of `failed` is untrained. The
settings are what training makes them, and what the trained channels held is lost. -/
def State.trainAll (s : State) (failed : List Nat) : State :=
  let chans := (List.range 256).filter (fun c => decide (s.chF Reg.HBM_CH_STATUS_STATE c ≠ 5))
  let bad := failed.filter chans.contains
  let s := { s with hbm := { s.hbm with
    untrained := (s.hbm.untrained.filter (fun c => !chans.contains c)) ++ bad
    trained := chans.foldl (fun m c => SMap.mod 0 m c (· + 1)) s.hbm.trained
    pins := SMap.keep (fun k => !chans.contains (k / 1024)) s.hbm.pins } }
  let s := chans.foldl (fun (s : State) c => s.showChannel c) (s.hbmLose (fun k => chans.contains (sectCtl (k / 4096 / 49152))))
  (List.range 8).foldl (fun (s : State) k => s.showStack k) s

/-- A retraining step begins on channel c, for service 0x03 or in the background: its requests wait, and reads accepted by then are LATE. -/
def State.retrain (s : State) (c : Nat) (svc : Bool) : State :=
  ({ s with hbm := { s.hbm with retraining := some (c, svc) } }.setChF Reg.HBM_CH_STATUS_STATE c 2).trkLate c

/-- The retraining in progress ends, and succeeds or not as a free value says; a failure keeps the settings and counts one transient event of
the channel. -/
def State.retrainEnd (s : State) : State :=
  match s.hbm.retraining with
  | none => s
  | some (c, svc) =>
    let ok := Config.retrainOk s.draws
    let s := if ok then { s with hbm := { s.hbm with trained := SMap.mod 0 s.hbm.trained c (· + 1), pins := SMap.keep (fun k => decide (k / 1024 ≠ c)) s.hbm.pins } }
             else { s with hbm := { s.hbm with parity := SMap.mod 0 s.hbm.parity c (· + 1) } }
    ((({ s.drawn with hbm := { s.hbm with retraining := none } }.showChannel c).showStack (c / 32)).retrainResult svc (if ok then 1 else 3))

/-- BACKGROUND_RETRAIN (R286): in the availability profile firmware retrains the next channel, in ascending section number. The step ends in an
idle step of the model (DESIGN CHOICE, log entry 15). -/
def execBackgroundRetrain (s : State) : Res :=
  let u := s.hbm.nextRetrain
  let c := 32 * (u % 8) + u / 8
  .next (if !s.availability || !s.firmware || !s.hbmRuns || decide (s.hbm.retiring ≠ []) || s.hbm.retraining.isSome then s
    else
      let s := { s with hbm := { s.hbm with nextRetrain := (u + 1) % 256 } }
      if s.chF Reg.HBM_CH_STATUS_STATE c = 1 ∨ s.chF Reg.HBM_CH_STATUS_STATE c = 4 then s.retrain c false else s)

/-- MAP_ENABLE (R281). -/
def execMapEnable (en : Bool) (s : State) : Res :=
  .next (s.hostWrite Reg.HBM_MAP_CTRL_EN 0 0 (fun s => setF s Reg.HBM_MAP_CTRL_EN (bit en)))

/-! ### Expert training (R295) -/

/-- The channel that the training registers of a stack name. -/
def State.trnChan (s : State) (k : Nat) : Nat := 32 * k + getF s Reg.HBM_TRN_CTRL_CH k

/-- The accepted requests of a controller complete. -/
def State.drainCtl (s : State) (c : Nat) : State := ((s.trk c).foldl (fun (s : State) e => s.hbmAnswer e e.bad) s).setTrk c []

/-- The channel under control goes back to service with the settings in force. -/
def State.disown (s : State) (k : Nat) : State :=
  if flag s Reg.HBM_TRN_CTRL_OWN k then setF (s.showChannel (s.trnChan k)) Reg.HBM_TRN_CTRL_OWN 0 k else s

/-- TRAINING_OWN: a write of HBM_TRN_CTRL without GO. Control begins once the channel's accepted requests are complete. -/
def execTrainingOwn (stack : BitVec 3) (val : Word) (s : State) : Res :=
  let k := stack.toNat
  let v := val.toNat
  .next (s.hostWrite Reg.HBM_TRN_CTRL_OWN k 0 (fun s =>
    let keep := bitAt v 6 && flag s Reg.HBM_TRN_CTRL_OWN k && decide (getF s Reg.HBM_TRN_CTRL_CH k = bits v 4 0)
    let s := if keep then s else s.disown k
    let s := setF (setF s Reg.HBM_TRN_CTRL_CH (bits v 4 0) k) Reg.HBM_TRN_CTRL_PC (bits v 5 5) k
    let s := setF (setF s Reg.HBM_TRN_CTRL_OP (bits v 8 7) k) Reg.HBM_TRN_CTRL_RATE (bits v 11 10) k
    let s := if bits v 11 10 = 0 then { s with hbm := { s.hbm with rate := SMap.set 0 s.hbm.rate k 0 } } else s
    if bitAt v 6 ∧ ¬ keep then
      setF ((s.drainCtl (s.trnChan k)).setChF Reg.HBM_CH_STATUS_STATE (s.trnChan k) 5) Reg.HBM_TRN_CTRL_OWN 1 k
    else s))

/-- The sections of the pseudo-channel under control. -/
def State.trnSects (s : State) (k : Nat) : List Nat :=
  (List.range 4).map (fun i => k + 8 * getF s Reg.HBM_TRN_CTRL_CH k + 256 * i + 1024 * getF s Reg.HBM_TRN_CTRL_PC k)

/-- A run starts: GO reads 1, and the stack runs at the chosen rate. -/
def State.trnStart (s : State) (k op : Nat) : State :=
  s.hostWrite Reg.HBM_TRN_CTRL_GO k 0 (fun s =>
    if ¬ flag s Reg.HBM_TRN_CTRL_OWN k ∨ flag s Reg.HBM_TRN_CTRL_GO k then s
    else
      let s := setF (setF (setF s Reg.HBM_TRN_CTRL_OP op k) Reg.HBM_TRN_CTRL_GO 1 k) Reg.HBM_TRN_RESULT_DONE 0 k
      let s := { s with hbm := { s.hbm with rate := SMap.set 0 s.hbm.rate k (getF s Reg.HBM_TRN_CTRL_RATE k) } }
      if op = 0 then
        let l := s.trnSects k
        s.hbmLose (fun n => l.contains (n / 4096 / 49152))
      else s)

/-- TRAINING_WRITE_COMPARE: the rows it uses, which the spec does not name, are overwritten. -/
def execTrainingWriteCompare (stack : BitVec 3) (s : State) : Res := .next (s.trnStart stack.toNat 0)

/-- TRAINING_READ_COMPARE. -/
def execTrainingReadCompare (stack : BitVec 3) (s : State) : Res := .next (s.trnStart stack.toNat 1)

/-- TRAINING_CA_LOOPBACK. -/
def execTrainingCaLoopback (stack : BitVec 3) (s : State) : Res := .next (s.trnStart stack.toNat 2)

/-- TRAINING_RUN_DONE. -/
def execTrainingRunDone (stack : BitVec 3) (errs : Nat) (s : State) : Res :=
  let k := stack.toNat
  .next (if ¬ flag s Reg.HBM_TRN_CTRL_GO k ∨ ¬ s.hbmRuns then s
    else setF (setF (setF s Reg.HBM_TRN_CTRL_GO 0 k) Reg.HBM_TRN_RESULT_DONE 1 k) Reg.HBM_TRN_RESULT_ERRS (min errs 0xFFFFFF) k)

end Sys2Proof.Machine
end

