-- ==== Sys2Proof/Machine/Obs.lean ====
section
/-! DEFINITION. Observation: snapshot copies (R425 to R429), counter reset (R424), trace chunks and rings (R433, R434), and the device freeze
(R435 to R443). -/

namespace Sys2Proof.Machine

/-! ### Counter copies -/

/-- Entry `to` of a block takes the value of entry `from_`. -/
def State.copyCtr (s : State) (base n from_ to_ : Nat) : State :=
  (List.range n).foldl (fun (s : State) i => s.setCtr (base + to_ + i) (s.ctr (base + from_ + i))) s

/-- A marker header (R426). -/
def markHeader (num layer oper : Nat) : Nat := num % 2 ^ 32 + layer % 65536 * 2 ^ 32 + oper % 65536 * 2 ^ 48

/-- The oldest marker of panel p that tile t has not copied. -/
def State.tileMark (s : State) (p t : Nat) : Option SnapSt := (s.panel p).snaps.find? (fun m => m.tiles.contains t)

/-- One tile's marker copy: tile set, router set, header, trace record. -/
def State.copyMark (s : State) (p t : Nat) (m : SnapSt) : State :=
  let b := ctrTile t
  let s := ((s.copyCtr b 16 0 16).copyCtr b 4 50 54).setCtr (b + 48) (markHeader m.num m.layer m.oper)
  let s := (s.modTile t (fun x => { x with snapNum := BitVec.ofNat 32 m.num })).trace t 7 0 (BitVec.ofNat 32 m.num)
  (s.modPanel p (fun x => { x with snaps := x.snaps.map (fun k => if k.ord = m.ord then { k with tiles := k.tiles.filter (· ≠ t) } else k) })).finishSnaps p

/-- SNAP_MARKER_COPY_TILE (R426): the marker reaches the tile's counter block; a stopped tile copies after its thaw. -/
def execSnapMarkerCopyTile (t : TileNo) (s : State) : Res :=
  let n := t.toNat
  .next (if s.tileFrozen n then s
    else match s.panelOf n with
      | none => s
      | some p => match s.tileMark p n with
        | none => s
        | some m => s.copyMark p n m)

/-- SNAP_MARKER_COPY_CHANNEL (R426): a channel copies once every descriptor ahead of the marker has ended. -/
def execSnapMarkerCopyChannel (k : Fin 9) (n : BitVec 6) (s : State) : Res :=
  let i := k.val
  let j := n.toNat
  .next (match (s.chan i j).marks with
    | [] => s
    | m :: r =>
      if m.ahead ≠ 0 ∨ s.chanHeld i j then s
      else
        let b := ctrChan i j
        let s := (s.copyCtr b 4 0 4).setCtr (b + 12) (markHeader m.num m.layer m.oper)
        let s := s.modChan i j (fun c => { c with marks := r })
        (s.modPanel m.panel (fun x => { x with snaps := x.snaps.map (fun q =>
          if q.ord = m.ord then { q with chans := q.chans.erase (i, j) } else q) })).finishSnaps m.panel)

/-! ### Broadcast snapshots (R429); units: 0 to 2047 tiles, 2048 + 64 k + n channels, 4096 + c HBM channels, 5120 + d links -/

def allUnits : List Nat :=
  List.range 2048 ++ (List.range 576).map (2048 + ·) ++ (List.range 256).map (4096 + ·) ++ (List.range 4).map (5120 + ·)

/-- The island of a unit is stopped. -/
def State.unitStopped (s : State) (u : Nat) : Bool :=
  if u < 2048 then s.tileFrozen u
  else if u < 4096 then s.arrayFrozen
  else decide (getF s Reg.OBS_FRZ_STATUS_STATE = 3) || s.shutdown

/-- A broadcast header. -/
def State.bcastHeader (s : State) (late : Bool) : Nat := getF s Reg.OBS_BSNAP_NUM_NUMBER + bit late * 2 ^ 32

/-- One unit's broadcast copy: in a restart ic the completed values of the program before, with BOUNDARY (R425). -/
def State.copyBroadcast (late : Bool) (s : State) (u : Nat) : State :=
  if u < 2048 then
    let b := ctrTile u
    let s := match (s.tile u).restart with
      | some l => (List.range 16).foldl (fun (s : State) i => s.setCtr (b + 32 + i) (l.getD i 0 % 2 ^ 48 + 2 ^ 48)) s
      | none => s.copyCtr b 16 0 32
    (s.copyCtr b 4 50 58).setCtr (b + 49) (s.bcastHeader late)
  else
    let b := if u < 4096 then ctrChan ((u - 2048) / 64) ((u - 2048) % 64) else if u < 5120 then ctrHbm (u - 4096) else ctrLink (u - 5120)
    (s.copyCtr b 4 0 8).setCtr (b + 13) (s.bcastHeader late)

/-- BROADCAST_SNAPSHOT (R429): running units copy; the stopped ones owe a late copy. -/
def execBroadcastSnapshot (s : State) : Res :=
  .next (s.hostWrite Reg.OBS_BSNAP_GO 0 0 (fun s =>
    if flag s Reg.OBS_BSNAP_GO then s.discard (Reg.OBS_BSNAP_GO.addr 0 0) 1
    else
      let late := allUnits.filter s.unitStopped
      let s := (allUnits.filter (fun u => !s.unitStopped u)).foldl (State.copyBroadcast false) s
      setF (setF { s with bsnap := late } Reg.OBS_BSNAP_GO (bit (decide (late ≠ []))) ) Reg.OBS_BSNAP_LATE 0))

/-- BROADCAST_LATE_COPY (R429): a unit that was stopped copies at its restart; GO reads 0 after the last. -/
def execBroadcastLateCopy (unit : Nat) (s : State) : Res :=
  .next (if s.bsnap.contains unit ∧ ¬ s.unitStopped unit then
    let s := bumpF (s.copyBroadcast true unit) Reg.OBS_BSNAP_LATE
    let left := s.bsnap.filter (· ≠ unit)
    let s := { s with bsnap := left }
    if left = [] then setF s Reg.OBS_BSNAP_GO 0 else s
  else s)

/-- Every counter set, shadow and header to 0 (R424). -/
def State.resetCounters (s : State) : State :=
  { s with ctrs := [], tiles := SMap.mapAll Tile.init (fun _ x => { x with restart := none, snapNum := 0 }) s.tiles }

/-- COUNTER_RESET (R424, R443): discarded during a freeze. -/
def execCounterReset (s : State) : Res :=
  .next (s.hostWrite Reg.OBS_CTR_CLR_ALL 0 0 (fun s =>
    if s.arrayFrozen then s.discard (Reg.OBS_CTR_CLR_ALL.addr 0 0) 1 else s.resetCounters))

/-! ### Trace chunks (R433, R434) -/

/-- Records of tile t that no chunk under way holds. -/
def State.unsent (s : State) (t : Nat) : Nat :=
  (s.tile t).trace.length - ((s.chunks.filter (fun c => c.1 = t)).map (fun c => c.2.1)).foldl (· + ·) 0

/-- The cluster that takes the chunks of tile t. -/
def chunkCluster (t : Nat) : Nat := tileX t / 8

/-- A chunk leaves its tile: 16 messages of class 3 toward its cluster. -/
def State.sendChunk (s : State) (t n : Nat) (fl : Bool) : State :=
  match s.moverPort (chunkCluster t) t with
  | none => s
  | some p => match s.route true (s.posOf t) (moverRouter (chunkCluster t) p) with
    | none => s
    | some path => { (List.range 16).foldl (fun (s : State) _ => s.countPath 3 path) s with chunks := s.chunks ++ [(t, n, fl)] }

/-- TRACE_CHUNK_DRAIN (R433): 128 or more records wait, and the oldest 128 are sent. -/
def execTraceChunkDrain (t : TileNo) (s : State) : Res :=
  let n := t.toNat
  .next (if s.tileFrozen n ∨ s.unsent n < 128 then s else s.sendChunk n 128 false)

/-- The bytes of a chunk of n records, padded with KIND 0x00 records. -/
def State.chunkBytes (s : State) (t n : Nat) : List Byte :=
  (((s.tile t).trace.take n).flatMap (fun (r : BitVec 128) => leBytes 16 r.toNat) ++ List.replicate 2048 0).take 2048

/-- Base and length of ring k. -/
def State.ringBase (s : State) (k : Nat) : Nat := getF s Reg.OBS_TRACE_BASE_LO_VALUE k + getF s Reg.OBS_TRACE_BASE_HI_VALUE k * 2 ^ 32
def State.ringLen (s : State) (k : Nat) : Nat := getF s Reg.OBS_TRACE_LEN_LEN k

/-- The chunk that cluster k takes next. -/
def State.nextChunk (s : State) (k : Nat) : Option (Nat × Nat × Bool) :=
  s.chunks.find? (fun c => decide (chunkCluster c.1 = k) && !s.tileFrozen c.1)

/-- A chunk is done with: its records leave the buffer, and FLUSH ends with the last chunk of the flush. -/
def State.chunkDone (s : State) (c : Nat × Nat × Bool) : State :=
  let s := { (s.modTile c.1 (fun x => { x with trace := x.trace.drop c.2.1 })) with chunks := s.chunks.erase c }
  if s.chunks.any (fun d => d.2.2) then s else setF s Reg.OBS_TRACE_CTRL_FLUSH 0

/-- TRACE_CHUNK_WRITE (R434): cluster k writes its next chunk into its ring; with EN 0 the chunk is discarded; a stopped ring that is full
takes none. -/
def execTraceChunkWrite (k : BitVec 3) (s : State) : Res :=
  let n := k.toNat
  .next (match s.nextChunk n with
    | none => s
    | some c =>
      let wp := getF s Reg.OBS_TRACE_WP_VALUE n
      let a := s.ringBase n + 2048 * (wp % s.ringLen n)
      if s.arrayFrozen then s
      else if ¬ flag s Reg.OBS_TRACE_LEN_EN n then (s.traceDrop c.1 c.2.1).chunkDone c
      else if flag s Reg.OBS_TRACE_CFG_STOP ∧ s.ringLen n ≤ (wp + 2 ^ 32 - getF s Reg.OBS_TRACE_RP_VALUE n) % 2 ^ 32 then s
      else if s.hbmRefused (idMover n) a (a + 2047) then (s.traceDrop c.1 c.2.1).chunkDone c
      else if s.hbmBusy a 2048 then s
      else setF ((s.hbmWrite a (s.chunkBytes c.1 c.2.1)).chunkDone c) Reg.OBS_TRACE_WP_VALUE (wp + 1) n)

/-- The records of a tile that wait, in chunks. -/
def State.flushTile (s : State) (t : Nat) : State :=
  let n := s.unsent t
  (List.range ((n + 127) / 128)).foldl (fun (s : State) i => s.sendChunk t (min 128 (n - 128 * i)) true) s

/-- TRACE_FLUSH (R433): every waiting record of every tile is sent; FLUSH reads 1 until every chunk is written. -/
def execTraceFlush (s : State) : Res :=
  .next (s.hostWrite Reg.OBS_TRACE_CTRL_FLUSH 0 0 (fun s =>
    if flag s Reg.OBS_TRACE_CTRL_FLUSH then s
    else
      let s := (s.tiles.map (·.1)).foldl (fun (s : State) t => s.flushTile t) s
      setF s Reg.OBS_TRACE_CTRL_FLUSH (bit (s.chunks.any (fun c => c.2.2)))))

/-- The ring of cluster k, with length `len`, lies in the cluster's effective write windows. -/
def State.ringGranted (s : State) (k len : Nat) : Bool := s.hbmGranted (idMover k) true (s.ringBase k) (s.ringBase k + 2048 * len - 1)

/-- TRACE_RING_ENABLE (R434): a write of OBS_TRACE_LEN_k. While EN is 1 its LEN is kept; EN is set only for a ring that the cluster may write. -/
def execTraceRingEnable (k : BitVec 3) (val : Word) (s : State) : Res :=
  let n := k.toNat
  let len := bits val.toNat 23 0
  let a := Reg.OBS_TRACE_LEN_EN.addr n 0
  .next (s.hostWrite Reg.OBS_TRACE_LEN_EN n 0 (fun s =>
    if flag s Reg.OBS_TRACE_LEN_EN n then
      let s := if len = s.ringLen n then s else s.discard a val.toNat
      if bitAt val.toNat 31 then s else setF s Reg.OBS_TRACE_LEN_EN 0 n
    else if ¬ bitAt val.toNat 31 then setF s Reg.OBS_TRACE_LEN_LEN len n
    else if len = 0 ∨ ¬ s.ringGranted n len then s.discard a val.toNat
    else setF (setF s Reg.OBS_TRACE_LEN_LEN len n) Reg.OBS_TRACE_LEN_EN 1 n))

/-! ### Freeze requests (R435, R461, R468) -/

/-- A request: ignored in device standby, and logged; ignored while a device warm reset runs (R443). -/
def State.requestFreeze (s : State) (source : Nat) (full : Bool) : State :=
  if getF s Reg.PWR_STBY_STATE ≠ 0 then s.discard (Reg.OBS_FRZ_CTRL_PARTIAL.addr 0 0) (if full then 2 else 1)
  else if s.warming.isSome then s
  else { s with frzReq := s.frzReq ++ [(source, full, 0)] }

/-- The device itself drives FREEZE_N low. -/
def State.drivesPin (s : State) : Bool := flag s Reg.OBS_FRZ_CFG_DRIVE && s.arrayFrozen

/-- FREEZE_PIN (R435, R468): FREEZE_N is asserted from outside for 100 ns, or released. -/
def execFreezePin (low : Bool) (s : State) : Res :=
  .next (
    let ask := low && !s.frzPin && s.booted && flag s Reg.OBS_FRZ_CFG_PIN_EN && !s.drivesPin
    let s := { s with frzPin := low }
    if ask then s.requestFreeze 1 (flag s Reg.OBS_FRZ_CFG_PIN_SCOPE) else s)

/-- FREEZE_PARTIAL_REQUEST (R435). -/
def execFreezePartialRequest (s : State) : Res :=
  .next (s.hostWrite Reg.OBS_FRZ_CTRL_PARTIAL 0 0 (fun s =>
    if flag s Reg.OBS_FRZ_CTRL_PARTIAL then s else (setF s Reg.OBS_FRZ_CTRL_PARTIAL 1).requestFreeze 2 false))

/-- FREEZE_FULL_REQUEST (R435). -/
def execFreezeFullRequest (s : State) : Res :=
  .next (s.hostWrite Reg.OBS_FRZ_CTRL_FULL 0 0 (fun s =>
    if flag s Reg.OBS_FRZ_CTRL_FULL then s else (setF s Reg.OBS_FRZ_CTRL_FULL 1).requestFreeze 2 true))

/-- FRZ (R435): the test port requests a full freeze. -/
def execFrz (s : State) : Res := .next ((s.selectIr 0x31).requestFreeze 4 true)

/-- The request's own bit in OBS_FRZ_CTRL reads 0 again. -/
def State.endRequest (s : State) (full : Bool) : State :=
  if full then setF s Reg.OBS_FRZ_CTRL_FULL 0 else setF s Reg.OBS_FRZ_CTRL_PARTIAL 0

/-- FREEZE_DECISION (R437, R443): the oldest request is latched. A running device begins to freeze; a full request turns a partial freeze into
a full one; any other request during a freeze is ignored. -/
def execFreezeDecision (s : State) : Res :=
  .next (match s.frzReq with
    | [] => s
    | (source, full, master) :: r =>
      let s := { s with frzReq := r }
      let st := getF s Reg.OBS_FRZ_STATUS_STATE
      if st = 0 ∧ ¬ s.shutdown then
        let s := bumpF { s with frzFull := full, frzHeld := false } Reg.OBS_FRZ_STATUS_COUNT
        setF (setF (setF s Reg.OBS_FRZ_STATUS_STATE 1) Reg.OBS_FRZ_STATUS_SOURCE source) Reg.OBS_FRZ_STATUS_MASTER master
      else if full ∧ (st = 2 ∨ (st = 1 ∧ ¬ s.frzFull)) then
        let s := { s with frzFull := true, frzHeld := decide (st = 2) }
        setF (setF (setF s Reg.OBS_FRZ_STATUS_STATE 1) Reg.OBS_FRZ_STATUS_SOURCE source) Reg.OBS_FRZ_STATUS_MASTER master
      else s.endRequest full)

/-- The record of a freeze or a thaw (R415, type 0x03): what, source, master. -/
def State.freezePayload (s : State) (what : Nat) : List Byte :=
  [BitVec.ofNat 8 what, BitVec.ofNat 8 (getF s Reg.OBS_FRZ_STATUS_SOURCE), BitVec.ofNat 8 (getF s Reg.OBS_FRZ_STATUS_MASTER)]

/-- The pin numbers of the outputs: FREEZE_N, STBY_N, THERMTRIP_N. -/
def pinFREEZE : Nat := 1
def pinSTBY : Nat := 2
def pinTHERMTRIP : Nat := 3

/-- FREEZE_N follows the freeze when DRIVE is 1. -/
def State.drivePin (s : State) (low : Bool) : State := if flag s Reg.OBS_FRZ_CFG_DRIVE then s.emit .pin [pinFREEZE, bit (!low)] else s

/-- A FREEZE block on every link that is up (R318). -/
def State.sendFreezes (s : State) : State :=
  (List.range 4).foldl (fun (s : State) d =>
    if (getF s Reg.LAN_LINK_STATUS_STATE d = 2 ∨ getF s Reg.LAN_LINK_STATUS_STATE d = 3) ∧ getF s Reg.LAN_LINK_CFG_PROTO d ≠ 2 then s.emit .laneBlock [d, 0x55]
    else s) s

/-- FREEZE_STOPPED (R436, R437): every island in scope has stopped. A partial freeze queues a record and raises vector 29; a full one drains HBM
into self-refresh, sends FREEZE on the links, and commits its record before the controller stops. -/
def execFreezeStopped (s : State) : Res :=
  .next (if getF s Reg.OBS_FRZ_STATUS_STATE ≠ 1 then s
    else if s.frzFull then
      let s := ((s.hbmDrain.selfRefresh true).sendFreezes.drivePin true)
      let s := if s.mgmtState = 1 then s.bbCommit 3 (unitNo blkOBS 0) (s.freezePayload 2) else s
      (setF { s with frzHeld := false } Reg.OBS_FRZ_STATUS_STATE 3).endRequest true |>.endRequest false
    else
      let s := ((s.drivePin true).report 3 (unitNo blkOBS 0) (s.freezePayload 1)).raise 29
      (setF { s with frzHeld := false } Reg.OBS_FRZ_STATUS_STATE 2).endRequest false)

/-- The islands of a partial freeze go on: what waited for the thaw is done now (R127, R273, R337). -/
def State.restartIslands (s : State) : State :=
  let tiles := s.tiles.filterMap (fun e => if s.tileFrozen e.1 then none else some e.1)
  let s := (s.lateResets tiles).pumpHems
  let s := s.drainAll0
  let s := (s.chans.filterMap (fun e => if s.chanHeld (e.1 / 64) (e.1 % 64) then none else some (e.1 / 64, e.1 % 64))).foldl
    (State.lateResponse State.pageRespond) s
  ((List.range 16).filter (fun p => (s.panel p).wakeAtThaw && !s.panelFrozen p)).foldl (fun (s : State) p => s.wakePanel p) s

/-- FREEZE_THAW (R442): a partial freeze ends; refused, and logged, while FREEZE_N that caused it is still asserted and for a full freeze. -/
def execFreezeThaw (s : State) : Res :=
  let a := Reg.OBS_FRZ_CTRL_THAW.addr 0 0
  .next (s.hostWrite Reg.OBS_FRZ_CTRL_THAW 0 0 (fun s =>
    match getF s Reg.OBS_FRZ_STATUS_STATE with
    | 2 =>
      if getF s Reg.OBS_FRZ_STATUS_SOURCE = 1 ∧ s.frzPin then s.discard a 4
      else
        let s := ((s.drivePin false).report 3 (unitNo blkOBS 0) (s.freezePayload 0)).raise 29
        (setF s Reg.OBS_FRZ_STATUS_STATE 0).restartIslands
    | 1 => if s.frzFull then s.discard a 4 else s
    | _ => s))

end Sys2Proof.Machine
end

