-- ==== Sys2Proof/Machine/ResetOps.lean ====
section
/-! DEFINITION. What a reset and a low-power state take to its default, and what they keep: the retention table (R13, R444 to R450), and
entry into device standby (R455). A device warm reset takes two steps of the model, any other reset one. -/

namespace Sys2Proof.Machine

/-! ### Register fields -/

/-- The field whose value stands under a key of the register store. -/
def fldOfKey (k : Nat) : Option Fld := ((fieldsAt (k / 32)).find? (fun x => decide (x.fld.lo = k % 32))).map (·.fld)

/-- Every field that `keep` does not name takes its Reset value (R12, R13). The holding copies and held lower writes of R8 go with them (DESIGN
CHOICE, DESIGN CHOICE, log entry 81: R8 names no reset). -/
def State.keepFlds (s : State) (keep : Fld → Bool) : State :=
  { s with regs := SMap.keep (fun k => match fldOfKey k with
      | some f => keep f
      | none => false) s.regs, holdR := [], heldW := [] }

/-- Fields that show what a warm reset does not stop: the PCIe link (R447), a map rebuild (R290), and the engine's work (R445). -/
def State.liveFlds (s : State) : List Fld :=
  [Reg.PCI_LINK_STATUS_SPEED, Reg.PCI_LINK_STATUS_WIDTH, Reg.PCI_LINK_STATUS_FLIT, Reg.PCI_LINK_STATUS_REV, Reg.HBM_MAP_CTRL_BUSY, Reg.CFG_STATUS_BUSY]
    ++ (if s.cfg.cur.isSome || !s.cfg.queue.isEmpty then
          [Reg.CFG_LOAD_CTRL_GO]
        else [])

/-- Fields that show the rails: an episode ends with a core supply reset only (R459). -/
def supplyFlds : List Fld := [Reg.PWR_SUPPLY_CORE_WARN, Reg.PWR_SUPPLY_LIN_WARN, Reg.PWR_SUPPLY_FAB_WARN, Reg.PWR_SUPPLY_EPISODE]

/-! ### Units -/

/-- Sleeping panels are woken before their reset (R461). -/
def State.wakeSleepers (s : State) : State :=
  ((List.range 16).filter (fun p => flag s Reg.CMD_PANEL_STATUS_SLEEP p)).foldl (fun (s : State) p => s.wakePanel p) s

/-- Channels under expert control go back to service, and every accepted HBM request completes (R446, R455). -/
def State.settleHbm (s : State) : State := (((List.range 8).foldl (fun (s : State) k => s.disown k) s).abandonRetrain).hbmDrain

/-- A link that leaves its state raises vector 27 (R380). -/
def State.linksDown (s : State) : State := if (List.range 4).any (fun d => decide (s.lnkState d ≠ 0)) then s.raise 27 else s

/-- FREEZE_N and STBY_N are released when what drove them ends. -/
def State.releasePins (s : State) : State :=
  let s := if s.drivesPin then s.emit .pin [pinFREEZE, 1] else s
  if getF s Reg.PWR_STBY_STATE = 2 then s.emit .pin [pinSTBY, 1] else s

/-- Panels, channels, network, lanes and ports as a wide reset leaves them (R446 steps 1 to 3 and 5, R455 steps 1 and 2). Retired tile links
stay retired (R417). -/
def State.clearUnits (s : State) : State :=
  let s := (List.range 16).foldl (fun (s : State) p => s.forgetPatch p) s
  { s with
    panels := [], chans := [], flights := [], stitches := [], torn := [], lan := [], lanes := [], hems := [], mps := [], macRx := [], macTx := [], chunks := [],
    bsnap := [], profileFresh := false, frzReq := [], frzFull := false, frzHeld := false,
    links := SMap.mapAll LinkSt.init (fun _ l => { LinkSt.init with retired := l.retired }) s.links }

/-- A tile as a warm reset leaves it: the tile reset of R127, no panel, and its fault limits at their Reset values. -/
def Tile.afterWarm (x : Tile) : Tile :=
  { x.afterReset with layer := 0, operator := 0, fltLimit := 16, fltWindow := 1024, fltCount := 0, fltStart := x.ic, restart := none }

/-- Program memory and operand store at zero with valid check bits (R459). -/
def Tile.clearCore (x : Tile) : Tile :=
  { x with pmem := [], pmemErr := [], os := [], osErr := [], replay := x.replay.filter (fun r => r.1 = 4) }

/-- The lining at zero with valid check bits (R168). -/
def Tile.clearLining (x : Tile) : Tile :=
  { x with lining := [], liningErr := [], wrBack := [], scrubPos := 0, replay := x.replay.filter (fun r => r.1 ≠ 4) }

def State.mapTiles (s : State) (f : Tile → Tile) : State := { s with tiles := SMap.mapAll Tile.init (fun _ x => f x) s.tiles }

/-- The logic of the HBM controllers: training, map and retirements stay (R294). -/
def State.resetHbmLogic (s : State) : State := { s with hbm := { s.hbm with events := [], parity := [], rate := [], late := [] } }

/-- The supply of every I/O bank is sensed again (R347). -/
def State.senseBanks (s : State) : State := (List.range 8).foldl (fun (s : State) b => s.showMismatch b) s

/-- A staged image that no engine request uses is gone with its VALID bit. -/
def State.dropStage (s : State) : State :=
  if s.cfg.cur.isSome || !s.cfg.queue.isEmpty then s else { s with cfg := { s.cfg with stage := [], stageAddr := [] } }

/-! ### Records -/

/-- The payload of a boot record (R415): reset cause, firmware slot, ROLLBACK, profile. -/
def State.bootPayload (s : State) : List Byte :=
  [BitVec.ofNat 8 (getF s Reg.PWR_RST_CAUSE_CAUSE), BitVec.ofNat 8 (getF s Reg.MGT_BOOT_STATUS_SLOT)] ++ leBytes 4 s.fwVer
    ++ [BitVec.ofNat 8 (getF s Reg.MGT_PROFILE_PROFILE)]

/-! ### Device warm reset (R446) -/

/-- Steps 1 to 5, the stacks in self-refresh; `supply` are the supply fields that outlive the reset, `f` what a core supply reset adds to a tile. WARM reads 1. -/
def State.warmStart (s : State) (cause : Nat) (supply : List Fld) (f : Tile → Tile) : State :=
  let live := s.liveFlds ++ supply
  let s := (s.wakeSleepers.settleHbm).linksDown.releasePins
  let s := s.clearUnits.keepFlds (fun x => x.keptW || live.contains x)
  let s := { ((s.mapTiles (fun x => f x.afterWarm)).resetHbmLogic.dropStage.senseBanks.selfRefresh true) with warming := some cause }
  setF s Reg.PWR_RST_WARM 1

/-- Self-refresh ends, and steps 6 and 7: the last of a device warm reset that writes `cause`. -/
def State.warmEnd (s : State) (cause : Nat) : State :=
  let s := { s.selfRefresh false with errLog := [], warming := none }
  let s := (setF (setF s Reg.PWR_RST_WARM 0) Reg.MGT_ERRLOG_HEAD_VALUE 0).resetCounters
  let s := (if s.firmware then s.commitAll else s).applyRetirements
  let s := setF (bumpF s Reg.PWR_RST_CAUSE_WARMS) Reg.PWR_RST_CAUSE_CAUSE cause
  s.mgmtRecord 1 s.bootPayload

/-- A warm reset that no supply asks for: absorbed by one that runs (R445). It ends in an idle step (DESIGN CHOICE, log entry 23). -/
def State.plainWarm (s : State) (cause : Nat) : State := if s.warming.isSome then s else s.warmStart cause supplyFlds id

/-! ### PCIe hot reset (R448) -/

/-- The endpoint in its reset state. -/
def State.resetEndpoint (s : State) : State :=
  let s := { s with pcieUp := false, pciCfg := [], atc := [], priStopped := false, invalidating := [], msix := [], pba := [], msixEn := false,
                    msixMaskAll := false, doeHeld := none }
  s.keepFlds (fun x => !(x.cls = 2))

/-- The registers of the charter narrowing and of the frozen masters (chapter 16, Note 1). -/
def narrowFlds : List Fld :=
  [Reg.MGT_FROZEN_FROZEN, Reg.MGT_CHN_MASTER_LO_RWIN, Reg.MGT_CHN_MASTER_LO_WWIN, Reg.MGT_CHN_MASTER_HI_RCLS, Reg.MGT_CHN_MASTER_HI_FLAGS,
   Reg.MGT_CHN_HEM_MASK, Reg.MGT_CHN_PATCH_LO_MASK, Reg.MGT_CHN_PATCH_HI_MASK, Reg.MGT_CHN_WIN_BASE, Reg.MGT_CHN_WIN_LIMIT]

/-- Some master is charter-frozen. -/
def State.anyFrozen (s : State) : Bool := (List.range 8).any (fun w => decide (getF s Reg.MGT_FROZEN_FROZEN w ≠ 0))

/-- The narrowing goes and every frozen master is thawed, with one record. -/
def State.resetNarrowing (s : State) : State :=
  let was := s.anyFrozen
  let s := s.keepFlds (fun x => !narrowFlds.contains x)
  if was then s.mgmtRecord 3 [0, 0, 0] else s

def State.hotReset (s : State) : State := ((s.warmStart 3 supplyFlds id).warmEnd 3).resetEndpoint.resetNarrowing

/-! ### Cold reset and power-on (R449, R450) -/

/-- Everything but fuses, black box, flash and what the board supplies is as right after power-on. The boot of R391 is still to come. -/
def State.coldReset (s : State) : State :=
  let t := s.releasePins
  { State.reset with
    pending := s.pending, out := t.out, draws := s.draws, nextId := s.nextId, fuses := s.fuses, fuseErr := s.fuseErr,
    hbm := { HbmSt.init with epoch := s.hbm.epoch + 1, trained := s.hbm.trained }, frzPin := s.frzPin, booted := s.booted, boots := s.boots, perst := s.perst,
    bbox := s.bbox, bbBreak := s.bbBreak, sinceSum := s.sinceSum, failed := s.failed, vfuse := s.vfuse, locked := s.locked, flash := s.flash,
    cfg := { CfgSt.init with nextLoad := s.cfg.nextLoad }, vccio := s.vccio, tapIr := s.tapIr, tapSel := s.tapSel, tapNext := s.tapNext,
    bscan := s.bscan }

/-- A cold reset whose last step writes CAUSE. -/
def State.coldDone (s : State) (cause : Nat) : State := setF s.coldReset.senseBanks Reg.PWR_RST_CAUSE_CAUSE cause

/-- Power-on also lets the ROM read the secret again (R409) and forgets that firmware has run (R435). -/
def State.powerOn (s : State) : State :=
  let c := if s.shutdown then 8 else 1
  { s.coldDone c with locked := false, booted := false, tapIr := 1, tapSel := 0, tapNext := 0, bscan := [],
                      cfg := { CfgSt.init with nextLoad := s.cfg.nextLoad } }

/-! ### When a reset is taken -/

/-- The device is in full freeze or thermal shutdown: narrower resets do not run (R449, R460). -/
def State.deadlocked (s : State) : Bool := decide (getF s Reg.OBS_FRZ_STATUS_STATE = 3) || s.shutdown || s.perst

/-- A cold reset that a supply or a failed standby exit asks for. -/
def State.coldBy (s : State) : State := if s.deadlocked then s else s.coldDone 2

/-- A PCIe hot reset arrives (R389). -/
def State.hotBy (s : State) : State := if s.deadlocked || !s.pcieUp then s else s.hotReset

/-! ### Device standby (R455) -/

/-- Steps 1 to 4 of the entry. -/
def State.standbyNow (s : State) : State :=
  let live := [Reg.PCI_LINK_STATUS_SPEED, Reg.PCI_LINK_STATUS_WIDTH, Reg.PCI_LINK_STATUS_FLIT, Reg.PCI_LINK_STATUS_REV, Reg.HBM_MAP_CTRL_BUSY]
  let s := (s.wakeSleepers.settleHbm).linksDown
  let s := s.clearUnits.keepFlds (fun x => x.keptS || live.contains x)
  let s := ((s.mapTiles (fun x => x.afterWarm)).resetHbmLogic.dropStage).selfRefresh true
  (setF s Reg.PWR_STBY_STATE 2).emit .pin [pinSTBY, 0]

/-- A request to enter: a device warm reset in progress completes first; refused while a freeze is in force, waiting while the engine has a request in progress. -/
def State.standbyAsk (s : State) : State :=
  let s := match s.warming with
    | some c => s.warmEnd c
    | none => s
  if getF s Reg.PWR_STBY_STATE ≠ 0 then s
  else if getF s Reg.OBS_FRZ_STATUS_STATE ≠ 0 then setF s Reg.PWR_STBY_REFUSED 1
  else if s.cfg.cur.isSome then setF (setF s Reg.PWR_STBY_STATE 1) Reg.PWR_STBY_ENTER 1
  else s.standbyNow

/-- An entry that waited for the engine goes on. -/
def State.standbyDue (s : State) : State := if getF s Reg.PWR_STBY_STATE = 1 then s.standbyNow else s

/-- A request to leave: STBY_N is negated. -/
def State.standbyLeave (s : State) : State :=
  if getF s Reg.PWR_STBY_STATE = 2 then ((setF (setF s Reg.PWR_STBY_STATE 3) Reg.PWR_STBY_EXIT 1).emit .pin [pinSTBY, 1]) else s

end Sys2Proof.Machine
end

