-- ==== Sys2Proof/Machine/Cfg.lean ====
section
/-! DEFINITION. The configuration load engine and the scrubber: `patch` commands (R242, R361), full loads (R358 to R360), swaps (R362), scrubbing
(R367, R369), repair (R368), and the test port as a source (R358). -/

namespace Sys2Proof.Machine

/-! ### The engine (R364, R436) -/

/-- The engine works: no device freeze and no thermal shutdown stops it. -/
def State.engineRuns (s : State) : Bool := !s.arrayFrozen

def State.modCfg (s : State) (f : CfgSt → CfgSt) : State := { s with cfg := f s.cfg }

def State.ask (s : State) (r : EngReq) : State := s.modCfg (fun c => { c with queue := c.queue ++ [r] })

/-- The engine is idle again; an entry into standby that waited for it goes on (R455). -/
def State.engineIdle (s : State) : State :=
  (setF (s.modCfg (fun c => { c with cur := none, phase := 0 })) Reg.CFG_STATUS_BUSY 0).standbyDue

/-- A `patch` command hears of its outcome; after a panel reset nobody does (R370). -/
def State.answerPatch (s : State) (r : EngReq) (code : Nat) : State :=
  match r.origin with
  | none => s
  | some (p, ord) => match ((s.panel p).queue 0).find? (fun c => decide (c.ord = ord)) with
    | none => s
    | some c =>
      let s := s.modPanel p (fun x => { x with engineWait := false })
      if code = 0 then s.popCmd p 0 ord else s.refuseCmd p 0 c 7 code

/-- A patch is faulted or retired: a record, and vector 28 (R367, R368). -/
def State.patchFault (s : State) (p v code : Nat) : State :=
  let s := (s.engageSeam p).reportHard (unitNo blkCFG p) [BitVec.ofNat 8 code]
  ((setF s Reg.CFG_PATCH_STATUS_STATE v p).report 9 (unitNo blkCFG p) [BitVec.ofNat 8 p, BitVec.ofNat 8 code]).raise 28

/-- The request in progress ends with a code. A repair that fails retires its patch. -/
def State.endRequestCfg (s : State) (r : EngReq) (code : Nat) : State :=
  let s := s.engineIdle.answerPatch r code
  if r.op = 5 ∧ code ≠ 0 then s.patchFault r.patch 4 code else s

/-- LAST_CODE of a patch after a swap. -/
def State.lastCode (s : State) (r : EngReq) (code : Nat) : State := setF s Reg.CFG_PATCH_STATUS_LAST_CODE code r.patch

/-! ### patch (R361) -/

/-- What the charter refuses about a `patch`: reason and HBM range (R261, R361, R403). -/
def State.patchRefusal (s : State) (p op patch addr len : Nat) : Option Violation :=
  if ¬ s.patchRight p patch ∨ s.fuseFault then some { master := idCmd p, kind := 3, reason := 5, addr := patch }
  else if (op = 0 ∨ op = 2) ∧ len ≠ 0 ∧ ¬ s.hbmGranted (idCmd p) false addr (addr + len - 1) then
    some { master := idCmd p, kind := 0, reason := 1, addr := addr, len := len }
  else none

/-- A `patch` of operation `op` at the head of queue 0 is handed to the engine at meeting point 1. -/
def State.patchCmd (s : State) (p op : Nat) : State :=
  match s.head0 p 11 with
  | none => s
  | some c =>
    let w := c.word 0
    let addr := c.num 8 8
    let len := c.word 16
    if bits w 1 0 ≠ op ∨ c.issued then s
    else match s.patchRefusal p op (bits w 7 2) addr len with
      | some v => (s.violation { v with seq := c.seq, tags := c.layer + c.oper * 65536 }).refuseCmd p 0 c 8 0
      | none => ((s.markIssued p 0 c.ord).modPanel p (fun x => { x with engineWait := true })).ask
          ⟨op, bits w 7 2, bits w 8 8, addr, len, some (p, c.ord)⟩

/-- PATCH_PRELOAD. -/
def execPatchPreload (p : PanelNo) (s : State) : Res := .next (s.patchCmd p.toNat 0)
/-- PATCH_SWAP. -/
def execPatchSwap (p : PanelNo) (s : State) : Res := .next (s.patchCmd p.toNat 1)
/-- PATCH_LOAD. -/
def execPatchLoad (p : PanelNo) (s : State) : Res := .next (s.patchCmd p.toNat 2)
/-- PATCH_SCRUB. -/
def execPatchScrub (p : PanelNo) (s : State) : Res := .next (s.patchCmd p.toNat 3)

/-! ### Scrubbing one frame (R367) -/

/-- The check of logic frame f of region r. -/
def State.scrubFrame (s : State) (f r : Nat) : State :=
  match (s.frame f).check with
  | .clean => s
  | .fixed g =>
    if ¬ flag s Reg.CFG_SCRUB_CFG_CORRECT then s.report 0 (unitNo blkCFG r) []
    else
      let s := s.setFrame f g
      if r < 48 then bumpF s Reg.CFG_PATCH_CNT_CORR 1 r else s
  | .bad =>
    if r < 48 then (bumpF s Reg.CFG_PATCH_CNT_UNCORR 1 r).patchFault r 3 0
    else ((setF s Reg.CFG_STATUS_STATIC_UNCORR 1).reportHard (unitNo blkCFG 48) [0]).raise 28

/-- OP SCRUB: every logic frame of the patch, at once (R368). -/
def State.scrubPatch (s : State) (p : Nat) : State :=
  (List.range 2048).foldl (fun (s : State) i => if s.engaged p then s else s.scrubFrame (2048 * p + i) p) s

/-! ### Requests -/

/-- A swap engages the seam and quiesces the ports (R362, steps 1 and 2), from a buffer that is valid for the patch. -/
def State.startSwap (s : State) (r : EngReq) : State :=
  if ¬ flag s Reg.CFG_STAGE_VALID r.buf ∨ getF s Reg.CFG_STAGE_PATCH r.buf ≠ r.patch then (s.lastCode r 9).endRequestCfg r 9
  else (setF (s.engageSeam r.patch) Reg.CFG_PATCH_STATUS_STATE 2 r.patch).modCfg (fun c => { c with phase := 2 })

/-- ENGINE_REQUEST_START (R364): the next request starts once the one before it has ended. -/
def execEngineRequestStart (s : State) : Res :=
  .next (match s.cfg.cur, s.cfg.queue with
    | none, r :: q =>
      if ¬ s.engineRuns then s
      else
        let s := setF (s.modCfg (fun c => { c with cur := some r, queue := q, phase := 1 })) Reg.CFG_STATUS_BUSY 1
        match r.op with
        | 1 => s.startSwap r
        | 3 => (s.scrubPatch r.patch).endRequestCfg r 0
        | 4 => setF (s.modCfg (fun c => { c with phase := 4 })) Reg.CFG_STATUS_STATE 1
        | _ => s
    | _, _ => s)

/-- The staging buffer of a request: LOAD and repair use buffer 0. -/
def EngReq.staging (r : EngReq) : Nat := if r.op = 0 then r.buf else 0

/-- A failed copy leaves the buffer invalid. -/
def State.preloadFailed (s : State) (r : EngReq) (code : Nat) : State :=
  let s := setF s Reg.CFG_STAGE_VALID 0 r.staging
  (if r.op = 0 then s else s.lastCode r code).endRequestCfg r code

/-- PRELOAD_COMPLETE (R361): the copy and its checks are complete: the buffer is valid, or the engine reports a code. LOAD and repair go on
with the swap. -/
def execPreloadComplete (s : State) : Res :=
  .next (match s.cfg.cur with
    | none => s
    | some r =>
      if s.cfg.phase ≠ 1 ∨ ¬ s.engineRuns then s
      else if 2 * 2 ^ 20 < r.len then s.preloadFailed r 11
      else if r.len ≠ 0 ∧ s.hbmRefused (if r.op = 5 then idMgmt else idHost) r.addr (r.addr + r.len - 1) then s.preloadFailed r 8
      else if s.hbmBusy r.addr r.len then s
      else
        let q := s.hbmRead r.addr r.len
        if q.2.2 then q.1.preloadFailed r 8
        else match q.1.partialCheck r.patch r.len q.2.1 with
        | .error c => q.1.preloadFailed r c
        | .ok _ =>
          let b := r.staging
          let s := setF (setF q.1 Reg.CFG_STAGE_VALID 1 b) Reg.CFG_STAGE_PATCH r.patch b
          let s := s.modCfg (fun c => { c with stage := SMap.set [] c.stage b q.2.1, stageAddr := SMap.set 0 c.stageAddr b r.addr })
          if r.op = 0 then s.endRequestCfg r 0 else s.startSwap { r with buf := 0 })

/-- The buffer that a swap writes from. -/
def EngReq.swapBuf (r : EngReq) : Nat := if r.op = 1 then r.buf else 0

/-- SWAP_WRITE_START (R362, step 3): the patch is quiet, and every frame is written and read back; `ok` says whether the readback was good. -/
def execSwapWriteStart (ok : Bool) (s : State) : Res :=
  .next (match s.cfg.cur with
    | none => s
    | some r =>
      let l := SMap.get [] s.cfg.stage r.swapBuf
      if s.cfg.phase ≠ 2 ∨ ¬ s.engineRuns ∨ ¬ s.patchQuiet r.patch then s
      else match s.partialCheck r.patch l.length l with
        | .error c => ((setF s Reg.CFG_STAGE_VALID 0 r.swapBuf).lastCode r c).endRequestCfg r c
        | .ok (_, w) =>
          let s := s.writeRegion r.patch w
          if ok then s.modCfg (fun c => { c with phase := 3 })
          else
            let s := (setF s Reg.CFG_STAGE_VALID 0 r.swapBuf).lastCode r 10
            let s := if r.op = 5 then s else s.patchFault r.patch 3 10
            s.endRequestCfg r 10)

/-- SWAP_RELEASE (R362, steps 4 and 5). -/
def execSwapRelease (s : State) : Res :=
  .next (match s.cfg.cur with
    | none => s
    | some r =>
      if s.cfg.phase ≠ 3 ∨ ¬ s.engineRuns then s
      else
        let b := r.swapBuf
        let a := SMap.get 0 s.cfg.stageAddr b
        let s := ((s.newLoad r.patch (imSect (SMap.get [] s.cfg.stage b) 0).rclk).initRegion r.patch).release r.patch
        let s := setF (setF s Reg.CFG_STAGE_VALID 0 b) Reg.CFG_PATCH_STATUS_STATE 1 r.patch
        let s := setF (setF s Reg.CFG_REPAIR_ADDR_LO_ADDR a r.patch) Reg.CFG_REPAIR_ADDR_HI_ADDR (a / 2 ^ 32) r.patch
        (s.lastCode r 0).endRequestCfg r 0)

/-! ### Full loads (R358 to R360) -/

/-- FULL_LOAD (R358): the host writes CFG_LOAD_CTRL with GO. -/
def execFullLoad (val : Word) (s : State) : Res :=
  let src := bits val.toNat 1 0
  let a := Reg.CFG_LOAD_CTRL_GO.addr 0 0
  .next (s.hostWrite Reg.CFG_LOAD_CTRL_GO 0 0 (fun s =>
    if flag s Reg.CFG_LOAD_CTRL_GO then s
    else if src = 3 then s.logErr 4 idHost a val.toNat
    else (setF (setF s Reg.CFG_LOAD_CTRL_SRC src) Reg.CFG_LOAD_CTRL_GO 1).ask
      ⟨4, 1, src + 1, getF s Reg.CFG_LOAD_ADDR_LO_VALUE + getF s Reg.CFG_LOAD_ADDR_HI_VALUE * 2 ^ 32, getF s Reg.CFG_LOAD_LEN_VALUE, none⟩))

/-- The golden image's place in the flash. -/
def State.goldenOffset (s : State) : Nat := bits (s.fuse 6) 31 0

/-- The bytes of a full load's image, and the state after they were read; none while they have not all come, an engine code where they cannot be
read or come poisoned. -/
def State.fullImage (s : State) (r : EngReq) : Option (State × Except Nat (List Byte)) :=
  let fl (a : Nat) : List Byte := s.flashBytes a (min (imTotal (s.flashBytes a 64)) (80 * 2 ^ 20))
  match r.buf with
  | 1 =>
    if r.len ≠ 0 ∧ s.hbmRefused idMgmt r.addr (r.addr + r.len - 1) then some (s, .error 8)
    else if s.hbmBusy r.addr r.len then none
    else
      let q := s.hbmRead r.addr r.len
      some (q.1, if q.2.2 then .error 8 else .ok q.2.1)
  | 2 => some (s, .ok (fl 0))
  | 3 => some (s, .ok (fl s.goldenOffset))
  | _ => if s.cfg.tapBytes.length < 64 ∨ s.cfg.tapBytes.length < imTotal s.cfg.tapBytes then none else some (s, .ok s.cfg.tapBytes)

/-- The words that the test port has delivered for request `r` are used up. -/
def State.dropTap (s : State) (r : EngReq) : State := if r.buf = 4 then s.modCfg (fun c => { c with tapBytes := [] }) else s

/-- The end of a full load: SOURCE, the code, STATE, vector 28; GO reads 0 again where CFG_LOAD_CTRL asked for it (R358). -/
def State.fullEnd (s : State) (r : EngReq) (code state : Nat) : State :=
  let s := setF (setF (setF s Reg.CFG_STATUS_STATE state) Reg.CFG_STATUS_SOURCE (if state = 4 then 0 else r.buf)) Reg.CFG_STATUS_LAST_CODE code
  let s := if r.patch = 1 then setF s Reg.CFG_LOAD_CTRL_GO 0 else s
  (s.resetAfterLoad.engineIdle.dropTap r).raise 28

def State.fullRecord (s : State) (src code : Nat) : State := s.report 8 (unitNo blkCFG 0) [BitVec.ofNat 8 src, BitVec.ofNat 8 code]

/-- The ports of every patch take what the load declares. -/
def State.allClocks (s : State) : State := (List.range 48).foldl (fun (s : State) p => s.takeClocks p) s

/-- The flip-flops of every region take their initial values. -/
def State.initAll (s : State) : State := s.regions.foldl (fun (s : State) r => s.initRegion r) s

/-- A full image is in place (R360, steps 3 to 6). -/
def State.fullWritten (s : State) (l : List Byte) (w : List FrameWrite) : State :=
  let s := w.foldl (fun (s : State) x => s.setFrame x.1 x.2) s.blankAll
  let s := (imTable l).foldl (fun (s : State) e =>
    let s := s.newLoad e.region e.rclk
    if e.region < 48 then setF s Reg.CFG_PATCH_STATUS_STATE 1 e.region else s) s
  ((s.modCfg (fun c => { c with signed := l.take (imTableEnd l + 64) })).initAll).allClocks

/-- FULL_LOAD_END (R360): the fabric is released with the image; a failure blanks it and starts the golden image, and a second one leaves it
blank. -/
def execFullLoadEnd (s : State) : Res :=
  .next (match s.cfg.cur with
    | none => s
    | some r =>
      if s.cfg.phase ≠ 4 ∨ ¬ s.engineRuns ∨ ¬ (List.range 48).all s.patchQuiet then s
      else match s.fullImage r with
        | none => s
        | some (s, img) =>
          let res : Except Nat (List Byte × List FrameWrite) := match img with
            | .error c => .error c
            | .ok l => match s.fullCheck l with
              | .error c => .error c
              | .ok w => .ok (l, w)
          match res with
          | .ok (l, w) => ((s.fullWritten l w).fullRecord r.buf 0).fullEnd r 0 (if r.buf = 3 then 3 else 2)
          | .error c =>
            let s := (s.blankAll.allClocks).fullRecord r.buf c
            if r.buf = 3 then s.fullEnd r c 4
            else setF ((s.dropTap r).modCfg (fun x => { x with cur := some { r with buf := 3 } })) Reg.CFG_STATUS_LAST_CODE c)

/-! ### Repair and scrubbing (R367 to R369) -/

/-- A faulted patch that no repair request names. -/
def State.toRepair (s : State) (p : Nat) : Bool :=
  decide (getF s Reg.CFG_PATCH_STATUS_STATE p = 3) && !(s.cfg.queue ++ s.cfg.cur.toList).any (fun r => decide (r.op = 5 ∧ r.patch = p))

/-- PATCH_REPAIR (R368): in the availability profile firmware repeats the swap of a faulted patch from REPAIR_ADDR, the patch of lowest number
first. -/
def execPatchRepair (s : State) : Res :=
  .next (if !s.availability || !s.firmware then s
    else match (List.range 48).find? s.toRepair with
      | none => s
      | some p =>
        let a := getF s Reg.CFG_REPAIR_ADDR_LO_ADDR p + getF s Reg.CFG_REPAIR_ADDR_HI_ADDR p * 2 ^ 32
        s.ask ⟨5, p, 0, a, imTotal (s.hbmBytes a 64), none⟩)

/-- An upset has inverted bits of a frame: 0 to 4,095 the data bits, then the code bits. -/
def Frame.upset (f : Frame) (l : List Nat) : Frame :=
  l.foldl (fun (f : Frame) b => if b < 4096 then { f with data := f.data ^^^ BitVec.ofNat 4096 (2 ^ b) }
    else { f with code := f.code ^^^ BitVec.ofNat 48 (2 ^ (b - 4096)) }) f

/-- SCRUB_FRAME_READ (R367, R369): the scrubber reads its next frame. `upset` are the bits that upsets have inverted in it since it was
written, `rom` a parity error of the frame list, `setErr` a parity error of the settings, which are read at the start of a pass. -/
def execScrubFrameRead (upset : List Nat) (rom setErr : Bool) (s : State) : Res :=
  let f := getF s Reg.CFG_SCRUB_STATUS_FRAME
  let r := (faRegion f).getD staticRegion
  .next (if getF s Reg.OBS_FRZ_STATUS_STATE = 3 ∨ s.shutdown = true ∨ s.fullLoading = true then s
    else
      let s := s.setFrame f ((s.frame f).upset upset)
      let s := if f = 0 ∧ setErr then
          (setF (setF (setF s Reg.CFG_SCRUB_CFG_EN 1) Reg.CFG_SCRUB_CFG_CORRECT 1) Reg.CFG_SCRUB_STATUS_SET_ERR 1).report 0 (unitNo blkCFG 0) []
        else s
      if ¬ flag s Reg.CFG_SCRUB_CFG_EN then s
      else
        let s := if rom then (setF s Reg.CFG_SCRUB_STATUS_ROM_ERR 1).report 0 (unitNo blkCFG 0) []
          else if s.engaged r then s
          else s.scrubFrame f r
        setF s Reg.CFG_SCRUB_STATUS_FRAME ((f + 1) % 114688))

/-- SCRUBBER_WATCHDOG (R369, R396): the scrubber restarts at the frame after the last one it completed. -/
def execScrubberWatchdog (s : State) : Res :=
  .next (if s.firmware then bumpF s Reg.CFG_SCRUB_STATUS_RESTARTS else s)

/-! ### The test port as a source (R358) -/

/-- TEST_PORT_CFG_LOAD: the instruction selects the test port, and the engine takes a request for its image. -/
def execTestPortCfgLoad (s : State) : Res :=
  let s := s.selectIr 0x2C
  .next (if (s.cfg.queue ++ s.cfg.cur.toList).any (fun r => decide (r.op = 4 ∧ r.buf = 4)) then s
    else (s.modCfg (fun c => { c with tapBytes := [] })).ask ⟨4, 0, 4, 0, 0, none⟩)

/-- TEST_PORT_IMAGE_WORD: each Update-DR delivers the next word. -/
def execTestPortImageWord (word : Word) (s : State) : Res :=
  .next (if s.tapIr = 0x2C then s.modCfg (fun c => { c with tapBytes := c.tapBytes ++ leBytes 4 word.toNat }) else s)

end Sys2Proof.Machine
end

