-- ==== Sys2Proof/Machine/Fabric.lean ====
section
/-! DEFINITION. The hardened ports of the logic fabric: MAC client and bridge ports (R343, R344), hem ports (R331 to R337), memory ports
(R338 to R342), global reset trees (R330), probes (R349) and the pins' supply (R347). -/

namespace Sys2Proof.Machine

/-- The fabric's clocks are stopped, or its configuration is being loaded (R360, R436). -/
def State.fabricStopped (s : State) : Bool := s.arrayFrozen || s.fullLoading

/-! ### MAC client ports (R343) -/

/-- The CRC-32 of IEEE 802.3, the FCS (PRESUMED, log entry 18). -/
def fcs (l : List Byte) : Word :=
  ~~~ l.foldl (fun (c : Word) b => (List.range 8).foldl (fun (c : Word) _ => if c.getLsbD 0 then (c >>> 1) ^^^ 0xEDB88320 else c >>> 1)
    (c ^^^ b.setWidth 32)) 0xFFFFFFFF

/-- The link of MAC k runs Ethernet and is up (R302). -/
def State.macUp (s : State) (k : Nat) : Bool := decide (s.proto (k / 2) = 2) && s.lnkUp (k / 2) && s.macReady k

/-- A frame of `n` bytes with its FCS has a legal length. -/
def frameLen (n : Nat) : Bool := decide (64 ≤ n ∧ n ≤ 9216)

def State.macErr (s : State) (k : Nat) : State := bumpF s Reg.FAB_MAC_CNT_ERR 1 k

/-- Frames that MAC k has stored and not sent. -/
def State.macStored (s : State) (k : Nat) : List (List Byte) := SMap.get [] s.macTx k

/-- MAC k sends what it has stored, each frame with its FCS, while its link is up. -/
def State.macSend (s : State) (k : Nat) : State :=
  if s.macUp k then
    (s.macStored k).foldl (fun (s : State) l => s.emit .ethFrame [0, k] (l ++ leBytes 4 (fcs l).toNat)) { s with macTx := SMap.set [] s.macTx k [] }
  else s

/-- MAC_TRANSMIT_FRAME (R343): `bytes` is the frame without its FCS, the bytes of its beats from SOP to EOP; `abort` says that the EOP beat carried
ABORT. READY is 0 while two frames are stored. -/
def execMacTransmitFrame (k : BitVec 3) (bytes : List Byte) (abort : Bool) (s : State) : Res :=
  let n := k.toNat
  .next (if s.fabricStopped || decide (2 ≤ (s.macStored n).length) || abort then s
    else if !frameLen (bytes.length + 4) then s.macErr n
    else ({ s with macTx := SMap.set [] s.macTx n (s.macStored n ++ [bytes]) }).macSend n)

/-- A received frame is presented to the fabric in beats of 128 bytes: MAC, SOP, EOP, EMPTY, FCS_ERR and LEN_ERR on the EOP beat, and the bytes. -/
def State.macPresent (s : State) (k : Nat) (f : Bool × Bool × List Byte) : State :=
  let l := f.2.2
  let n := max 1 ((l.length + 127) / 128)
  (List.range n).foldl (fun (s : State) i =>
    let b := (l.drop (128 * i)).take 128
    let last := decide (i + 1 = n)
    s.emit .ethFrame [1, k, bit (decide (i = 0)), bit last, 128 - b.length, bit (last && f.1), bit (last && f.2.1)] b) s

def State.macQueue (s : State) (k : Nat) : List (Bool × Bool × List Byte) := SMap.get [] s.macRx k

def State.setMacQueue (s : State) (k : Nat) (l : List (Bool × Bool × List Byte)) : State := { s with macRx := SMap.set [] s.macRx k l }

/-- The fabric takes what MAC k has received, while it shows READY and its clocks run. -/
def State.macDeliver (s : State) (k : Nat) : State :=
  if s.fabricStopped || !SMap.get false s.macTake k then s
  else ((s.macQueue k).foldl (fun (s : State) x => s.macPresent k x) s).setMacQueue k []

/-- What a MAC has checked of the bytes that arrived: FCS_ERR, LEN_ERR, and the bytes without the FCS. -/
def macCheck (l : List Byte) : Bool × Bool × List Byte :=
  let b := l.take (l.length - 4)
  (decide (l.drop (l.length - 4) ≠ leBytes 4 (fcs b).toNat), !frameLen l.length, b)

/-- MAC_RECEIVE_FRAME (R343): `bytes` arrive with their FCS; `ready` says whether the fabric shows READY from now on. The buffer of 64 KiB holds
what the fabric has not taken. -/
def execMacReceiveFrame (k : BitVec 3) (bytes : List Byte) (ready : Bool) (s : State) : Res :=
  let n := k.toNat
  let f := macCheck bytes
  let held := (s.macQueue n).foldl (fun a x => a + x.2.2.length) 0
  .next (if !s.macUp n || decide (getF s Reg.OBS_FRZ_STATUS_STATE = 3) then s
    else
      let s := { s with macTake := SMap.set false s.macTake n ready }
      if 65536 < held + f.2.2.length then (bumpF s Reg.FAB_MAC_CNT_RX_DROP 1 n).macDeliver n
      else
        let s := if f.1 || f.2.1 then s.macErr n else s
        (s.setMacQueue n (s.macQueue n ++ [f])).macDeliver n)

/-- Every MAC sends and hands over what it holds. -/
def State.macTick (s : State) : State :=
  if s.macTx = [] ∧ s.macRx = [] then s else (List.range 8).foldl (fun (s : State) k => (s.macSend k).macDeliver k) s

/-! ### Bridge ports (R344) -/

/-- BRIDGE_TRANSMIT (R306, R315, R344): a message leaves as class 1 on a bridge link; `ctl` is TX_CTL. The control word of the tail is a free
value. -/
def execBridgeTransmit (d : BitVec 2) (ctl : DWord) (data : Line) (s : State) : Res :=
  let n := d.toNat
  .next (if s.fabricStopped || decide (s.proto n ≠ 3) || !s.lnkUp n then s
    else
      let m : LMsg := ⟨1, 0, 0, ⟨ctl, data, Config.bridgeTail s.draws⟩, none⟩
      (s.drawn.modLnk n (fun x => { x with queue := x.queue ++ [m] })).pump n)

/-! ### Hem ports: transmission (R333 to R335, R337) -/

/-- A stitch starts at hem port h and its number is all that the route word holds (R191, R333). -/
def State.hemStitch (s : State) (h route : Nat) : Bool := decide (bits route 31 10 = 0) && s.stitchFrom (route % 1024) 1 h

/-- The route word of a head is one that R191 accepts at this port. -/
def State.hemRouteOk (s : State) (h cls route : Nat) : Bool :=
  if cls = 0 then s.hemStitch h route else s.routeOk (hemRouter h) cls route

/-- The DLV of a head. -/
def State.hemDlv (s : State) (cls route : Nat) : Nat :=
  if cls = 0 then (match s.stitch (route % 1024) with
    | some st => st.dlv
    | none => 0)
  else bits route 18 17

/-- The credit of a head goes back. -/
def State.headBack (s : State) (d : HemHead) : State := if d.good ∧ d.cls = 0 ∧ d.paid then s.giveBack (d.route % 1024) else s

/-- What the port holds of a head that R333 discards goes; its credit goes back. -/
def State.dropHead (s : State) (h : Nat) : State :=
  match (s.hem h).head with
  | none => s
  | some d => (s.modHem h (fun x => { x with head := none })).headBack d

/-- Every message that the port has stored goes; the credits go back. -/
def State.dropTx (s : State) (h : Nat) : State :=
  (s.hem h).tx.foldl (fun (s : State) m => if m.1 ∧ m.2.h.cls = 0 then s.giveBack m.2.h.stitch else s)
    (s.modHem h (fun x => { x with tx := [] }))

/-- The port's buffer for a class has no room: four messages, those at the router's injection input among them (R333). -/
def State.hemFull (s : State) (h cls : Nat) : Bool :=
  decide (4 ≤ ((s.hem h).tx.filter (fun m => m.2.h.cls = cls)).length
    + (s.flights.filter (fun f => decide (f.origin = .hem h ∧ f.msg.h.cls = cls ∧ f.pos = hemRouter h ∧ f.via = 8))).length)

/-- A head beat is accepted: route check, then the charter's check of its DLV (R333, R335); `paid` says that the stitch has the credit. -/
def State.hemAccept (s : State) (h cls route tags : Nat) (data : BitVec 512) (paid : Bool) : State :=
  let hold (s : State) (good : Bool) : State := s.modHem h (fun x => { x with head := some ⟨cls, route, tags, data, good, paid⟩ })
  if ¬ s.hemRouteOk h cls route then hold (s.hemBadRoute h) false
  else if ¬ s.hemRight h (1 + s.hemDlv cls route) then
    hold (s.violation { master := idHem h, kind := 2, reason := 4, addr := route, tags := tags }) false
  else if cls = 0 ∧ s.hemDlv cls route = 0 ∧ paid then
    hold (setF s Reg.NET_ST_STATUS_CREDIT (getF s Reg.NET_ST_STATUS_CREDIT (route % 1024) - 1) (route % 1024)) true
  else hold s true

/-- A head beat is presented (R332, R333). In place of a tail it is taken as a head whatever the credit: the message then waits for one (DESIGN
CHOICE, DESIGN CHOICE, log entry 85). -/
def State.hemHeadBeat (s : State) (h cls route tags : Nat) (data : BitVec 512) : State :=
  if !s.hemAttached h || s.fuseFault then s.hemDrop h
  else if !s.hemRight h 0 then
    (s.violation { master := idHem h, kind := 2, reason := 3, addr := route, tags := tags }).hemDrop h
  else
    let replaced := (s.hem h).head.isSome
    let r := s.dropHead h
    let waits := decide (cls = 0) && r.hemStitch h route && !r.admits (route % 1024) (r.tile (hemRouter h)).ic
    if !replaced && (waits || s.hemFull h cls) then s
    else
      let r := if replaced then setF r Reg.FAB_HEM_STATUS_PROTO 1 h else r
      r.hemAccept h cls route tags data (!waits)

/-- The message of a held head and its tail (R333). -/
def State.hemMsg (s : State) (h : Nat) (d : HemHead) (tail : BitVec 512) : Msg :=
  let hdr := if d.cls = 0 then ({ cls := 0, stitch := d.route % 1024 } : Hdr).toWord else (s.routeHdr (hemRouter h) d.cls d.route).toWord
  ⟨hdr, tail ++ d.data, trailer (bits d.tags 15 0) (bits d.tags 31 16) 0⟩

/-- A tail beat: the message is stored and leaves as soon as it can (R334, R337); a port that has left service discards it (R332). -/
def State.hemTailBeat (s : State) (h : Nat) (data : BitVec 512) : State :=
  match (s.hem h).head with
  | none => s
  | some d =>
    let m := s.hemMsg h d data
    if ¬ d.good then s.modHem h (fun x => { x with head := none })
    else if ¬ s.hemUp h then (s.dropHead h).hemDrop h
    else (s.modHem h (fun x => { x with head := none, tx := x.tx ++ [(d.paid, m)] })).pumpHem h

/-- HEM_TRANSMIT (R333 to R335, R337, R362): a beat is presented with TX_VALID = 1; where the port answers TX_READY = 0 nothing happens. -/
def execHemTransmit (h : Byte) (head : Bool) (cls : BitVec 2) (route tags : Word) (data : BitVec 512) (s : State) : Res :=
  let n := h.toNat
  .next (if 192 ≤ n ∨ s.fabricStopped ∨ s.frozenMaster (idHem n) then s
    else if head then
      if s.engaged (hemPatch n) ∨ s.tileFrozen (hemRouter n) then s
      else s.hemHeadBeat n cls.toNat route.toNat tags.toNat data
    else s.hemTailBeat n data)

/-- HEM_TAIL_TIMEOUT (R362): while a swap or a full load waits for the port, a head whose tail has not come is discarded. -/
def execHemTailTimeout (h : Byte) (s : State) : Res :=
  let n := h.toNat
  .next (if n < 192 ∧ s.patchHeld (hemPatch n) ∧ (s.hem n).head.isSome ∧ ¬ s.arrayFrozen then
      setF (s.dropHead n) Reg.FAB_HEM_STATUS_PROTO 1 n
    else s)

/-! ### Hem ports: reception (R336) -/

/-- The class whose turn it is (R193 step 2), and the port after it: classes 1 and 3 count the turns they lose. -/
def Hem.turn (x : Hem) : Option (Nat × Hem) :=
  let r1 := decide (x.rx1 ≠ [])
  let r2 := decide (x.rx2 ≠ [])
  let r3 := decide (x.rx3 ≠ [])
  let pick : Option Nat :=
    if x.rx0 ≠ [] then some 0
    else if r1 && decide (3 ≤ x.lost1) then some 1
    else if r3 && decide (63 ≤ x.lost3) then some 3
    else if r2 then some 2
    else if r1 then some 1
    else if r3 then some 3
    else none
  pick.map (fun c => (c, { x with
    lost1 := if c = 1 then 0 else if r1 then satAdd 3 x.lost1 1 else x.lost1
    lost3 := if c = 3 then 0 else if r3 then satAdd 63 x.lost3 1 else x.lost3 }))

/-- A message leaves the port's queue toward the fabric: its two beats. -/
def State.hemPresent (s : State) (h : Nat) (m : Msg) : State :=
  let a := m.flit false
  let b := m.flit true
  (s.emit .hemBeat [h, 1, a.1.toNat] (leBytes 64 a.2.toNat)).emit .hemBeat [h, 0, b.1.toNat] (leBytes 64 b.2.toNat)

/-- A class 0 credit is on its way back once the tail beat is taken (R200, R336). -/
def State.hemCredit (s : State) (m : Msg) : State :=
  match s.stitch m.h.stitch with
  | some st => if st.dlv = 0 then s.setStitch m.h.stitch (some { st with returning := st.returning + 1 }) else s
  | none => s

/-- HEM_RECEIVE (R193, R336): the next message is presented, and the fabric takes it. -/
def execHemReceive (h : Byte) (s : State) : Res :=
  let n := h.toNat
  .next (if 192 ≤ n ∨ s.fabricStopped ∨ s.engaged (hemPatch n) ∨ s.tileFrozen (hemRouter n) ∨ ¬ s.hemUp n then s
    else match (s.hem n).turn with
      | none => s
      | some (c, x) => match x.rx c with
        | [] => s
        | m :: q =>
          let s := (s.setHem n (x.setRx c q)).hemPresent n m
          if c = 0 then s.hemCredit m else s)

/-- HEM_ENABLE (R332, R348): the host writes FAB_HEM_CFG_h; EN written 0 discards what the port holds to send. -/
def execHemEnable (h : Byte) (val : Word) (s : State) : Res :=
  let n := h.toNat
  .next (if 192 ≤ n then s
    else s.hostWrite Reg.FAB_HEM_CFG_EN n 0 (fun s =>
      let on := bitAt val.toNat 0
      let held := (s.hem n).tx.length + bit (s.hem n).head.isSome
      let s := setF s Reg.FAB_HEM_CFG_CAP (bits val.toNat 7 5) n
      let s := if !on && decide (held ≠ 0) then ((s.dropHead n).dropTx n).hemDrop n held else s
      setF s Reg.FAB_HEM_CFG_EN (bit on) n))

/-! ### Memory ports (R338 to R342) -/

/-- REQ_READY for a request with a tag (R339, R342). -/
def State.mpReady (s : State) (p tag : Nat) : Bool :=
  flag s Reg.FAB_MP_CFG_EN p && !s.fabricStopped && !s.patchHeld (mpPatch p) && !s.frozenMaster (idPort p)
    && decide ((s.mp p).reqs.length < getF s Reg.FAB_MP_CFG_LIMIT_M1 p + 1) && !((s.mp p).reqs.any (fun r => r.tag = tag))

/-- MP_REQUEST (R339): `len` is beats - 1, `id` the tag. Checked whole: the charter, the 4 KiB rule, the address rules. -/
def execMpRequest (p : BitVec 3) (write : Bool) (addr : HbmAddr) (len : BitVec 5) (id : Byte) (s : State) : Res :=
  let n := p.toNat
  let a := addr.toNat / 64 * 64
  let beats := len.toNat + 1
  let hi := a + 64 * beats - 1
  let take (s : State) (status : Nat) : State := s.setMp n ⟨(s.mp n).reqs ++ [⟨write, a, len.toNat, id.toNat, status, beats⟩]⟩
  .next (if !s.mpReady n id.toNat then s
    else if !s.hbmGranted (idPort n) write a hi then
      take (s.violation { master := idPort n, kind := bit write, reason := 1, addr := a, len := 64 * beats }) 3
    else if a / 4096 ≠ hi / 4096 then take ((setF s Reg.FAB_MP_STATUS_PROTO 1 n).mpAddr n) 2
    else if s.hbmRefused (idPort n) a hi then take ((setF s Reg.FAB_MP_STATUS_ADDR 1 n).mpAddr n) 2
    else take s 0)

/-- The oldest request that satisfies `c`, with its place. -/
def MpSt.first (x : MpSt) (c : MpReq → Bool) : Option (Nat × MpReq) := (x.reqs.findIdx? c).bind (fun i => (x.reqs[i]?).map (fun r => (i, r)))

/-- MP_WRITE_DATA (R340, R348): the next beat of the oldest write that awaits data. -/
def execMpWriteData (p : BitVec 3) (bytes : List Byte) (s : State) : Res :=
  let n := p.toNat
  .next (if s.arrayFrozen then s
    else match (s.mp n).first (fun r => r.write && decide (r.left ≠ 0)) with
      | none => s
      | some (i, r) =>
        if r.status ≠ 0 then s.setReq n i r.next
        else if s.hbmRefused (idPort n) r.at_ (r.at_ + 63) then (s.mpRefuse n).setReq n i { r.next with status := 2 }
        else if s.hbmBusy r.at_ 64 then s
        else (s.hbmWrite r.at_ ((bytes ++ List.replicate 64 0).take 64)).setReq n i r.next)

/-- A response beat: port, tag, RSP_WR, RSP_BEAT, RSP_STATUS, data. -/
def State.mpAnswer (s : State) (p : Nat) (r : MpReq) (status : Nat) (data : List Byte) : State :=
  s.emit .mpResponse [p, r.tag, bit r.write, if r.write then 0 else r.beat, status] data

/-- Request i after a beat has gone; it ends with its last one. -/
def State.mpBeatGone (s : State) (p i : Nat) (r : MpReq) : State :=
  if r.left ≤ 1 then s.setMp p ⟨(s.mp p).reqs.eraseIdx i⟩ else s.setReq p i r.next

/-- MP_READ_RESPONSE (R341): the next beat of the oldest read; `poison` says that its data met an uncorrectable error twice (R288). -/
def execMpReadResponse (p : BitVec 3) (poison : Bool) (s : State) : Res :=
  let n := p.toNat
  let zero : List Byte := List.replicate 64 0
  .next (if s.arrayFrozen then s
    else match (s.mp n).first (fun r => !r.write) with
      | none => s
      | some (i, r) =>
        if r.status ≠ 0 then (s.mpAnswer n r r.status zero).mpBeatGone n i r
        else if s.hbmRefused (idPort n) r.at_ (r.at_ + 63) then
          let s := s.mpRefuse n
          (s.mpAnswer n r 2 zero).mpBeatGone n i { r with status := 2 }
        else if s.hbmBusy r.at_ 64 then s.hbmLate (idPort n) r.at_ 64
        else
          let g := (s.hbmPlace r.at_).1
          let q := (s.hbmTaken (idPort n) r.at_).hbmRead r.at_ 64
          let s := if poison then (q.1.hbmUncorr (sectCtl g)).sectDue [g] else q.1
          if poison || q.2.2 then
            let s := bumpF (setF s Reg.FAB_MP_STATUS_POISON 1 n) Reg.FAB_MP_CNT_POISON 1 n
            (s.mpAnswer n r 1 q.2.1).mpBeatGone n i r
          else (s.mpAnswer n r 0 q.2.1).mpBeatGone n i r)

/-- MP_WRITE_RESPONSE (R341): one beat, once every unit of the oldest complete write has been accepted. -/
def execMpWriteResponse (p : BitVec 3) (s : State) : Res :=
  let n := p.toNat
  .next (if s.arrayFrozen then s
    else match (s.mp n).first (fun r => r.write && decide (r.left = 0)) with
      | none => s
      | some (i, r) => (s.mpAnswer n r r.status []).setMp n ⟨(s.mp n).reqs.eraseIdx i⟩)

/-- FAB_MP_STATUS.STATE (R339, R342). -/
def State.mpState (s : State) (p : Nat) : Nat :=
  if ¬ flag s Reg.FAB_MP_CFG_EN p then 0
  else if s.frozenMaster (idPort p) then 2
  else if s.patchHeld (mpPatch p) then 3
  else 1

/-! ### Reset trees, probes, pin supply -/

/-- GLOBAL_RESET_ASSERT (R330): a tree whose bit goes to 0 stays asserted until its release clock. -/
def execGlobalResetAssert (val : Word) (s : State) : Res :=
  .next (s.hostWrite Reg.FAB_RST_ASSERT 0 0 (fun s => setF s.latchResets Reg.FAB_RST_ASSERT val.toNat))

/-- Pin i of bank b is one that the image declares spare. -/
def State.sparePin (s : State) (b i : Nat) : Bool := decide (i < 40) && decide (s.declared (pinPatch b i) (256 + 40 * b + i) % 2 = 1)

/-- Another channel of the bank drives the pin. -/
def State.pinDriven (s : State) (b c i : Nat) : Bool :=
  (List.range 4).any (fun k => decide (k ≠ c) && flag s Reg.FAB_PROBE_EN b k && decide (getF s Reg.FAB_PROBE_PIN b k = i))

/-- A probe starts or stops driving its pin, or goes on with another net (R349): the bank, the pin, and what the pin now does: 0 high impedance, 1
driven to 0, 2 driven to 1. -/
def State.showPin (s : State) (b i : Nat) : State :=
  s.emit .pin [pinUSER, b, i, match s.pinState b i with
    | .hiZ _ => 0
    | .drive v _ _ => 1 + bit v]

/-- PROBE_ENABLE (R349): the host writes FAB_PROBE_b_c. -/
def execProbeEnable (bank : BitVec 3) (chan : BitVec 2) (val : Word) (s : State) : Res :=
  let b := bank.toNat
  let c := chan.toNat
  let v := val.toNat
  let pin := bits v 17 12
  .next (s.hostWrite Reg.FAB_PROBE_EN b c (fun s =>
    if bitAt v 18 && (!s.sparePin b pin || s.pinDriven b c pin) then s.discard (Reg.FAB_PROBE_EN.addr b c) v
    else
      let old := getF s Reg.FAB_PROBE_PIN b c
      let was := flag s Reg.FAB_PROBE_EN b c
      let s := setF (setF (setF s Reg.FAB_PROBE_SEL (bits v 11 0) b c) Reg.FAB_PROBE_PIN pin b c) Reg.FAB_PROBE_EN (bit (bitAt v 18)) b c
      let s := if was && (decide (old ≠ pin) || !bitAt v 18) then s.showPin b old else s
      if bitAt v 18 then s.showPin b pin else s))

/-- VCCIO_CHANGE (R347): the bank's supply is now `mv`, 0 when it is absent. -/
def execVccioChange (bank : BitVec 3) (mv : Nat) (s : State) : Res :=
  .next ({ s with vccio := SMap.set 0 s.vccio bank.toNat mv }.showMismatch bank.toNat)

end Sys2Proof.Machine
end

