-- ==== Sys2Proof/Machine/Capture.lean ====
section
/-! DEFINITION. Captured state: the image of a stopped unit (R438 to R440). What the spec lists without a full layout is a free value. -/

namespace Sys2Proof.Machine

/-- A unit: kind and index of OBS_CAP_SEL. -/
structure CapUnit where
  kind : Nat
  index : Nat
  deriving DecidableEq, Repr

/-- The selected unit's island is stopped (R436, R439). A reserved kind and an index without a unit select nothing. -/
def State.capStopped (s : State) (u : CapUnit) : Bool :=
  match u.kind with
  | 0 => decide (u.index < 2048) && s.tileFrozen u.index
  | 1 => decide (u.index < 2048) && s.tileFrozen u.index
  | 2 => decide (u.index < 16) && s.panelFrozen u.index
  | 3 => decide (u.index < 9) && s.arrayFrozen
  | 4 => decide (u.index < 256) && (decide (getF s Reg.OBS_FRZ_STATUS_STATE = 3) || s.shutdown)
  | 5 => decide (u.index < 4) && (decide (getF s Reg.OBS_FRZ_STATUS_STATE = 3) || s.shutdown)
  | 6 => decide (u.index ≤ 48) && s.arrayFrozen
  | _ => false

/-- What tells one freeze of a unit from another. -/
def State.capStamp (s : State) (u : CapUnit) : List Nat :=
  let p := if u.kind < 2 then s.panelOf u.index else if u.kind = 2 then some u.index else none
  [u.kind, u.index, getF s Reg.OBS_FRZ_STATUS_COUNT, (p.map (fun n => (s.panel n).stamp)).getD 0, if u.kind < 2 then (s.tile u.index).ic else 0]

/-- A byte of a number laid out lowest byte first. -/
def byteOf (v i : Nat) : Byte := BitVec.ofNat 8 (v / 2 ^ (8 * i))

/-- The 32-bit registers in the order of R439. -/
def Tile.capReg (x : Tile) (k : Nat) : Word :=
  if k < 32 then x.gen k else if k < 32 + 0x23 then x.sprv (k - 32) else if k = 67 then x.pc.setWidth 32 else 0

/-- Rows that the running back-bank operation has done after `k` ic of port time (R49, R50). -/
def BBOp.rowsDone (op : BBOp) (k : Nat) : Nat :=
  match op with
  | .drainRaw _ _ _ => k / 4
  | .loadRaw _ _ _ _ => k / 4
  | _ => k

/-- An entry of a tile's list (R440): STRUCT, two words, and PORT and SLOT, to which the spec gives no meaning here; none: a byte that no layout
gives. -/
def capEntry (struct : Nat) (w : DWord) (n : Nat) : List (Option Byte) :=
  [some (BitVec.ofNat 8 struct), none, none, none, some 2, some 0, some 0, some 0]
    ++ (leBytes 8 w.toNat).map some ++ (leBytes 8 n).map some

/-- The entry list of a tile (R440): issued instructions, the stream queue, the back-bank queue; the bits of skew registers, broadcast paths and
tree stages follow while there are any. -/
def Tile.capEntries (x : Tile) : List (Option Byte) :=
  let issued := (x.pipe.map (fun e => (e.word, e.left))).eraseDups
  let streams := (x.streams.filter (fun st => st.busyAt x.ic)) ++ x.waiting
  let bank := (x.bbRun.map (fun r => r.1.rowsDone r.2)).toList ++ x.bbWait.map (fun _ => 0)
  issued.flatMap (fun e => capEntry 1 e.1 e.2)
    ++ streams.flatMap (fun st => capEntry 2 ((encodeTile (if st.fold then .mfold 0 st.ops else .mstream 0 st.ops)).getD 0)
        (match st.first with
          | some f => min st.planeIc (x.ic - f)
          | none => 0))
    ++ (x.bbWords.zip bank).flatMap (fun e => capEntry 3 e.1 e.2)

/-- A byte of a tile's image; `free` is the byte that no layout gives. -/
def Tile.capByte (x : Tile) (o : Nat) (free : Byte) : Byte :=
  if o < 0x200000 then SMap.get 0 x.lining o
  else if o < 0x220000 then SMap.get 0 x.os (o - 0x200000)
  else if o < 0x228000 then byteOf (SMap.get 0 x.pmem ((o - 0x220000) / 8)).toNat (o % 8)
  else if o < 0x230000 then
    let k := (o - 0x228000) / 16
    byteOf (if k < 1024 then SMap.get emptyRec x.bank0 k else SMap.get emptyRec x.bank1 (k - 1024)).toBits.toNat (o % 16)
  else if o < 0x230400 then byteOf (x.capReg ((o - 0x230000) / 4)).toNat (o % 4)
  else if o < 0x230C00 then byteOf (x.vec ((o - 0x230400) / 128)).toNat (o % 128)
  else if o < 0x231000 then
    match x.capEntries[o - 0x230C00]? with
    | some b => b.getD free
    | none => if x.streams.any (fun st => st.busyAt x.ic) || !x.tree.isEmpty then free else 0
  else if o < 0x232000 then
    let t := o - 0x231000
    match x.trace[t / 16]? with
    | some r => byteOf r.toNat (t % 16)
    | none => 0
  else if o < 0x236000 then
    let c := (o - 0x232000) / 16
    let r := x.blockSumReg (c / 32) (c % 32)
    if o % 16 < 10 then (match r.1 with
      | some v => byteOf v.toNat (o % 16)
      | none => free)
    else if r.2 then free else 0
  else 0

/-- The frames of a region, in ascending FA: logic frames, then RAM frames. -/
def regionFrame (r k : Nat) : Option Nat :=
  if r = staticRegion then (if k < 16384 then some (98304 + k) else none)
  else if k < 2048 then some (2048 * r + k)
  else if k < 2048 + 864 then some (2 ^ 17 + 864 * r + (k - 2048))
  else none

/-- A byte of the image of a unit; of a sleeping tile, only the units that stay powered hold anything (R249). -/
def State.capByte (s : State) (u : CapUnit) (o : Nat) : Byte :=
  let free := Config.captured (s.capStamp u) o
  match u.kind with
  | 0 => if s.tileAsleep u.index ∧ ¬ (o < 0x200000 ∨ (0x231000 ≤ o ∧ o < 0x232000)) then 0 else (s.tile u.index).capByte o free
  | 6 => match regionFrame u.index (o / 512) with
    | some fa => byteOf (s.frame fa).data.toNat (o % 512)
    | none => free
  | _ => free

/-- `n` bytes of a unit's image, none while its island runs. -/
def State.capBytes (s : State) (u : CapUnit) (o n : Nat) : Option (List Byte) :=
  if s.capStopped u then some ((List.range n).map (fun i => s.capByte u (o + i))) else none

end Sys2Proof.Machine
end

