-- ==== Sys2Proof/Machine/Mover.lean ====
section
/-! DEFINITION. Commands of the mover channels (R253 to R274). -/

namespace Sys2Proof.Machine

/-! ### Descriptors -/

/-- The queue entry of a descriptor's `move`. -/
def State.moveCmd (s : State) (m : Option MoveRef) : Option (MoveRef × QCmd) :=
  match m with
  | none => none
  | some r => (((s.panel r.panel).queue r.queue).find? (fun c => decide (c.ord = r.ord))).map (fun c => (r, c))

/-- The charter refuses the current descriptor: the channel is frozen and the `move` is refused with cause 8 (R261, R405). -/
def State.refuseDesc (s : State) (k n : Nat) (d : Desc) (why : Nat × Bool × Int × Int) : State :=
  let s := s.violation { master := idMover k, kind := bit why.2.1, reason := why.1, addr := why.2.2.1.toNat,
                         len := (why.2.2.2 - why.2.2.1 + 1).toNat, seq := d.seq, tags := d.layer + d.oper * 65536 }
  let s := match s.moveCmd d.move with
    | some (r, c) => s.refuseCmd r.panel r.queue c 8 0
    | none => s
  ((s.endDesc k n 6).modChan k n (fun c => { c with charter := true })).setChanState k n 6

/-- The channel takes its next descriptor and checks it whole (R259 to R261). -/
def State.startDesc (s : State) (k n : Nat) : State :=
  match (s.chan k n).waiting with
  | [] => s
  | d :: r =>
    let s := s.modChan k n (fun c => { c with waiting := r, cur := some d, done := 0, errSeen := false }.rewind)
    let s := setF (setF (setF s Reg.MOV_CH_STATUS_BLOCKS 0 k n) Reg.MOV_CH_STATUS_DERR 0 k n) Reg.MOV_CH_STATUS_ERR_SEEN 0 k n
    match s.derr k d with
    | 0 =>
      let s := s.setCursor k n d 0
      if d.total = 0 then s.endDesc k n 1
      else
        let why := s.descRefused k d
        if why.1 ≠ 0 then s.refuseDesc k n d why else (s.setChanState k n 1).askHost k n
    | e => ((setF (s.setCursor k n d 0) Reg.MOV_CH_STATUS_DERR e k n).logErr 4 (idMover k) (Reg.MOV_CH_STATUS_STATE.addr k n) e).endDesc k n 2

/-- DESCRIPTOR_START (R253, R260): an idle channel takes its next descriptor. -/
def execDescriptorStart (k : Fin 9) (n : BitVec 6) (s : State) : Res :=
  .next (if s.chanState k n.toNat ≠ 0 ∨ s.chanHeld k n.toNat then s else s.startDesc k n.toNat)

/-! ### Delivery blocks (R264, R265) -/

/-- BLOCK_ANNOUNCE (R253, R264, R265): the cluster's engines work on the channel's next delivery block, which is announced once it is written;
the last one completes the descriptor. -/
def execBlockAnnounce (k : Fin 9) (n : BitVec 6) (s : State) : Res :=
  let c := n.toNat
  .next (match (s.chan k c).cur with
    | none => s
    | some d =>
      let s := State.engines k c d 16384 (s.farData k c)
      if !s.chanGoes k c then s.settleChan k c
      else
        let r := s.announceIf k c d
        if r.2 then (if (r.1.chan k c).done = d.total then r.1.endDesc k c 1 else r.1.askHost k c) else r.1)

/-! ### Errors (R267 to R270) -/

/-- BUS_ERROR (R267): the access at `addr` failed. -/
def execBusError (k : Fin 9) (n : BitVec 6) (addr : DWord) (s : State) : Res := .next (s.chanBusError k n.toNat addr.toNat)

/-- The first burst of a channel that waits for the host. -/
def Chan.hostWait (c : Chan) : Option (Nat × Burst) :=
  (c.buf.findIdx? (fun b => decide (spaceOf b.addr = 3 ∧ b.raw.length < b.len))).bind (fun i => (c.buf[i]?).map (fun b => (i, b)))

/-- Host data on page `pg` that a burst still waits for. -/
def Burst.onPage (b : Burst) (pg : Nat) : Bool :=
  decide (spaceOf b.addr = 3 ∧ b.raw.length < b.len) && decide ((b.addr + b.raw.length) % 2 ^ 57 / 4096 ≤ pg ∧ pg ≤ (b.addr + b.len - 1) % 2 ^ 57 / 4096)

/-- The host access of a descriptor to page `pg` that has still to be translated: a read in flight, or a write of the block at hand. -/
def Chan.needs (c : Chan) (d : Desc) (pg : Nat) : Bool :=
  c.buf.any (fun b => b.onPage pg)
    || (decide (spaceOf d.dst = 3) && (d.pieces c.wr (c.done + d.blockLen c.done - c.wr)).any (fun p =>
        decide ((d.runDst p.1 + p.2.1) % 2 ^ 57 / 4096 ≤ pg ∧ pg ≤ (d.runDst p.1 + p.2.1 + p.2.2 - 1) % 2 ^ 57 / 4096)))

/-- TRANSLATION_FAULT (R270, R384, R386): the page of host memory at `n.addr` has no translation. Reads that it stops bring nothing; once the
others are complete, a page request is sent, or the descriptor fails. -/
def execTranslationFault (n : PageFault) (s : State) : Res :=
  let c := n.chan.toNat
  let a := 3 * 2 ^ 60 + n.addr.toNat % 2 ^ 57
  .next (match (s.chan 8 c).cur with
    | none => s
    | some d =>
      if s.chanState 8 c ≠ 1 ∨ s.arrayFrozen ∨ ¬ s.atsEn ∨ ¬ (s.chan 8 c).needs d (a % 2 ^ 57 / 4096) then s
      else (s.modChan 8 c (fun x => { x with buf := x.buf.filter (fun b => !b.onPage (a % 2 ^ 57 / 4096)) })).stopDesc 8 c 4 a)

/-- A page response reaches channel n: acted on, or recorded until the thaw (R270, R273). -/
def State.respond (s : State) (n code : Nat) : State :=
  if s.chanState 8 n ≠ 4 then s
  else if s.chanHeld 8 n then s.modChan 8 n (fun x => { x with response := x.response.or (some code) })
  else s.pageRespond 8 n code

/-- PAGE_RESPONSE (R270, R386): code 0 Success, 1 Invalid Request, 15 Response Failure, after which no page request is sent. -/
def execPageResponse (n : BitVec 6) (code : BitVec 4) (s : State) : Res :=
  .next ((if code = 15 then { s with priStopped := true } else s).respond n.toNat code.toNat)

/-- PRI_TIMEOUT (R270): no response within PRI_TMO counts as Invalid Request. -/
def execPriTimeout (n : BitVec 6) (s : State) : Res := .next (s.respond n.toNat 1)

/-! ### Control (R269, R271, R273, R274) -/

/-- CHANNEL_ABORT (R271). -/
def execChannelAbort (k : Fin 9) (n : BitVec 6) (s : State) : Res :=
  .next (s.hostWrite Reg.MOV_CH_CTRL_ABORT k n.toNat (fun s => s.startAbort k n.toNat))

/-- ABORT_COMPLETE (R271): the bursts in flight have completed. -/
def execAbortComplete (k : Fin 9) (n : BitVec 6) (s : State) : Res :=
  .next (if s.arrayFrozen then s else s.finishAbort k n.toNat)

/-- CHANNEL_RETRY (R269, R273): a halted descriptor resumes from its cursor; with SKIP in the same write nothing happens, and it is recorded. -/
def execChannelRetry (k : Fin 9) (n : BitVec 6) (skipToo : Bool) (s : State) : Res :=
  let c := n.toNat
  .next (s.hostWrite Reg.MOV_CH_CTRL_RETRY k c (fun s =>
    if skipToo then s.discard (Reg.MOV_CH_CTRL_RETRY.addr k c) 6
    else if s.chanState k c = 2 ∧ ¬ s.chanHeld k c then
      ((s.modChan k c (fun x => { x with held := 0 })).setChanState k c 1).askHost k c
    else s))

/-- CHANNEL_SKIP (R269): a halted descriptor ends with its recorded status. -/
def execChannelSkip (k : Fin 9) (n : BitVec 6) (s : State) : Res :=
  let c := n.toNat
  .next (s.hostWrite Reg.MOV_CH_CTRL_SKIP k c (fun s => if s.chanState k c = 2 ∧ ¬ s.chanHeld k c then s.endDesc k c (s.chan k c).held else s))

/-- A write of MOV_CH_POST_n is taken (R274). -/
def State.postTaken (s : State) (k n : Nat) : Bool := flag s Reg.MOV_CH_CFG_DIRECT k n && !flag s Reg.MOV_CH_CFG_BOUND k n

/-- The write of word 15 posts a descriptor of the words held (R274). -/
def State.directPost (s : State) (k c val : Nat) : State :=
  if ¬ s.postTaken k c ∨ 16 ≤ (s.chan k c).waiting.length then s.discard (Reg.MOV_CH_POST_DESC.addr k (16 * c + 15)) val
  else s.modChan k c (fun x =>
    let post := SMap.set 0 x.post 15 val
    let bs := (List.range 16).flatMap (fun i => leBytes 4 (SMap.get 0 post i))
    { x with post := post, waiting := x.waiting ++ [⟨bs, 0, 0, 0, none⟩] })

/-- DIRECT_POST (R274): the write of word 15 posts a descriptor of the words held. -/
def execDirectPost (k : Fin 9) (n : BitVec 6) (val : Word) (s : State) : Res :=
  .next (s.hostWrite Reg.MOV_CH_POST_DESC k (16 * n.toNat + 15) (fun s => s.directPost k n.toNat val.toNat))

/-! ### Host memory (R383) -/

/-- The burst that waits for the host is lost: a bus error at the first byte that has not come. -/
def State.hostLost (s : State) (c i : Nat) (b : Burst) : State :=
  (s.modChan 8 c (fun x => { x with buf := x.buf.eraseIdx i })).chanBusError 8 c (b.addr + b.raw.length)

/-- HOST_COMPLETION (R383): a completion for the oldest read of channel n brings data, or an error status, which is a bus error. A completion
that nothing waits for is an uncorrectable error. -/
def execHostCompletion (n : BitVec 6) (status : BitVec 3) (bytes : List Byte) (s : State) : Res :=
  let c := n.toNat
  .next (if !s.pcieUp then s
    else match (s.chan 8 c).hostWait with
      | none => s.aerUncorr aerUnexpected
      | some (i, b) =>
        if status = 0 then
          ((s.cachePage (b.addr + b.raw.length)).modChan 8 c (fun x => { x with buf := x.buf.modify i (fun b =>
            { b with raw := b.raw ++ bytes.take (b.len - b.raw.length) }) })).settleChan 8 c
        else (s.hostLost c i b).settleChan 8 c)

/-- COMPLETION_TIMEOUT (R383): no completion in time: an uncorrectable error, and a bus error of the descriptor. -/
def execCompletionTimeout (n : BitVec 6) (s : State) : Res :=
  let c := n.toNat
  .next (match (s.chan 8 c).hostWait with
    | none => s
    | some (i, b) => ((s.aerUncorr aerTimeout).hostLost c i b).settleChan 8 c)

end Sys2Proof.Machine
end

