-- ==== Sys2Proof/Machine/HostReg.lean ====
section
/-! DEFINITION. Host accesses to BAR0 (R7 to R13, R35 to R37, R374, R377): registers by their access codes, fields wider than 32 bits (R8),
unassigned offsets (R9), and the indirect windows (R379, R420, R430, R439). -/

namespace Sys2Proof.Machine

/-! ### What a read of a field that shows other state returns -/

/-- TIL_STATUS.STATE: 6 overrides every code, and 5 codes 0 to 4. -/
def State.tilState (s : State) (t : Nat) : Nat :=
  let x := s.tile t
  if x.retired then 6
  else if s.tileFrozen t then 5
  else if flag s Reg.TIL_CTRL_RESET t then 4
  else match x.run with
    | .faulted => 3
    | .idle => 0
    | _ => if x.inHandler then 2 else 1

/-- Fields of a tile that show its own state. -/
def State.tileField (s : State) (f : Fld) (t : Nat) : Option Nat :=
  let x := s.tile t
  if f = Reg.TIL_STATUS_STATE then some (s.tilState t)
  else if f = Reg.TIL_STATUS_IE then some (bit (flagIE x.flags))
  else if f = Reg.TIL_STATUS_DEPTH then some x.depth
  else if f = Reg.TIL_STATUS_PC then some x.pc.toNat
  else if f = Reg.TIL_IRQ_PEND then some (x.sprv sprIPEND).toNat
  else if f = Reg.TIL_IRQ_IVEC then some (x.sprv sprIVEC).toNat
  else if f = Reg.TIL_MAT_STATUS_BUSY then some (bit x.matBusy)
  else if f = Reg.TIL_MAT_STATUS_BANK then some (bit x.front)
  else if f = Reg.TIL_MAT_STATUS_STREAM_WAIT then some (bit (!x.waiting.isEmpty))
  else if f = Reg.TIL_FLOW_STATUS_CHAIN_WAIT then some (bit (s.chainWaits t))
  else if f = Reg.TIL_FLOW_STATUS_BAR_PEND then some x.barPend
  else if f = Reg.TIL_NET_STATUS_Q0 then some x.q0.length
  else if f = Reg.TIL_NET_STATUS_Q1 then some x.q1.length
  else if f = Reg.TIL_NET_STATUS_Q2 then some x.q2.length
  else if f = Reg.TIL_NET_STATUS_Q3 then some x.q3.length
  else none

/-- NET_LINK_STATE shows the link that NET_LINK_SEL names. -/
def State.selLink (s : State) : Nat × Nat := (getF s Reg.NET_LINK_SEL_TILE, getF s Reg.NET_LINK_SEL_PORT)

def State.netField (s : State) (f : Fld) : Option Nat :=
  let l := s.link s.selLink.1 s.selLink.2
  if f = Reg.NET_LINK_STATE_STATE then
    some (if (linkTo s.selLink.1 s.selLink.2).isNone then 1 else if l.retired then 2 else if l.forced then 3 else 0)
  else if f = Reg.NET_LINK_STATE_RSV then some (bit l.rsv.isSome)
  else if f = Reg.NET_LINK_STATE_STITCH then some (l.rsv.getD 0)
  else if f = Reg.NET_LINK_STATE_EVENTS then some l.events
  else if f = Reg.NET_LINK_FORCE_OFF then some (bit l.forced)
  else none

/-- The bits of the network ports of cluster k in service. -/
def State.portsUp (s : State) (k : Nat) : Nat :=
  (List.range 8).foldl (fun n p => if (s.tile (moverRouter k p)).routerRetired then n else n + 2 ^ p) 0

/-- MOV_CH_STATUS.STATE as it reads: 5 while the panel's freeze holds the channel. -/
def State.stateShown (s : State) (k n : Nat) : Nat :=
  if flag s Reg.MOV_CH_CFG_BOUND k n ∧ s.panelState (getF s Reg.MOV_CH_CFG_PANEL k n) = 2 ∧ s.chanState k n ≠ 6 then 5 else s.chanState k n

def State.movField (s : State) (f : Fld) (k n : Nat) : Option Nat :=
  if f = Reg.MOV_CL_STATUS_PORT_UP then some (s.portsUp k)
  else if f = Reg.MOV_CL_STATUS_BUF_FREE then some (s.pool k - s.borrowed k)
  else if f = Reg.MOV_CH_STATUS_QDEPTH then some (s.chan k n).waiting.length
  else if f = Reg.MOV_CH_STATUS_STATE then some (s.stateShown k n)
  else none

/-- The key of a pin setting under HBM_TRN_CTRL and HBM_TRN_DLY of a stack (R295). -/
def State.dlyKey (s : State) (k : Nat) : Nat :=
  s.trnChan k * 1024 + getF s Reg.HBM_TRN_CTRL_PC k * 512 + getF s Reg.HBM_TRN_DLY_SIDE k * 256 + getF s Reg.HBM_TRN_DLY_PIN k

/-- Delay and reference in force at a pin: what the host wrote, or what the last training made (a free value). -/
def State.pinNow (s : State) (key : Nat) : Nat × Nat :=
  let n := SMap.get 0 s.hbm.trained (key / 1024)
  let t := Config.pinSetting n key
  SMap.get (if n = 0 then (0, 0) else (t.1.toNat, t.2.toNat)) s.hbm.pins key

/-- The value that field (i, j) shows. -/
def State.shown (s : State) (x : FldAt) : Nat :=
  let f := x.fld
  let other : Option Nat :=
    match f.cls with
    | 11 => s.tileField f x.i
    | 5 => s.netField f
    | 6 => s.movField f x.i x.j
    | 4 =>
      if f = Reg.CMD_QLIMIT_OUT then some (outstanding ((s.panel x.i).queue (x.j + 1)))
      else if f = Reg.CMD_QLIMIT_WAITING then some (bit (((s.panel x.i).queue (x.j + 1)).any (fun c => decide (c.op = 5) && c.issued)))
      else if f = Reg.CMD_QMARK_DEPTH then some ((s.panel x.i).queue x.j).length
      else none
    | 9 =>
      if f = Reg.FAB_HEM_STATUS_STATE then some (s.hemState x.i)
      else if f = Reg.FAB_MP_STATUS_STATE then some (s.mpState x.i)
      else if f = Reg.FAB_MP_STATUS_OUT then some (s.mp x.i).reqs.length
      else none
    | 7 =>
      if f = Reg.HBM_TRN_DLY_DELAY then some (s.pinNow (s.dlyKey x.i)).1
      else if f = Reg.HBM_TRN_DLY_VREF then some (s.pinNow (s.dlyKey x.i)).2
      else none
    | 0 =>
      if f = Reg.MGT_SERIAL_LO_VALUE then some (s.fuse 4)
      else if f = Reg.MGT_SERIAL_HI_VALUE then some (s.fuse 4 / 2 ^ 32)
      else if f = Reg.MGT_BB_HEAD_PENDING then some s.bbPending
      else none
    | _ => none
  (match other with
    | some v => v
    | none => getF s f x.i x.j) % 2 ^ f.width

/-! ### Reading -/

/-- A byte of the fuse window (R397): the secret reads as 0, and words 448 to 503 hold a check byte for each word but 24 to 32. -/
def State.fuseByte (s : State) (o : Nat) : Byte :=
  if o < 32 then 0
  else if 3584 ≤ o ∧ o < 4032 then
    let w := o - 3584
    if 24 ≤ w ∧ w ≤ 32 then 0 else Config.fuseCheck (BitVec.ofNat 64 (s.fuse w))
  else byteOf (s.fuse (o / 8)) (o % 8)

/-- A byte of the read-only windows of the MGT_ block (R420); the recovery buffer is written only. -/
def State.mgtByte (s : State) (a : Nat) : Byte :=
  if a < 0x2080000 then (s.bbSlot ((a - 0x2000000) / 64)).getD (a % 64) 0
  else if a < 0x2081000 then s.fuseByte (a - 0x2080000)
  else if 0x2090000 ≤ a ∧ a < 0x2091000 then
    match s.errLog.find? (fun e => decide (e.num % 256 = (a - 0x2090000) / 16)) with
    | some e => byteOf (e.num % 2 ^ 32 + e.kind % 256 * 2 ^ 32 + e.master % 256 * 2 ^ 40 + e.addr % 2 ^ 32 * 2 ^ 64 + e.value % 2 ^ 32 * 2 ^ 96) (a % 16)
    | none => 0
  else 0

/-- An entry of the counter window (R425, R430); a unit that is held or retired shows 0. An entry between or after the units' blocks reads 0 and is
no unassigned offset (DESIGN CHOICE, log entry 81). -/
def State.ctrEntry (s : State) (e : Nat) : Nat :=
  if e < 0x20000 then
    let t := e / 64
    let o := e % 64
    let x := s.tile t
    if x.retired ∨ s.heldTile t then 0
    else if o = 62 then x.layer % 65536 + x.operator % 65536 * 65536
    else if o = 63 then 0
    else match x.restart with
      | some l => if o < 16 ∧ ¬ s.tileFrozen t then l.getD o 0 + 2 ^ 48 else s.ctr e
      | none => s.ctr e
  else if e < 0x22400 ∨ (0x24000 ≤ e ∧ e < 0x25000) ∨ (0x26000 ≤ e ∧ e < 0x26040) then
    let o := e % 16
    if o = 14 ∨ o = 15 ∨ (0x22400 ≤ e ∧ ((4 ≤ o ∧ o < 8) ∨ o = 12)) then 0
    else if 0x24000 ≤ e ∧ e < 0x25000 ∧ s.chF Reg.HBM_CH_STATUS_STATE ((e - 0x24000) / 16) = 3 then 0
    else s.ctr e
  else 0

/-- Windows whose bytes are read as they stand. -/
def byteWindow (a : Nat) : Bool :=
  decide (a < 0x2081000 ∨ (0x2090000 ≤ a ∧ a < 0x2091000) ∨ (0x2100000 ≤ a ∧ a < 0x2300000))

def counterWindow (a : Nat) : Bool := decide (0x2400000 ≤ a ∧ a < 0x2540000)
def captureWindow (a : Nat) : Bool := decide (0x2800000 ≤ a ∧ a < 0x2C00000)

/-- The unit that OBS_CAP_SEL names, and the image offset of a window address (R439). -/
def State.capSel (s : State) : CapUnit := ⟨getF s Reg.OBS_CAP_SEL_KIND, getF s Reg.OBS_CAP_SEL_INDEX⟩
def State.capOffset (s : State) (a : Nat) : Nat := getF s Reg.OBS_CAP_SEL_PAGE * 2 ^ 22 + (a - 0x2800000)

/-- An unassigned offset is read or written (R9, R37). -/
def State.unassigned (s : State) (a : Nat) (write : Bool) (v : Nat) : State := s.logErr (if write then 2 else 1) idHost a (if write then v else 0)

/-- A holding copy by its lower address (R8). -/
def State.holdUpper (s : State) (a v : Nat) : State := { s with holdR := SMap.set none s.holdR a (some v) }
def State.takeUpper (s : State) (a now : Nat) : State × Nat :=
  match SMap.get none s.holdR a with
  | some v => ({ s with holdR := SMap.set none s.holdR a none }, v)
  | none => (s, now)

/-- `n` bytes of a window; 8 bytes of a counter are its lower half, and then the copy of its upper half (R7, R8). -/
def State.windowRead (s : State) (a n : Nat) : State × Nat :=
  if byteWindow a then (s, leNat ((List.range n).map (fun i => s.mgtByte (a + i))))
  else if captureWindow a then match s.capBytes s.capSel (s.capOffset a) n with
    | some l => (s, leNat l)
    | none => (s.logErr 1 idHost a 0, 0)
  else if counterWindow a then
    let v := s.ctrEntry ((a - 0x2400000) / 8)
    if n = 8 then ({ s with holdR := SMap.set none s.holdR a none }, v)
    else if a % 8 = 0 then (s.holdUpper a (v / 2 ^ 32), v % 2 ^ 32)
    else s.takeUpper (a - 4) (v / 2 ^ 32)
  else (s.unassigned a false 0, 0)

/-- The MSI-X table and the pending bit array (R379). -/
def msixTable (a : Nat) : Bool := decide (0x150000 ≤ a ∧ a < 0x151000)
def msixPba (a : Nat) : Bool := decide (0x151000 ≤ a ∧ a < 0x151020)

/-- A word of the MSI-X table as it reads: the mask bit is kept inverted. -/
def State.msixWord (s : State) (w : Nat) : Nat :=
  let v := (SMap.get 0 s.msix w).toNat
  if w % 4 = 3 then 1 - v % 2 else v

def State.pbaWord (s : State) (w : Nat) : Nat :=
  (List.range 32).foldl (fun n b => n + bit (SMap.get false s.pba (32 * w + b)) * 2 ^ b) 0

/-- RC fields of a register clear once they have been read. -/
def State.clearRead (s : State) (l : List FldAt) : State :=
  l.foldl (fun (s : State) x =>
    if x.fld = Reg.NET_LINK_STATE_EVENTS then s.modLink s.selLink.1 s.selLink.2 (fun l => { l with events := 0 })
    else if x.fld.acc = .rc then setF s x.fld 0 x.i x.j else s) s

/-- The bits that the fields of a register show. -/
def State.regValue (s : State) (l : List FldAt) : Nat :=
  l.foldl (fun n x => if x.fld.acc = .wo then n else n + s.shown x * 2 ^ x.fld.lo) 0

/-- A 32-bit read of a register. -/
def State.regRead (s : State) (a : Nat) : State × Nat :=
  if msixTable a then (s, s.msixWord ((a - 0x150000) / 4))
  else if msixPba a then (s, s.pbaWord ((a - 0x151000) / 4))
  else match fieldsAt a with
    | [] => (s.unassigned a false 0, 0)
    | l =>
      let v := s.regValue l
      if l.any (fun x => x.fld.wide = .high) then s.takeUpper (a - 4) v
      else
        let s := if l.any (fun x => x.fld.wide = .low) then s.holdUpper a (s.regValue (fieldsAt (a + 4))) else s
        (s.clearRead l, v)

/-- A read of 4 or 8 bytes; 8 bytes of registers are two reads (R7). -/
def State.bar0Read (s : State) (a n : Nat) : State × Nat :=
  if 0x2000000 ≤ a then s.windowRead a n
  else if n = 8 then
    let lo := s.regRead a
    let hi := lo.1.regRead (a + 4)
    (hi.1, lo.2 + hi.2 * 2 ^ 32)
  else s.regRead a

/-- Some field of the register is an expert field. -/
def expertAt (a : Nat) : Bool := (fieldsAt a).any (fun x => x.fld.expert)

/-- A read that the endpoint completes with Completer Abort (R374, R376). -/
def State.abortRead (s : State) (a : Nat) : State := (s.aerUncorr aerAbort).emit .completion [a, 4]

/-- A naturally aligned access of 4 or 8 bytes (R7). -/
def bar0Aligned (a n : Nat) : Bool := decide (a % n = 0) && (decide (n = 4) || decide (n = 8))

/-- An access that R7 does not allow (R374). -/
def State.badSize (s : State) (a : Nat) (write : Bool) : State :=
  let s := bumpF s Reg.PCI_ERR_CNT_BAD_SIZE
  if write then s else s.abortRead a

/-- A host read at meeting point 2 (R22, R377). -/
def State.hostRead (s : State) (a n : Nat) : State :=
  let expert := expertAt a || (decide (n = 8) && expertAt (a + 4))
  if !s.hostServed || !s.blockServed a then s
  else if !s.warmServed a then s.emit .completion [a, 0] (leBytes n 0)
  else if !bar0Aligned a n then s.badSize a false
  else if decide (classOf a ≠ 0) && s.frozenMaster idHost then (bumpF s Reg.MGT_VIOL_CNT_VALUE).abortRead a
  else if s.hostGranted a false expert then
    let r := s.bar0Read a n
    r.1.emit .completion [a, 0] (leBytes n r.2)
  else (s.violation { master := idHost, kind := 0, reason := 2, addr := a, len := n }).abortRead a

/-! ### Writing -/

/-- Some stitch link is not down (R314). -/
def State.suitBusy (s : State) : Bool := (List.range 4).any (fun d => decide (s.proto d = 1) && decide (s.lnkState d ≠ 0))

/-- A write of the whole register that is discarded and recorded (R100, R185, R218, R243, R249, R281, R314, R434). -/
def State.writeBarred (s : State) (x : FldAt) (v : Nat) : Bool :=
  let f := x.fld
  if f = Reg.CMD_PANEL_RECT_X0 ∨ f = Reg.CMD_GATE_N_LO_GATE ∨ f = Reg.CMD_GATE_N_HI_GATE ∨ f = Reg.CMD_GATE_S_LO_GATE ∨ f = Reg.CMD_GATE_S_HI_GATE
      ∨ f = Reg.CMD_GATE_W_GATE ∨ f = Reg.CMD_GATE_E_GATE then decide (s.panelState x.i ≠ 0)
  else if f = Reg.TIL_NUM_CTRL_FALLBACK ∨ f = Reg.TIL_CHAIN_ROLE then decide ((s.tile x.i).run = .running ∨ (s.tile x.i).run = .halted)
  else if f = Reg.HBM_HASH_SLOT_MASK ∨ f = Reg.HBM_HASH_BANK_MASK then flag s Reg.HBM_MAP_CTRL_EN
  else if f = Reg.LAN_SUIT_SX ∨ f = Reg.NET_DEV_DEV_ID then s.suitBusy
  else if f = Reg.OBS_TRACE_BASE_LO_VALUE ∨ f = Reg.OBS_TRACE_BASE_HI_VALUE ∨ f = Reg.OBS_TRACE_LEN_LEN then flag s Reg.OBS_TRACE_LEN_EN x.i
  else if f = Reg.MOV_CH_POST_DESC then !s.postTaken x.i (x.j / 16)
  else if f = Reg.CMD_POST_TILE then flag s Reg.CMD_PANEL_STATUS_SLEEP x.i || flag s Reg.CMD_POST_BUSY x.i
  else if f = Reg.PWR_THERM_WARN then decide (bits v 6 0 < 85 ∨ 110 < bits v 6 0)
  else false

/-- A field whose own value is refused or barred while the rest of the register is written: 0 it is written, 3 discarded, 4 refused
(R254, the LAN_LINK_CFG, LAN_SUIT and MOV_CH_CFG tables). -/
def State.fieldBarred (s : State) (x : FldAt) (v : Nat) : Nat :=
  let f := x.fld
  if f = Reg.LAN_LINK_CFG_PROTO then (if s.lnkState x.i ≠ 0 then 3 else 0)
  else if f = Reg.LAN_SUIT_SX then (if v = 0 ∨ v = 7 then 4 else 0)
  else if f = Reg.LAN_SUIT_SY then (if v = 0 ∨ 5 ≤ v then 4 else 0)
  else if f = Reg.MOV_CH_CFG_RSV then (if 4096 < v + s.reserved x.i (some x.j) then 3 else 0)
  else if f = Reg.MOV_CH_CFG_PANEL then (if s.stateShown x.i x.j ≠ 0 then 3 else 0)
  else if f = Reg.MOV_CH_CFG_BOUND ∨ f = Reg.MOV_CH_CFG_DIRECT then (if s.stateShown x.i x.j ≠ 0 then 5 else 0)
  else 0

/-- What a write does besides the field's new value. -/
def State.afterWrite (s : State) (x : FldAt) (v : Nat) : State :=
  let f := x.fld
  if f = Reg.TIL_FLT_LIMIT_COUNT then
    if (s.tile x.i).run = .running then s else s.modTile x.i (fun t => { t with fltLimit := v })
  else if f = Reg.TIL_FLT_LIMIT_WINDOW then
    if (s.tile x.i).run = .running then s else s.modTile x.i (fun t => { t with fltWindow := v })
  else if f = Reg.MOV_CH_POST_DESC then
    if x.j % 16 = 15 then s.directPost x.i (x.j / 16) v else s.modChan x.i (x.j / 16) (fun c => { c with post := SMap.set 0 c.post (x.j % 16) v })
  else if f = Reg.MGT_BB_HOST_DATA then if x.j = 6 ∨ x.i = 6 then s else { s with bbHost := SMap.set 0 s.bbHost x.i v }
  else if f = Reg.HBM_TRN_DLY_VREF then
    let k := s.dlyKey x.i
    { s with hbm := { s.hbm with pins := SMap.set (0, 0) s.hbm.pins k (getF s Reg.HBM_TRN_DLY_DELAY x.i, v) } }
  else s

/-- A field written with `v` by its access code (R10). -/
def State.fieldWrite (s : State) (x : FldAt) (v : Nat) : State :=
  let f := x.fld
  let old := getF s f x.i x.j
  match f.acc with
  | .rw => setF s f v x.i x.j
  | .w1c => setF s f (old - (old &&& v)) x.i x.j
  | .w1s => setF s f (old ||| v) x.i x.j
  | _ => s

/-- Registers that a row of their own writes whole: HBM_TRN_CTRL and FAB_PROBE. -/
def ownRegister (x : FldAt) : Bool :=
  decide (x.fld.base = Reg.HBM_TRN_CTRL_OWN.base ∨ x.fld.base = Reg.FAB_PROBE_EN.base)

/-- GO is written with a reserved service code (R395): RESULT 2 once the firmware serves it. -/
def State.badService (s : State) (a word : Nat) : State :=
  let code := word % 256
  if ¬ bitAt word 8 ∨ (1 ≤ code ∧ code ≤ 8) then s
  else if flag s Reg.MGT_SVC_CTRL_GO then s.discard a word
  else if s.firmware then setF s Reg.MGT_SVC_CTRL_RESULT 2
  else setF (setF s Reg.MGT_SVC_CTRL_RESULT 0) Reg.MGT_SVC_CTRL_GO 1

/-- One field of a register write; fields that a row of their own writes are left alone. -/
def State.writeOne (s : State) (a word : Nat) (x : FldAt) : State :=
  let v := bits word (x.fld.lo + x.fld.width - 1) x.fld.lo
  if x.fld.own ∨ ownRegister x then s
  else match s.fieldBarred x v with
    | 0 => if x.fld = Reg.MGT_SVC_CTRL_CODE then (s.fieldWrite x v).badService a word else (s.fieldWrite x v).afterWrite x v
    | 5 => s
    | k => s.logErr k idHost a word

/-- The held write of a wide field, by its lower address. -/
def State.heldLow (s : State) (a : Nat) : Option Nat := SMap.get none s.heldW a

/-- A vector is unmasked: what its pending bit holds is sent (R379). -/
def State.unmask (s : State) (v : Nat) : State :=
  let s := { s with msix := SMap.set 0 s.msix (4 * v + 3) 1 }
  if s.msixEn && !s.msixMaskAll && SMap.get false s.pba v then { s with pba := SMap.set false s.pba v false }.emit .msix (s.vectorArgs v)
  else s

/-- A word of the MSI-X table is written. -/
def State.msixWrite (s : State) (w v : Nat) : State :=
  if w % 4 ≠ 3 then { s with msix := SMap.set 0 s.msix w (BitVec.ofNat 32 v) }
  else if v % 2 = 1 then { s with msix := SMap.set 0 s.msix w 0 }
  else s.unmask (w / 4)

/-- A 32-bit write of a register (R8 to R10). -/
def State.regWrite (s : State) (a v : Nat) : State :=
  if msixTable a then s.msixWrite ((a - 0x150000) / 4) v
  else if msixPba a then s
  else match fieldsAt a with
    | [] => s.unassigned a true v
    | l =>
      if l.any (fun x => s.writeBarred x v) then s.discard a v
      else if l.any (fun x => decide (x.fld.wide = .low) && decide (x.fld.acc = .rw)) then { s with heldW := SMap.set none s.heldW a (some v) }
      else
        let s := l.foldl (fun (s : State) x => s.writeOne a v x) s
        if l.any (fun x => decide (x.fld.wide = .high) && decide (x.fld.acc = .rw)) then
          match s.heldLow (a - 4) with
          | none => s
          | some low => (fieldsAt (a - 4)).foldl (fun (s : State) x => s.writeOne (a - 4) low x) { s with heldW := SMap.set none s.heldW (a - 4) none }
        else s

/-- A write to the indirect windows (R420, R430, R439). -/
def State.windowWrite (s : State) (a n v : Nat) : State :=
  if 0x2100000 ≤ a ∧ a < 0x2300000 then
    if s.mgmtState = 2 then
      { s with recov := (List.range n).foldl (fun m i => SMap.set 0 m (a - 0x2100000 + i) (byteOf v i)) s.recov }
    else s.discard a v
  else if byteWindow a || counterWindow a || captureWindow a then s.discard a v
  else s.unassigned a true v

/-- A write of 4 or 8 bytes. -/
def State.bar0Write (s : State) (a n v : Nat) : State :=
  if 0x2000000 ≤ a then s.windowWrite a n v
  else if n = 8 then (s.regWrite a (v % 2 ^ 32)).regWrite (a + 4) (v / 2 ^ 32)
  else s.regWrite a (v % 2 ^ 32)

/-- A host write at meeting point 2. -/
def State.hostStore (s : State) (a n v : Nat) : State :=
  if !s.hostServed || !s.blockServed a || !s.warmServed a then s
  else if !bar0Aligned a n then s.badSize a true
  else s.hostAccess a n true (expertAt a || (decide (n = 8) && expertAt (a + 4))) (fun s => s.bar0Write a n v)

/-! ### The rows -/

def accessLen (wide : Bool) : Nat := if wide then 8 else 4

/-- REGISTER_WRITE (R10): every field at the address that has no row of its own. -/
def execRegisterWrite (addr : Bar0Addr) (wide : Bool) (val : DWord) (s : State) : Res :=
  .next (s.hostStore addr.toNat (accessLen wide) (if wide then val.toNat else val.toNat % 2 ^ 32))

/-- RC_READ (R10): a read returns the value and clears the RC fields. -/
def execRcRead (addr : Bar0Addr) (wide : Bool) (s : State) : Res := .next (s.hostRead addr.toNat (accessLen wide))

/-- The register at an address holds the lower, or the upper, part of a wide field or counter entry (R8). -/
def lowerHalf (a : Nat) : Bool := (fieldsAt a).any (fun x => decide (x.fld.wide = .low)) || (counterWindow a && decide (a % 8 = 0))
def upperHalf (a : Nat) : Bool := (fieldsAt a).any (fun x => decide (x.fld.wide = .high)) || (counterWindow a && decide (a % 8 = 4))

/-- LOWER_HALF_READ (R8). -/
def execLowerHalfRead (addr : Bar0Addr) (s : State) : Res := .next (if lowerHalf addr.toNat then s.hostRead addr.toNat 4 else s)

/-- UPPER_HALF_READ (R8). -/
def execUpperHalfRead (addr : Bar0Addr) (s : State) : Res := .next (if upperHalf addr.toNat then s.hostRead addr.toNat 4 else s)

/-- LOWER_HALF_WRITE (R8). -/
def execLowerHalfWrite (addr : Bar0Addr) (val : Word) (s : State) : Res :=
  .next (if lowerHalf addr.toNat then s.hostStore addr.toNat 4 val.toNat else s)

/-- UPPER_HALF_WRITE (R8). -/
def execUpperHalfWrite (addr : Bar0Addr) (val : Word) (s : State) : Res :=
  .next (if upperHalf addr.toNat then s.hostStore addr.toNat 4 val.toNat else s)

/-- Nothing is assigned at an address (R9, R37). -/
def nothingAt (a : Nat) : Bool :=
  if 0x2000000 ≤ a then !byteWindow a && !counterWindow a && !captureWindow a else !msixTable a && !msixPba a && (fieldsAt a).isEmpty

/-- UNASSIGNED_ACCESS (R9, R37). -/
def execUnassignedAccess (addr : Bar0Addr) (write : Bool) (val : Word) (s : State) : Res :=
  let a := addr.toNat
  .next (if ¬ nothingAt a then s else if write then s.hostStore a 4 val.toNat else s.hostRead a 4)

/-- PROFILE_WRITE (R32, R33): the profile in force, and the spares left when it changes. An accepted write opens the microsecond of R219 whatever
it changes. Only a panel that is defined bars it, not a definition under way, and takeovers outlive a return to the latency profile (DESIGN
CHOICE, DESIGN CHOICE, log entry 81). -/
def execProfileWrite (val : Word) (s : State) : Res :=
  let v := val.toNat % 4
  let a := Reg.MGT_PROFILE_PROFILE.addr 0 0
  .next (s.hostWrite Reg.MGT_PROFILE_PROFILE 0 0 (fun s =>
    if 2 ≤ v ∨ (List.range 16).any (fun p => decide (s.panelState p ≠ 0)) then s.discard a val.toNat
    else if getF s Reg.MGT_PROFILE_PROFILE = v then { s with profileFresh := true }
    else { setF (setF s Reg.MGT_PROFILE_PROFILE v) Reg.MGT_PROFILE_SPARES_LEFT (if v = 1 then 48 else 0) with profileFresh := true }))

end Sys2Proof.Machine
end

