-- ==== Sys2Proof/Machine/Lane.lean ====
section
/-! DEFINITION. Lanes: bring-up (R310, R311), codewords, flits, acknowledgement and replay (R303 to R308), changes of the lane set, slips and
bitslip (R312, R313), retirement (R316), partner freeze (R318), and test loops (R320). -/

namespace Sys2Proof.Machine

/-- The lanes work: only a full freeze and a thermal shutdown stop them (R318, R436). -/
def State.lanesRun (s : State) : Bool := decide (getF s Reg.OBS_FRZ_STATUS_STATE ≠ 3) && !s.shutdown && s.warming.isNone

/-- A link that carries blocks: stitch link or bridge, up. -/
def State.carries (s : State) (d : Nat) : Bool := s.lanesRun && s.lnkUp d && decide (s.proto d = 1 ∨ s.proto d = 3)

def State.laneStep (s : State) (l : Nat) : Nat := getF s Reg.LAN_LANE_STATUS_STEP l
def State.setStep (s : State) (l v : Nat) : State := setF s Reg.LAN_LANE_STATUS_STEP v l

/-! ### Bring-up (R310) -/

/-- Every lane of link d that passed step 3 is block-locked (R310). -/
def State.trainLocked (s : State) (d : Nat) : Bool :=
  let ours := (s.training d).filter (fun l => decide (3 ≤ s.laneStep l))
  decide (ours ≠ []) && ours.all (fun l => decide (4 ≤ s.laneStep l))

/-- The training stream: a TRAIN block on every lane in bring-up, shown once for as long as it repeats unchanged (R310; DEDUCED, log entry 84). -/
def State.sendTrain (s : State) (d : Nat) (switch count : Nat := 0) : State :=
  if s.proto d = 2 then s
  else (s.training d).foldl (fun (s : State) l => s.emit .laneBlock [d, 0x71, l % 8, bit (s.trainLocked d), switch, count]) s

/-- The PARAM words of this device (R311). -/
def State.paramWord (s : State) (d : Nat) : Nat → Nat
  | 0 => 1 + s.proto d * 2 ^ 8 + d * 2 ^ 10
  | 1 => s.devId + getF s Reg.LAN_SUIT_SX * 2 ^ 5 + getF s Reg.LAN_SUIT_SY * 2 ^ 8
  | 2 => getF s Reg.LAN_SUIT_SYS_ID
  | 3 => (s.striped d).foldl (fun m l => m ||| 2 ^ s.logical l) 0
  | _ => 0

/-- One round of PARAM words is sent. -/
def State.sendParams (s : State) (d : Nat) : State :=
  (List.range 8).foldl (fun (s : State) i => s.sendCtl d [0x72, i, s.paramWord d i]) s

/-- Bring-up starts: every lane in service trains; the lanes that the black box lists are excluded (R319). `keep` is what the link's queue keeps. -/
def State.startBringUp (s : State) (d : Nat) (keep : LaneLink) : State :=
  let out := s.listedLanes
  let s := (lanesOf d).foldl (fun (s : State) l =>
    let s := s.modLane l (fun x => { x with read := 0, agree := 0 })
    if s.laneState l = 4 ∨ out.contains l then s.setLaneState l 4 else (s.setLaneState l 1).setStep l 0) (s.setLnk d keep)
  let s := setF (setF (setF s Reg.LAN_LINK_STATUS_CAUSE 0 d) Reg.LAN_LINK_STATUS_REV 0 d) Reg.LAN_LINK_STATUS_SLOW 0 d
  let s := setF (setF (setF s Reg.LAN_LINK_STATUS_SKEW 0 d) Reg.LAN_LINK_STATUS_WIDTH 0 d) Reg.LAN_LINK_MASK_ACTIVE 0 d
  (((setF s Reg.LAN_LINK_CFG_UP 1 d).showMasks d).setLnkState d 1).sendTrain d

/-- The ports of an Ethernet link that do not run train again (R302, R316). -/
def State.etherAgain (s : State) (d : Nat) : State :=
  let l := (lanesOf d).filter (fun l => !s.macReady (l / 4) && decide (s.laneState l = 0))
  if l = [] then s
  else (setF (l.foldl (fun (s : State) k => (s.setLaneState k 1).setStep k 0) s) Reg.LAN_LINK_CFG_UP 1 d).showMasks d

/-- A request for bring-up: a link that is off, training or up ignores it. -/
def State.requestUp (s : State) (d : Nat) : State :=
  if s.proto d = 0 then s
  else if s.proto d = 2 ∧ s.lnkUp d then s.etherAgain d
  else if ¬ (s.lnkState d = 0 ∨ s.lnkState d = 4) then s
  else s.startBringUp d LaneLink.init

/-- LINK_UP_REQUEST (R310). -/
def execLinkUpRequest (d : BitVec 2) (s : State) : Res :=
  .next (s.hostWrite Reg.LAN_LINK_CFG_UP d.toNat 0 (fun s => s.requestUp d.toNat))

/-- LINK_DOWN_REQUEST (R317, R318). -/
def execLinkDownRequest (d : BitVec 2) (s : State) : Res :=
  let n := d.toNat
  .next (s.hostWrite Reg.LAN_LINK_CFG_DOWN n 0 (fun s => if s.proto n = 0 ∨ s.lnkState n = 0 then s else s.lnkOff n 0 8))

/-- Step 3 for the whole link: 0 direct, 1 reversed, 2 neither. -/
def State.orientation (s : State) (d : Nat) : Nat :=
  let l := s.training d
  if l.all (fun i => decide ((s.laneSt i).read = i % 8)) then 0
  else if l.all (fun i => decide ((s.laneSt i).read = 7 - i % 8)) then 1
  else 2

/-- Both ends are locked: the countdown is sent, and codewords follow. -/
def State.trySwitch (s : State) (d : Nat) : State :=
  let x := s.lnk d
  if x.partnerLocked ∧ ¬ x.switched ∧ s.trainLocked d then
    (List.range 16).foldl (fun (s : State) i => s.sendTrain d 1 (15 - i)) (s.setLnk d { x with switched := true })
  else s

/-- The neighbour on link d (R301). -/
def State.neighbour (s : State) (d : Nat) : Nat :=
  let sx := getF s Reg.LAN_SUIT_SX
  let sy := getF s Reg.LAN_SUIT_SY
  let x := s.devId % sx
  let y := s.devId / sx
  match d with
  | 0 => y * sx + (x + 1) % sx
  | 1 => y * sx + (x + sx - 1) % sx
  | 2 => (y + 1) % sy * sx + x
  | _ => (y + sy - 1) % sy * sx + x

/-- The first check of R311 that the partner's words fail, as its CAUSE; 0 for none. -/
def State.paramCause (s : State) (d : Nat) (w : List Nat) : Nat :=
  let w0 := w.getD 0 0
  let w1 := w.getD 1 0
  if bits w0 7 0 ≠ 1 ∨ bits w0 9 8 ≠ s.proto d then 3
  else if bits w0 11 10 ≠ d ^^^ 1 then 4
  else if s.proto d = 1 ∧ (bits w1 7 5 ≠ getF s Reg.LAN_SUIT_SX ∨ bits w1 10 8 ≠ getF s Reg.LAN_SUIT_SY) then 5
  else if s.proto d = 1 ∧ bits w1 4 0 ≠ s.neighbour d then 6
  else 0

/-- The link comes up with the lanes of logical mask m. -/
def State.linkComesUp (s : State) (d m partner : Nat) : State :=
  let s := (lanesOf d).foldl (fun (s : State) l =>
    if s.laneState l ≠ 1 then s
    else if bitAt m (s.logical l) then (s.setLaneState l 2).setStep l 6
    else s.setLaneState l 0) s
  let s := setF (setF (setF s Reg.LAN_LINK_STATUS_PARTNER partner d) Reg.LAN_LINK_CFG_UP 0 d) Reg.LAN_LINK_MASK_ACTIVE m d
  let w := popcount8 m
  ((setF s Reg.LAN_LINK_STATUS_WIDTH w d).showMasks d).setLnkState d (if w = 8 then 2 else 3) |>.pump d

/-- Step 6: eight identical rounds decide. -/
def State.paramExchange (s : State) (d : Nat) : State :=
  let x := s.lnk d
  if x.rounds < 8 then s
  else
    let c := s.paramCause d x.round
    let m := s.laneMask d (· = 1) &&& (lanesOf d).foldl (fun m l => if 5 ≤ s.laneStep l then m ||| 2 ^ s.logical l else m) 0 &&& (x.round.getD 3 0 % 256)
    if c ≠ 0 then s.lnkOff d 4 c
    else if popcount8 m < s.minWidth d then s.lnkOff d 4 1
    else s.linkComesUp d m (if s.proto d = 1 then bits (x.round.getD 1 0) 4 0 else bits (x.round.getD 2 0) 9 0)

/-- An Ethernet lane is trained: its polarity is known, and the port of its MAC runs with its last lane (R302). -/
def State.etherTrained (s : State) (l : Nat) (inv : Bool) : State :=
  let s := setF ((s.setLaneState l 2).setStep l 6) Reg.LAN_LANE_STATUS_INV (bit inv) l
  if !s.macReady (l / 4) then s
  else ((lanesOf (linkOfLane l)).foldl (fun (s : State) k => if k / 4 = l / 4 ∧ s.laneState k = 1 then s.setLaneState k 0 else s) s).showEther (linkOfLane l)

/-- A lane of a link in bring-up completes the step after its last one. -/
def State.stepDone (s : State) (l : Nat) (inv : Bool) (skew : Nat) : State :=
  let d := linkOfLane l
  match s.laneStep l with
  | 0 => s.setStep l 1
  | 1 => setF (s.setStep l 2) Reg.LAN_LANE_STATUS_INV (bit inv) l
  | 2 =>
    if (s.training d).any (fun k => decide (s.laneStep k < 2 ∨ (s.laneSt k).agree < 4)) then s
    else match s.orientation d with
      | 2 => s.lnkOff d 4 2
      | o =>
        let s := setF s Reg.LAN_LINK_STATUS_REV o d
        (s.training d).foldl (fun (s : State) k => setF (s.setStep k (max 3 (s.laneStep k))) Reg.LAN_LANE_STATUS_LOGICAL (s.logical k) k) s
  | 3 =>
    let s := s.setStep l 4
    (if s.trainLocked d then s.sendTrain d else s).trySwitch d
  | 4 =>
    if ¬ (s.lnk d).switched ∨ 40 < skew then s
    else
      let k := max skew (getF s Reg.LAN_LINK_STATUS_SKEW d)
      let s := setF (setF (s.setStep l 5) Reg.LAN_LINK_STATUS_SKEW k d) Reg.LAN_LINK_STATUS_SLOW (bit (decide (4 < k))) d
      if (s.training d).all (fun i => decide (5 ≤ s.laneStep i)) then s.sendParams d else s
  | _ => s.paramExchange d

/-- A lane that retrains alone while its link carries traffic (R313) completes the step after its last one. -/
def State.loneStep (s : State) (l : Nat) (inv : Bool) (skew : Nat) : State :=
  match s.laneStep l with
  | 1 => setF (s.setStep l 2) Reg.LAN_LANE_STATUS_INV (bit inv) l
  | 2 => if 4 ≤ (s.laneSt l).agree ∧ (s.laneSt l).read = s.logical l then s.setStep l 3 else s
  | 4 =>
    let d := linkOfLane l
    let k := max skew (getF s Reg.LAN_LINK_STATUS_SKEW d)
    if 40 < skew then s
    else setF (setF (s.setStep l 5) Reg.LAN_LINK_STATUS_SKEW k d) Reg.LAN_LINK_STATUS_SLOW (bit (decide (4 < k))) d
  | n => if n < 5 then s.setStep l (n + 1) else s

/-- BRING_UP_STEP_COMPLETE (R310, R311, R302). -/
def execBringUpStepComplete (lane : BitVec 5) (inv : Bool) (skew : BitVec 6) (s : State) : Res :=
  let l := lane.toNat
  let d := linkOfLane l
  .next (if ¬ s.lanesRun ∨ s.laneState l ≠ 1 then s
    else if s.proto d = 2 then s.etherTrained l inv
    else if s.lnkState d ≠ 1 then s.loneStep l inv skew.toNat
    else s.stepDone l inv skew.toNat)

/-- The training of an Ethernet port fails: its lanes are off, and the link fails with CAUSE 9 unless its other port trains or runs (R302, R311). -/
def State.etherFailed (s : State) (l : Nat) : State :=
  let d := linkOfLane l
  let s := ((lanesOf d).filter (fun k => decide (k / 4 = l / 4) && decide (s.laneState k ≠ 4))).foldl (fun (s : State) k => s.setLaneState k 0) s
  let o := (lanesOf d).filter (fun k => decide (k / 4 ≠ l / 4))
  if o.any (fun k => decide (s.laneState k = 1 ∨ s.laneState k = 2)) then s.showEther d else s.lnkOff d 4 9

/-- BRING_UP_STEP_TIMEOUT (R310, R317): the lane leaves the bring-up; a parameter exchange or an Ethernet training that times out, and the loss
of the last lane, fail the link. The first lane of a link has no limit for step 1. -/
def execBringUpStepTimeout (lane : BitVec 5) (s : State) : Res :=
  let l := lane.toNat
  let d := linkOfLane l
  .next (if ¬ s.lanesRun ∨ s.laneState l ≠ 1 then s
    else if s.proto d = 2 then s.etherFailed l
    else if s.lnkState d ≠ 1 then s
    else if s.laneStep l = 0 ∧ (lanesOf d).all (fun k => decide (s.laneStep k = 0)) then s
    else if 5 ≤ s.laneStep l then s.lnkOff d 4 1
    else
      let s := s.setLaneState l 0
      if s.training d = [] then s.lnkOff d 4 1 else s.trySwitch d)

/-- TRAIN_BLOCK (R310): LANE must agree in 4 consecutive blocks; LOCKED is the partner's. -/
def execTrainBlock (lane : BitVec 5) (logical : BitVec 3) (locked _switch : Bool) (_count : BitVec 4) (s : State) : Res :=
  let l := lane.toNat
  let d := linkOfLane l
  let n := logical.toNat
  .next (if ¬ s.lanesRun ∨ s.laneState l ≠ 1 ∨ s.laneStep l < 2 then s
    else
      let s := s.modLane l (fun x => if 0 < x.agree ∧ x.read = n then { x with agree := min 4 (x.agree + 1) } else { x with read := n, agree := 1 })
      if locked then (s.modLnk d (fun x => { x with partnerLocked := true })).trySwitch d else s)

/-- PARAM_BLOCK (R311): words 0 to 7 make a round; identical rounds in a row are counted. -/
def execParamBlock (d : BitVec 2) (index : BitVec 3) (value : Word) (s : State) : Res :=
  let n := d.toNat
  .next (if ¬ s.lanesRun ∨ s.lnkState n ≠ 1 ∨ ¬ (s.training n).any (fun l => decide (5 ≤ s.laneStep l)) then s
    else
      let x := s.lnk n
      let w := if index.toNat = x.words.length then x.words ++ [value.toNat] else if index = 0 then [value.toNat] else []
      if w.length = 8 then (s.setLnk n { x with words := [], round := w, rounds := if w = x.round then min 8 (x.rounds + 1) else 1 }).sendParams n
      else s.setLnk n { x with words := w })

/-! ### Codewords (R303, R307, R316) -/

/-- The codeword of logical lane `a` in the round of CWSEQ `q` has come; `t` is its trailer, none where it is uncorrectable. The C0MAP of a
decoded trailer of the round says whether class 0 is lost with the lanes that bring nothing: those of uncorrectable codewords, and those that have
slipped and are still in the set (R307, R312). One loss is counted for a round (DEDUCED, log entry 83). Where no trailer of the round decodes, the
stitches that start at the link's ports break. -/
def State.codewordRound (s : State) (d a q : Nat) (t : Option Nat) : State :=
  let x := s.lnk d
  let cws := (x.cws.filter (fun e => decide (e.1 ≠ a ∨ e.2.1 ≠ q)) ++ [(a, q, t)]).drop (x.cws.length + 1 - 32)
  let round := cws.filter (fun e => decide (e.2.1 = q))
  let s := s.setLnk d { x with cws := cws }
  match round.findSome? (fun e => e.2.2) with
  | some m =>
    let gone (b : Nat) : Bool := round.any (fun e => decide (e.1 = b) && e.2.2.isNone)
      || (lanesOf d).any (fun l => decide (s.logical l = b ∧ s.laneState l ≠ 2) && bitAt (getF s Reg.LAN_LINK_MASK_ACTIVE d) b)
    if x.cwLost ≠ some q ∧ (List.range 8).any (fun b => gone b && trailerC0 m b) then
      (s.modLnk d (fun y => { y with cwLost := some q, lost0 := true, heads := SMap.set none y.heads 0 none })).lose0 d
    else s
  | none =>
    if (lanesOf d).all (fun l => decide (s.laneState l ≠ 2) || round.any (fun e => decide (e.1 = s.logical l))) then
      (s.stitchesOnLink d).foldl (fun (s : State) k => match s.stitch k with
        | some st => if st.srcKind = 2 ∧ st.src / 8 = d then s.breakStitch k 0 else s
        | none => s) s
    else s

/-- CODEWORD: a received codeword is decoded and corrected, or found uncorrectable. The blocks that it carries are commands of their own. An
uncorrectable one is a lane event, loses what it carried, and retires a lane on which it meets the replay of its own losses (R303, R306, R316). -/
def execCodeword (lane : BitVec 5) (blocks : BitVec 5082) (align : Half) (trailer : BitVec 42) (parity : BitVec 300) (s : State) : Res :=
  let l := lane.toNat
  let w := codewordBits blocks align trailer parity
  let d := linkOfLane l
  let corr (s : State) : State := bumpF s Reg.LAN_LANE_ERR_CORR 1 l
  let uncorr (s : State) : State := (bumpF s Reg.LAN_LANE_ERR_UNCORR 1 l).laneEvent l
  .next (if ¬ s.lanesRun ∨ ¬ s.lnkUp d ∨ s.laneState l ≠ 2 ∨ s.proto d = 0 then s
    else if s.proto d = 2 then (match decodeCodeword w with
      | some (o, _) => if o = 0 then s else corr s
      | none => uncorr s)
    else match decodeCodeword w with
    | some (o, t) =>
      let s := if o = 0 then s else corr s
      let q := trailerSeq t
      ((s.modLane l (fun y => { y with rxSeq := q })).modLnk d (fun x => { x with cwseq := q })).codewordRound d (s.logical l) q (some t)
    | none =>
      let s := uncorr s
      let q := ((s.laneSt l).rxSeq + 1) % 65536
      let s := (s.modLane l (fun y => { y with rxSeq := q })).codewordRound d (s.logical l) q none
      let x := s.lnk d
      if x.waitReplay ∧ l ∈ x.replayLanes then s.retireLane l
      else s.setLnk d { x with lostLanes := if l ∈ x.lostLanes then x.lostLanes else x.lostLanes ++ [l] })

/-! ### Flits (R304 to R306) -/

/-- A REPLAY block asks for the next SEQ expected; each lane that lost blocks since the last one counts an event (R306, R316). -/
def State.sendReplay (s : State) (d : Nat) : State :=
  let x := s.lnk d
  let s := (s.setLnk d { x with waitReplay := true, replayLanes := x.lostLanes, lostLanes := [] }).sendCtl d [0x33, x.expect]
  x.lostLanes.foldl (fun (s : State) l => s.laneEvent l) s

/-- The message of a head and a tail flit. -/
def joinFlits (h : DWord) (lo : BitVec 512) (t : DWord) (hi : BitVec 512) : Msg := ⟨h, hi ++ lo, t⟩

/-- A class 0 flit (R307): a message that loses its head or its tail to a failed CRC is lost once, and the rest of a message whose loss is known
is passed over. -/
def State.flit0 (s : State) (d port : Nat) (tail ok : Bool) (ctl : DWord) (data : BitVec 512) : State :=
  let x := s.lnk d
  let set (h : Option (Nat × Nat × DWord × BitVec 512)) (lost : Bool) : State :=
    s.setLnk d { x with heads := SMap.set none x.heads 0 h, lost0 := lost }
  match ok, SMap.get none x.heads 0 with
  | false, some _ => (set none false).lose0 d
  | false, none => if x.lost0 then set none false else (set none true).lose0 d
  | true, h =>
    if ¬ tail then set (some (port, 0, ctl, data)) false
    else match h with
      | some (p, _, c, lo) => (set none false).laneEnter0 (8 * d + p) (joinFlits c lo ctl data) false
      | none => set none false

/-- An accepted flit of classes 1 to 3, in sequence. -/
def State.flitIn (s : State) (d cls vc port : Nat) (tail : Bool) (ctl : DWord) (data : BitVec 512) : State :=
  let x := s.lnk d
  let x := { x with expect := (x.expect + 1) % 4096, waitReplay := false, replayLanes := [], ackDue := true }
  if ¬ tail then s.setLnk d { x with heads := SMap.set none x.heads cls (some (port, vc, ctl, data)) }
  else match SMap.get none x.heads cls with
    | some (p, v, h, lo) =>
      s.setLnk d { x with heads := SMap.set none x.heads cls none, arrived := x.arrived ++ [⟨cls, v, p, joinFlits h lo ctl data, none⟩] }
    | none => s.setLnk d x

/-- FLIT (R305 to R307): `head` is payload bits [47:0] of its control block. -/
def execFlit (d : BitVec 2) (head : BitVec 48) (ctl : DWord) (data : BitVec 512) (crc : Half) (s : State) : Res :=
  let n := d.toNat
  let v := head.toNat
  let cls := bits v 9 8
  let ok := decide (bits v 7 0 = 0x1E) && decide (crc16 (flitBits v ctl data) = crc)
  .next (if ¬ s.carries n then s
    else
      let s := s.count (ctrLink n + 1)
      if s.proto n = 1 ∧ cls = 0 then s.flit0 n (bits v 14 12) (bitAt v 11) ok ctl data
      else if ok ∧ bits v 27 16 = (s.lnk n).expect then s.flitIn n cls (bits v 10 10) (bits v 14 12) (bitAt v 11) ctl data
      else if (s.lnk n).waitReplay ∧ (s.lnk n).lostLanes = [] ∧ ¬ (¬ ok ∧ bits v 27 16 = (s.lnk n).expect) then s
      else s.sendReplay n)

/-- ACK (R306): the flits up to ACKSEQ leave the retry buffer, and credits return. -/
def execAck (d : BitVec 2) (ackseq : BitVec 12) (cred1 cred2 cred3 : Byte) (s : State) : Res :=
  let n := d.toNat
  .next (if ¬ s.carries n then s
    else
      let x := s.lnk n
      let retry := match x.retry.findIdx? (fun f => decide (f.seq = ackseq.toNat)) with
        | some i => x.retry.drop (i + 1)
        | none => x.retry
      let give (m : SMap Nat) (c k : Nat) : SMap Nat := SMap.set 256 m c (min 256 (SMap.get 256 m c + k))
      let credit := give (give (give x.credit 1 cred1.toNat) 2 cred2.toNat) 3 cred3.toNat
      (s.setLnk n { x with retry := retry, credit := credit }).pump n)

/-- ACK_DUE (R306): an ACK is sent when there is anything to acknowledge. -/
def execAckDue (d : BitVec 2) (s : State) : Res :=
  let n := d.toNat
  let x := s.lnk n
  let c (k : Nat) : Nat := min 255 (SMap.get 0 x.freed k)
  .next (if ¬ s.carries n ∨ (¬ x.ackDue ∧ x.freed = []) then s
    else
      let left := [1, 2, 3].foldl (fun (m : SMap Nat) k => SMap.set 0 m k (SMap.get 0 m k - c k)) x.freed
      (s.setLnk n { x with ackDue := false, freed := left }).sendCtl n [0x2D, (x.expect + 4095) % 4096, c 1, c 2, c 3])

/-- REPLAY (R306): every flit from FROM on is sent again; the fourth request in a row for one flit takes the link down. -/
def execReplay (d : BitVec 2) (from_ : BitVec 12) (s : State) : Res :=
  let n := d.toNat
  .next (if ¬ s.carries n then s
    else
      let s := bumpF s Reg.LAN_LINK_CNT_REPLAY 1 n
      let x := s.lnk n
      let x := if x.replays ≠ 0 ∧ x.lastFrom = from_.toNat then { x with replays := x.replays + 1 } else { x with lastFrom := from_.toNat, replays := 1 }
      if 3 < x.replays then s.lnkOff n 0 7
      else match x.retry.findIdx? (fun f => decide (f.seq = from_.toNat)) with
        | none => s.setLnk n x
        | some i => (x.retry.drop i).foldl (fun (s : State) f =>
            (s.count (ctrLink n + 3)).sendFlit n f.of.cls f.of.vc f.of.port f.seq f.tail f.of.msg) (s.setLnk n x))

/-! ### The active set (R305, R312) -/

/-- LANE (R305): the partner announces a new set; a lane that has slipped or retired here is left out (R318). -/
def execLane (d : BitVec 2) (mask : Byte) (cw : Half) (s : State) : Res :=
  let n := d.toNat
  .next (if ¬ s.carries n then s
    else s.modLnk n (fun x => { x with nextMask := some (mask.toNat &&& s.laneMask n (· = 2), cw.toNat) }))

/-- LANE_MASK_APPLY (R312): codeword AT has come. -/
def execLaneMaskApply (d : BitVec 2) (s : State) : Res :=
  let n := d.toNat
  .next (if ¬ s.carries n then s
    else match (s.lnk n).nextMask with
      | none => s
      | some (m, at_) => (s.modLnk n (fun x => { x with nextMask := none, cwseq := at_ })).applyMask n m)

/-- FREEZE_BLOCK (R318): the partner freezes whole. -/
def execFreezeBlock (d : BitVec 2) (s : State) : Res :=
  .next (if s.carries d.toNat then s.setLnkState d.toNat 5 else s)

/-- LINK_RETRAIN_AFTER_PARTNER_RESET (R318): the link trains again, and its queue is kept. -/
def execLinkRetrainAfterPartnerReset (d : BitVec 2) (s : State) : Res :=
  let n := d.toNat
  .next (if ¬ s.lanesRun ∨ s.lnkState n ≠ 5 then s
    else
      let x := s.lnk n
      let held := (x.retry.filter (fun f => !f.tail)).map (·.of)
      (s.breakOnLink n).startBringUp n { LaneLink.init with queue := held ++ x.queue })

/-! ### Messages off a link (R299, R300, R315) -/

/-- A message for this device may enter the mesh at the router of its port: fenced unless NT is 1. -/
def State.laneAdmits (s : State) (r : Nat) (h : Hdr) : Bool :=
  h.nt || (match s.posPanel r with
    | none => false
    | some p =>
      if h.mc then flag s Reg.NET_MCG_VALID (h.dst % 256) && decide (getF s Reg.NET_MCG_PANEL (h.dst % 256) = p) else s.inPanel p h.dst)

/-- A message taken off link d: its two flits' credits go back. -/
def State.takeArrived (s : State) (d : Nat) (m : LMsg) : State :=
  s.modLnk d (fun x => { x with arrived := x.arrived.erase m, freed := SMap.set 0 x.freed m.cls (SMap.get 0 x.freed m.cls + 2) })

/-- A message of a link waits: a bridge or a local one whose island is stopped. Through-switching goes on in a partial freeze (R318). -/
def State.arrivalWaits (s : State) (d : Nat) (m : LMsg) : Bool :=
  if s.proto d = 3 then s.arrayFrozen
  else decide (m.msg.h.ddev = s.devId) && s.tileFrozen (laneRouter (8 * d + m.port))

/-- LANE_MESSAGE_ARRIVAL: the oldest whole message that has arrived on link d and need not wait. -/
def execLaneMessageArrival (d : BitVec 2) (s : State) : Res :=
  let n := d.toNat
  .next (match (s.lnk n).arrived.find? (fun m => !s.arrivalWaits n m) with
    | none => s
    | some m =>
      let h := m.msg.h
      let r := laneRouter (8 * n + m.port)
      if ¬ s.lanesRun then s
      else if s.proto n = 3 then (s.takeArrived n m).emit .bridge [n, m.msg.hdr.toNat] (leBytes 128 m.msg.data.toNat)
      else if h.ddev ≠ s.devId then
        let s := s.takeArrived n m
        match s.suitLink h.ddev with
        | .inl e => s.laneSend e m.port (s.vcOn e (some (n, m.vc))) m.msg none
        | .inr e => s.countDrop e
      else if ¬ s.portUp (8 * n + m.port) ∨ ¬ s.laneAdmits r h then (s.takeArrived n m).countDrop n
      else (s.takeArrived n m).launchMsg (.lane n) r m.msg)

/-! ### Slips and bitslip (R312, R313) -/

/-- BLOCK_LOCK_LOSS (R312): the lane slips, is taken out of striping, and is searched. -/
def execBlockLockLoss (lane : BitVec 5) (found : Bool) (ofs : BitVec 6) (s : State) : Res :=
  let l := lane.toNat
  .next (if ¬ s.carries (linkOfLane l) ∨ s.laneState l ≠ 2 then s
    else
      let s := setF (setF ((s.setLaneState l 3).laneEvent l) Reg.LAN_LANE_STATUS_FOUND (bit found) l) Reg.LAN_LANE_STATUS_SLIP_OFS
        (if found then ofs.toNat else 0) l
      (s.modLane l (fun x => { x with ofs := if found then some ofs.toNat else none })).removeLane l)

/-- A write of LAN_BITSLIP with GO: refused for a lane that is neither slipped nor looped. -/
def State.bitslip (s : State) (l op count : Nat) (go : State → State) : State :=
  s.hostWrite Reg.LAN_BITSLIP_GO 0 0 (fun s =>
    if flag s Reg.LAN_BITSLIP_GO then s
    else
      let s := setF (setF (setF s Reg.LAN_BITSLIP_LANE l) Reg.LAN_BITSLIP_OP op) Reg.LAN_BITSLIP_COUNT count
      if s.laneState l = 3 ∨ s.laneState l = 5 then go (setF (setF s Reg.LAN_BITSLIP_GO 1) Reg.LAN_BITSLIP_RESULT 0)
      else setF s Reg.LAN_BITSLIP_RESULT 3)

/-- BITSLIP_SLIP (R313): OP 0; the receiver shifts by COUNT bits, which undo a slip by as many (DEDUCED, log entry 84). -/
def execBitslipSlip (lane : BitVec 5) (count : BitVec 6) (s : State) : Res :=
  let l := lane.toNat
  .next (s.bitslip l 0 count.toNat (fun s => s.modLane l (fun x => { x with ofs := x.ofs.map (fun o => (o + 64 - count.toNat) % 64) })))

/-- BITSLIP_RETRAIN (R313): OP 1; steps 1 to 5 run on the lane alone. -/
def execBitslipRetrain (lane : BitVec 5) (s : State) : Res :=
  let l := lane.toNat
  .next (s.bitslip l 1 (getF s Reg.LAN_BITSLIP_COUNT) (fun s => ((s.setLaneState l 1).setStep l 0).modLane l (fun x => { x with read := 0, agree := 0 })))

/-- The bitslip in progress ends with a result. -/
def State.bitslipEnd (s : State) (r : Nat) : State := setF (setF s Reg.LAN_BITSLIP_GO 0) Reg.LAN_BITSLIP_RESULT r

/-- A lane under a bitslip may rejoin: after OP 0, one that slipped and stands aligned, so far as its offset is known; after OP 1, one that has run
steps 1 to 5, with no test loop on it (R313, R318, R320). -/
def State.mayRejoin (s : State) (l : Nat) : Bool :=
  let st := s.laneState l
  if flag s Reg.LAN_BITSLIP_OP then decide (st = 1 ∧ 5 ≤ s.laneStep l ∧ getF s Reg.LAN_LOOP_MODE l = 0)
  else decide (st = 3) && !(s.laneSt l).looped && decide ((s.laneSt l).ofs.getD 0 = 0)

/-- LANE_REJOIN (R313): the realigned lane rejoins through a LANE block; a link that a slip took down comes up with it. -/
def execLaneRejoin (lane : BitVec 5) (s : State) : Res :=
  let l := lane.toNat
  .next (if ¬ s.lanesRun ∨ ¬ flag s Reg.LAN_BITSLIP_GO ∨ getF s Reg.LAN_BITSLIP_LANE ≠ l ∨ ¬ s.mayRejoin l then s
    else (s.joinLane l).bitslipEnd 1)

/-- BITSLIP_TIMEOUT (R313): 1 ms has passed. -/
def execBitslipTimeout (s : State) : Res :=
  let l := getF s Reg.LAN_BITSLIP_LANE
  .next (if ¬ s.lanesRun ∨ ¬ flag s Reg.LAN_BITSLIP_GO then s
    else (if s.laneState l = 1 then (s.setLaneState l 3).showMasks (linkOfLane l) else s).bitslipEnd 2)

/-- LANE_EVENT_LIMIT_EXCEEDED (R316): more events than LAN_LANE_LIMIT allows in a window retire the lane. -/
def execLaneEventLimitExceeded (lane : BitVec 5) (s : State) : Res :=
  let l := lane.toNat
  .next (if s.lanesRun ∧ getF s Reg.LAN_LANE_LIMIT_WINDOW ≠ 0 ∧ getF s Reg.LAN_LANE_LIMIT_COUNT < (s.laneSt l).events then
    (s.modLane l (fun x => { x with events := 0 })).retireLane l else s)

/-! ### Test loops (R320) -/

/-- LOOP_MODE_WRITE: a nonzero MODE takes an active lane out of striping; MODE 0 leaves it to a retrain. -/
def execLoopModeWrite (lane : BitVec 5) (mode : BitVec 2) (s : State) : Res :=
  let l := lane.toNat
  .next (s.hostWrite Reg.LAN_LOOP_MODE l 0 (fun s =>
    let st := s.laneState l
    let s := setF s Reg.LAN_LOOP_MODE mode.toNat l
    if mode = 0 then (if st = 5 then (s.setLaneState l 3).showMasks (linkOfLane l) else s)
    else if st = 2 then ((s.setLaneState l 5).modLane l (fun x => { x with looped := true })).removeLane l
    else if st = 3 then ((s.setLaneState l 5).modLane l (fun x => { x with looped := true })).showMasks (linkOfLane l)
    else s))

/-- LOOP_RUN: GO starts a run of the loop in force. -/
def execLoopRun (lane : BitVec 5) (s : State) : Res :=
  let l := lane.toNat
  .next (s.hostWrite Reg.LAN_LOOP_GO l 0 (fun s =>
    if getF s Reg.LAN_LOOP_MODE l = 0 ∨ flag s Reg.LAN_LOOP_GO l then s
    else setF (setF s Reg.LAN_LOOP_GO 1 l) Reg.LAN_LOOP_RES_DONE 0 l))

/-- LOOP_RUN_DONE: the run of 2^20 codeword times ends. -/
def execLoopRunDone (lane : BitVec 5) (errs : Nat) (s : State) : Res :=
  let l := lane.toNat
  .next (if ¬ s.lanesRun ∨ ¬ flag s Reg.LAN_LOOP_GO l then s
    else setF (setF (setF s Reg.LAN_LOOP_GO 0 l) Reg.LAN_LOOP_RES_DONE 1 l) Reg.LAN_LOOP_RES_ERRS (min errs 0xFFFFFF) l)

end Sys2Proof.Machine
end

