-- ==== Sys2Proof/Machine/Spdm.lean ====
section
/-! DEFINITION. Identity keys (R409), the SPDM responder and the DOE mailbox (R387, R388). The base specifications give the layout of the
messages; an answer leaves the device here as its kind, the values that R388 gives it, and its data (DESIGN CHOICE, log entry 19). -/

namespace Sys2Proof.Machine

/-! ### Keys (R409) -/

/-- The order of the SM2 group. -/
def sm2Order : Nat := 0xFFFFFFFEFFFFFFFFFFFFFFFFFFFFFFFF7203DF6B21C6052B53BBF40939D54123

def asciiBytes (s : String) : List Byte := s.toList.map (fun c => BitVec.ofNat 8 c.toNat)

/-- A private key derived from a byte string. -/
def deriveKey (l : List Byte) : Nat := beNat (sm3 l) % (sm2Order - 1) + 1

/-- The unique device secret: fuse words 0 to 3. -/
def State.secret (s : State) : List Byte := (List.range 4).flatMap (fun i => leBytes 8 (s.fuse i))

/-- The device identity key. -/
def State.identityKey (s : State) : Nat := deriveKey (s.secret ++ asciiBytes "CE4820-DIK")

/-- The alias key of firmware with digest m2. -/
def State.aliasKeyOf (s : State) (m2 : List Byte) : Nat := deriveKey (beBytes 32 s.identityKey ++ m2 ++ asciiBytes "CE4820-ALIAS")

/-- The certificate chain of slot 0: root and device certificates from flash, then the alias certificate. -/
def State.certChain (s : State) : List Byte := s.flashBytes 0x0FF00000 Config.chainBytes.val ++ Config.aliasCert s.identityKey s.aliasKey

/-! ### Measurements (R388) -/

def fuseWords (s : State) (lo n : Nat) : List Byte := (List.range n).flatMap (fun i => leBytes 8 (s.fuse (lo + i)))

/-- Harvest map, spare counts, charter. -/
def State.fuseMeasured (s : State) : List Byte := fuseWords s 40 8 ++ fuseWords s 48 1 ++ fuseWords s 64 76

/-- A field over all its copies, 4 bytes each. -/
def fldBytes (s : State) (f : Fld) : List Byte := (List.range f.n1).flatMap (fun i => leBytes 4 (getF s f i))

/-- MGT_PROFILE and the narrowing in force. -/
def State.narrowMeasured (s : State) : List Byte :=
  fldBytes s Reg.MGT_PROFILE_PROFILE ++ fldBytes s Reg.MGT_CHN_MASTER_LO_RWIN ++ fldBytes s Reg.MGT_CHN_MASTER_LO_WWIN
    ++ fldBytes s Reg.MGT_CHN_MASTER_HI_RCLS ++ fldBytes s Reg.MGT_CHN_MASTER_HI_FLAGS ++ fldBytes s Reg.MGT_CHN_HEM_MASK
    ++ fldBytes s Reg.MGT_CHN_PATCH_LO_MASK ++ fldBytes s Reg.MGT_CHN_PATCH_HI_MASK ++ fldBytes s Reg.MGT_CHN_WIN_BASE ++ fldBytes s Reg.MGT_CHN_WIN_LIMIT

/-- Measurement block i. -/
def State.measurement (s : State) (i : Nat) : List Byte := match i with
  | 1 => Config.romDigest
  | 2 => s.fwDigest
  | 3 => sm3 s.fuseMeasured
  | 4 => if s.cfg.signed = [] then List.replicate 32 0 else sm3 s.cfg.signed
  | 5 => sm3 s.narrowMeasured
  | _ => []

/-! ### Answers: kind, values, data -/

/-- A signature by the alias key. -/
def State.sign (s : State) (m : List Byte) : State × List Byte := (s.drawn, Config.sm2Sign s.draws s.aliasKey m)

/-- An SPDM error: the request is not supported. -/
def State.spdmError (s : State) (kind : Nat) : State := s.emit .doe [kind, 0]

/-- GET_VERSION: SPDM 1.2. -/
def State.doVersion (s : State) : State := s.emit .doe [1, 1, 0x12]

/-- GET_CAPABILITIES: CERT_CAP, CHAL_CAP, MEAS_CAP with signature (2); CTExponent 17. -/
def State.doCapabilities (s : State) : State := s.emit .doe [2, 1, 1, 1, 2, 17]

/-- NEGOTIATE_ALGORITHMS: what the requester offers of SM2 and SM3 is selected. -/
def State.doAlgorithms (s : State) (sm2 sm3 : Bool) : State := s.emit .doe [3, 1, bit sm2, bit sm3]

/-- GET_DIGESTS: the digest of the chain of slot 0. -/
def State.doDigests (s : State) : State := s.emit .doe [4, 1, 0] (sm3 s.certChain)

/-- GET_CERTIFICATE: a part of the chain; slots 1 to 7 are not supported. -/
def State.doCertificate (s : State) (slot off len : Nat) : State :=
  let l := (s.certChain.drop off).take len
  if slot ≠ 0 then s.spdmError 5 else s.emit .doe [5, 1, off, l.length, s.certChain.length - off - l.length] l

/-- CHALLENGE: the digest of the chain, and a signature by the alias key. -/
def State.doChallenge (s : State) (slot : Nat) (nonce : List Byte) : State :=
  if slot ≠ 0 then s.spdmError 6
  else
    let d := sm3 s.certChain
    let q := s.sign (nonce ++ d)
    q.1.emit .doe [6, 1] (d ++ q.2)

/-- GET_MEASUREMENTS: index 0 asks for the number of blocks, 0xFF for all of them. -/
def State.doMeasurements (s : State) (index : Nat) (sign : Bool) (nonce : List Byte) : State :=
  let blocks := if index = 0xFF then [1, 2, 3, 4, 5] else [index]
  let data := blocks.flatMap s.measurement
  if 5 < index ∧ index ≠ 0xFF then s.spdmError 7
  else if sign then
    let q := s.sign (nonce ++ data)
    q.1.emit .doe [7, 1, index, if index = 0 then 5 else blocks.length] (data ++ q.2)
  else s.emit .doe [7, 1, index, if index = 0 then 5 else blocks.length] data

/-- Any other data object. -/
def State.doOther (s : State) (l : List Byte) : State := s.drawn.emit .doe [0, 1] (Config.doeAnswer s.draws l)

/-- What the controller does with a request of the mailbox. -/
def State.doeServe (s : State) : Instr → State
  | .doeRequest l => s.doOther l
  | .getVersion => s.doVersion
  | .getCapabilities => s.doCapabilities
  | .negotiateAlgorithms a h => s.doAlgorithms a h
  | .getDigests => s.doDigests
  | .getCertificate slot off len => s.doCertificate slot.toNat off len
  | .challenge slot nonce => s.doChallenge slot.toNat nonce
  | .getMeasurements i sg nonce => s.doMeasurements i.toNat sg nonce
  | _ => s

/-! ### The mailbox (R387) -/

/-- The link is up and no full freeze or thermal shutdown has stopped the endpoint: it serves configuration space (R389, R436). -/
def State.cfgServed (s : State) : Bool := s.pcieUp && !s.endpointStopped

/-- The mailbox reports Busy: firmware does not run, or it holds a request. -/
def State.doeBusy (s : State) : Bool := !s.firmware || s.doeHeld.isSome

/-- A request arrives: `f` serves it; while firmware does not run the mailbox holds it, and one that holds a request takes no other. -/
def State.doeTake (s : State) (c : Instr) (f : State → State) : State :=
  if !s.cfgServed || s.doeHeld.isSome then s
  else if s.firmware then f s
  else { s with doeHeld := some c }

/-- Firmware runs again: the held request is served. -/
def State.doeResume (s : State) : State := match s.doeHeld with
  | none => s
  | some c => { s with doeHeld := none }.doeServe c

/-- DOE_REQUEST. -/
def execDoeRequest (bytes : List Byte) (s : State) : Res := .next (s.doeTake (.doeRequest bytes) (fun s => s.doOther bytes))

/-- DOE_ABORT: the request in progress is discarded. -/
def execDoeAbort (s : State) : Res := .next (if s.cfgServed then { s with doeHeld := none } else s)

/-- GET_VERSION. -/
def execGetVersion (s : State) : Res := .next (s.doeTake .getVersion (fun s => s.doVersion))

/-- GET_CAPABILITIES. -/
def execGetCapabilities (s : State) : Res := .next (s.doeTake .getCapabilities (fun s => s.doCapabilities))

/-- NEGOTIATE_ALGORITHMS. -/
def execNegotiateAlgorithms (sm2 sm3 : Bool) (s : State) : Res :=
  .next (s.doeTake (.negotiateAlgorithms sm2 sm3) (fun s => s.doAlgorithms sm2 sm3))

/-- GET_DIGESTS. -/
def execGetDigests (s : State) : Res := .next (s.doeTake .getDigests (fun s => s.doDigests))

/-- GET_CERTIFICATE. -/
def execGetCertificate (slot : BitVec 3) (off len : Nat) (s : State) : Res :=
  .next (s.doeTake (.getCertificate slot off len) (fun s => s.doCertificate slot.toNat off len))

/-- CHALLENGE. -/
def execChallenge (slot : BitVec 3) (nonce : List Byte) (s : State) : Res :=
  .next (s.doeTake (.challenge slot nonce) (fun s => s.doChallenge slot.toNat nonce))

/-- GET_MEASUREMENTS. -/
def execGetMeasurements (index : Byte) (sign : Bool) (nonce : List Byte) (s : State) : Res :=
  .next (s.doeTake (.getMeasurements index sign nonce) (fun s => s.doMeasurements index.toNat sign nonce))

end Sys2Proof.Machine
end

