-- ==== Sys2Proof/Machine/Mgmt.lean ====
section
/-! DEFINITION. The management controller: boot (R391 to R394, R414, R417), resets (R396), recovery (R393), firmware services (R395, R398, R407),
narrowing (R404), and black-box commands (R414 to R417). -/

namespace Sys2Proof.Machine

/-! ### Firmware images (R392, R393) -/

/-- The code of the first check that an image fails, 0 for none. -/
def State.fwCode (s : State) (l : List Byte) : Nat :=
  let len := imNum l 8 4
  if imNum l 0 4 ≠ 0x43454D31 ∨ imNum l 4 4 ≠ 1 ∨ len % 8 ≠ 0 ∨ 2 ^ 20 < len ∨ l.length < 224 + len then 1
  else if ¬ s.keyOk (imNum l 16 4) (imSlice l 96 64) then 2
  else if imNum l 20 4 < s.thermometer 27 then 3
  else if ¬ Config.sm2Verify (imSlice l 96 64) (l.take 160) (imSlice l 160 64) then 4
  else if sm3 (imSlice l 224 len) ≠ imSlice l 64 32 then 5
  else 0

/-- The image at an address of the flash. -/
def State.fwFlash (s : State) (a : Nat) : List Byte := s.flashBytes a (224 + min (imNum (s.flashBytes a 224) 8 4) (2 ^ 20))

/-- The image in the recovery buffer. -/
def State.fwBuffer (s : State) : List Byte :=
  let get (n : Nat) : List Byte := (List.range n).map (fun i => SMap.get 0 s.recov i)
  get (224 + min (imNum (get 224) 8 4) (2 ^ 20))

/-! ### Boot (R391) -/

/-- The copies of a voted field agree (R399). -/
def State.copiesAgree (s : State) : Bool :=
  [24, 27, 30].all (fun w => decide (s.fuse w = s.fuse (w + 1)) && decide (s.fuse w = s.fuse (w + 2)))

/-- A fuse word is uncorrectable, or voted copies disagree (R399). -/
def State.fusesBad (s : State) : Bool := s.fuseErr.any (fun e => decide (e.2 = 2)) || !s.copiesAgree

/-- The newest SEQ that the ring holds. -/
def State.newestSeq (s : State) : Nat :=
  s.bbox.foldl (fun n e => let q := leNat (e.2.take 4); if 2 ≤ e.1 ∧ bbRing q = e.1 then max n q else n) 0

/-- The ROM recovers the black box (R411, R414) and counts the boot. -/
def State.recoverBlackBox (s : State) : State :=
  let s := if s.bbSlot 0 = bbHeader then s else { s with bbox := [(0, bbHeader)], sinceSum := 0 }
  let j := s.bbSlot 1
  let at_ := bbRing (leNat (j.take 4))
  let s := if bbSound j ∧ s.bbSlot at_ ≠ j then { s with bbox := SMap.set [] s.bbox at_ j } else s
  let q := s.newestSeq
  let s := { s with bbBreak := decide (q ≠ 0) && !bbSound (s.bbSlot (bbRing q)), boots := s.boots + 1 }
  setF (setF (setF s Reg.MGT_BB_SEQ_VALUE q) Reg.MGT_BB_HEAD_SLOT (if q = 0 then 0 else bbRing q)) Reg.MGT_BOOT_STATUS_BOOTS s.boots

/-- Sections are retired again or for the first time, before EN (R285, R294); false where HBM goes out of service. -/
def State.retireAll (s : State) (l : List Nat) : State :=
  let l := (l.filter (fun g => decide (g < 2048) && !s.sectRetired g)).eraseDups
  if l = [] then s else if s.tooMany l then s.hbmOut else s.rebuildMap l

/-- Step 5: HBM is trained, failed channels and listed sections are retired, and EN is set. -/
def State.bootHbm (s : State) (failed : List Nat) : State :=
  let s := s.trainAll failed
  let new := failed.flatMap ctlSects
  let s := s.retireAll (s.listedSects ++ new)
  let s := (new.filter (fun g => s.sectRetired g)).foldl (fun (s : State) g => s.report 6 (unitNo blkHBM g) (leBytes 2 g ++ leBytes 2 s.hbmT)) s
  (setF s Reg.HBM_MAP_CTRL_EN 1).raise 26

/-- Step 6: a flash full load when the flash holds an image (R359). -/
def State.bootFabric (s : State) : State :=
  if leNat (s.flashBytes 0 4) ≠ 0x43454C31 then s
  else { s with cfg := { s.cfg with queue := s.cfg.queue ++ [⟨4, 0, 2, 0, 0, none⟩] } }

/-- Steps 4 to 6: firmware of image `l` starts from `slot`. -/
def State.startFirmware (s : State) (slot : Nat) (l : List Byte) (failed : List Nat) : State :=
  let m2 := sm3 (imSlice l 224 (imNum l 8 4))
  let s := { s with fwKey := imNum l 16 4, fwVer := imNum l 20 4, fwDigest := m2, aliasKey := s.aliasKeyOf m2, locked := true, booted := true }
  let s := setF (setF s Reg.MGT_BOOT_STATUS_STATE 1) Reg.MGT_BOOT_STATUS_SLOT slot
  let s := (s.mgmtRecord 1 s.bootPayload).commitAll
  let cold := s.coldBoot
  let s := if cold then s.applyRetirements else s
  let s := { s.writeSummaries s.namedTiles s.listedSects s.listedLanes with coldBoot := false }
  if cold then (s.bootHbm failed).bootFabric else s

/-- Step 3: the primary image, then the backup; recovery when both fail. -/
def State.bootImages (s : State) (failed : List Nat) : State :=
  let p := s.fwFlash 0x0E000000
  let b := s.fwFlash 0x0F000000
  if s.fwCode p = 0 then s.startFirmware 0 p failed
  else
    let s := setF s Reg.MGT_BOOT_STATUS_CODE (s.fwCode p)
    if s.fwCode b = 0 then s.startFirmware 1 b failed
    else { setF (setF s Reg.MGT_BOOT_STATUS_CODE (s.fwCode b)) Reg.MGT_BOOT_STATUS_STATE 2 with locked := true }

/-! ### Services that waited (R395) -/

/-- Masters: cluster of a mover's ID. -/
def moverOf (id : Nat) : Option Nat := if 2 ≤ id ∧ id ≤ 10 then some (id - 2) else none

/-- A mover cluster is thawed: its charter-frozen channels become idle. -/
def State.thawChans (s : State) (k : Nat) : State :=
  ((List.range 64).filter (fun n => (s.chan k n).charter)).foldl (fun (s : State) n =>
    let s := s.modChan k n (fun c => { c with charter := false })
    if s.chanState k n = 6 then s.setChanState k n 0 else s) s

/-- Service 0x01 (R407): the violation record is committed first. -/
def State.runThaw (s : State) : State × Nat :=
  let id := bits (getF s Reg.MGT_SVC_ARG_ARG) 7 0
  if ¬ s.frozenMaster id then (s, 2)
  else
    let s := (setFbit s.commitAll Reg.MGT_FROZEN_FROZEN (id % 32) false (id / 32)).mgmtRecord 3 [0, 0, BitVec.ofNat 8 id]
    let s := match moverOf id with
      | some k => s.thawChans k
      | none => s
    (s.raise 29, 1)

/-- Service 0x02 (R285). -/
def State.runTrain (s : State) (failed : List Nat) : State × Nat :=
  if !s.hbmRuns || decide (s.hbm.retiring ≠ []) || s.hbm.outOfService then (s, 2)
  else
    let s := s.abandonRetrain.hbmDrain.trainAll failed
    let new := (failed.flatMap ctlSects).filter (fun g => !s.sectRetired g)
    let s := s.retireAll new
    ((new.filter (fun g => s.sectRetired g)).foldl (fun (s : State) g => s.report 6 (unitNo blkHBM g) (leBytes 2 g ++ leBytes 2 s.hbmT)) s,
      if failed = [] then 1 else 3)

/-- Service 0x03 (R286): the channel's requests wait until the retraining ends, which sets RESULT. -/
def State.runRetrain (s : State) : State × Nat :=
  let v := getF s Reg.MGT_SVC_ARG_ARG
  let c := 32 * bits v 2 0 + bits v 7 3
  let st := s.chF Reg.HBM_CH_STATUS_STATE c
  if !s.hbmRuns || decide (s.hbm.retiring ≠ []) || decide (st ≠ 1 ∧ st ≠ 4) || s.hbm.retraining.isSome then (s, 2) else (s.retrain c true, 0)

/-- Service 0x04 (R310). -/
def State.runLink (s : State) : State × Nat :=
  let d := bits (getF s Reg.MGT_SVC_ARG_ARG) 1 0
  if s.proto d = 0 ∨ ¬ s.lanesRun then (s, 2) else (s.requestUp d, 1)

/-- Service 0x05 (R395): the row is replaced, and what it held is lost. -/
def State.runRepair (s : State) : State × Nat :=
  let v := getF s Reg.MGT_SVC_ARG_ARG
  let g := bits v 10 0
  let row := bits v 26 11
  if 49152 ≤ row ∨ ¬ s.hbmRuns then (s, 2)
  else ({ s with hbm := { s.hbm with repaired := s.hbm.repaired ++ [(g, row)] } }.hbmLose (fun k => decide (k / 4096 = g * 49152 + row)), 1)

/-! ### Fuse services (R398) -/

def State.orFuse (s : State) (w v : Nat) : State := { s with fuses := SMap.set 0 s.fuses w (BitVec.ofNat 64 (s.fuse w ||| v)) }
def State.putFuse (s : State) (w lo n v : Nat) : State := { s with fuses := SMap.set 0 s.fuses w (BitVec.ofNat 64 (putBits (s.fuse w) lo n v)) }

/-- A word's programming lock (words 504 to 511). -/
def State.fuseLocked (s : State) (w : Nat) : Bool := bitAt (s.fuse (504 + w / 64)) (w % 64)

/-- One more substituted site enters its row's half-word. -/
def State.harvestSite (s : State) (site : Nat) : State :=
  let y := site / 128
  let c := site % 128
  let base := 16 * (y % 4)
  let s := if (s.rowHarvest y).length = 0 then s.orFuse (40 + y / 4) ((128 + c) * 2 ^ base) else s.orFuse (40 + y / 4) ((128 + c) * 2 ^ (base + 8))
  { s.putFuse 48 (2 * y) 2 (s.rowSites y - 1) with soft := s.soft.erase site }

/-- Service 0x06: the substitutions of every row whose word is not locked; each changed word is locked, and word 48 with the last of them. -/
def State.runCommit (s : State) : State × Nat :=
  let l := s.soft.filter (fun site => !s.fuseLocked (40 + site / 512) && !s.fuseLocked 48 && decide ((s.rowHarvest (site / 128)).length < 2))
  let s := l.foldl (fun (s : State) site => s.harvestSite site) s
  let s := (l.map (fun site => 40 + site / 512)).eraseDups.foldl (fun (s : State) w => s.orFuse (504 + w / 64) (2 ^ (w % 64))) s
  (if (List.range 8).all (fun i => s.fuseLocked (40 + i)) then s.orFuse 504 (2 ^ 48) else s, 1)

/-- Bits of a thermometer set, the lowest clear one first, until its count is n. -/
def State.advance (w n : Nat) : Nat → State → State
  | 0, s => s
  | k + 1, s =>
    if n ≤ s.thermometer w then s
    else
      let free := (List.range 64).find? (fun b => !(decide (2 ≤ bit (bitAt (s.fuse w) b) + bit (bitAt (s.fuse (w + 1)) b) + bit (bitAt (s.fuse (w + 2)) b))))
      match free with
      | none => s
      | some b => State.advance w n k (((s.orFuse w (2 ^ b)).orFuse (w + 1) (2 ^ b)).orFuse (w + 2) (2 ^ b))

/-- Service 0x07. -/
def State.runAdvance (s : State) : State × Nat :=
  let v := getF s Reg.MGT_SVC_ARG_ARG
  let w := if bitAt v 0 then 27 else 24
  let now := if bitAt v 0 then s.fwVer else imNum s.cfg.signed 32 4
  let n := bits v 7 1
  if now < n ∨ n < s.thermometer w ∨ 64 < n then (s, 2) else (State.advance w n 64 s, 1)

/-- Service 0x08. -/
def State.runRevoke (s : State) : State × Nat :=
  let k := bits (getF s Reg.MGT_SVC_ARG_ARG) 1 0
  if k = s.fwKey then (s, 2) else (((s.orFuse 30 (2 ^ k)).orFuse 31 (2 ^ k)).orFuse 32 (2 ^ k), 1)

/-- A fuse service needs VFUSE, and writes a record either way. -/
def State.fuseService (s : State) (code : Nat) (f : State → State × Nat) : State × Nat :=
  let q := if s.vfuse then f s else (s, 4)
  (q.1.mgmtRecord 0x0D ([BitVec.ofNat 8 code] ++ leBytes 4 (getF s Reg.MGT_SVC_ARG_ARG) ++ [BitVec.ofNat 8 q.2]), q.2)

/-! ### Serving (R395) -/

/-- RESULT is set and GO reads 0 again; a service that goes on (result 0) keeps GO. -/
def State.svcDone (q : State × Nat) : State :=
  setF (setF { q.1 with svcHeld := none } Reg.MGT_SVC_CTRL_RESULT q.2) Reg.MGT_SVC_CTRL_GO (bit (decide (q.2 = 0)))

/-- The host writes GO with a code. -/
def State.service (s : State) (code : Nat) (found : List Nat) (f : State → State × Nat) : State :=
  let a := Reg.MGT_SVC_CTRL_GO.addr 0 0
  s.hostWrite Reg.MGT_SVC_CTRL_GO 0 0 (fun s =>
    if flag s Reg.MGT_SVC_CTRL_GO then s.discard a (256 + code)
    else
      let s := setF (setF s Reg.MGT_SVC_CTRL_CODE code) Reg.MGT_SVC_CTRL_RESULT 0
      if s.firmware then State.svcDone (f s) else { setF s Reg.MGT_SVC_CTRL_GO 1 with svcHeld := some (code, found) })

def chanList (l : List Byte) : List Nat := l.map (·.toNat)

/-- A service that waited for the firmware; a reserved code gives RESULT 2. -/
def State.svcServe (s : State) : State × Nat := match s.svcHeld with
  | some (1, _) => s.runThaw
  | some (2, l) => s.runTrain l
  | some (3, _) => s.runRetrain
  | some (4, _) => s.runLink
  | some (5, _) => s.runRepair
  | some (6, _) => s.fuseService 6 State.runCommit
  | some (7, _) => s.fuseService 7 State.runAdvance
  | some (8, _) => s.fuseService 8 State.runRevoke
  | _ => (s, 2)

/-- Firmware has started: what waited for it is served. -/
def State.resume (s : State) : State :=
  let s := if s.firmware ∧ flag s Reg.MGT_SVC_CTRL_GO then State.svcDone s.svcServe else s
  if s.firmware then s.doeResume else s

/-- SVC_THAW. -/
def execSvcThaw (s : State) : Res := .next (s.service 1 [] State.runThaw)

/-- SVC_TRAIN_HBM: `failed` are the channels that fail a step. -/
def execSvcTrainHbm (failed : List Byte) (s : State) : Res := .next (s.service 2 (chanList failed) (fun s => s.runTrain (chanList failed)))

/-- SVC_RETRAIN_CHANNEL. -/
def execSvcRetrainChannel (s : State) : Res := .next (s.service 3 [] State.runRetrain)

/-- SVC_LINK_BRING_UP. -/
def execSvcLinkBringUp (s : State) : Res := .next (s.service 4 [] State.runLink)

/-- SVC_SOFT_REPAIR. -/
def execSvcSoftRepair (s : State) : Res := .next (s.service 5 [] State.runRepair)

/-- SVC_COMMIT_RETIREMENTS. -/
def execSvcCommitRetirements (s : State) : Res := .next (s.service 6 [] (fun s => s.fuseService 6 State.runCommit))

/-- SVC_ADVANCE_ROLLBACK. -/
def execSvcAdvanceRollback (s : State) : Res := .next (s.service 7 [] (fun s => s.fuseService 7 State.runAdvance))

/-- SVC_REVOKE_KEY. -/
def execSvcRevokeKey (s : State) : Res := .next (s.service 8 [] (fun s => s.fuseService 8 State.runRevoke))

/-! ### Boot, reset, recovery -/

/-- The controller stands at its ROM entry, and neither PERST_N nor a full freeze holds it. -/
def State.atRom (s : State) : Bool :=
  decide (s.mgmtState = 0 ∨ s.mgmtState = 4) && !s.perst && decide (getF s Reg.OBS_FRZ_STATUS_STATE ≠ 3)

/-- BOOT (R391, R399): `failed` are the HBM channels that fail training. -/
def execBoot (failed : List Byte) (s : State) : Res :=
  .next (if !s.atRom then s
    else if s.fusesBad then setF s Reg.MGT_BOOT_STATUS_STATE 3
    else (s.recoverBlackBox.bootImages (chanList failed)).resume)

/-- The controller restarts from its ROM; nothing else is reset, and steps 5 and 6 are skipped (R396). -/
def State.mgmtReset (s : State) : State := { setF s Reg.MGT_BOOT_STATUS_STATE 4 with coldBoot := false }

/-- MANAGEMENT_RESET. -/
def execManagementReset (s : State) : Res := .next (s.hostWrite Reg.MGT_CTRL_MRESET 0 0 (fun s => s.mgmtReset))

/-- MANAGEMENT_WATCHDOG. -/
def execManagementWatchdog (s : State) : Res := .next (if s.firmware then s.mgmtReset else s)

/-- RECOVER (R393): the ROM checks the recovery buffer; no effect outside recovery. -/
def execRecover (failed : List Byte) (s : State) : Res :=
  .next (s.hostWrite Reg.MGT_CTRL_RECOVER 0 0 (fun s =>
    let l := s.fwBuffer
    if s.mgmtState ≠ 2 then s
    else match s.fwCode l with
      | 0 => (s.startFirmware 2 l (chanList failed)).resume
      | c => setF s Reg.MGT_BOOT_STATUS_CODE c))

/-! ### Narrowing (R404, R434) -/

/-- A trace ring outside its cluster's windows is disabled. -/
def State.checkRings (s : State) : State :=
  (List.range 8).foldl (fun (s : State) k =>
    if flag s Reg.OBS_TRACE_LEN_EN k ∧ ¬ s.ringGranted k (s.ringLen k) then setF s Reg.OBS_TRACE_LEN_EN 0 k else s) s

/-- Narrowing registers, but for the windows. -/
def narrowBit (f : Fld) : Bool := narrowFlds.contains f && decide (f.acc = .w1c)

/-- A write of a narrowing register. -/
def State.narrow (s : State) (a v : Nat) : State :=
  let l := fieldsAt a
  match l.find? (fun x => decide (x.fld = Reg.MGT_CHN_WIN_BASE)) with
  | some x =>
    if bits v 15 0 < getF s Reg.MGT_CHN_WIN_BASE x.i ∨ getF s Reg.MGT_CHN_WIN_LIMIT x.i < bits v 31 16 then s.discard a v
    else setF (setF s Reg.MGT_CHN_WIN_BASE (bits v 15 0) x.i) Reg.MGT_CHN_WIN_LIMIT (bits v 31 16) x.i
  | none => l.foldl (fun (s : State) x =>
      if narrowBit x.fld then
        let old := getF s x.fld x.i
        setF s x.fld (old - (old &&& bits v (x.fld.lo + x.fld.width - 1) x.fld.lo)) x.i
      else s) s

/-- CHARTER_NARROWING. -/
def execCharterNarrowing (addr : Bar0Addr) (val : Word) (s : State) : Res :=
  let a := addr.toNat
  .next (if (fieldsAt a).any (fun x => narrowFlds.contains x.fld && decide (x.fld ≠ Reg.MGT_FROZEN_FROZEN)) then
      s.hostAccess a 4 true (expertAt a) (fun s => (s.narrow a val.toNat).checkRings)
    else s)

/-! ### The black box -/

/-- HOST_RECORD (R415): the write of MGT_BB_HOST_6 queues the record. -/
def execHostRecord (val : Word) (s : State) : Res :=
  .next (s.hostWrite Reg.MGT_BB_HOST_DATA 6 0 (fun s =>
    s.mgmtRecord 0x0E ((List.range 6).flatMap (fun i => leBytes 4 (SMap.get 0 s.bbHost i)) ++ leBytes 4 val.toNat)))

/-- BLACK_BOX_COMMIT (R414, R416). -/
def execBlackBoxCommit (s : State) : Res := .next (if s.firmware then s.commitNext else s)

/-- RETIREMENT_SUMMARY (R417). -/
def execRetirementSummary (s : State) : Res :=
  .next (if s.firmware ∧ 4096 ≤ s.sinceSum then s.writeSummaries s.namedTiles s.listedSects s.listedLanes else s)

end Sys2Proof.Machine
end

