-- ==== Sys2Proof/Machine/Pcie.lean ====
section
/-! DEFINITION. The PCIe endpoint: configuration space (R371, R372), BAR2 (R375, R376), MSI-X unmasking (R379), invalidations (R385), link events
and resets (R389, R448), and D3hot (R455, R456). The base specification gives configuration space its layout (PRESUMED, log entry 9). -/

namespace Sys2Proof.Machine

/-! ### Configuration space -/

/-- Bits that never change, of the doubleword at `o`: identification, capability headers and capabilities. -/
def State.cfgFixed (s : State) (o : Nat) : Nat :=
  let ids := if s.fuseFault then 0 else s.fuse 5
  match o with
  | 0x00 => 0x48201F6E
  | 0x04 => 0x00100000
  | 0x08 => 0x12000000 + bits ids 7 0
  | 0x10 => 0x4
  | 0x18 => 0xC
  | 0x20 => 0x4
  | 0x2C => bits ids 39 8
  | 0x34 => capPM
  | 0x40 => 0x00034801
  | 0x44 => 0x8
  | 0x48 => 0x00FF6011
  | 0x4C => 0x00150000
  | 0x50 => 0x00151000
  | 0x60 => 0x00020010
  | 0x64 => 0x00008022
  | 0x6C => 0x00000886
  | 0x84 => 0x0003001F
  | 0x8C => 0x0000007E
  | 0x100 => 0x15020001
  | 0x150 => 0x16010015
  | 0x154 => 0x00FFC000
  | 0x158 => 0x00000022
  | 0x160 => 0x1701000F
  | 0x170 => 0x18010013
  | 0x178 => 64
  | 0x180 => 0x0001002E
  | _ => 0

/-- The size code of BAR2: 2^code MiB; reset 64 GiB. -/
def State.bar2Code (s : State) : Nat :=
  let c := bits (s.cfgBits (capREBAR + 8)) 13 8
  if c = 0 then 16 else c

/-- The size of BAR2 in GiB. -/
def State.bar2Gib (s : State) : Nat := 2 ^ (s.bar2Code - 10)

/-- Bits that software writes. -/
def State.cfgMask (s : State) (o : Nat) : Nat :=
  match o with
  | 0x04 => 0x00000146
  | 0x10 => 0xFC000000
  | 0x14 => 0xFFFFFFFF
  | 0x18 => (2 ^ 64 - s.bar2Gib * 2 ^ 30) % 2 ^ 32
  | 0x1C => (2 ^ 64 - s.bar2Gib * 2 ^ 30) / 2 ^ 32
  | 0x20 => 0xFFC00000
  | 0x24 => 0xFFFFFFFF
  | 0x44 => 0x00000103
  | 0x48 => 0xC0000000
  | 0x68 => 0x000077EF
  | 0x70 => 0x0000FFFF
  | 0x88 => 0x0000FFFF
  | 0x90 => 0x0000000F
  | 0x108 => 0xFFFFFFFF
  | 0x10C => 0xFFFFFFFF
  | 0x114 => 0xFFFFFFFF
  | 0x158 => 0x00003F00
  | 0x164 => 0x801F0000
  | 0x174 => 0x00000001
  | 0x17C => 0xFFFFFFFF
  | 0x188 => 0x00000002
  | _ => 0

/-- Error status registers: a 1 clears its bit. -/
def cfgClears (o : Nat) : Bool := decide (o = 0x104 ∨ o = 0x110)

/-- What the doubleword at `o` reads as. -/
def State.cfgRead (s : State) (o : Nat) : Nat :=
  let link := getF s Reg.PCI_LINK_STATUS_SPEED * 2 ^ 16 + getF s Reg.PCI_LINK_STATUS_WIDTH * 2 ^ 20
  match o with
  | 0x70 => s.cfgBits o ||| link
  | 0x158 => 0x22 + s.bar2Code * 256
  | 0x174 => s.cfgBits o ||| (bit s.priStopped * 2 ^ 16) ||| (bit (!s.priEn) * 2 ^ 24)
  | 0x18C => bit s.doeBusy
  | _ => s.cfgFixed o ||| s.cfgBits o

/-- A vector that is no longer masked sends what its pending bit holds (R379). -/
def State.flushPba (s : State) : State :=
  ((List.range 256).filter (fun v => SMap.get false s.pba v && !s.masked v)).foldl (fun (s : State) v =>
    { s with pba := SMap.set false s.pba v false }.emit .msix (s.vectorArgs v)) s

/-- PMCSR.PowerState. -/
def State.powerState (s : State) : Nat := s.cfgBits (capPM + 4) % 4

/-- The function moves to D3hot, which enters device standby when D3_AUTO is set (R455). -/
def State.enterD3 (s : State) : State :=
  if s.powerState = 3 then s
  else
    let s := s.setCfgBits (capPM + 4) (s.cfgBits (capPM + 4) / 4 * 4 + 3)
    if flag s Reg.PWR_STBY_D3_AUTO then s.standbyAsk else s

/-- The function moves to D0, which leaves device standby (R456). -/
def State.enterD0 (s : State) : State :=
  if s.powerState = 0 then s else (s.setCfgBits (capPM + 4) (s.cfgBits (capPM + 4) / 4 * 4)).standbyLeave

/-- A write of the doubleword at `o` with the value that its enabled bytes give. -/
def State.cfgWrite (s : State) (o v : Nat) : State :=
  let old := s.cfgBits o
  let new := v &&& s.cfgMask o
  if cfgClears o then s.setCfgBits o (old - (old &&& v))
  else match o with
    | 0x44 =>
      let s := s.setCfgBits o (new / 4 * 4 + old % 4)
      if new % 4 = 3 then s.enterD3 else if new % 4 = 0 then s.enterD0 else s
    | 0x48 => { s.setCfgBits o new with msixEn := bitAt new 31, msixMaskAll := bitAt new 30 }.flushPba
    | 0x158 => if 10 ≤ bits v 13 8 ∧ bits v 13 8 ≤ 19 then s.setCfgBits o new else s
    | 0x174 =>
      let s := s.setCfgBits o new
      if bitAt old 0 ≠ bitAt new 0 then { s with priStopped := false } else s
    | _ => s.setCfgBits o new

/-- The bits of the enabled bytes. -/
def beMask (be : BitVec 4) : Nat := (List.range 4).foldl (fun n i => n + bit (be.getLsbD i) * 255 * 256 ^ i) 0

/-- CONFIG_REQUEST (R372): answered by the endpoint, never with Request Retry Status. -/
def execConfigRequest (write : Bool) (off : BitVec 12) (be : BitVec 4) (val : Word) (s : State) : Res :=
  let o := off.toNat / 4 * 4
  let m := beMask be
  .next (if !s.cfgServed then s
    else if write then
      let keep := if cfgClears o then 0 else s.cfgBits o &&& (2 ^ 32 - 1 - m)
      (s.cfgWrite o ((val.toNat &&& m) ||| keep)).emit .completion [o, 0, 3]
    else s.emit .completion [o, 0, 3] (leBytes 4 (s.cfgRead o)))

/-! ### BAR0 and BAR2 -/

/-- BAR0_INVALID_ACCESS (R374). -/
def execBar0InvalidAccess (addr : Bar0Addr) (write : Bool) (s : State) : Res :=
  .next (if s.hostServed && s.blockServed addr.toNat && s.warmServed addr.toNat then s.badSize addr.toNat write else s)

/-- The device address of offset `o` of BAR2 (R375). -/
def State.bar2Addr (s : State) (o : Nat) : Nat := getF s Reg.PCI_BAR2_WIN_BASE / s.bar2Gib * s.bar2Gib * 2 ^ 30 + o

/-- BAR2 requests reach the endpoint: not in device standby, and within the BAR. -/
def State.bar2Served (s : State) (o n : Nat) : Bool :=
  s.hostServed && decide (getF s Reg.PWR_STBY_STATE = 0) && decide (o + n ≤ s.bar2Gib * 2 ^ 30)

/-- One completion of a BAR2 read: status, EP. -/
def State.bar2Answer (s : State) (o status : Nat) (ep : Bool) (l : List Byte) : State := s.emit .completion [o, status, 2, bit ep] l

/-- Completer Abort for a BAR2 read. -/
def State.bar2Abort (s : State) (o : Nat) : State := (s.aerUncorr aerAbort).bar2Answer o 4 false []

/-- The outcome that the checks give a BAR2 request: 0 it is served, 1 the host is frozen, 2 the charter refuses it, 3 its address does,
or a device warm reset runs (R447). -/
def State.bar2Check (s : State) (write : Bool) (a n : Nat) : Nat :=
  if s.warming.isSome then 3
  else if s.frozenMaster idHost then 1
  else if !s.hbmGranted idHost write a (a + n - 1) then 2
  else if s.hbmRefused idHost a (a + n - 1) then 3
  else 0

/-- A unit of a BAR2 read that returns poisoned (R288). -/
def State.bar2Poison (s : State) (a : Nat) : State :=
  let g := (s.hbmPlace a).1
  (s.hbmUncorr (sectCtl g)).sectDue [g]

/-- BAR2_READ (R375, R376): checked whole, then served unit by unit; unit i of `bad` is uncorrectable. -/
def execBar2Read (addr : HbmAddr) (len : Nat) (bad : List Nat) (s : State) : Res :=
  let o := addr.toNat
  let a := s.bar2Addr o
  .next (if !s.bar2Served o len then s
    else if len = 0 ∧ ¬ s.frozenMaster idHost ∧ s.warming = none then s.bar2Answer o 0 false [0, 0, 0, 0]
    else match s.bar2Check false a len with
      | 1 => (bumpF s Reg.MGT_VIOL_CNT_VALUE).bar2Abort o
      | 2 => (s.violation { master := idHost, kind := 0, reason := 1, addr := a, len := len }).bar2Abort o
      | 3 => s.bar2Abort o
      | _ =>
        if s.hbmBusy a len then s.hbmLate idHost a len
        else ((hbmParts a len).zipIdx).foldl (fun (s : State) p =>
          let q := s.hbmRead p.1.1 p.1.2
          let ep := bad.contains p.2
          (if ep then q.1.bar2Poison p.1.1 else q.1).bar2Answer (o + (p.1.1 - a)) 0 (ep || q.2.2) q.2.1) (s.hbmTaken idHost a))

/-- The bytes of a write whose enables are set, run by run; `got` is the run before address `a`, last byte first. -/
def State.storeEnabled (s : State) (a : Nat) (got : List Byte) : List (Option Byte) → State
  | [] => if got = [] then s else s.hbmStore (a - got.length) got.reverse
  | none :: r => (if got = [] then s else s.hbmStore (a - got.length) got.reverse).storeEnabled (a + 1) [] r
  | some b :: r => s.storeEnabled (a + 1) (b :: got) r

/-- BAR2_WRITE (R375, R376): discarded whole, or each unit is one write of its enabled bytes. -/
def execBar2Write (addr : HbmAddr) (bytes : List (Option Byte)) (poisoned : Bool) (s : State) : Res :=
  let o := addr.toNat
  let a := s.bar2Addr o
  let n := bytes.length
  .next (if !s.bar2Served o n ∨ n = 0 then s
    else if poisoned then s.aerUncorr aerPoisoned
    else match s.bar2Check true a n with
      | 1 => bumpF s Reg.MGT_VIOL_CNT_VALUE
      | 2 => s.violation { master := idHost, kind := 1, reason := 1, addr := a, len := n }
      | 3 => s.aerUncorr aerAbort
      | _ => if s.hbmBusy a n then s else (s.hbmAccept a n).storeEnabled a [] bytes)

/-! ### MSI-X (R379) -/

/-- MSIX_UNMASK: the host clears the mask bit of a vector's table entry; a pending message is sent. -/
def execMsixUnmask (v : Byte) (s : State) : Res :=
  .next (s.hostAccess (0x15000C + 16 * v.toNat) 4 true false (fun s => s.unmask v.toNat))

/-! ### Address translation (R385) -/

/-- Pages of 4 KiB that hold bytes [addr, addr + len). -/
def inPages (addr len pg : Nat) : Bool := decide (addr / 4096 ≤ pg ∧ pg ≤ (addr + len - 1) / 4096)

/-- ATS_INVALIDATE: the cache stops using the entries at once. -/
def execAtsInvalidate (addr : DWord) (len : Nat) (s : State) : Res :=
  let a := addr.toNat % 2 ^ 57
  .next (if !s.cfgServed ∨ len = 0 then s
    else { s with atc := s.atc.filter (fun pg => !inPages a len pg), invalidating := s.invalidating ++ [(a, len)] })

/-- A cluster 8 channel waits for host data of the range. -/
def State.readsRange (s : State) (a len : Nat) : Bool :=
  (List.range 64).any (fun n => (s.chan 8 n).buf.any (fun b =>
    decide (spaceOf b.addr = 3 ∧ b.raw.length < b.len)
      && decide (a / 4096 ≤ (b.addr + b.len - 1) % 2 ^ 57 / 4096 ∧ (b.addr + b.raw.length) % 2 ^ 57 / 4096 ≤ (a + len - 1) / 4096)))

/-- INVALIDATE_COMPLETE: nothing issued under the oldest invalidation's entries is outstanding. -/
def execInvalidateComplete (s : State) : Res :=
  .next (match s.invalidating with
    | [] => s
    | i :: r => if !s.cfgServed || s.readsRange i.1 i.2 then s else { s with invalidating := r }.emit .invalidateDone [i.1, i.2])

/-! ### The link (R389, R448, R455) -/

/-- PCIE_LINK_UP: 64 GT/s runs in Flit mode (R371). -/
def execPcieLinkUp (speed width : Nat) (flit rev : Bool) (s : State) : Res :=
  .next (if s.pcieUp || s.perst || s.endpointStopped || decide (speed = 0 ∨ 6 < speed ∨ ¬ (width = 1 ∨ width = 2 ∨ width = 4 ∨ width = 8)) then s
    else
      let s := setF (setF s Reg.PCI_LINK_STATUS_SPEED speed) Reg.PCI_LINK_STATUS_WIDTH width
      { setF (setF s Reg.PCI_LINK_STATUS_FLIT (bit (flit || decide (speed = 6)))) Reg.PCI_LINK_STATUS_REV (bit rev) with pcieUp := true })

/-- PCIE_HOT_RESET. -/
def execPcieHotReset (s : State) : Res := .next s.hotBy

/-- DL_DOWN. -/
def execDlDown (s : State) : Res := .next s.hotBy

/-- D3HOT_ENTRY: the host writes PowerState. -/
def execD3hotEntry (s : State) : Res := .next (if s.cfgServed then s.enterD3 else s)

/-- D0_TRANSITION. -/
def execD0Transition (s : State) : Res := .next (if s.cfgServed then s.enterD0 else s)

end Sys2Proof.Machine
end

