-- ==== Sys2Proof/Machine/Power.lean ====
section
/-! DEFINITION. Resets (R444 to R449), supplies and brownout (R457 to R459), the power cap and droop (R451, R452), temperature (R284, R460),
and device standby (R455, R456). -/

namespace Sys2Proof.Machine

/-! ### Resets -/

/-- POWER_ON (R444). -/
def execPowerOn (s : State) : Res := .next s.powerOn

/-- PERST_N_ASSERT (R449): everything but the management island is held in a cold reset, and the controller at its ROM entry. A thermal
shutdown goes on (R460). -/
def execPerstNAssert (s : State) : Res :=
  .next (if s.perst then s else { (if s.shutdown then s else s.coldReset.senseBanks) with perst := true })

/-- PERST_N_NEGATE (R449): the boot may run; a cold reset that the pin began writes its cause. -/
def execPerstNNegate (s : State) : Res :=
  let s' : State := { s with perst := false }
  .next (if !s.perst || s.shutdown || decide (getF s Reg.PWR_RST_CAUSE_CAUSE ≠ 0) then s' else setF s' Reg.PWR_RST_CAUSE_CAUSE 2)

/-- DEVICE_WARM_RESET (R445, R446): a write of PWR_RST.WARM, or a request of the firmware. -/
def execDeviceWarmReset (firmware : Bool) (s : State) : Res :=
  .next (if firmware then (if s.firmware && !s.deadlocked then s.plainWarm 5 else s)
    else s.hostWrite Reg.PWR_RST_WARM 0 0 (fun s =>
      if flag s Reg.PWR_RST_WARM then s.discard (Reg.PWR_RST_WARM.addr 0 0) 1 else s.plainWarm 4))

/-! ### Supplies (R457 to R459); rails: 0 VDD_CORE, 1 VDD_LIN, 2 VDD_FAB, 3 VDD_MGT, 4 HBM, 5 lanes, 6 VDDIO_MGT -/

/-- Warning levels in mV, and fault levels of the core rails. -/
def warnLevel (rail : Nat) : Nat := if rail = 0 then 665 else 715
def faultLevel (rail : Nat) : Nat := if rail = 0 then 630 else 680

/-- The flag of a rail below its warning level. -/
def warnFlag (rail : Nat) : Fld :=
  if rail = 0 then Reg.PWR_SUPPLY_CORE_WARN else if rail = 1 then Reg.PWR_SUPPLY_LIN_WARN else Reg.PWR_SUPPLY_FAB_WARN

/-- The monitors of VDD_CORE and VDD_FAB are masked in standby (R455). -/
def State.railMasked (s : State) (rail : Nat) : Bool := decide (getF s Reg.PWR_STBY_STATE ≠ 0) && decide (rail = 0 ∨ rail = 2)

/-- The payload of a brownout record (R415). -/
def brownPayload (lowest micros : Nat) : List Byte := leBytes 2 lowest ++ leBytes 2 micros

/-- The class 0 messages on their stitches are forwarded within their bound, so that some router forwards each of them in an episode that starts
now (R201, R215). -/
def Stitch.markVoid (st : Stitch) : Stitch :=
  { st with flight := st.flight.map (fun m => { m with msg := { m.msg with hdr := m.msg.hdr ||| 64 } }) }

/-- An episode starts (R215, R458). -/
def State.startEpisode (s : State) : State :=
  if s.brownout then s
  else (setF { s with stitches := SMap.mapAll none (fun _ o => o.map Stitch.markVoid) s.stitches } Reg.PWR_SUPPLY_EPISODE 1).raise 30

/-- An episode ends and is recorded. -/
def State.endEpisode (s : State) (lowest micros : Nat) : State :=
  let d := min micros 0xFFFF
  let s := setF (setF (setF s Reg.PWR_SUPPLY_EPISODE 0) Reg.PWR_SUPPLY_CORE_WARN 0) Reg.PWR_SUPPLY_LIN_WARN 0
  let s := setF (setF (bumpF s Reg.PWR_SUPPLY_EPISODES) Reg.PWR_CORE_EPISODE_MIN lowest) Reg.PWR_CORE_EPISODE_DURATION d
  s.report 0x0A (unitNo blkPWR 0) (brownPayload lowest d)

/-- SUPPLY_WARNING (R457, R458): a sense point of a rail reads `mv`; at warning level plus hysteresis the warning is over. -/
def execSupplyWarning (rail : Nat) (mv : Nat) (s : State) : Res :=
  let f := warnFlag rail
  .next (if 2 < rail ∨ s.railMasked rail ∨ s.perst ∨ s.shutdown then s
    else if warnLevel rail + 10 ≤ mv then setF s f 0
    else if warnLevel rail ≤ mv then s
    else if rail < 2 then (setF s f 1).startEpisode
    else if flag s f then s
    else ((setF s f 1).report 0x0A (unitNo blkPWR 2) (brownPayload mv 0)).raise 30)

/-- The reset that a VDD_CORE or VDD_LIN fault causes (R459). -/
def State.coreReset (s : State) (rail micros : Nat) : State :=
  let s := if s.brownout then s.endEpisode (faultLevel rail) micros else s
  s.warmStart 7 [Reg.PWR_SUPPLY_FAB_WARN] (fun x => if rail = 1 then x.clearCore.clearLining else x.clearCore)

/-- SUPPLY_FAULT (R457): `micros` is how long an episode in progress has lasted. -/
def execSupplyFault (rail : Nat) (micros : Nat) (s : State) : Res :=
  .next (if rail = 3 ∨ rail = 6 then s.powerOn
    else if 6 < rail ∨ s.railMasked rail ∨ s.deadlocked then s
    else if rail < 2 then s.coreReset rail micros
    else s.coldBy)

/-- BROWNOUT_END (R458): lowest VDD_CORE reading, and duration. -/
def execBrownoutEnd (lowest micros : Nat) (s : State) : Res := .next (if s.brownout then s.endEpisode lowest micros else s)

/-! ### Stretch (R451, R452); adaptive islands: tiles 0 to 2047, command processors from 2048, intake 2064, movers from 2065 -/

/-- The stretch of an adaptive island: the largest request. -/
def State.stretch (s : State) (unit : Nat) : Nat :=
  max (max (SMap.get 0 s.droop unit) (getF s Reg.PWR_CAP_STATUS_STRETCH))
    (if s.brownout || flag s Reg.PWR_THERM_STATUS_THROTTLE then 64 else 0)

/-- LOCAL_DROOP (R451): a supply sensor more than 30 mV low: its island requests a stretch of up to 16. -/
def execLocalDroop (unit : Nat) (mv : Nat) (stretch : Nat) (s : State) : Res :=
  .next (if mv ≤ 30 ∨ 2074 ≤ unit then s else { s with droop := SMap.set 0 s.droop unit (min stretch 16) })

/-- DROOP_END (R451): the request is withdrawn. -/
def execDroopEnd (unit : Nat) (s : State) : Res := .next { s with droop := SMap.set 0 s.droop unit 0 }

/-- The limit in force (R39). -/
def State.capLimit (s : State) : Nat := min 1650 (max 400 (getF s Reg.PWR_CAP_LIMIT))

/-- POWER_CAP_UPDATE (R452): `watts` is the mean of the last 1 ms, `step` how far firmware moves the stretch. 100 updates are 10 ms. -/
def execPowerCapUpdate (watts step : Nat) (s : State) : Res :=
  let old := getF s Reg.PWR_CAP_STATUS_STRETCH
  let n := max 1 step
  .next (if !s.firmware || s.shutdown then s
    else if ¬ flag s Reg.PWR_CAP_EN then setF { s with capOver := 0 } Reg.PWR_CAP_STATUS_STRETCH 0
    else
      let s := setF s Reg.PWR_CAP_STATUS_POWER (min watts 2047)
      if s.capLimit < watts then
        if old = 64 then
          let k := s.capOver + 1
          let s : State := { s with capOver := min k 101 }
          if k = 100 then (setF s Reg.PWR_CAP_STATUS_UNMET 1).raise 30 else s
        else
          let s := setF { s with capOver := 0 } Reg.PWR_CAP_STATUS_STRETCH (min 64 (old + n))
          if old = 0 then s.raise 30 else s
      else
        let s : State := { s with capOver := 0 }
        if 100 * watts < 98 * s.capLimit then setF s Reg.PWR_CAP_STATUS_STRETCH (old - n) else s)

/-! ### Temperature (R284, R460) -/

/-- A thermal shutdown: everything but the management island stops as in a full freeze; the record is committed and THERMTRIP_N asserted. -/
def State.thermalShutdown (s : State) (sensor temp : Nat) : State :=
  if s.shutdown then s
  else
    let s := (s.hbmDrain.selfRefresh true).sendFreezes.bbCommit 0x0B (unitNo blkPWR 0) [BitVec.ofNat 8 sensor, BitVec.ofNat 8 temp]
    { s.emit .pin [pinTHERMTRIP, 0] with shutdown := true }

/-- The hottest of a list of readings, with its place. -/
def hottest : Nat → List Nat → Nat × Nat
  | _, [] => (0, 0)
  | i, t :: r =>
    let h := hottest (i + 1) r
    if r = [] ∨ h.1 ≤ t then (t, i) else h

/-- WARN follows the hottest junction. -/
def State.thermWarn (s : State) (t n : Nat) : State :=
  let w := getF s Reg.PWR_THERM_WARN
  if w ≤ t then
    if flag s Reg.PWR_THERM_STATUS_WARN then s
    else
      (((setF (setF s Reg.PWR_THERM_STATUS_WARN 1) Reg.PWR_THERM_STATUS_WARN_SEEN 1).report 0x0B (unitNo blkPWR 0) [BitVec.ofNat 8 n, BitVec.ofNat 8 t]).raise
        30).armFreeze 3
  else if t < w - 3 then setF s Reg.PWR_THERM_STATUS_WARN 0
  else s

/-- THROTTLE: from 105 degrees until below 103. -/
def State.thermThrottle (s : State) (t : Nat) : State :=
  if 105 ≤ t then setF s Reg.PWR_THERM_STATUS_THROTTLE 1
  else if t < 103 then setF s Reg.PWR_THERM_STATUS_THROTTLE 0
  else s

/-- THERMAL_SENSOR_READ (R460): the 64 junction sensors in degrees, negative ones as 0. Three readings 100 microseconds apart at 115 or more span
the 200 microseconds of a shutdown. -/
def execThermalSensorRead (temps : List Int) (s : State) : Res :=
  let h := hottest 0 ((temps.take 64).map Int.toNat)
  .next (if temps = [] ∨ s.shutdown then s
    else
      let s := setF (setF s Reg.PWR_THERM_STATUS_TMAX (min h.1 255)) Reg.PWR_THERM_STATUS_SENSOR h.2
      let s := (s.thermWarn h.1 h.2).thermThrottle h.1
      let s : State := { s with hotReads := if 115 ≤ h.1 then min 3 (s.hotReads + 1) else 0 }
      if s.hotReads = 3 then s.thermalShutdown h.2 h.1 else s)

/-- HBM_STACK_TEMPERATURE (R284, R460): the temperature, the refresh period that it asks for, and the report at 105 degrees. -/
def execHbmStackTemperature (stack : BitVec 3) (temp : Nat) (s : State) : Res :=
  let k := stack.toNat
  .next (if s.shutdown then s
    else
      let old := getF s Reg.HBM_STK_STATUS_TEMP k
      let s := setF s Reg.HBM_STK_STATUS_TEMP (min temp 255) k
      let s := setF s Reg.HBM_STK_STATUS_RATE (if temp ≤ 85 then 0 else if temp ≤ 95 then 1 else 2) k
      let s := if old < 105 ∧ 105 ≤ temp then s.report 0 (unitNo blkHBM (32 * k)) [] else s
      if 115 ≤ temp then s.thermalShutdown (64 + k) temp else s)

/-! ### Device standby (R455, R456) -/

/-- STANDBY_ENTER. -/
def execStandbyEnter (s : State) : Res := .next (s.hostWrite Reg.PWR_STBY_ENTER 0 0 (fun s => s.standbyAsk))

/-- STANDBY_EXIT. -/
def execStandbyExit (s : State) : Res := .next (s.hostWrite Reg.PWR_STBY_EXIT 0 0 (fun s => s.standbyLeave))

/-- STANDBY_EXIT_COMPLETE: the rails are good: self-refresh ends, clocks restart, counters are reset, STATE reads 0. -/
def execStandbyExitComplete (s : State) : Res :=
  .next (if getF s Reg.PWR_STBY_STATE ≠ 3 ∨ s.shutdown then s
    else setF (setF ((s.selfRefresh false).resetCounters.senseBanks) Reg.PWR_STBY_EXIT 0) Reg.PWR_STBY_STATE 0)

/-- STANDBY_EXIT_TIMEOUT: the rails are not good within 5 ms: a cold reset. -/
def execStandbyExitTimeout (s : State) : Res := .next (if getF s Reg.PWR_STBY_STATE ≠ 3 then s else s.coldBy)

end Sys2Proof.Machine
end

