-- ==== Sys2Proof/Machine/TestPort.lean ====
section
/-! DEFINITION. The test port (R418, R441, R442, R472): the instructions that no other family has. Each instruction is one command: what it selects
and what it shifts. -/

namespace Sys2Proof.Machine

/-- FRZ_EXIT (R442): a full freeze ends with a device warm reset. -/
def execFrzExit (s : State) : Res :=
  let s := s.selectIr 0x30
  .next (if getF s Reg.OBS_FRZ_STATUS_STATE = 3 ∧ s.shutdown = false then s.plainWarm 6 else s)

/-- CAP_SEL (R441): the 64-bit data register is loaded. -/
def execCapSel (val : DWord) (s : State) : Res := .next { s.selectIr 0x2E with tapSel := val, tapNext := 0 }

/-- The unit and the offset that CAP_SEL has named. -/
def State.tapUnit (s : State) : CapUnit := ⟨bits s.tapSel.toNat 3 0, bits s.tapSel.toNat 15 4⟩
def State.tapOffset (s : State) : Nat := 8 * (bits s.tapSel.toNat 37 16 + s.tapNext)

/-- CAP_READ (R441): `n` 64-bit words, one per Capture-DR, upward from the offset; nothing of a unit whose island runs. -/
def execCapRead (n : Nat) (s : State) : Res :=
  let s := s.selectIr 0x2F
  .next ({ (match s.capBytes s.tapUnit s.tapOffset (8 * n) with
    | some l => s.emit .testData [0x2F] l
    | none => s.emit .testData [0x2F] (List.replicate (8 * n) 0)) with tapNext := s.tapNext + n })

/-- BB_READ (R418): the 8,192 slots of the black box in order. -/
def execBbRead (s : State) : Res := .next ((s.selectIr 0x2D).emit .testData [0x2D] ((List.range 8192).flatMap s.bbSlot))

/-- The silicon version, which the spec places in the fuses without a word: version 0 (DESIGN CHOICE, log entry 5). -/
def siliconVersion : Nat := 0

/-- IDCODE (R472). -/
def idCode : Nat := siliconVersion * 2 ^ 28 + 0x4820 * 2 ^ 12 + 0x7B6 * 2 + 1

/-- IDCODE. -/
def execIdcode (s : State) : Res := .next ((s.selectIr 0x01).emit .testData [0x01] (leBytes 4 idCode))

/-- Codes that select something other than the bypass register: the public ones, and those of R358, R418, R441, R442. -/
def irListed (code : Nat) : Bool := decide (code ∈ [0x01, 0x02, 0x03, 0x2C, 0x2D, 0x2E, 0x2F, 0x30, 0x31])

/-- BYPASS: one bit of delay between what is shifted in and what is shifted out. -/
def execBypass (code : Byte) (bits : List Bool) (s : State) : Res :=
  .next (if irListed code.toNat then s
    else (s.selectIr code).emit .testData (0xFF :: ((false :: bits).take bits.length).map bit))

/-- SAMPLE_PRELOAD: the pins are sampled and shifted out while the register is loaded; the pins are not the device's to know. -/
def execSamplePreload (bits : List Bool) (s : State) : Res :=
  .next ({ (s.selectIr 0x02).emit .testData (0x02 :: (List.range bits.length).map (fun i => bit (Config.outside (s.draws + i)))) with
    bscan := bits, draws := s.draws + bits.length })

/-- EXTEST: the pins are driven from the boundary-scan register. -/
def execExtest (s : State) : Res := .next ((s.selectIr 0x03).emit .pin (0xE0 :: s.bscan.map bit))

end Sys2Proof.Machine
end

