-- ==== Sys2Proof/Machine/TileControl.lean ====
section
/-! DEFINITION. Sequencer control (R139, R140, R112 to R114, R119, R124). -/

namespace Sys2Proof.Machine

/-- Issue with no writes: only control. -/
def ctlOnly (s : State) (c : Ctl) : Issue := .go { st := s, ctl := c }

/-- `nop` (R139). -/
def execNop (t : TileNo) (s : State) : Res := .next (s.issue t (.nop t) noUse (fun s => ctlOnly s .seq))

/-- `halt` (R139, R119, R125): issue stops; completion follows. -/
def execHalt (t : TileNo) (s : State) : Res := .next (s.issue t (.halt t) noUse (fun s => ctlOnly s .halt))

/-- `rti` (R124). -/
def execRti (t : TileNo) (s : State) : Res := .next (s.issue t (.rti t) noUse (fun s => ctlOnly s (.rti (((s.tile t.toNat).sprv sprIPC).setWidth 12))))

/-- The address that follows a branch that is not taken, after its delay slots. -/
def pastDelay (x : Tile) : BitVec 12 := x.pc + 3

/-- `br cond, target` (R139, R140). -/
def execBr (t : TileNo) (cond : BitVec 4) (target : BitVec 12) (s : State) : Res :=
  .next (s.issue t (.br t cond target) noUse (fun s =>
    let x := s.tile t.toNat
    ctlOnly s (.branch (if condHolds cond.toNat x.flags then some target else none))))

/-- `bal sD, target` (R139): sD takes the branch's address + 3. -/
def execBal (t : TileNo) (d : Reg6) (target : BitVec 12) (s : State) : Res :=
  .next (s.issue t (.bal t d target) noUse (fun s =>
    .go { st := s, own := [.gen d.toNat (BitVec.ofNat 32 (pastDelay (s.tile t.toNat)).toNat)], ctl := .branch (some target) }))

/-- `jr sA` (R139): to sA[11:0]. -/
def execJr (t : TileNo) (a : Reg6) (s : State) : Res :=
  .next (s.issue t (.jr t a) noUse (fun s => ctlOnly s (.branch (some (((s.tile t.toNat).gen a.toNat).setWidth 12)))))

/-- `rep count, end` at a tile (R113, R114). -/
def repBody (n : Nat) (cs : Bool) (sreg : BitVec 4) (stop : BitVec 12) (imm : Word) (s : State) : Issue :=
  let x := s.tile n
  let count := if cs then x.gen sreg.toNat else imm
  if stop.toNat < (nextPc x.pc).toNat ∨ x.depth = 4 then .fault s fltLOOP 0
  else if count = 0 then ctlOnly s (.skip (nextPc stop))
  else ctlOnly s (.openLevel count stop)

/-- `rep` (R139). -/
def execRep (t : TileNo) (cs : Bool) (sreg : BitVec 4) (stop : BitVec 12) (imm : Word) (s : State) : Res :=
  .next (s.issue t (.rep t cs sreg stop imm) noUse (repBody t.toNat cs sreg stop imm))

/-- `rbrk n` (R139, R114). -/
def execRbrk (t : TileNo) (n : BitVec 3) (s : State) : Res :=
  .next (s.issue t (.rbrk t n) noUse (fun s =>
    if (s.tile t.toNat).depth < n.toNat then .fault s fltLOOP 0 else ctlOnly s (.closeLevels n.toNat)))

/-- `setf mask` (R139). -/
def execSetf (t : TileNo) (mask : BitVec 18) (s : State) : Res :=
  .next (s.issue t (.setf t mask) noUse (fun s => .go { st := s, own := [.flags maskFlags ((s.tile t.toNat).flags ||| mask.setWidth 32)] }))

/-- `clrf mask` (R139). -/
def execClrf (t : TileNo) (mask : BitVec 18) (s : State) : Res :=
  .next (s.issue t (.clrf t mask) noUse (fun s => .go { st := s, own := [.flags maskFlags ((s.tile t.toNat).flags &&& ~~~(mask.setWidth 32))] }))

end Sys2Proof.Machine
end

