-- ==== Sys2Proof/Machine/TileLoadStore.lean ====
section
/-! DEFINITION. Loads, stores, and the lining, network, trace and counter instructions (R142, R143, R159 to R161). -/

namespace Sys2Proof.Machine

/-- The address of a format M word. -/
def addrOf (s : State) (t : TileNo) (m : MAddr) : Nat := ((s.tile t.toNat).maddr m).1

/-- A read over X, over Y, or through the lining port. -/
def useX (t : TileNo) (m : MAddr) : State → Use := fun s => { x := some (addrOf s t m) }
def useY (t : TileNo) (m : MAddr) : State → Use := fun s => { y := some (addrOf s t m) }
/-- A store over Z at the next slot. -/
def useStore (t : TileNo) (m : MAddr) : State → Use := fun s => { z := some 2, zStore := some (addrOf s t m) }

/-- A checked 32-bit load: what becomes of the word. -/
def loadWord (s : State) (t : TileNo) (m : MAddr) (k : State → Word → List PWrite → Issue) : Issue :=
  let a := (s.tile t.toNat).maddr m
  match checkRange osTop 4 a.1 4 with
  | some c => .fault s c 0
  | none =>
    match s.osWord t.toNat a.1 with
    | (s, none) => .fault s fltOS (a.1 / 8)
    | (s, some v) => k s v a.2

/-- A checked 32-bit store. -/
def storeWord (s : State) (t : TileNo) (m : MAddr) (v : Word) : Issue :=
  let a := (s.tile t.toNat).maddr m
  match checkRange osTop 4 a.1 4 with
  | some c => .fault s c 0
  | none => .go { st := s, own := a.2, later := [later 2 true (.word a.1 v)] }

/-- `ld` (R143). -/
def execLd (t : TileNo) (d : Reg6) (m : MAddr) (s : State) : Res :=
  .next (s.issue t (.ld t d m) (useX t m) (fun s => loadWord s t m (fun s v own =>
    .go { st := s, own := own, later := [later 3 false (.gen d.toNat v)] })))

/-- `st` (R143). -/
def execSt (t : TileNo) (r : Reg6) (m : MAddr) (s : State) : Res :=
  .next (s.issue t (.st t r m) (useStore t m) (fun s => storeWord s t m ((s.tile t.toNat).gen r.toNat)))

/-- `ldsp` (R142, R114). -/
def execLdsp (t : TileNo) (spr : Reg6) (m : MAddr) (s : State) : Res :=
  .next (s.issue t (.ldsp t spr m) (useX t m) (fun s => loadWord s t m (fun s v own =>
    if badDepth spr.toNat v then .fault s fltLOOP 0
    else .go { st := s, own := own, later := [later 3 false (.spr spr.toNat v)] })))

/-- `stsp` (R142). -/
def execStsp (t : TileNo) (spr : Reg6) (m : MAddr) (s : State) : Res :=
  .next (s.issue t (.stsp t spr m) (useStore t m) (fun s => storeWord s t m ((s.tile t.toNat).sprv spr.toNat)))

/-- `vld` (R143). -/
def execVld (t : TileNo) (d : Reg6) (bus : Bool) (m : MAddr) (s : State) : Res :=
  .next (s.issue t (.vld t d bus m) (if bus then useY t m else useX t m) (fun s =>
    let a := (s.tile t.toNat).maddr m
    match checkRange osTop 128 a.1 128 with
    | some c => .fault s c 0
    | none =>
      match s.osLine t.toNat a.1 with
      | (s, none) => .fault s fltOS (a.1 / 8)
      | (s, some v) => .go { st := s, own := a.2, later := [later 3 false (.vec (vnum d) v)] }))

/-- `vst` (R143). -/
def execVst (t : TileNo) (r : Reg6) (m : MAddr) (s : State) : Res :=
  .next (s.issue t (.vst t r m) (useStore t m) (fun s =>
    let x := s.tile t.toNat
    let a := x.maddr m
    match checkRange osTop 128 a.1 128 with
    | some c => .fault s c 0
    | none => .go { st := s, own := a.2, later := [later 2 true (.line a.1 (x.vec (vnum r)))] }))

/-- `lnld` (R159, R166): an uncorrectable word reads as NaN lanes and posts a fault interrupt. -/
def execLnld (t : TileNo) (d : Reg6) (m : MAddr) (s : State) : Res :=
  .next (s.issue t (.lnld t d m) (fun _ => { lin := true }) (fun s =>
    let a := (s.tile t.toNat).maddr m
    match checkRange liningTop 128 a.1 128 with
    | some c => .fault s c 0
    | none =>
      let r := s.linPLine t.toNat a.1
      let s := if r.2.bad = 0 then r.1 else r.1.postIrq t.toNat 0
      .go { st := s, own := a.2, later := [later 3 false (.vec (vnum d) r.2.lanes)] }))

/-- `lnst` (R159). -/
def execLnst (t : TileNo) (r : Reg6) (m : MAddr) (s : State) : Res :=
  .next (s.issue t (.lnst t r m) noUse (fun s =>
    let x := s.tile t.toNat
    let a := x.maddr m
    match checkRange liningTop 128 a.1 128 with
    | some c => .fault s c 0
    | none => .go { st := s, own := a.2, later := [later 2 false (.lining a.1 (x.vec (vnum r)))] }))

/-- Messages and arrivals that an instruction in flight has still to hand over. -/
def Tile.injecting (x : Tile) : Bool := x.pipe.any (fun e => match e.write with
  | .inject _ _ _ => true
  | _ => false)
def Tile.arriving (x : Tile) : Nat := x.pipe.countP (fun e => match e.write with
  | .arrive => true
  | _ => false)

/-- `nsend` at tile n (R160, R181, R182, R192, R199, R200). -/
def nsendBody (n : Nat) (a : Reg6) (cls : Nat) (sb : BitVec 4) (s : State) : Issue :=
  let x := s.tile n
  let route := x.gen sb.toNat
  if cls = 2 ∧ route = BitVec.allOnes 32 then
    if 2 ≤ x.barPend + x.arriving then .wait 11
    else .go { st := s, later := [later 2 false .arrive] }
  else if x.injecting || s.injectionFull n cls then .wait 11
  else if cls = 0 ∧ bits route.toNat 31 10 = 0 ∧ s.stitchFrom (route.toNat % 1024) 0 n ∧ ¬ s.admits (route.toNat % 1024) (x.ic + 1) then .wait 11
  else .go { st := s, later := [later 2 false (.inject cls route (x.vec (vnum a)))] }

/-- `nsend` (R160). -/
def execNsend (t : TileNo) (a : Reg6) (cls : BitVec 2) (sb : BitVec 4) (s : State) : Res :=
  .next (s.issue t (.nsend t a cls sb) noUse (nsendBody t.toNat a cls.toNat sb))

/-- A class 0 message leaves its queue: its credit is on its way back (R200). -/
def State.freeCredit (s : State) (m : Msg) : State :=
  let n := m.h.stitch
  match s.stitch n with
  | some st => if st.dlv = 0 then s.setStitch n (some { st with returning := st.returning + 1 }) else s
  | none => s

/-- The oldest message of a queue is taken (R160, R432). -/
def State.takeMsg (s : State) (n cls : Nat) (m : Msg) : State :=
  let s := s.modTile n (fun x => x.setQueue cls ((x.queue cls).drop 1))
  if cls = 0 then s.freeCredit m
  else if cls = 2 ∧ m.hdr = releaseHdr then s.trace n 6 0 (m.data.setWidth 32)
  else s

/-- `nrecv` (R160). -/
def execNrecv (t : TileNo) (d : Reg6) (cls : BitVec 2) (s : State) : Res :=
  .next (s.issue t (.nrecv t d cls) noUse (fun s =>
    match (s.tile t.toNat).queue cls.toNat with
    | [] => .wait 11
    | m :: _ => .go { st := s.takeMsg t.toNat cls.toNat m, later := [later 3 false (.vec (vnum d) m.data)] }))

/-- `trc` (R161). -/
def execTrc (t : TileNo) (a : Reg6) (code : Half) (s : State) : Res :=
  .next (s.issue t (.trc t a code) noUse (fun s =>
    ctlSeq (s.trace t.toNat 1 code.toNat ((s.tile t.toNat).gen a.toNat))))
where
  ctlSeq (s : State) : Issue := .go { st := s }

/-- `rdctr` (R161). -/
def execRdctr (t : TileNo) (d : Reg6) (n : BitVec 4) (hi : Bool) (s : State) : Res :=
  .next (s.issue t (.rdctr t d n hi) noUse (fun s =>
    let v := s.ctr (ctrTile t.toNat + n.toNat)
    .go { st := s, later := [later 3 false (.gen d.toNat (BitVec.ofNat 32 (if hi then v / 2 ^ 32 else v)))] }))

/-- `rdsnap` (R161). -/
def execRdsnap (t : TileNo) (d : Reg6) (s : State) : Res :=
  .next (s.issue t (.rdsnap t d) noUse (fun s =>
    .go { st := s, later := [later 3 false (.gen d.toNat (s.tile t.toNat).snapNum)] }))

end Sys2Proof.Machine
end

