-- ==== Sys2Proof/Machine/TileMatrix.lean ====
section
/-! DEFINITION. Matrix control instructions (R152 to R158) and the matrix unit's own events (R44, R47, R55, R58). -/

namespace Sys2Proof.Machine

/-- The check of a stream's A and B ranges at issue (R152, R153, R154). -/
def streamFault (st : StreamSt) : Option Nat :=
  let a := if st.ops.asrc then none else checkRange osTop 64 st.aAddr (64 * st.recs)
  let b := match st.ops.bsrc.toNat with
    | 0 => checkRange liningTop 128 st.bAddr (128 * st.regionLines)
    | 1 => checkRange osTop 128 st.bAddr (128 * st.regionLines)
    | _ => none
  a.or b

/-- A stream instruction has a place unless it finds one stream executing and one waiting, or two that wait (R55, R152). -/
def Tile.streamPlace (x : Tile) : Bool :=
  x.waiting.isEmpty || (decide (x.waiting.length = 1) && !x.streams.any (fun e => e.busyAt x.ic))

/-- A stream instruction at tile n (R55, R57, R153). -/
def streamBody (n : Nat) (fold : Bool) (w : StreamOps) (s : State) : Issue :=
  let x := s.tile n
  let st : StreamSt := { fold := fold, ops := w, aAddr := (x.ptr (w.areg.toNat % 8)).toNat, bAddr := (x.ptr w.bptr.toNat).toNat,
                         issued := x.ic, first := none, offRow := 0, offCol := 0, aRecs := [], bLines := [], tornFrom := none, linkErr := [],
                         swaps := x.bbWait.countP BBOp.isSwap }
  if !x.streamPlace then .wait 5
  else if fold ∧ w.len.toNat % st.bl ≠ 0 then .fault (setF s Reg.TIL_MAT_STATUS_MODE_ERR 1 n) fltMODE 0
  else
    match streamFault st with
    | some c => .fault s c 0
    | none =>
      .go { st := s.setTile n { x with waiting := x.waiting ++ [st], lastDone := none, lastIssued := some st.m } }

/-- `mstream` (R153). -/
def execMstream (t : TileNo) (w : StreamOps) (s : State) : Res :=
  .next (s.issue t (.mstream t w) noUse (streamBody t.toNat false w))

/-- `mfold` (R153, R57). -/
def execMfold (t : TileNo) (w : StreamOps) (s : State) : Res :=
  .next (s.issue t (.mfold t w) noUse (streamBody t.toNat true w))

/-- STREAM_START (R44, R55): the oldest waiting stream takes its place, with the ic of its first plane; without effect before it is due. -/
def execStreamStart (t : TileNo) (s : State) : Res :=
  let n := t.toNat
  let x := s.tile n
  .next (match x.waiting with
    | [] => s
    | st :: r =>
      if s.startDue n ∧ ¬ s.tileFrozen n then
        let f := max (x.computedFirst st) (x.ic + 1)
        s.setTile n { x with waiting := r, lastDone := if r.isEmpty then some (f + st.span) else none,
                             streams := x.streams.filter (fun e => e.busyAt x.ic) ++ [{ st with first := some f, swaps := 0 }] }
      else s)

/-- An operation of the instruction at the program counter joins the back-bank queue. -/
def Tile.bbQueue (x : Tile) (op : BBOp) : Tile :=
  { x with bbWait := x.bbWait ++ [op], bbWords := x.bbWords ++ [SMap.get 0 x.pmem x.pc.toNat] }

/-- `mswap` issues; its swap is held behind back-bank operations that run or wait, and takes place in the ic after the last of them (R47).
One that issues in the ic in which a held swap takes place waits for the next ic, and no bank stall is counted for it (DESIGN CHOICE, log entry 81). -/
def swapBody (n : Nat) (s : State) (red : Option (Nat × Bool × Nat)) : Issue :=
  let x := s.tile n
  if x.bbRun.isSome || !x.bbWait.isEmpty then .go { st := s.setTile n (x.bbQueue (.swap red)) }
  else .go { st := s, swap := some (s.swapNow n red) }

/-- `mswap` (R155, R46). -/
def execMswap (t : TileNo) (s : State) : Res :=
  .next (s.issue t (.mswap t) noUse (fun s => swapBody t.toNat s none))

/-- A register number, or the checked operand-store address that a pointer number gives, for `n` bytes. -/
def lineDst (x : Tile) (toStore : Bool) (reg n : Nat) : Nat ⊕ Nat :=
  if toStore then
    match checkRange osTop 128 (x.ptr reg).toNat n with
    | some c => .inr c
    | none => .inl (x.ptr reg).toNat
  else .inl reg

/-- `mswap` with RED = 1 (R58, R155): the fold pass closes. -/
def execMswapReduce (t : TileNo) (ofmt : BitVec 2) (odst : Bool) (oreg : BitVec 4) (s : State) : Res :=
  .next (s.issue t (.mswapReduce t ofmt odst oreg) noUse (fun s =>
    let x := s.tile t.toNat
    match lineDst x odst oreg.toNat 128 with
    | .inr c => .fault s c 0
    | .inl d => swapBody t.toNat s (some (ofmt.toNat, odst, d))))

/-- TREE_RESULT_WRITE (R58, R155): the oldest tree result that is due is converted and written. -/
def execTreeResultWrite (t : TileNo) (s : State) : Res :=
  let n := t.toNat
  .next (match (s.tile n).tree.find? (fun r => decide (6 ≤ r.age)) with
    | none => s
    | some r =>
      if s.tileFrozen n then s
      else
        let recs := (List.range 32).map (fun j =>
          let c := r.cols.getD j emptyRec
          if r.parFail.getD j false then { c with parFail := true } else c)
        let s := s.matFlag n Reg.TIL_MAT_STATUS_OVF_OUT r.ovf
        let c := s.convertRow n r.ofmt recs
        c.1.modTile n (fun y => { (y.putLine r.toStore r.dst c.2) with tree := y.tree.erase r }))

/-- A back-bank operation joins the queue (R47, R152): it waits for a place, then its operand range is checked. -/
def bbBody (n : Nat) (s : State) (op : Nat ⊕ Nat) (mk : Nat → BBOp) : Issue :=
  let x := s.tile n
  if 4 ≤ x.bbWaiting then .wait 4
  else match op with
    | .inr c => .fault s c 0
    | .inl d => .go { st := s.setTile n (x.bbQueue (mk d)) }

/-- `mdrain`, converted (R156, R49). -/
def execMdrainConverted (t : TileNo) (rowsm1 : BitVec 5) (ofmt : BitVec 2) (odst : Bool) (oreg : BitVec 4) (bias : Bool)
    (breg : BitVec 4) (s : State) : Res :=
  .next (s.issue t (.mdrainConverted t rowsm1 ofmt odst oreg bias breg) noUse (fun s =>
    bbBody t.toNat s (lineDst (s.tile t.toNat) odst oreg.toNat (128 * (rowsm1.toNat + 1)))
      (fun d => .drain (rowsm1.toNat + 1) ofmt.toNat odst d (if bias then some ((s.tile t.toNat).vec breg.toNat) else none))))

/-- `mdrain`, raw (R156, R49). -/
def execMdrainRaw (t : TileNo) (rowsm1 : BitVec 5) (odst : Bool) (oreg : BitVec 4) (s : State) : Res :=
  .next (s.issue t (.mdrainRaw t rowsm1 odst oreg) noUse (fun s =>
    bbBody t.toNat s (lineDst (s.tile t.toNat) odst oreg.toNat (512 * (rowsm1.toNat + 1)))
      (fun d => .drainRaw (rowsm1.toNat + 1) odst d)))

/-- `mload`, row form (R157, R50). -/
def execMloadRow (t : TileNo) (row : BitVec 5) (sreg : BitVec 4) (s : State) : Res :=
  .next (s.issue t (.mloadRow t row sreg) noUse (fun s => bbBody t.toNat s (.inl sreg.toNat) (.loadRow row.toNat)))

/-- `mload`, broadcast form (R157, R50). -/
def execMloadBroadcast (t : TileNo) (sreg : BitVec 4) (s : State) : Res :=
  .next (s.issue t (.mloadBroadcast t sreg) noUse (fun s =>
    bbBody t.toNat s (.inl sreg.toNat) (.loadAll ((s.tile t.toNat).lastIssued.getD 32))))

/-- `mload`, raw form (R157, R50). -/
def execMloadRaw (t : TileNo) (row rowsm1 : BitVec 5) (src : Bool) (sreg : BitVec 4) (s : State) : Res :=
  .next (s.issue t (.mloadRaw t row rowsm1 src sreg) noUse (fun s =>
    bbBody t.toNat s (lineDst (s.tile t.toNat) src sreg.toNat (512 * (rowsm1.toNat + 1)))
      (fun d => .loadRaw row.toNat (rowsm1.toNat + 1) src d)))

/-- `mclr` (R157, R50). -/
def execMclr (t : TileNo) (s : State) : Res := .next (s.issue t (.mclr t) noUse (fun s => bbBody t.toNat s (.inl 0) (fun _ => .clear)))

/-- BACK_BANK_OP_START (R47): the oldest waiting operation takes the free port. -/
def execBackBankOpStart (t : TileNo) (s : State) : Res :=
  let n := t.toNat
  let x := s.tile n
  .next (match x.bbRun, x.bbWait with
    | none, op :: r => if s.tileFrozen n || op.isSwap then s else s.setTile n { x with bbRun := some (op, 0), bbWait := r }
    | _, _ => s)

/-- BACK_BANK_OP_COMPLETE (R47): an operation that has done its last row leaves the port. -/
def execBackBankOpComplete (t : TileNo) (s : State) : Res :=
  let n := t.toNat
  let x := s.tile n
  .next (if x.bbDoneDue ∧ ¬ s.tileFrozen n then s.setTile n { x with bbRun := none, bbWords := x.bbWords.tail } else s)

/-- Whether the conditions of `mwait` hold in the ic after this one (R158). -/
def mwaitReady (x : Tile) (bb tr st : Bool) : Bool :=
  (!bb || (x.bbWait.all BBOp.isSwap && (match x.bbRun with
      | none => true
      | some (op, k) => x.bbStepsNow && decide (op.steps ≤ k + 1))))
    && (!tr || (x.tree.all (fun r => decide (r.age = 5)) && !x.bbWait.any BBOp.isRedSwap))
    && (!st || (match x.lastDone with
      | some d => decide (d ≤ x.ic + 1)
      | none => false))

/-- `mwait` (R158). -/
def execMwait (t : TileNo) (bb tr st : Bool) (s : State) : Res :=
  .next (s.issue t (.mwait t bb tr st) noUse (fun s =>
    if mwaitReady (s.tile t.toNat) bb tr st then .go { st := s } else .wait 10))

end Sys2Proof.Machine
end

