-- ==== Sys2Proof/Machine/TileScalar.lean ====
section
/-! DEFINITION. Scalar and special-register instructions (R141, R142). -/

namespace Sys2Proof.Machine

/-- A scalar result of latency 1: D, with Z and N, and the flags of `m` set to `cv`. -/
def aluOut (s : State) (d : Reg6) (r m cv : Word) : Issue :=
  .go { st := s, own := [.gen d.toNat r, .flags (maskZN ||| m) (znOf r ||| cv)] }

/-- The operands A and b of format S. -/
def opA (s : State) (t : TileNo) (o : ScalarOps) : Word := (s.tile t.toNat).gen o.a.toNat
def opB (s : State) (t : TileNo) (o : ScalarOps) : Word := (s.tile t.toNat).operandB o.b o.i o.imm

/-- A format S instruction that writes D and the flags Z and N. -/
def aluZN (t : TileNo) (i : Instr) (o : ScalarOps) (f : Word → Word → Word) (s : State) : Res :=
  .next (s.issue t i noUse (fun s => aluOut s o.d (f (opA s t o) (opB s t o)) 0 0))

/-- The low five bits of a shift operand. -/
def shamt (b : Word) : Nat := b.toNat % 32

/-- `add` (R141). -/
def execAdd (t : TileNo) (o : ScalarOps) (s : State) : Res :=
  .next (s.issue t (.add t o) noUse (fun s =>
    aluOut s o.d (opA s t o + opB s t o) (maskC ||| maskV) (cvAdd (opA s t o) (opB s t o))))

/-- `sub` (R141). -/
def execSub (t : TileNo) (o : ScalarOps) (s : State) : Res :=
  .next (s.issue t (.sub t o) noUse (fun s =>
    aluOut s o.d (opA s t o - opB s t o) (maskC ||| maskV) (cvSub (opA s t o) (opB s t o))))

/-- `and` (R141). -/
def execAnd (t : TileNo) (o : ScalarOps) (s : State) : Res := aluZN t (.and t o) o (fun a b => a &&& b) s
/-- `or` (R141). -/
def execOr (t : TileNo) (o : ScalarOps) (s : State) : Res := aluZN t (.or t o) o (fun a b => a ||| b) s
/-- `xor` (R141). -/
def execXor (t : TileNo) (o : ScalarOps) (s : State) : Res := aluZN t (.xor t o) o (fun a b => a ^^^ b) s
/-- `shl` (R141). -/
def execShl (t : TileNo) (o : ScalarOps) (s : State) : Res := aluZN t (.shl t o) o (fun a b => a <<< shamt b) s
/-- `shr` (R141). -/
def execShr (t : TileNo) (o : ScalarOps) (s : State) : Res := aluZN t (.shr t o) o (fun a b => a >>> shamt b) s
/-- `sra` (R141). -/
def execSra (t : TileNo) (o : ScalarOps) (s : State) : Res := aluZN t (.sra t o) o (fun a b => a.sshiftRight (shamt b)) s
/-- `min`, signed (R141). -/
def execMin (t : TileNo) (o : ScalarOps) (s : State) : Res := aluZN t (.min t o) o (fun a b => if BitVec.slt b a then b else a) s
/-- `max`, signed (R141). -/
def execMax (t : TileNo) (o : ScalarOps) (s : State) : Res := aluZN t (.max t o) o (fun a b => if BitVec.slt a b then b else a) s

/-- `mov` (R141). -/
def execMov (t : TileNo) (d b : Reg6) (i : Bool) (imm : Word) (s : State) : Res :=
  .next (s.issue t (.mov t d b i imm) noUse (fun s => aluOut s d ((s.tile t.toNat).operandB b i imm) 0 0))

/-- `cmp` (R141): the flags of `sub`, and no register. -/
def execCmp (t : TileNo) (a b : Reg6) (i : Bool) (imm : Word) (s : State) : Res :=
  .next (s.issue t (.cmp t a b i imm) noUse (fun s =>
    let va := (s.tile t.toNat).gen a.toNat
    let vb := (s.tile t.toNat).operandB b i imm
    .go { st := s, own := [.flags maskZNCV (znOf (va - vb) ||| cvSub va vb)] }))

/-- `mul` (R141): latency 3. -/
def execMul (t : TileNo) (o : ScalarOps) (s : State) : Res :=
  .next (s.issue t (.mul t o) noUse (fun s =>
    .go { st := s, later := [later 3 false (.genZN o.d.toNat (opA s t o * opB s t o))] }))

/-- `pmod` (R141, R107). -/
def execPmod (t : TileNo) (d b : Reg6) (i : Bool) (imm : Word) (s : State) : Res :=
  .next (s.issue t (.pmod t d b i imm) noUse (fun s =>
    let x := s.tile t.toNat
    .go { st := s, own := [.gen d.toNat (x.postMod (d.toNat - 16) (x.operandB b i imm))] }))

/-- A write of a special register at issue: LOOP_ERR for a DEPTH above 4 (R114). -/
def sprOut (s : State) (r : Reg6) (v : Word) : Issue :=
  if badDepth r.toNat v then .fault s fltLOOP 0 else .go { st := s, own := [.spr r.toNat v] }

/-- `mvs` (R142). -/
def execMvs (t : TileNo) (dir : Bool) (gen spr : Reg6) (s : State) : Res :=
  .next (s.issue t (.mvs t dir gen spr) noUse (fun s =>
    if dir then sprOut s spr ((s.tile t.toNat).gen gen.toNat)
    else .go { st := s, own := [.gen gen.toNat ((s.tile t.toNat).sprv spr.toNat)] }))

/-- `setsp` (R142). -/
def execSetsp (t : TileNo) (spr : Reg6) (imm : Word) (s : State) : Res :=
  .next (s.issue t (.setsp t spr imm) noUse (fun s => sprOut s spr imm))

end Sys2Proof.Machine
end

