-- ==== Sys2Proof/Machine/Quant.lean ====
section
/-! DEFINITION. Block quantization `vqb` (R80 to R85) and pocket correction `vtack` (R96, R150). -/

namespace Sys2Proof.Machine

/-- Largest target magnitude by FORMAT (R80). -/
def qMax (f : Nat) : Nat := if f ≤ 2 then 1 else if f = 3 then 7 else if f = 4 then 6 else if f = 5 then 127
  else if f = 6 then 448 else 57344

/-- A finite magnitude m * 2^e. -/
abbrev Mag := Nat × Int

def Mag.le (x y : Mag) : Bool :=
  let e := min x.2 y.2
  decide (x.1 * 2 ^ (x.2 - e).toNat ≤ y.1 * 2 ^ (y.2 - e).toNat)

/-- Step 4 of R80: the smallest s with a ≤ Qmax * 2^s; -126 when a is 0. -/
def fitExp (q : Nat) (a : Mag) : Int :=
  if a.1 = 0 then -126
  else
    let s := a.2 + (bitLen a.1 : Int) - (bitLen q : Int)
    if Mag.le a (q, s) then s else s + 1

def clampInt (lo hi x : Int) : Int := max lo (min hi x)

/-- One lane as sign and magnitude; NaN and infinity have been excluded. -/
def laneSigned (x : Word) : Bool × Mag :=
  match fmtF32.decode x.toNat with
  | .fin s m e => (s, (m, e))
  | _ => (false, (0, 0))

/-- The largest magnitude of a list. -/
def maxMag (l : List Mag) : Mag := l.foldl (fun a x => if Mag.le x a then a else x) (0, 0)

/-- Step 7 of R80: an element divided by 2^s on the target's grid: code, vanished, clipped. -/
def encodeElem (f : Nat) (s : Int) (x : Bool × Mag) : Nat × Bool × Bool :=
  let m := x.2.1
  if f = 0 then (bit x.1, false, false)
  else if m = 0 then (0, false, false)
  else if f = 4 ∨ f = 6 ∨ f = 7 then
    let g := if f = 4 then fmtK4 else if f = 6 then fmtK8a else fmtK8b
    let y := g.round .even true x.1 m (x.2.2 - s)
    let z := decide (y.1 % 2 ^ g.signBit = 0)
    (if z then 0 else y.1, z, y.2.ovf)
  else
    let y := (roundAt .even x.1 m (x.2.2 - s) 0 false).1
    let q := qMax f
    let v := min y q
    let i : Int := if x.1 then -(v : Int) else v
    ((BitVec.ofInt (fmtWidth f) i).toNat, decide (v = 0), decide (q < y))

/-- Order of R82: descending magnitude, ties in ascending lane order. -/
def magBefore (x y : Nat × Mag) : Bool := !(Mag.le x.2 y.2) || (Mag.le y.2 x.2 && decide (x.1 ≤ y.1))

/-- Insert a lane into an ordered list. -/
def magInsert (x : Nat × Mag) : List (Nat × Mag) → List (Nat × Mag)
  | [] => [x]
  | y :: r => if magBefore x y then x :: y :: r else y :: magInsert x r

/-- The pocketed lanes of R82 in order of descending magnitude. -/
def pockets (n g : Nat) (lanes : List (Nat × Mag)) : List (Nat × Mag) :=
  let ord := lanes.foldr magInsert []
  let mag (j : Nat) : Mag := ((ord.getD j (0, (0, 0))).2)
  let ok (j : Nat) : Bool := decide (1 ≤ j) && decide (j ≤ n) && decide ((mag (j - 1)).1 ≠ 0)
    && Mag.le ((mag j).1 * 2 ^ g, (mag j).2) (mag (j - 1))
  if ok 2 then ord.take 2 else if ok 1 then ord.take 1 else []

/-- What a `vqb` makes of one block: the 64 record bytes as a number, and its counts. -/
structure QbResult where
  data : Nat
  invalid : Bool
  vanished : Nat
  clipped : Nat
  promoted : Nat
  pocketed : Nat
  deriving DecidableEq, Repr

/-- Steps 4 to 7 of R80 with R81 for one target format, over the lanes that are not pocketed:
S8, pleats, codes, vanished and clipped counts. -/
def encodeBlock (f c : Nat) (pleatsOn : Bool) (len : Nat) (x : Nat → Bool × Mag) (pocketed : Nat → Bool) :
    Nat × List Nat × List Nat × Nat × Nat :=
  let rest (lo n : Nat) : List Mag := ((List.range n).map (· + lo)).filterMap (fun k => if pocketed k then none else some (x k).2)
  let s := clampInt (-126) 127 (fitExp (qMax f) (maxMag (rest 0 len)) - c)
  let pleat (b : Nat) : Nat :=
    if pleatsOn then
      let a := maxMag (rest (8 * b) 8)
      if a.1 = 0 then 3 else (min 3 (max 0 (s - (fitExp (qMax f) a - c)))).toNat
    else 0
  let ps := (List.range (len / 8)).map pleat
  let es := (List.range len).map (fun k =>
    if pocketed k then (0, false, false) else encodeElem f (s - (ps.getD (k / 8) 0 : Nat)) (x k))
  ((s + 127).toNat, ps, es.map (·.1), (es.filter (·.2.1)).length, (es.filter (·.2.2)).length)

/-- Codes packed or one per byte (R73) as a number. -/
def packCodes (f : Nat) (aform : Bool) : List Nat → Nat
  | [] => 0
  | c :: r => c + 2 ^ (if aform then 8 else fmtWidth f) * packCodes f aform r

/-- The record of R148 from its parts. -/
def recordNat (s8 : Nat) (ps : List Nat) (f : Nat) (pocket aform : Bool) (pocketWord codes : Nat) : Nat :=
  s8 + packCodes 1 false ps * 2 ^ 8 + f * 2 ^ 16 + bit pocket * 2 ^ 20 + bit aform * 2 ^ 21 + pocketWord * 2 ^ 64 + codes * 2 ^ 128

/-- The pocket record of R79: entry 0 is the lane of the larger magnitude (DESIGN CHOICE, log entry 81). -/
def pocketNat (pf : Bool) (l : List (Nat × Mag)) (sign : Nat → Bool) : Nat :=
  match l with
  | [] => 0
  | x0 :: r =>
    let f := if pf then 6 else 5
    let s := clampInt (-126) 127 (fitExp (qMax f) (maxMag (l.map (·.2))))
    let v (e : Nat × Mag) : Nat := (encodeElem f s (sign e.1, e.2)).1
    let second := match r with
      | [] => 0
      | x1 :: _ => x1.1 * 2 ^ 24 + 2 ^ 29 + v x1 * 2 ^ 32
    (s + 127).toNat + x0.1 * 2 ^ 8 + 2 ^ 13 + bit pf * 2 ^ 14 + v x0 * 2 ^ 16 + second

/-- `vqb` (R80 to R85) on the lanes of a vector register. -/
def quantize (q : QbOps) (promoteT gap : Nat) (lane : Nat → Word) : QbResult :=
  let len := if q.b16 then 16 else 32
  let f := q.tgt.toNat
  let vals := (List.range len).map (fun k => fmtF32.decode (lane k).toNat)
  if vals.any (fun v => match v with | .fin _ _ _ => false | _ => true) then
    ⟨recordNat 0xFF [] f false q.af 0 0, true, 0, 0, 0, 0⟩
  else
    let x (k : Nat) : Bool × Mag := laneSigned (lane k)
    let mags := (List.range len).map (fun k => (k, (x k).2))
    if mags.all (fun e => decide (e.2.1 = 0)) then ⟨recordNat 0 [] f false q.af 0 0, false, 0, 0, 0, 0⟩
    else
      let pk := if q.pn = 0 then [] else pockets q.pn.toNat gap mags
      let isP (k : Nat) : Bool := pk.any (fun e => e.1 == k)
      let first := encodeBlock f q.co.toNat q.pl len x isP
      let promote := q.af && decide (1 ≤ promoteT) && decide (promoteT ≤ first.2.2.2.1)
      let f' := if promote then 5 else f
      let r := if promote then encodeBlock 5 q.co.toNat q.pl len x isP else first
      let b1 := decide (f' = 0)
      ⟨recordNat r.1 r.2.1 f' (!pk.isEmpty) q.af (pocketNat q.pf pk (fun k => (x k).1)) (packCodes f' q.af r.2.2.1),
        false, if b1 then 0 else r.2.2.2.1, if b1 then 0 else r.2.2.2.2, bit promote, pk.length⟩

/-- One term of `vtack`: an exact product of two bf16 factors; a zero factor adds nothing (R150). -/
def tackTerm (a b : Nat) : Val :=
  match fmtBF16.decode a, fmtBF16.decode b with
  | .nan s, _ => .nan s
  | _, .nan s => .nan s
  | x, y =>
    let zero (v : Val) : Bool := match v with | .fin _ m _ => decide (m = 0) | _ => false
    if zero x || zero y then .fin false 0 0 else (mulVal x y).1

/-- Exact sum of a list of finite values. -/
def sumExact : List Val → Int × Int
  | [] => (0, 0)
  | .fin s m e :: r => let t := sumExact r
                       addExact s m e (decide (t.1 < 0)) t.1.natAbs t.2
  | _ :: r => sumExact r

/-- `vtack` on one lane (R96, R150): r + a0*b0 + a1*b1 with one rounding. -/
def laneTack (sat : Bool) (r b y : Word) : Word × Exc :=
  let vr := fmtF32.decode r.toNat
  let t0 := tackTerm (b.toNat % 65536) (y.toNat % 65536)
  let t1 := tackTerm (b.toNat / 65536) (y.toNat / 65536)
  let vs := [vr, t0, t1]
  let hasInf (s : Bool) : Bool := vs.any (fun v => v == .inf s)
  if vs.any Val.isNaN then (BitVec.ofNat 32 fmtF32.nan, { nv := vs.any Val.isSignalling })
  else if hasInf true && hasInf false then (BitVec.ofNat 32 fmtF32.nan, Exc.invalid)
  else if hasInf true then (0xFF800000, Exc.none)
  else if hasInf false then (0x7F800000, Exc.none)
  else
    let terms := [t0, t1].filter (fun v => match v with | .fin _ m _ => decide (m ≠ 0) | _ => false)
    if terms.isEmpty then (r, Exc.none)
    else
      let z := sumExact vs
      let o := fmtF32.round .even sat (decide (z.1 < 0)) z.1.natAbs z.2
      (BitVec.ofNat 32 o.1, o.2)

end Sys2Proof.Machine
end

