-- ==== Sys2Proof/Machine/TileVector.lean ====
section
/-! DEFINITION. Vector instructions (R144 to R151). -/

namespace Sys2Proof.Machine

/-- A Z use at latency `l`. -/
def useZ (l : Nat) : State → Use := fun _ => { z := some l }

/-- A vector register of a tile. -/
def vreg (s : State) (t : TileNo) (r : Reg6) : Line := (s.tile t.toNat).vec (vnum r)

/-- The rounding direction in force at a tile. -/
def rdOf (s : State) (t : TileNo) : Rnd := flagRD (s.tile t.toNat).flags

/-- A vector result of latency `l` computed lane by lane, with the exceptions its lanes raise. -/
def vecLanes (s : State) (l : Nat) (d : Reg6) (f : Nat → Word × Exc) : Issue :=
  let r := (List.range 32).map f
  .go { st := s, later := [later l true (.vec (vnum d) (BitVec.ofNat 1024 (ofLanes (r.map (·.1)))))
                              (r.foldl (fun e q => e.or q.2) Exc.none).mask] }

/-- A vector result of latency 2 that raises nothing. -/
def vecPlain (s : State) (d : Reg6) (f : Nat → Word) : Issue := vecLanes s 2 d (fun l => (f l, Exc.none))

/-- A two-operand lane operation without exceptions (vector integer, latency 2). -/
def intOp (t : TileNo) (i : Instr) (d a b : Reg6) (f : Word → Word → Word) (s : State) : Res :=
  .next (s.issue t i (useZ 2) (fun s => vecPlain s d (fun l => f (lane (vreg s t a) l) (lane (vreg s t b) l))))

/-- A two-operand floating-point lane operation (vector add, latency 4). -/
def fpOp (t : TileNo) (i : Instr) (d a b : Reg6) (f : Rnd → Word → Word → Word × Exc) (s : State) : Res :=
  .next (s.issue t i (useZ 4) (fun s =>
    vecLanes s 4 d (fun l => f (rdOf s t) (lane (vreg s t a) l) (lane (vreg s t b) l))))

/-- `vadd` (R145). -/
def execVadd (t : TileNo) (ty : BitVec 4) (d a b : Reg6) (s : State) : Res := fpOp t (.vadd t ty d a b) d a b (laneAdd ty.toNat) s
/-- `vsub` (R145). -/
def execVsub (t : TileNo) (ty : BitVec 4) (d a b : Reg6) (s : State) : Res := fpOp t (.vsub t ty d a b) d a b (laneSub ty.toNat) s
/-- `vmul` (R145). -/
def execVmul (t : TileNo) (ty : BitVec 4) (d a b : Reg6) (s : State) : Res := fpOp t (.vmul t ty d a b) d a b (laneMul ty.toNat) s

/-- `vfma` (R145). -/
def execVfma (t : TileNo) (ty : BitVec 4) (d a b c : Reg6) (s : State) : Res :=
  .next (s.issue t (.vfma t ty d a b c) (useZ 4) (fun s =>
    vecLanes s 4 d (fun l => laneFma ty.toNat (rdOf s t) (lane (vreg s t a) l) (lane (vreg s t b) l) (lane (vreg s t c) l))))

/-- `vmin` (R145). -/
def execVmin (t : TileNo) (ty : BitVec 4) (d a b : Reg6) (s : State) : Res :=
  .next (s.issue t (.vmin t ty d a b) (useZ 2) (fun s =>
    vecLanes s 2 d (fun l => laneMinMax false ty.toNat (lane (vreg s t a) l) (lane (vreg s t b) l))))
/-- `vmax` (R145). -/
def execVmax (t : TileNo) (ty : BitVec 4) (d a b : Reg6) (s : State) : Res :=
  .next (s.issue t (.vmax t ty d a b) (useZ 2) (fun s =>
    vecLanes s 2 d (fun l => laneMinMax true ty.toNat (lane (vreg s t a) l) (lane (vreg s t b) l))))

/-- `viadd` (R145). -/
def execViadd (t : TileNo) (d a b : Reg6) (s : State) : Res := intOp t (.viadd t d a b) d a b (· + ·) s
/-- `visub` (R145). -/
def execVisub (t : TileNo) (d a b : Reg6) (s : State) : Res := intOp t (.visub t d a b) d a b (· - ·) s
/-- `vand` (R145). -/
def execVand (t : TileNo) (d a b : Reg6) (s : State) : Res := intOp t (.vand t d a b) d a b (fun x y => x &&& y) s
/-- `vor` (R145). -/
def execVor (t : TileNo) (d a b : Reg6) (s : State) : Res := intOp t (.vor t d a b) d a b (fun x y => x ||| y) s
/-- `vxor` (R145). -/
def execVxor (t : TileNo) (d a b : Reg6) (s : State) : Res := intOp t (.vxor t d a b) d a b (fun x y => x ^^^ y) s
/-- `vshl` (R145). -/
def execVshl (t : TileNo) (d a b : Reg6) (s : State) : Res :=
  intOp t (.vshl t d a b) d a b (fun x y => x <<< (y.toNat % 32)) s
/-- `vshr`, logical or arithmetic (R145). -/
def execVshr (t : TileNo) (arith : Bool) (d a b : Reg6) (s : State) : Res :=
  intOp t (.vshr t arith d a b) d a b (fun x y => if arith then x.sshiftRight (y.toNat % 32) else x >>> (y.toNat % 32)) s

/-- `vcmp` (R145, R146). -/
def execVcmp (t : TileNo) (ty rel : BitVec 4) (d a b : Reg6) (s : State) : Res :=
  .next (s.issue t (.vcmp t ty rel d a b) (useZ 2) (fun s =>
    vecLanes s 2 d (fun l => laneCmp rel.toNat ty.toNat (lane (vreg s t a) l) (lane (vreg s t b) l))))

/-- `vmov` (R145). -/
def execVmov (t : TileNo) (d a : Reg6) (s : State) : Res :=
  .next (s.issue t (.vmov t d a) (useZ 2) (fun s => vecPlain s d (lane (vreg s t a))))

/-- `vsel` (R145). -/
def execVsel (t : TileNo) (d a b c : Reg6) (s : State) : Res :=
  .next (s.issue t (.vsel t d a b c) (useZ 2) (fun s =>
    vecPlain s d (fun l => if lane (vreg s t c) l ≠ 0 then lane (vreg s t a) l else lane (vreg s t b) l)))

/-- `vbcast` (R145). -/
def execVbcast (t : TileNo) (d a : Reg6) (s : State) : Res :=
  .next (s.issue t (.vbcast t d a) (useZ 2) (fun s => vecPlain s d (fun _ => (s.tile t.toNat).gen a.toNat)))

/-- `vget` (R145): the scalar result goes through Z. -/
def execVget (t : TileNo) (d a : Reg6) (ln : BitVec 5) (s : State) : Res :=
  .next (s.issue t (.vget t d a ln) (useZ 2) (fun s =>
    .go { st := s, later := [later 2 true (.gen d.toNat (lane (vreg s t a) ln.toNat))] }))

/-- `vrot` (R145): k from sB[4:0], or from the word when B = 0x3F. -/
def execVrot (t : TileNo) (d a b : Reg6) (k : BitVec 5) (s : State) : Res :=
  .next (s.issue t (.vrot t d a b k) (useZ 2) (fun s =>
    let n := if b = 0x3F then k.toNat else ((s.tile t.toNat).gen b.toNat).toNat % 32
    vecPlain s d (fun l => lane (vreg s t a) ((l + n) % 32))))

/-- `vcvt` (R147). -/
def execVcvt (t : TileNo) (src dst : BitVec 4) (scl : BitVec 8) (d a : Reg6) (s : State) : Res :=
  .next (s.issue t (.vcvt t src dst scl d a) (useZ 3) (fun s =>
    vecLanes s 3 d (fun l => laneCvt src.toNat dst.toNat scl.toInt (rdOf s t) (flag s Reg.TIL_NUM_CTRL_OVF_SAT t.toNat) (lane (vreg s t a) l))))

/-- `vqb` (R149, R80 to R85). -/
def execVqb (t : TileNo) (d a : Reg6) (q : QbOps) (s : State) : Res :=
  .next (s.issue t (.vqb t d a q) (useZ 6) (fun s =>
    let n := t.toNat
    let r := quantize q (getF s Reg.TIL_NUM_CTRL_PROMOTE_VANISH n) (getF s Reg.TIL_NUM_CTRL_POCKET_GAP n) (lane (vreg s t a))
    let s := bumpF (bumpF s Reg.TIL_QB_VANISH_COUNT r.vanished n) Reg.TIL_QB_CLIP_COUNT r.clipped n
    let s := bumpF (bumpF s Reg.TIL_QB_PROMOTE_COUNT r.promoted n) Reg.TIL_QB_POCKET_COUNT r.pocketed n
    .go { st := s, later := [later 6 true (.half (vnum d) q.half (BitVec.ofNat 512 r.data)) ({ nv := r.invalid : Exc }).mask] }))

/-- A pointer of the operand store by number. -/
def ptrAddr (s : State) (t : TileNo) (p : BitVec 3) : Nat := ((s.tile t.toNat).ptr p.toNat).toNat

/-- `vtack` (R150). -/
def execVtack (t : TileNo) (d a b : Reg6) (py my : BitVec 3) (s : State) : Res :=
  .next (s.issue t (.vtack t d a b py my) (fun s => { y := some (ptrAddr s t py), z := some 5 }) (fun s =>
    let x := s.tile t.toNat
    let ya := ptrAddr s t py
    match checkRange osTop 128 ya 128 with
    | some c => .fault s c 0
    | none =>
      match s.osLine t.toNat ya with
      | (s, none) => .fault s fltOS (ya / 8)
      | (s, some y) =>
        let r := (List.range 32).map (fun l =>
          laneTack (flag s Reg.TIL_NUM_CTRL_OVF_SAT t.toNat) (lane (vreg s t a) l) (lane (vreg s t b) l) (lane y l))
        .go { st := s, own := [.gen (16 + py.toNat) (x.postMod py.toNat (x.modr my.toNat))],
              later := [later 5 true (.vec (vnum d) (BitVec.ofNat 1024 (ofLanes (r.map (·.1)))))
                         (r.foldl (fun e q => e.or q.2) Exc.none).mask] }))

/-- `vtap` (R151). -/
def execVtap (t : TileNo) (ty : BitVec 4) (d : Reg6) (px mx py my : BitVec 3) (s : State) : Res :=
  .next (s.issue t (.vtap t ty d px mx py my)
    (fun s => { x := some (ptrAddr s t px), y := some (ptrAddr s t py), z := some 4 }) (fun s =>
    let x := s.tile t.toNat
    let xa := ptrAddr s t px
    let ya := ptrAddr s t py
    let da := (x.wrapPtr px.toNat (x.ptr px.toNat + 128)).toNat
    match (checkRange osTop 128 xa 128).or ((checkRange osTop 128 ya 128).or (checkRange osTop 128 da 128)) with
    | some c => .fault s c 0
    | none =>
      match s.osLine t.toNat xa with
      | (s, none) => .fault s fltOS (xa / 8)
      | (s, some xv) =>
        match s.osLine t.toNat ya with
        | (s, none) => .fault s fltOS (ya / 8)
        | (s, some hv) =>
          let yw : List PWrite := [.gen (16 + py.toNat) (x.postMod py.toNat (x.modr my.toNat))]
          .go { st := s
                own := if px = py then yw else .gen (16 + px.toNat) (x.postMod px.toNat (x.modr mx.toNat)) :: yw
                later := [later 2 false (.line da xv), later 4 true (.tap (vnum d) ty.toNat (bits x.flags.toNat 15 13) xv hv)] }))

end Sys2Proof.Machine
end

