-- ==== Sys2Proof/Machine/TileEntry.lean ====
section
/-! DEFINITION. Interrupt entry (R122, R123, R125): it looks at the word at the program counter first, since a `halt` or a synchronous fault there
wins. -/

namespace Sys2Proof.Machine

/-- The meaning of a tile instruction; any other command leaves the state as it is. -/
def tileInstr (i : Instr) (s : State) : Res :=
  match i with
  | .nop t => execNop t s
  | .halt t => execHalt t s
  | .rti t => execRti t s
  | .br t cond target => execBr t cond target s
  | .bal t d target => execBal t d target s
  | .jr t a => execJr t a s
  | .rep t cs sreg stop imm => execRep t cs sreg stop imm s
  | .rbrk t n => execRbrk t n s
  | .setf t mask => execSetf t mask s
  | .clrf t mask => execClrf t mask s
  | .add t o => execAdd t o s
  | .sub t o => execSub t o s
  | .and t o => execAnd t o s
  | .or t o => execOr t o s
  | .xor t o => execXor t o s
  | .shl t o => execShl t o s
  | .shr t o => execShr t o s
  | .sra t o => execSra t o s
  | .mov t d b isImm imm => execMov t d b isImm imm s
  | .cmp t a b isImm imm => execCmp t a b isImm imm s
  | .min t o => execMin t o s
  | .max t o => execMax t o s
  | .mul t o => execMul t o s
  | .pmod t d b isImm imm => execPmod t d b isImm imm s
  | .mvs t dir gen spr => execMvs t dir gen spr s
  | .setsp t spr imm => execSetsp t spr imm s
  | .ldsp t spr m => execLdsp t spr m s
  | .stsp t spr m => execStsp t spr m s
  | .ld t d m => execLd t d m s
  | .st t r m => execSt t r m s
  | .vld t d bus m => execVld t d bus m s
  | .vst t r m => execVst t r m s
  | .vadd t ty d a b => execVadd t ty d a b s
  | .vsub t ty d a b => execVsub t ty d a b s
  | .vmul t ty d a b => execVmul t ty d a b s
  | .vfma t ty d a b c => execVfma t ty d a b c s
  | .vmin t ty d a b => execVmin t ty d a b s
  | .vmax t ty d a b => execVmax t ty d a b s
  | .viadd t d a b => execViadd t d a b s
  | .visub t d a b => execVisub t d a b s
  | .vand t d a b => execVand t d a b s
  | .vor t d a b => execVor t d a b s
  | .vxor t d a b => execVxor t d a b s
  | .vshl t d a b => execVshl t d a b s
  | .vshr t arith d a b => execVshr t arith d a b s
  | .vcmp t ty rel d a b => execVcmp t ty rel d a b s
  | .vmov t d a => execVmov t d a s
  | .vsel t d a b c => execVsel t d a b c s
  | .vbcast t d a => execVbcast t d a s
  | .vget t d a lane => execVget t d a lane s
  | .vrot t d a b k => execVrot t d a b k s
  | .vcvt t src dst scl d a => execVcvt t src dst scl d a s
  | .vqb t d a q => execVqb t d a q s
  | .vtack t d a b py my => execVtack t d a b py my s
  | .vtap t ty d px mx py my => execVtap t ty d px mx py my s
  | .mstream t w => execMstream t w s
  | .mfold t w => execMfold t w s
  | .mswap t => execMswap t s
  | .mswapReduce t ofmt odst oreg => execMswapReduce t ofmt odst oreg s
  | .mdrainConverted t rowsm1 ofmt odst oreg bias breg => execMdrainConverted t rowsm1 ofmt odst oreg bias breg s
  | .mdrainRaw t rowsm1 odst oreg => execMdrainRaw t rowsm1 odst oreg s
  | .mloadRow t row sreg => execMloadRow t row sreg s
  | .mloadBroadcast t sreg => execMloadBroadcast t sreg s
  | .mloadRaw t row rowsm1 src sreg => execMloadRaw t row rowsm1 src sreg s
  | .mclr t => execMclr t s
  | .mwait t bb tr st => execMwait t bb tr st s
  | .lnld t d m => execLnld t d m s
  | .lnst t r m => execLnst t r m s
  | .nsend t a cls sb => execNsend t a cls sb s
  | .nrecv t d cls => execNrecv t d cls s
  | .trc t a code => execTrc t a code s
  | .rdctr t d n hi => execRdctr t d n hi s
  | .rdsnap t d => execRdsnap t d s
  | _ => .next s

/-- The word at the program counter of tile t, presented for the next slot, stops the tile: it is a `halt`, or it raises a synchronous fault
(R125). -/
def State.stopsAtWord (s : State) (t : Nat) : Bool :=
  match s.pmemFetch t (s.tile t).pc.toNat with
  | (_, none) => true
  | (_, some w) =>
    match decodeTile (BitVec.ofNat 11 t) w with
    | none => true
    | some i =>
      match tileInstr i s with
      | .next r => decide ((r.tile t).run ≠ .running)
      | _ => false

/-- INTERRUPT_ENTRY (R122, R123): issue stops; what is in flight completes, one ic a command; then the handler is entered. -/
def execInterruptEntry (t : TileNo) (s : State) : Res :=
  let n := t.toNat
  let x := s.tile n
  .next (if !s.sequencing n || s.eventDue n || decide (0 < x.gap) || x.rtiPend || s.chainBehind n then s
    else match x.entering with
      | some c => if x.pipe.isEmpty then s.enterHandler n c else s.passIc n
      | none =>
        if !x.irqReady then s
        else match x.hold {} with
          | some c => s.heldIc n c false
          | none =>
            if s.stopsAtWord n then s
            else
            let c := irqCause (x.sprv sprIPEND)
            if x.pipe.isEmpty then s.enterHandler n c
            else (s.setTile n { x with entering := some c }).emptySlot n)

end Sys2Proof.Machine
end

