-- ==== Sys2Proof/Machine/Dispatch.lean ====
section
/-! DEFINITION. One arm per command: each calls its own meaning. -/

namespace Sys2Proof.Machine

def exec (i : Instr) (s : State) : Host.Outcome State Fault Refusal :=
  match i with
  | .registerWrite addr wide val => Sys2Proof.Machine.execRegisterWrite addr wide val s
  | .rcRead addr wide => Sys2Proof.Machine.execRcRead addr wide s
  | .lowerHalfRead addr => Sys2Proof.Machine.execLowerHalfRead addr s
  | .upperHalfRead addr => Sys2Proof.Machine.execUpperHalfRead addr s
  | .lowerHalfWrite addr val => Sys2Proof.Machine.execLowerHalfWrite addr val s
  | .upperHalfWrite addr val => Sys2Proof.Machine.execUpperHalfWrite addr val s
  | .unassignedAccess addr write val => Sys2Proof.Machine.execUnassignedAccess addr write val s
  | .profileWrite val => Sys2Proof.Machine.execProfileWrite val s
  | .nop t => Sys2Proof.Machine.execNop t s
  | .halt t => Sys2Proof.Machine.execHalt t s
  | .rti t => Sys2Proof.Machine.execRti t s
  | .br t cond target => Sys2Proof.Machine.execBr t cond target s
  | .bal t d target => Sys2Proof.Machine.execBal t d target s
  | .jr t a => Sys2Proof.Machine.execJr t a s
  | .rep t cs sreg stop imm => Sys2Proof.Machine.execRep t cs sreg stop imm s
  | .rbrk t n => Sys2Proof.Machine.execRbrk t n s
  | .setf t mask => Sys2Proof.Machine.execSetf t mask s
  | .clrf t mask => Sys2Proof.Machine.execClrf t mask s
  | .add t o => Sys2Proof.Machine.execAdd t o s
  | .sub t o => Sys2Proof.Machine.execSub t o s
  | .and t o => Sys2Proof.Machine.execAnd t o s
  | .or t o => Sys2Proof.Machine.execOr t o s
  | .xor t o => Sys2Proof.Machine.execXor t o s
  | .shl t o => Sys2Proof.Machine.execShl t o s
  | .shr t o => Sys2Proof.Machine.execShr t o s
  | .sra t o => Sys2Proof.Machine.execSra t o s
  | .mov t d b isImm imm => Sys2Proof.Machine.execMov t d b isImm imm s
  | .cmp t a b isImm imm => Sys2Proof.Machine.execCmp t a b isImm imm s
  | .min t o => Sys2Proof.Machine.execMin t o s
  | .max t o => Sys2Proof.Machine.execMax t o s
  | .mul t o => Sys2Proof.Machine.execMul t o s
  | .pmod t d b isImm imm => Sys2Proof.Machine.execPmod t d b isImm imm s
  | .mvs t dir gen spr => Sys2Proof.Machine.execMvs t dir gen spr s
  | .setsp t spr imm => Sys2Proof.Machine.execSetsp t spr imm s
  | .ldsp t spr m => Sys2Proof.Machine.execLdsp t spr m s
  | .stsp t spr m => Sys2Proof.Machine.execStsp t spr m s
  | .ld t d m => Sys2Proof.Machine.execLd t d m s
  | .st t r m => Sys2Proof.Machine.execSt t r m s
  | .vld t d bus m => Sys2Proof.Machine.execVld t d bus m s
  | .vst t r m => Sys2Proof.Machine.execVst t r m s
  | .vadd t ty d a b => Sys2Proof.Machine.execVadd t ty d a b s
  | .vsub t ty d a b => Sys2Proof.Machine.execVsub t ty d a b s
  | .vmul t ty d a b => Sys2Proof.Machine.execVmul t ty d a b s
  | .vfma t ty d a b c => Sys2Proof.Machine.execVfma t ty d a b c s
  | .vmin t ty d a b => Sys2Proof.Machine.execVmin t ty d a b s
  | .vmax t ty d a b => Sys2Proof.Machine.execVmax t ty d a b s
  | .viadd t d a b => Sys2Proof.Machine.execViadd t d a b s
  | .visub t d a b => Sys2Proof.Machine.execVisub t d a b s
  | .vand t d a b => Sys2Proof.Machine.execVand t d a b s
  | .vor t d a b => Sys2Proof.Machine.execVor t d a b s
  | .vxor t d a b => Sys2Proof.Machine.execVxor t d a b s
  | .vshl t d a b => Sys2Proof.Machine.execVshl t d a b s
  | .vshr t arith d a b => Sys2Proof.Machine.execVshr t arith d a b s
  | .vcmp t ty rel d a b => Sys2Proof.Machine.execVcmp t ty rel d a b s
  | .vmov t d a => Sys2Proof.Machine.execVmov t d a s
  | .vsel t d a b c => Sys2Proof.Machine.execVsel t d a b c s
  | .vbcast t d a => Sys2Proof.Machine.execVbcast t d a s
  | .vget t d a lane => Sys2Proof.Machine.execVget t d a lane s
  | .vrot t d a b k => Sys2Proof.Machine.execVrot t d a b k s
  | .vcvt t src dst scl d a => Sys2Proof.Machine.execVcvt t src dst scl d a s
  | .vqb t d a q => Sys2Proof.Machine.execVqb t d a q s
  | .vtack t d a b py my => Sys2Proof.Machine.execVtack t d a b py my s
  | .vtap t ty d px mx py my => Sys2Proof.Machine.execVtap t ty d px mx py my s
  | .mstream t w => Sys2Proof.Machine.execMstream t w s
  | .mfold t w => Sys2Proof.Machine.execMfold t w s
  | .streamStart t => Sys2Proof.Machine.execStreamStart t s
  | .mswap t => Sys2Proof.Machine.execMswap t s
  | .mswapReduce t ofmt odst oreg => Sys2Proof.Machine.execMswapReduce t ofmt odst oreg s
  | .treeResultWrite t => Sys2Proof.Machine.execTreeResultWrite t s
  | .mdrainConverted t rowsm1 ofmt odst oreg bias breg => Sys2Proof.Machine.execMdrainConverted t rowsm1 ofmt odst oreg bias breg s
  | .mdrainRaw t rowsm1 odst oreg => Sys2Proof.Machine.execMdrainRaw t rowsm1 odst oreg s
  | .mloadRow t row sreg => Sys2Proof.Machine.execMloadRow t row sreg s
  | .mloadBroadcast t sreg => Sys2Proof.Machine.execMloadBroadcast t sreg s
  | .mloadRaw t row rowsm1 src sreg => Sys2Proof.Machine.execMloadRaw t row rowsm1 src sreg s
  | .mclr t => Sys2Proof.Machine.execMclr t s
  | .backBankOpStart t => Sys2Proof.Machine.execBackBankOpStart t s
  | .backBankOpComplete t => Sys2Proof.Machine.execBackBankOpComplete t s
  | .mwait t bb tr st => Sys2Proof.Machine.execMwait t bb tr st s
  | .matForceWrite t col val => Sys2Proof.Machine.execMatForceWrite t col val s
  | .lnld t d m => Sys2Proof.Machine.execLnld t d m s
  | .lnst t r m => Sys2Proof.Machine.execLnst t r m s
  | .nsend t a cls sb => Sys2Proof.Machine.execNsend t a cls sb s
  | .nrecv t d cls => Sys2Proof.Machine.execNrecv t d cls s
  | .trc t a code => Sys2Proof.Machine.execTrc t a code s
  | .rdctr t d n hi => Sys2Proof.Machine.execRdctr t d n hi s
  | .rdsnap t d => Sys2Proof.Machine.execRdsnap t d s
  | .tileCompletion t => Sys2Proof.Machine.execTileCompletion t s
  | .interruptEntry t => Sys2Proof.Machine.execInterruptEntry t s
  | .faultLimitExceeded t => Sys2Proof.Machine.execFaultLimitExceeded t s
  | .uncorrectableReplay t recurs => Sys2Proof.Machine.execUncorrectableReplay t recurs s
  | .tileTakeover t => Sys2Proof.Machine.execTileTakeover t s
  | .tileReset t => Sys2Proof.Machine.execTileReset t s
  | .patrolScrubRead t => Sys2Proof.Machine.execPatrolScrubRead t s
  | .correctedWriteBack t word => Sys2Proof.Machine.execCorrectedWriteBack t word s
  | .chainReady t => Sys2Proof.Machine.execChainReady t s
  | .moveIssue p q => Sys2Proof.Machine.execMoveIssue p q s
  | .markReached p q => Sys2Proof.Machine.execMarkReached p q s
  | .waitSatisfied p q => Sys2Proof.Machine.execWaitSatisfied p q s
  | .barrierRelease p => Sys2Proof.Machine.execBarrierRelease p s
  | .messageDelivery n => Sys2Proof.Machine.execMessageDelivery n s
  | .stitchDelivery stitch point => Sys2Proof.Machine.execStitchDelivery stitch point s
  | .landingStageWrite t => Sys2Proof.Machine.execLandingStageWrite t s
  | .creditReturn stitch => Sys2Proof.Machine.execCreditReturn stitch s
  | .class0CrcFailure stitch hop => Sys2Proof.Machine.execClass0CrcFailure stitch hop s
  | .linkReplay t port again => Sys2Proof.Machine.execLinkReplay t port again s
  | .linkEventLimitExceeded t port => Sys2Proof.Machine.execLinkEventLimitExceeded t port s
  | .routerFault t => Sys2Proof.Machine.execRouterFault t s
  | .multicastDetach g t port => Sys2Proof.Machine.execMulticastDetach g t port s
  | .tornMarker t port g => Sys2Proof.Machine.execTornMarker t port g s
  | .linkForceWrite off => Sys2Proof.Machine.execLinkForceWrite off s
  | .mcastGroupWrite g val => Sys2Proof.Machine.execMcastGroupWrite g val s
  | .panelDefine p => Sys2Proof.Machine.execPanelDefine p s
  | .panelDefineComplete p => Sys2Proof.Machine.execPanelDefineComplete p s
  | .panelUndefine p => Sys2Proof.Machine.execPanelUndefine p s
  | .panelReset p => Sys2Proof.Machine.execPanelReset p s
  | .panelResetComplete p => Sys2Proof.Machine.execPanelResetComplete p s
  | .panelThaw p => Sys2Proof.Machine.execPanelThaw p s
  | .queueResume p => Sys2Proof.Machine.execQueueResume p s
  | .intakeWrite off words partialBe poisoned => Sys2Proof.Machine.execIntakeWrite off words partialBe poisoned s
  | .intakeResync p => Sys2Proof.Machine.execIntakeResync p s
  | .packetDecision p => Sys2Proof.Machine.execPacketDecision p s
  | .packetConsume p => Sys2Proof.Machine.execPacketConsume p s
  | .launch p => Sys2Proof.Machine.execLaunch p s
  | .load p => Sys2Proof.Machine.execLoad p s
  | .move p q => Sys2Proof.Machine.execMove p q s
  | .mark p q => Sys2Proof.Machine.execMark p q s
  | .wait p q => Sys2Proof.Machine.execWait p q s
  | .barrier p => Sys2Proof.Machine.execBarrier p s
  | .stitchReserve p => Sys2Proof.Machine.execStitchReserve p s
  | .stitchRelease p => Sys2Proof.Machine.execStitchRelease p s
  | .stitchReleaseEffect stitch => Sys2Proof.Machine.execStitchReleaseEffect stitch s
  | .snap p => Sys2Proof.Machine.execSnap p s
  | .tag p => Sys2Proof.Machine.execTag p s
  | .signal p => Sys2Proof.Machine.execSignal p s
  | .patchPreload p => Sys2Proof.Machine.execPatchPreload p s
  | .patchSwap p => Sys2Proof.Machine.execPatchSwap p s
  | .patchLoad p => Sys2Proof.Machine.execPatchLoad p s
  | .patchScrub p => Sys2Proof.Machine.execPatchScrub p s
  | .postPreempt p val => Sys2Proof.Machine.execPostPreempt p val s
  | .postSnapshotRequest p val => Sys2Proof.Machine.execPostSnapshotRequest p val s
  | .panelSleep p => Sys2Proof.Machine.execPanelSleep p s
  | .panelWake p => Sys2Proof.Machine.execPanelWake p s
  | .descriptorStart k n => Sys2Proof.Machine.execDescriptorStart k n s
  | .blockAnnounce k n => Sys2Proof.Machine.execBlockAnnounce k n s
  | .busError k n addr => Sys2Proof.Machine.execBusError k n addr s
  | .translationFault n => Sys2Proof.Machine.execTranslationFault n s
  | .pageResponse n code => Sys2Proof.Machine.execPageResponse n code s
  | .priTimeout n => Sys2Proof.Machine.execPriTimeout n s
  | .channelAbort k n => Sys2Proof.Machine.execChannelAbort k n s
  | .abortComplete k n => Sys2Proof.Machine.execAbortComplete k n s
  | .channelRetry k n skipToo => Sys2Proof.Machine.execChannelRetry k n skipToo s
  | .channelSkip k n => Sys2Proof.Machine.execChannelSkip k n s
  | .directPost k n val => Sys2Proof.Machine.execDirectPost k n val s
  | .hbmRequestAccept r => Sys2Proof.Machine.execHbmRequestAccept r s
  | .hbmReadData ctl n ecc => Sys2Proof.Machine.execHbmReadData ctl n ecc s
  | .hbmWriteCommit ctl n => Sys2Proof.Machine.execHbmWriteCommit ctl n s
  | .hbmRefresh => Sys2Proof.Machine.execHbmRefresh s
  | .hbmEventLimitExceeded ctl sections => Sys2Proof.Machine.execHbmEventLimitExceeded ctl sections s
  | .sectionRetirement => Sys2Proof.Machine.execSectionRetirement s
  | .mapRebuildComplete => Sys2Proof.Machine.execMapRebuildComplete s
  | .backgroundRetrain => Sys2Proof.Machine.execBackgroundRetrain s
  | .mapEnable en => Sys2Proof.Machine.execMapEnable en s
  | .trainingOwn stack val => Sys2Proof.Machine.execTrainingOwn stack val s
  | .trainingWriteCompare stack => Sys2Proof.Machine.execTrainingWriteCompare stack s
  | .trainingReadCompare stack => Sys2Proof.Machine.execTrainingReadCompare stack s
  | .trainingCaLoopback stack => Sys2Proof.Machine.execTrainingCaLoopback stack s
  | .trainingRunDone stack errs => Sys2Proof.Machine.execTrainingRunDone stack errs s
  | .linkUpRequest d => Sys2Proof.Machine.execLinkUpRequest d s
  | .linkDownRequest d => Sys2Proof.Machine.execLinkDownRequest d s
  | .bringUpStepComplete lane inv skew => Sys2Proof.Machine.execBringUpStepComplete lane inv skew s
  | .bringUpStepTimeout lane => Sys2Proof.Machine.execBringUpStepTimeout lane s
  | .trainBlock lane logical locked switch count => Sys2Proof.Machine.execTrainBlock lane logical locked switch count s
  | .paramBlock d index value => Sys2Proof.Machine.execParamBlock d index value s
  | .codeword lane blocks align trailer parity => Sys2Proof.Machine.execCodeword lane blocks align trailer parity s
  | .flit d head ctl data crc => Sys2Proof.Machine.execFlit d head ctl data crc s
  | .ack d ackseq cred1 cred2 cred3 => Sys2Proof.Machine.execAck d ackseq cred1 cred2 cred3 s
  | .ackDue d => Sys2Proof.Machine.execAckDue d s
  | .replay d from_ => Sys2Proof.Machine.execReplay d from_ s
  | .lane d mask cw => Sys2Proof.Machine.execLane d mask cw s
  | .laneMaskApply d => Sys2Proof.Machine.execLaneMaskApply d s
  | .freezeBlock d => Sys2Proof.Machine.execFreezeBlock d s
  | .laneMessageArrival d => Sys2Proof.Machine.execLaneMessageArrival d s
  | .blockLockLoss lane found ofs => Sys2Proof.Machine.execBlockLockLoss lane found ofs s
  | .bitslipSlip lane count => Sys2Proof.Machine.execBitslipSlip lane count s
  | .bitslipRetrain lane => Sys2Proof.Machine.execBitslipRetrain lane s
  | .laneRejoin lane => Sys2Proof.Machine.execLaneRejoin lane s
  | .bitslipTimeout => Sys2Proof.Machine.execBitslipTimeout s
  | .laneEventLimitExceeded lane => Sys2Proof.Machine.execLaneEventLimitExceeded lane s
  | .loopModeWrite lane mode => Sys2Proof.Machine.execLoopModeWrite lane mode s
  | .loopRun lane => Sys2Proof.Machine.execLoopRun lane s
  | .loopRunDone lane errs => Sys2Proof.Machine.execLoopRunDone lane errs s
  | .macTransmitFrame k bytes abort => Sys2Proof.Machine.execMacTransmitFrame k bytes abort s
  | .macReceiveFrame k bytes ready => Sys2Proof.Machine.execMacReceiveFrame k bytes ready s
  | .bridgeTransmit d ctl data => Sys2Proof.Machine.execBridgeTransmit d ctl data s
  | .hemTransmit h head cls route tags data => Sys2Proof.Machine.execHemTransmit h head cls route tags data s
  | .hemReceive h => Sys2Proof.Machine.execHemReceive h s
  | .hemTailTimeout h => Sys2Proof.Machine.execHemTailTimeout h s
  | .hemEnable h val => Sys2Proof.Machine.execHemEnable h val s
  | .mpRequest p write addr len id => Sys2Proof.Machine.execMpRequest p write addr len id s
  | .mpWriteData p bytes => Sys2Proof.Machine.execMpWriteData p bytes s
  | .mpReadResponse p poison => Sys2Proof.Machine.execMpReadResponse p poison s
  | .mpWriteResponse p => Sys2Proof.Machine.execMpWriteResponse p s
  | .globalResetAssert val => Sys2Proof.Machine.execGlobalResetAssert val s
  | .probeEnable bank chan val => Sys2Proof.Machine.execProbeEnable bank chan val s
  | .vccioChange bank mv => Sys2Proof.Machine.execVccioChange bank mv s
  | .fullLoad val => Sys2Proof.Machine.execFullLoad val s
  | .fullLoadEnd => Sys2Proof.Machine.execFullLoadEnd s
  | .engineRequestStart => Sys2Proof.Machine.execEngineRequestStart s
  | .preloadComplete => Sys2Proof.Machine.execPreloadComplete s
  | .swapWriteStart ok => Sys2Proof.Machine.execSwapWriteStart ok s
  | .swapRelease => Sys2Proof.Machine.execSwapRelease s
  | .patchRepair => Sys2Proof.Machine.execPatchRepair s
  | .scrubFrameRead upset rom setErr => Sys2Proof.Machine.execScrubFrameRead upset rom setErr s
  | .scrubberWatchdog => Sys2Proof.Machine.execScrubberWatchdog s
  | .testPortCfgLoad => Sys2Proof.Machine.execTestPortCfgLoad s
  | .testPortImageWord word => Sys2Proof.Machine.execTestPortImageWord word s
  | .configRequest write off be val => Sys2Proof.Machine.execConfigRequest write off be val s
  | .bar0InvalidAccess addr write => Sys2Proof.Machine.execBar0InvalidAccess addr write s
  | .bar2Read addr len bad => Sys2Proof.Machine.execBar2Read addr len bad s
  | .bar2Write addr bytes poisoned => Sys2Proof.Machine.execBar2Write addr bytes poisoned s
  | .msixUnmask v => Sys2Proof.Machine.execMsixUnmask v s
  | .hostCompletion n status bytes => Sys2Proof.Machine.execHostCompletion n status bytes s
  | .completionTimeout n => Sys2Proof.Machine.execCompletionTimeout n s
  | .atsInvalidate addr len => Sys2Proof.Machine.execAtsInvalidate addr len s
  | .invalidateComplete => Sys2Proof.Machine.execInvalidateComplete s
  | .doeRequest bytes => Sys2Proof.Machine.execDoeRequest bytes s
  | .doeAbort => Sys2Proof.Machine.execDoeAbort s
  | .getVersion => Sys2Proof.Machine.execGetVersion s
  | .getCapabilities => Sys2Proof.Machine.execGetCapabilities s
  | .negotiateAlgorithms sm2 sm3 => Sys2Proof.Machine.execNegotiateAlgorithms sm2 sm3 s
  | .getDigests => Sys2Proof.Machine.execGetDigests s
  | .getCertificate slot off len => Sys2Proof.Machine.execGetCertificate slot off len s
  | .challenge slot nonce => Sys2Proof.Machine.execChallenge slot nonce s
  | .getMeasurements index sign nonce => Sys2Proof.Machine.execGetMeasurements index sign nonce s
  | .pcieHotReset => Sys2Proof.Machine.execPcieHotReset s
  | .dlDown => Sys2Proof.Machine.execDlDown s
  | .d3hotEntry => Sys2Proof.Machine.execD3hotEntry s
  | .d0Transition => Sys2Proof.Machine.execD0Transition s
  | .boot failed => Sys2Proof.Machine.execBoot failed s
  | .managementReset => Sys2Proof.Machine.execManagementReset s
  | .managementWatchdog => Sys2Proof.Machine.execManagementWatchdog s
  | .recover failed => Sys2Proof.Machine.execRecover failed s
  | .svcThaw => Sys2Proof.Machine.execSvcThaw s
  | .svcTrainHbm failed => Sys2Proof.Machine.execSvcTrainHbm failed s
  | .svcRetrainChannel => Sys2Proof.Machine.execSvcRetrainChannel s
  | .svcLinkBringUp => Sys2Proof.Machine.execSvcLinkBringUp s
  | .svcSoftRepair => Sys2Proof.Machine.execSvcSoftRepair s
  | .svcCommitRetirements => Sys2Proof.Machine.execSvcCommitRetirements s
  | .svcAdvanceRollback => Sys2Proof.Machine.execSvcAdvanceRollback s
  | .svcRevokeKey => Sys2Proof.Machine.execSvcRevokeKey s
  | .charterNarrowing addr val => Sys2Proof.Machine.execCharterNarrowing addr val s
  | .hostRecord val => Sys2Proof.Machine.execHostRecord val s
  | .blackBoxCommit => Sys2Proof.Machine.execBlackBoxCommit s
  | .retirementSummary => Sys2Proof.Machine.execRetirementSummary s
  | .snapMarkerCopyTile t => Sys2Proof.Machine.execSnapMarkerCopyTile t s
  | .snapMarkerCopyChannel k n => Sys2Proof.Machine.execSnapMarkerCopyChannel k n s
  | .broadcastSnapshot => Sys2Proof.Machine.execBroadcastSnapshot s
  | .broadcastLateCopy unit => Sys2Proof.Machine.execBroadcastLateCopy unit s
  | .counterReset => Sys2Proof.Machine.execCounterReset s
  | .traceChunkDrain t => Sys2Proof.Machine.execTraceChunkDrain t s
  | .traceChunkWrite k => Sys2Proof.Machine.execTraceChunkWrite k s
  | .traceFlush => Sys2Proof.Machine.execTraceFlush s
  | .traceRingEnable k val => Sys2Proof.Machine.execTraceRingEnable k val s
  | .freezePin low => Sys2Proof.Machine.execFreezePin low s
  | .freezePartialRequest => Sys2Proof.Machine.execFreezePartialRequest s
  | .freezeFullRequest => Sys2Proof.Machine.execFreezeFullRequest s
  | .freezeDecision => Sys2Proof.Machine.execFreezeDecision s
  | .freezeStopped => Sys2Proof.Machine.execFreezeStopped s
  | .freezeThaw => Sys2Proof.Machine.execFreezeThaw s
  | .frz => Sys2Proof.Machine.execFrz s
  | .frzExit => Sys2Proof.Machine.execFrzExit s
  | .capSel val => Sys2Proof.Machine.execCapSel val s
  | .capRead n => Sys2Proof.Machine.execCapRead n s
  | .bbRead => Sys2Proof.Machine.execBbRead s
  | .idcode => Sys2Proof.Machine.execIdcode s
  | .bypass code bits => Sys2Proof.Machine.execBypass code bits s
  | .samplePreload bits => Sys2Proof.Machine.execSamplePreload bits s
  | .extest => Sys2Proof.Machine.execExtest s
  | .powerOn => Sys2Proof.Machine.execPowerOn s
  | .perstNAssert => Sys2Proof.Machine.execPerstNAssert s
  | .perstNNegate => Sys2Proof.Machine.execPerstNNegate s
  | .deviceWarmReset firmware => Sys2Proof.Machine.execDeviceWarmReset firmware s
  | .supplyWarning rail mv => Sys2Proof.Machine.execSupplyWarning rail mv s
  | .supplyFault rail micros => Sys2Proof.Machine.execSupplyFault rail micros s
  | .brownoutEnd lowest micros => Sys2Proof.Machine.execBrownoutEnd lowest micros s
  | .localDroop unit mv stretch => Sys2Proof.Machine.execLocalDroop unit mv stretch s
  | .powerCapUpdate watts step => Sys2Proof.Machine.execPowerCapUpdate watts step s
  | .thermalSensorRead temps => Sys2Proof.Machine.execThermalSensorRead temps s
  | .standbyEnter => Sys2Proof.Machine.execStandbyEnter s
  | .standbyExit => Sys2Proof.Machine.execStandbyExit s
  | .standbyExitComplete => Sys2Proof.Machine.execStandbyExitComplete s
  | .standbyExitTimeout => Sys2Proof.Machine.execStandbyExitTimeout s
  | .reservedEncoding t w => Sys2Proof.Machine.execReservedEncoding t w s
  | .pcieLinkUp speed width flit rev => Sys2Proof.Machine.execPcieLinkUp speed width flit rev s
  | .hbmStackTemperature stack temp => Sys2Proof.Machine.execHbmStackTemperature stack temp s
  | .linkRetrainAfterPartnerReset d => Sys2Proof.Machine.execLinkRetrainAfterPartnerReset d s
  | .droopEnd unit => Sys2Proof.Machine.execDroopEnd unit s

end Sys2Proof.Machine
end

