-- ==== Sys2Proof/Machine/Idle.lean ====
section
/-! DEFINITION. What the block does while no command waits: time passes in the islands whose sequencers do not run (DESIGN CHOICE, log entry 21). -/

namespace Sys2Proof.Machine

/-- One ic of a tile whose sequencer does not run: in-flight results land, streams and back-bank operations advance. A matrix event that is
due is a command of its own, and the tile waits for it; a stopped island keeps its state (R246, R454). -/
def State.idleTile (s : State) (t : Nat) : State :=
  if (s.tile t).run = .running ∨ (s.tile t).retired ∨ s.tileFrozen t ∨ s.tileAsleep t ∨ s.eventDue t ∨ s.chainBehind t then s
  else s.passIc t

/-- One idle step: a device warm reset that runs completes (R446); else an ic of every listed tile passes, and what runs for a bounded time ends: the
microsecond after a profile write (R33), a retraining step (R286), a codeword that is begun (R303); hem and MAC ports hand on what they hold, and
the fabric's clocks go on unless they are stopped. -/
def State.idle (s : State) : State :=
  match s.warming with
  | some c => s.warmEnd c
  | none =>
  let s := if s.hbmRuns then s.retrainEnd else s
  let s := if s.lan = [] then s else (List.range 4).foldl (fun (s : State) d => (s.drain0 d).flushLane d) s
  let s := s.pumpHems.macTick
  let s := if s.fabricStopped then s else s.fabTick
  s.tiles.foldl (fun (s : State) e => s.idleTile e.1) { s with profileFresh := false }

end Sys2Proof.Machine
end

