-- ==== Sys2Proof/Safety.lean ====
section
/-! DEFINITION. What a run must keep: the canonical form of every sparse collection of the state, and the bounds of its queues. -/

namespace Sys2Proof.Machine

/-- Every memory and register file of a tile is in canonical form. -/
def Tile.memWf (x : Tile) : Bool :=
  SMap.wf 0 x.pmem && SMap.wf 0 x.os && SMap.wf 0 x.lining && SMap.wf 0 x.gpr && SMap.wf 0 x.vreg && SMap.wf 0 x.spr

/-- The register store, the tiles with their memories and register files, the HBM contents and the black box are in canonical form. -/
def State.memWf (s : State) : Bool :=
  SMap.rising none s.regs && SMap.wf Tile.init s.tiles && s.tiles.all (fun e => e.2.memWf) && SMap.wf none s.hbm.mem && SMap.wf [] s.bbox

/-- The next ic of tile t is an issue slot, and its program counter holds the word of instruction i: the sequencer runs, no matrix event is
due, no interrupt entry, `rti`, fetch stall, gap or chain ahead of the tile takes the ic, and the word is fetched without an error (R108, R115, R116, R123, R124). -/
def State.atWord (s : State) (t : TileNo) (i : Instr) : Bool :=
  let x := s.tile t.toNat
  s.sequencing t.toNat && !s.eventDue t.toNat && x.entering.isNone && !s.chainBehind t.toNat && decide (x.gap = 0) && !x.rtiPend && decide (x.fetchWait = 0)
    && decide (SMap.get 0 x.pmemErr x.pc.toNat = 0) && decide (encodeTile i = some (usedBits (SMap.get 0 x.pmem x.pc.toNat)))

/-- Instruction i, with port uses u, stands at the program counter and nothing forbids or holds it: it is legal where it stands (R112, R128,
R136), no hold of R105 falls on it, no interrupt is taken first (R122), and it meets no earlier use of Z (R134). -/
def State.ready (s : State) (t : TileNo) (i : Instr) (u : Use) : Bool :=
  let x := s.tile t.toNat
  s.atWord t i && legalTile i && !(x.delay.isSome && forbiddenInDelay i) && !x.branchAtEnd i && decide (x.hold u = none)
    && (!x.irqReady || isHalt i) && !x.zConflict u

/-- A tile with no work in flight: nothing in its pipeline, no matrix work, no repeat that could turn, and no launch that its first instruction
completes. -/
def Tile.quiet (x : Tile) : Bool :=
  x.pipe.isEmpty && x.streams.isEmpty && x.waiting.isEmpty && x.bbRun.isNone && x.bbWait.isEmpty && x.tree.isEmpty && !flagLM x.flags
    && x.delay.isNone && !x.launching

/-- What a register instruction may write in the slot in which it issues: general registers by code, bits of `flags`, special registers by code. -/
structure SlotWrites where
  gens : List Nat := []
  flags : Word := 0
  sprs : List Nat := []

/-- The registers that instruction i writes in its own slot at tile state x; none for an instruction with other effects, or where it is LOOP_ERR
(R114). A result of longer latency lands in a later slot, and a write of a special register may clear lst.LCV (R115). -/
def slotWrites (x : Tile) : Instr → Option SlotWrites
  | .nop _ => some {}
  | .br _ _ _ => some {}
  | .jr _ _ => some {}
  | .bal _ d _ => some { gens := [d.toNat] }
  | .setf _ m => some { flags := m.setWidth 32 }
  | .clrf _ m => some { flags := m.setWidth 32 }
  | .add _ o => some { gens := [o.d.toNat], flags := maskZNCV }
  | .sub _ o => some { gens := [o.d.toNat], flags := maskZNCV }
  | .and _ o => some { gens := [o.d.toNat], flags := maskZN }
  | .or _ o => some { gens := [o.d.toNat], flags := maskZN }
  | .xor _ o => some { gens := [o.d.toNat], flags := maskZN }
  | .shl _ o => some { gens := [o.d.toNat], flags := maskZN }
  | .shr _ o => some { gens := [o.d.toNat], flags := maskZN }
  | .sra _ o => some { gens := [o.d.toNat], flags := maskZN }
  | .min _ o => some { gens := [o.d.toNat], flags := maskZN }
  | .max _ o => some { gens := [o.d.toNat], flags := maskZN }
  | .mul _ _ => some {}
  | .mov _ d _ _ _ => some { gens := [d.toNat], flags := maskZN }
  | .cmp _ _ _ _ _ => some { flags := maskZNCV }
  | .pmod _ d _ _ _ => some { gens := [d.toNat] }
  | .mvs _ dir g r =>
    if dir then (if badDepth r.toNat (x.gen g.toNat) then none else some { sprs := [r.toNat, sprLST] }) else some { gens := [g.toNat] }
  | .setsp _ r v => if badDepth r.toNat v then none else some { sprs := [r.toNat, sprLST] }
  | .vadd _ _ _ _ _ => some {}
  | .vsub _ _ _ _ _ => some {}
  | .vmul _ _ _ _ _ => some {}
  | .vfma _ _ _ _ _ _ => some {}
  | .vmin _ _ _ _ _ => some {}
  | .vmax _ _ _ _ _ => some {}
  | .viadd _ _ _ _ => some {}
  | .visub _ _ _ _ => some {}
  | .vand _ _ _ _ => some {}
  | .vor _ _ _ _ => some {}
  | .vxor _ _ _ _ => some {}
  | .vshl _ _ _ _ => some {}
  | .vshr _ _ _ _ _ => some {}
  | .vcmp _ _ _ _ _ _ => some {}
  | .vmov _ _ _ => some {}
  | .vsel _ _ _ _ _ => some {}
  | .vbcast _ _ _ => some {}
  | .vget _ _ _ _ => some {}
  | .vrot _ _ _ _ _ => some {}
  | .vcvt _ _ _ _ _ _ => some {}
  | .rdctr _ _ _ _ => some {}
  | .rdsnap _ _ => some {}
  | _ => none

/-- The port that a register instruction uses: Z at its latency (R132, R145). -/
def slotUse : Instr → Use
  | .vadd _ _ _ _ _ => { z := some 4 }
  | .vsub _ _ _ _ _ => { z := some 4 }
  | .vmul _ _ _ _ _ => { z := some 4 }
  | .vfma _ _ _ _ _ _ => { z := some 4 }
  | .vmin _ _ _ _ _ => { z := some 2 }
  | .vmax _ _ _ _ _ => { z := some 2 }
  | .viadd _ _ _ _ => { z := some 2 }
  | .visub _ _ _ _ => { z := some 2 }
  | .vand _ _ _ _ => { z := some 2 }
  | .vor _ _ _ _ => { z := some 2 }
  | .vxor _ _ _ _ => { z := some 2 }
  | .vshl _ _ _ _ => { z := some 2 }
  | .vshr _ _ _ _ _ => { z := some 2 }
  | .vcmp _ _ _ _ _ _ => { z := some 2 }
  | .vmov _ _ _ => { z := some 2 }
  | .vsel _ _ _ _ _ => { z := some 2 }
  | .vbcast _ _ _ => { z := some 2 }
  | .vget _ _ _ _ => { z := some 2 }
  | .vrot _ _ _ _ _ => { z := some 2 }
  | .vcvt _ _ _ _ _ _ => { z := some 3 }
  | _ => {}

/-- The tile of a tile instruction that `slotWrites` names. -/
def slotTile : Instr → TileNo
  | .nop t => t
  | .br t _ _ => t
  | .jr t _ => t
  | .bal t _ _ => t
  | .setf t _ => t
  | .clrf t _ => t
  | .add t _ => t
  | .sub t _ => t
  | .and t _ => t
  | .or t _ => t
  | .xor t _ => t
  | .shl t _ => t
  | .shr t _ => t
  | .sra t _ => t
  | .min t _ => t
  | .max t _ => t
  | .mul t _ => t
  | .mov t _ _ _ _ => t
  | .cmp t _ _ _ _ => t
  | .pmod t _ _ _ _ => t
  | .mvs t _ _ _ => t
  | .setsp t _ _ => t
  | .vadd t _ _ _ _ => t
  | .vsub t _ _ _ _ => t
  | .vmul t _ _ _ _ => t
  | .vfma t _ _ _ _ _ => t
  | .vmin t _ _ _ _ => t
  | .vmax t _ _ _ _ => t
  | .viadd t _ _ _ => t
  | .visub t _ _ _ => t
  | .vand t _ _ _ => t
  | .vor t _ _ _ => t
  | .vxor t _ _ _ => t
  | .vshl t _ _ _ => t
  | .vshr t _ _ _ _ => t
  | .vcmp t _ _ _ _ _ => t
  | .vmov t _ _ => t
  | .vsel t _ _ _ _ => t
  | .vbcast t _ _ => t
  | .vget t _ _ _ => t
  | .vrot t _ _ _ _ => t
  | .vcvt t _ _ _ _ _ => t
  | .rdctr t _ _ _ => t
  | .rdsnap t _ => t
  | _ => 0

/-- Tile y differs from tile x in the registers of `w` at most: its other registers, its memories, banks and queues are those of x. -/
def Tile.sameBut (x y : Tile) (w : SlotWrites) : Prop :=
  (∀ c, c ∉ w.gens → y.gen c = x.gen c) ∧ (∀ c, c ∉ w.sprs → c ≠ sprFLAGS → y.sprv c = x.sprv c)
    ∧ (sprFLAGS ∉ w.sprs → y.flags &&& (maskFlags &&& ~~~w.flags) = x.flags &&& (maskFlags &&& ~~~w.flags))
    ∧ (∀ n, y.vec n = x.vec n)
    ∧ (∀ a, SMap.get 0 y.os a = SMap.get 0 x.os a) ∧ (∀ a, SMap.get 0 y.lining a = SMap.get 0 x.lining a)
    ∧ (∀ a, SMap.get 0 y.pmem a = SMap.get 0 x.pmem a)
    ∧ y.bank0 = x.bank0 ∧ y.bank1 = x.bank1 ∧ y.front = x.front ∧ (∀ c, y.queue c = x.queue c) ∧ y.trace = x.trace

/-- The host's access to a register reaches it: the endpoint and the block are served, the host is not frozen, and the charter grants the
class (R23, R377, R402, R405, R447, R455). -/
def State.hostMay (s : State) (a : Nat) (write expert : Bool) : Bool :=
  s.hostServed && s.blockServed a && s.warmServed a && !(decide (classOf a ≠ 0) && s.frozenMaster idHost) && s.hostGranted a write expert

/-- The host's write of a field with a row of its own reaches it. -/
def State.mayWrite (s : State) (f : Fld) (i j : Nat) : Bool := s.hostMay (f.addr i j) true f.expert

/-- A state that no step may leave by a fault or a refusal. -/
def State.safe (s : State) : Prop := ∃ t, step s = .next t

end Sys2Proof.Machine
end

