-- ==== Sys2Proof/Certificates/Slice0/Obligations.lean ====
section
/-! DEFINITION. The statements about this model, for the provers: the step and the whole machine, frames, rules stated word for word, and, family
by family, the next state of every command under hypotheses on the state and the operands alone. -/

open Sys2Proof Sys2Proof.Machine

/-! ### The step and the whole machine -/

/-- A step runs the command at the front of the queue on the state with the queue's rest; with an empty queue the block idles (log entry 21:
the idle step is the model's choice). -/
def Obligations.StepRunsTheFrontCommand : Prop :=
  (∀ (s : State) (c : Instr) (r : List Instr), s.pending = c :: r → step s = exec c { s with pending := r })
  ∧ (∀ s : State, s.pending = [] → step s = .next s.idle)

/-- At reset every memory, the register store and the black box are in canonical form. -/
def Obligations.ResetIsCanonical : Prop := State.reset.memWf = true

/-- Every step keeps the canonical form: register store, tiles with their three memories, HBM contents and black box. -/
def Obligations.MemoryStaysCanonical : Prop :=
  ∀ s s' : State, s.memWf = true → step s = .next s' → s'.memWf = true

/-- The words of tile instructions read back (R128 to R161): a legal tile instruction's word decodes, for its own tile, to that instruction with every
operand. -/
def Obligations.TileWordsReadBack : Prop :=
  ∀ (i : Instr) (w : DWord), encodeTile i = some w → legalTile i = true → ∃ t, decodeTile t w = some i

/-- A register instruction's frame (R107, R132, R141, R142, R145): on a quiet tile a ready register instruction completes; only its own tile and the
counters of active and issued ic change; of the tile's registers only those change that the instruction writes in its own slot (a result of
longer latency lands later), and of `flags` only the bits that it writes; memory, banks, queues and trace stay.
Where the rules leave a point open, the state named here is the model's choice: log entry 26. -/
def Obligations.RegisterInstructionsFrame : Prop :=
  ∀ (s : State) (i : Instr) (w : SlotWrites), let t := slotTile i
    slotWrites (s.tile t.toNat) i = some w → s.memWf = true → s.ready t i (slotUse i) = true → (s.tile t.toNat).quiet = true →
    ∃ u, exec i s = .next u ∧ u = { s with tiles := u.tiles, ctrs := u.ctrs } ∧ (∀ k, k ≠ t.toNat → u.tile k = s.tile k)
      ∧ (∀ e, e ≠ ctrTile t.toNat → e ≠ ctrTile t.toNat + 1 → u.ctr e = s.ctr e) ∧ (s.tile t.toNat).sameBut (u.tile t.toNat) w

/-- A store's frame (R103, R106, R107, R132, R142, R143, R159): on a quiet tile a store that the check of R103 passes writes, at the end of the slot after
its own, exactly the bytes of its width from the address of its format M word; every other byte of the tile's memories, every other tile, and every
register but the pointer that AM post-modifies stay.
Where the rules leave a point open, the state named here is the model's choice: log entry 26. -/
def Obligations.StoresFrame : Prop :=
  ∀ (s u v : State) (t : TileNo) (r : Reg6) (m : MAddr), let x := s.tile t.toNat
    let a := (x.maddr m).1
    let ptr : List Nat := if 2 ≤ m.am.toNat then [16 + m.ptr.toNat] else []
    let rest (y : Tile) : Prop := (∀ k, k ≠ t.toNat → v.tile k = s.tile k) ∧ (∀ c, c ∉ ptr → y.gen c = x.gen c) ∧ (∀ n, y.vec n = x.vec n)
      ∧ y.spr = x.spr ∧ (∀ b, SMap.get 0 y.pmem b = SMap.get 0 x.pmem b)
    let at_ (bs : List Byte) (old new : Mem) : Prop := ∀ b, SMap.get 0 new b = if a ≤ b ∧ b < a + bs.length then bs.getD (b - a) 0 else SMap.get 0 old b
    s.memWf = true → x.quiet = true → u.ready t (.nop t) {} = true → exec (.nop t) u = .next v →
    let y := v.tile t.toNat
    (s.ready t (.st t r m) { z := some 2, zStore := some a } = true → checkRange osTop 4 a 4 = none → SMap.get 0 x.osErr (a / 8) = 0 →
      exec (.st t r m) s = .next u → at_ (leBytes 4 (x.gen r.toNat).toNat) x.os y.os ∧ y.lining = x.lining ∧ rest y)
    ∧ (s.ready t (.stsp t r m) { z := some 2, zStore := some a } = true → checkRange osTop 4 a 4 = none → SMap.get 0 x.osErr (a / 8) = 0 →
      exec (.stsp t r m) s = .next u → at_ (leBytes 4 (x.sprv r.toNat).toNat) x.os y.os ∧ y.lining = x.lining ∧ rest y)
    ∧ (s.ready t (.vst t r m) { z := some 2, zStore := some a } = true → checkRange osTop 128 a 128 = none →
      exec (.vst t r m) s = .next u → at_ (leBytes 128 (x.vec (r.toNat % 16)).toNat) x.os y.os ∧ y.lining = x.lining ∧ rest y)
    ∧ (s.ready t (.lnst t r m) {} = true → checkRange liningTop 128 a 128 = none →
      exec (.lnst t r m) s = .next u → at_ (leBytes 128 (x.vec (r.toNat % 16)).toNat) x.lining y.lining ∧ y.os = x.os ∧ rest y)

/-- The frame of an HBM write (R278, R279, R281, R291): an accepted write of 64 bytes stores each byte at its place, and every byte at another place reads
as before; nothing else changes but the tracker, its OUT field and the write counter. No word of HBM and no command is in error before it: no command sets
such a mark (log entry 37).
Where the rules leave a point open, the state named here is the model's choice: log entry 51. -/
def Obligations.HbmWriteFrame : Prop :=
  ∀ (s : State) (r : HbmReq), let i := r.master.toNat
    let a := r.addr.toNat / 64 * 64
    let c := sectCtl (s.hbmPlace a).1
    s.memWf = true → s.hbmRuns = true → r.write = true → r.data.length = 64 → s.hbmGranted i true a (a + 63) = true →
    s.hbmRefused i a (a + 63) = false → s.hbmWaits c = false → (s.trk c).length < 64 → s.hbm.err = [] → SMap.get 0 s.hbm.caErr c = 0 →
    ∃ u, exec (.hbmRequestAccept r) s = .next u
      ∧ (∀ k, k < 64 → u.hbmByte (a + k) = r.data.getD k 0)
      ∧ (∀ b, (∀ k, k < 64 → s.hbmKey b ≠ s.hbmKey a + k) → u.hbmByte b = s.hbmByte b)
      ∧ u = { s with hbm := { s.hbm with mem := u.hbm.mem, trk := u.hbm.trk }, ctrs := u.ctrs, regs := u.regs }
      ∧ (∀ e, e ≠ ctrHbm c + 1 → u.ctr e = s.ctr e)
      ∧ (∀ (f : Fld) (n k : Nat), f.key n k ≠ Reg.HBM_CH_STATUS_OUT.key (c / 32) (c % 32) → getF u f n k = getF s f n k)

/-! ### Rules stated word for word -/

/-- R98: a launch that runs, with a FALLBACK other than a target's current one, leaves both banks of that target EMPTY.
Where the rules leave a point open, the state named here is the model's choice: log entry 42. -/
def Obligations.LaunchClearsBanks : Prop :=
  ∀ (s : State) (p : PanelNo) (c : QCmd), s.memWf = true → s.head0 p.toNat 1 = some c → c.issued = false → c.targets.all (fun t => !(s.tile t).busyRun) = true →
    (s.panel p.toNat).snaps = [] → s.launchCause p.toNat c = 0 →
    ∃ u, exec (.launch p) s = .next u ∧ ∀ t ∈ c.targets, getF s Reg.TIL_NUM_CTRL_FALLBACK t ≠ bits (c.word 12) 0 0 →
      (u.tile t).run = .running ∧ (u.tile t).bank0 = [] ∧ (u.tile t).bank1 = []

/-- R382: a `signal` writes VALUE and SEQ and sends one message on its vector; for a masked vector the one pending bit is set instead, however many signals
it stands for.
Where the rules leave a point open, the state named here is the model's choice: log entry 28. -/
def Obligations.SignalsSendOneMessage : Prop :=
  ∀ (s : State) (p : PanelNo) (c : QCmd), s.memWf = true → s.head0 p.toNat 10 = some c →
    let v := bits (c.word 4) 7 0
    ∃ u, exec (.signal p) s = .next u ∧ getF u Reg.CMD_SIGNAL_VAL_VALUE p.toNat = c.word 0 % 2 ^ 32
      ∧ getF u Reg.CMD_SIGNAL_SEQ_VALUE p.toNat = c.seq % 2 ^ 32
      ∧ (s.msixEn = true → s.endpointStopped = false → s.masked v = false → u.out = s.out ++ [⟨.msix, s.vectorArgs v, []⟩] ∧ u.pba = s.pba)
      ∧ (s.msixEn = true → s.endpointStopped = false → s.masked v = true → u.out = s.out ∧ u.pba = SMap.set false s.pba v true)

/-- R406: a further refused access of a frozen master only adds to MGT_VIOL_CNT; a refused access of a master that is not frozen, whatever others are,
is a violation in its own right: counted, the master frozen, a record of type 2 queued, vector 29 raised.
Where the rules leave a point open, the state named here is the model's choice: log entry 78. -/
def Obligations.RefusedAccesses : Prop :=
  (∀ (s : State) (v : Violation), v.master < 256 → s.frozenMaster v.master = true → s.violation v = bumpF s Reg.MGT_VIOL_CNT_VALUE)
  ∧ (∀ (s : State) (v : Violation), v.master < 256 → s.frozenMaster v.master = false →
      let u := setFbit (bumpF s Reg.MGT_VIOL_CNT_VALUE) Reg.MGT_FROZEN_FROZEN (v.master % 32) true (v.master / 32)
      s.violation v = ((u.report 2 (masterUnit v.master) v.payload).raise 29).armFreeze 0 v.master)
  ∧ (∀ (s : State) (r : HbmReq), let i := r.master.toNat
      let a := r.addr.toNat / 64 * 64
      s.hbmRuns = true → s.hbmGranted i r.write a (a + 63) = false →
      exec (.hbmRequestAccept r) s = .next (s.violation { master := i, kind := bit r.write, reason := 1, addr := a, len := 64 }))

/-- R36: the registers of logical tile n stand from 0x0100_0000 + n × 0x2000, at addresses that depend on n alone. -/
def Obligations.TileRegistersByNumber : Prop :=
  ∀ n : Nat, n < 2048 →
    (∃ f ∈ allFlds, f.addr n 0 = 0x1000000 + n * 0x2000)
    ∧ ∀ f ∈ allFlds, f.cls = 11 → f.n1 = 2048 ∧ ∀ j, j < f.n2 →
      0x1000000 + n * 0x2000 ≤ f.addr n j ∧ f.addr n j < 0x1000000 + (n + 1) * 0x2000

/-! ### Tile instructions: what each does in the slot in which it issues -/

/-- Sequencer control (R139, R113, R114, R119, R124, R140): a ready instruction issues, writes what its row says and nothing else, and sends
control where its row says: a branch to its target when its condition holds and otherwise on after its two delay slots, `rti` to ipc, `bal` with the return
address pc + 3 in sD, `rep` into a new level or past its body, `rbrk` out of n levels.
Where the rules leave a point open, the state named here is the model's choice: log entries 26, 36 and 79. -/
def Obligations.ControlInstructionsComplete : Prop :=
  (∀ (s : State) (t : TileNo), s.ready t (.nop t) {} = true →
    exec (.nop t) s = .next (s.issueSlot t.toNat { st := s }))
  ∧ (∀ (s : State) (t : TileNo), s.ready t (.halt t) {} = true →
    exec (.halt t) s = .next (s.issueSlot t.toNat { st := s, ctl := .halt }))
  ∧ (∀ (s : State) (t : TileNo), s.ready t (.rti t) {} = true →
    exec (.rti t) s = .next (s.issueSlot t.toNat { st := s, ctl := .rti (((s.tile t.toNat).sprv 0x1E).setWidth 12) }))
  ∧ (∀ (s : State) (t : TileNo) (c : BitVec 4) (g : BitVec 12), s.ready t (.br t c g) {} = true →
    exec (.br t c g) s = .next (s.issueSlot t.toNat
      { st := s, ctl := .branch (if condHolds c.toNat (s.tile t.toNat).flags then some g else none) }))
  ∧ (∀ (s : State) (t : TileNo) (d : Reg6) (g : BitVec 12), s.ready t (.bal t d g) {} = true →
    exec (.bal t d g) s = .next (s.issueSlot t.toNat
      { st := s, own := [.gen d.toNat (BitVec.ofNat 32 ((s.tile t.toNat).pc + 3).toNat)], ctl := .branch (some g) }))
  ∧ (∀ (s : State) (t : TileNo) (a : Reg6), s.ready t (.jr t a) {} = true →
    exec (.jr t a) s = .next (s.issueSlot t.toNat { st := s, ctl := .branch (some (((s.tile t.toNat).gen a.toNat).setWidth 12)) }))
  ∧ (∀ (s : State) (t : TileNo) (cs : Bool) (r : BitVec 4) (stop : BitVec 12) (imm : Word), s.ready t (.rep t cs r stop imm) {} = true →
    ((s.tile t.toNat).pc + 1).toNat ≤ stop.toNat → (s.tile t.toNat).depth ≠ 4 →
    exec (.rep t cs r stop imm) s = .next (s.issueSlot t.toNat
      { st := s, ctl := if (if cs then (s.tile t.toNat).gen r.toNat else imm) = 0 then .skip (stop + 1)
                        else .openLevel (if cs then (s.tile t.toNat).gen r.toNat else imm) stop }))
  ∧ (∀ (s : State) (t : TileNo) (n : BitVec 3), s.ready t (.rbrk t n) {} = true → n.toNat ≤ (s.tile t.toNat).depth →
    exec (.rbrk t n) s = .next (s.issueSlot t.toNat { st := s, ctl := .closeLevels n.toNat }))
  ∧ (∀ (s : State) (t : TileNo) (m : BitVec 18), s.ready t (.setf t m) {} = true →
    exec (.setf t m) s = .next (s.issueSlot t.toNat { st := s, own := [.flags maskFlags ((s.tile t.toNat).flags ||| m.setWidth 32)] }))
  ∧ (∀ (s : State) (t : TileNo) (m : BitVec 18), s.ready t (.clrf t m) {} = true →
    exec (.clrf t m) s = .next (s.issueSlot t.toNat { st := s, own := [.flags maskFlags ((s.tile t.toNat).flags &&& ~~~(m.setWidth 32))] }))
  ∧ (∀ (s : State) (t : TileNo) (cs : Bool) (r : BitVec 4) (stop : BitVec 12) (imm : Word), s.ready t (.rep t cs r stop imm) {} = true →
    (stop.toNat < ((s.tile t.toNat).pc + 1).toNat ∨ (s.tile t.toNat).depth = 4) →
    exec (.rep t cs r stop imm) s = .next (s.tileFault t.toNat 6 0))
  ∧ (∀ (s : State) (t : TileNo) (n : BitVec 3), s.ready t (.rbrk t n) {} = true → (s.tile t.toNat).depth < n.toNat →
    exec (.rbrk t n) s = .next (s.tileFault t.toNat 6 0))

/-- Scalar arithmetic (R141): the result of latency 1 goes to D with Z and N of it; `add` and `sub` also set C and V, `cmp` the four flags
of the difference and no register; `mul` gives the low 32 bits of the product, with Z and N, at latency 3; the logic and shift operations
leave C and V.
Where the rules leave a point open, the state named here is the model's choice: log entry 26. -/
def Obligations.ScalarInstructionsComplete : Prop :=
  ∀ (s : State) (t : TileNo) (o : ScalarOps),
    let a := (s.tile t.toNat).gen o.a.toNat
    let b := if o.i then o.imm else (s.tile t.toNat).gen o.b.toNat
    let zn (r : Word) : Res := .next (s.issueSlot t.toNat { st := s, own := [.gen o.d.toNat r, .flags 3 (znOf r)] })
    let zncv (r cv : Word) : Res := .next (s.issueSlot t.toNat { st := s, own := [.gen o.d.toNat r, .flags 15 (znOf r ||| cv)] })
    (s.ready t (.add t o) {} = true → exec (.add t o) s = zncv (a + b) (cvAdd a b))
    ∧ (s.ready t (.sub t o) {} = true → exec (.sub t o) s = zncv (a - b) (cvSub a b))
    ∧ (s.ready t (.and t o) {} = true → exec (.and t o) s = zn (a &&& b))
    ∧ (s.ready t (.or t o) {} = true → exec (.or t o) s = zn (a ||| b))
    ∧ (s.ready t (.xor t o) {} = true → exec (.xor t o) s = zn (a ^^^ b))
    ∧ (s.ready t (.shl t o) {} = true → exec (.shl t o) s = zn (a <<< (b.toNat % 32)))
    ∧ (s.ready t (.shr t o) {} = true → exec (.shr t o) s = zn (a >>> (b.toNat % 32)))
    ∧ (s.ready t (.sra t o) {} = true → exec (.sra t o) s = zn (a.sshiftRight (b.toNat % 32)))
    ∧ (s.ready t (.min t o) {} = true → exec (.min t o) s = zn (if b.toInt < a.toInt then b else a))
    ∧ (s.ready t (.max t o) {} = true → exec (.max t o) s = zn (if a.toInt < b.toInt then b else a))
    ∧ (s.ready t (.mul t o) {} = true →
        exec (.mul t o) s = .next (s.issueSlot t.toNat { st := s, later := [⟨3, false, .genZN o.d.toNat (a * b), 0, 0⟩] }))
    ∧ (s.ready t (.mov t o.d o.b o.i o.imm) {} = true → exec (.mov t o.d o.b o.i o.imm) s = zn b)
    ∧ (s.ready t (.cmp t o.a o.b o.i o.imm) {} = true →
        exec (.cmp t o.a o.b o.i o.imm) s = .next (s.issueSlot t.toNat { st := s, own := [.flags 15 (znOf (a - b) ||| cvSub a b)] }))
    ∧ (s.ready t (.pmod t o.d o.b o.i o.imm) {} = true →
        exec (.pmod t o.d o.b o.i o.imm) s = .next (s.issueSlot t.toNat
          { st := s, own := [.gen o.d.toNat ((s.tile t.toNat).postMod (o.d.toNat - 16) b)] }))

/-- Special registers, and words of the operand store (R142, R143): `mvs` and `setsp` write at issue; loads bring their word at latency 3 and
stores write at latency 2 over Z, after the check of R103 and with the pointer write of R107; a depth above 4 is LOOP_ERR (R114).
Where the rules leave a point open, the state named here is the model's choice: log entry 26. -/
def Obligations.SpecialAndWordAccessesComplete : Prop :=
  (∀ (s : State) (t : TileNo) (g r : Reg6), s.ready t (.mvs t false g r) {} = true →
    exec (.mvs t false g r) s = .next (s.issueSlot t.toNat { st := s, own := [.gen g.toNat ((s.tile t.toNat).sprv r.toNat)] }))
  ∧ (∀ (s : State) (t : TileNo) (g r : Reg6), s.ready t (.mvs t true g r) {} = true →
    exec (.mvs t true g r) s = .next (
      if r.toNat = 0x1C ∧ 4 < bits ((s.tile t.toNat).gen g.toNat).toNat 2 0 then s.tileFault t.toNat 6 0
      else s.issueSlot t.toNat { st := s, own := [.spr r.toNat ((s.tile t.toNat).gen g.toNat)] }))
  ∧ (∀ (s : State) (t : TileNo) (r : Reg6) (v : Word), s.ready t (.setsp t r v) {} = true →
    exec (.setsp t r v) s = .next (
      if r.toNat = 0x1C ∧ 4 < bits v.toNat 2 0 then s.tileFault t.toNat 6 0 else s.issueSlot t.toNat { st := s, own := [.spr r.toNat v] }))
  ∧ (∀ (s s' : State) (t : TileNo) (d : Reg6) (m : MAddr) (v : Word), s.ready t (.ld t d m) { x := some ((s.tile t.toNat).maddr m).1 } = true →
    checkRange 0x20000 4 ((s.tile t.toNat).maddr m).1 4 = none → s.osWord t.toNat ((s.tile t.toNat).maddr m).1 = (s', some v) →
    exec (.ld t d m) s = .next (s.issueSlot t.toNat
      { st := s', own := ((s.tile t.toNat).maddr m).2, later := [⟨3, false, .gen d.toNat v, 0, 0⟩] }))
  ∧ (∀ (s s' : State) (t : TileNo) (r : Reg6) (m : MAddr) (v : Word), s.ready t (.ldsp t r m) { x := some ((s.tile t.toNat).maddr m).1 } = true →
    checkRange 0x20000 4 ((s.tile t.toNat).maddr m).1 4 = none → s.osWord t.toNat ((s.tile t.toNat).maddr m).1 = (s', some v) →
    (r.toNat ≠ 0x1C ∨ bits v.toNat 2 0 ≤ 4) →
    exec (.ldsp t r m) s = .next (s.issueSlot t.toNat
      { st := s', own := ((s.tile t.toNat).maddr m).2, later := [⟨3, false, .spr r.toNat v, 0, 0⟩] }))
  ∧ (∀ (s : State) (t : TileNo) (r : Reg6) (m : MAddr),
    s.ready t (.st t r m) { z := some 2, zStore := some ((s.tile t.toNat).maddr m).1 } = true →
    checkRange 0x20000 4 ((s.tile t.toNat).maddr m).1 4 = none →
    exec (.st t r m) s = .next (s.issueSlot t.toNat
      { st := s, own := ((s.tile t.toNat).maddr m).2,
        later := [⟨2, true, .word ((s.tile t.toNat).maddr m).1 ((s.tile t.toNat).gen r.toNat), 0, 0⟩] }))
  ∧ (∀ (s : State) (t : TileNo) (r : Reg6) (m : MAddr),
    s.ready t (.stsp t r m) { z := some 2, zStore := some ((s.tile t.toNat).maddr m).1 } = true →
    checkRange 0x20000 4 ((s.tile t.toNat).maddr m).1 4 = none →
    exec (.stsp t r m) s = .next (s.issueSlot t.toNat
      { st := s, own := ((s.tile t.toNat).maddr m).2,
        later := [⟨2, true, .word ((s.tile t.toNat).maddr m).1 ((s.tile t.toNat).sprv r.toNat), 0, 0⟩] }))

/-- Lines of the operand store and of the lining (R143, R159, R166): `vld` over X or Y and `lnld` bring 128 bytes at latency 3; `vst` and
`lnst` write them at latency 2.
Where the rules leave a point open, the state named here is the model's choice: log entry 26. -/
def Obligations.LineAccessesComplete : Prop :=
  (∀ (s s' : State) (t : TileNo) (d : Reg6) (bus : Bool) (m : MAddr) (v : Line),
    s.ready t (.vld t d bus m) (if bus then { y := some ((s.tile t.toNat).maddr m).1 } else { x := some ((s.tile t.toNat).maddr m).1 }) = true →
    checkRange 0x20000 128 ((s.tile t.toNat).maddr m).1 128 = none → s.osLine t.toNat ((s.tile t.toNat).maddr m).1 = (s', some v) →
    exec (.vld t d bus m) s = .next (s.issueSlot t.toNat
      { st := s', own := ((s.tile t.toNat).maddr m).2, later := [⟨3, false, .vec (d.toNat % 16) v, 0, 0⟩] }))
  ∧ (∀ (s : State) (t : TileNo) (r : Reg6) (m : MAddr),
    s.ready t (.vst t r m) { z := some 2, zStore := some ((s.tile t.toNat).maddr m).1 } = true →
    checkRange 0x20000 128 ((s.tile t.toNat).maddr m).1 128 = none →
    exec (.vst t r m) s = .next (s.issueSlot t.toNat
      { st := s, own := ((s.tile t.toNat).maddr m).2,
        later := [⟨2, true, .line ((s.tile t.toNat).maddr m).1 ((s.tile t.toNat).vec (r.toNat % 16)), 0, 0⟩] }))
  ∧ (∀ (s s' : State) (t : TileNo) (d : Reg6) (m : MAddr) (v : PLine), s.ready t (.lnld t d m) { lin := true } = true →
    checkRange 0x200000 128 ((s.tile t.toNat).maddr m).1 128 = none → s.linPLine t.toNat ((s.tile t.toNat).maddr m).1 = (s', v) →
    exec (.lnld t d m) s = .next (s.issueSlot t.toNat
      { st := if v.bad = 0 then s' else s'.postIrq t.toNat 0, own := ((s.tile t.toNat).maddr m).2,
        later := [⟨3, false, .vec (d.toNat % 16) v.lanes, 0, 0⟩] }))
  ∧ (∀ (s : State) (t : TileNo) (r : Reg6) (m : MAddr), s.ready t (.lnst t r m) {} = true →
    checkRange 0x200000 128 ((s.tile t.toNat).maddr m).1 128 = none →
    exec (.lnst t r m) s = .next (s.issueSlot t.toNat
      { st := s, own := ((s.tile t.toNat).maddr m).2,
        later := [⟨2, false, .lining ((s.tile t.toNat).maddr m).1 ((s.tile t.toNat).vec (r.toNat % 16)), 0, 0⟩] }))

/-- Messages, trace and counters (R160, R161, R181, R191): a class 2 `nsend` whose route word is all ones is a barrier arrival; any other that
is not held hands its 128 bytes to the injection port at latency 2; `nrecv` takes the oldest message of its class; `trc` appends a record
of kind 1; `rdctr` and `rdsnap` read at latency 3.
Where the rules leave a point open, the state named here is the model's choice: log entry 26. -/
def Obligations.PortInstructionsComplete : Prop :=
  (∀ (s : State) (t : TileNo) (a : Reg6) (c : BitVec 2) (r : BitVec 4), s.ready t (.nsend t a c r) {} = true →
    c = 2 → (s.tile t.toNat).gen r.toNat = 0xFFFFFFFF → (s.tile t.toNat).barPend + (s.tile t.toNat).arriving < 2 →
    exec (.nsend t a c r) s = .next (s.issueSlot t.toNat { st := s, later := [⟨2, false, .arrive, 0, 0⟩] }))
  ∧ (∀ (s : State) (t : TileNo) (a : Reg6) (c : BitVec 2) (r : BitVec 4), s.ready t (.nsend t a c r) {} = true →
    c ≠ 0 → (c ≠ 2 ∨ (s.tile t.toNat).gen r.toNat ≠ 0xFFFFFFFF) → (s.tile t.toNat).injecting = false →
    s.injectionFull t.toNat c.toNat = false →
    exec (.nsend t a c r) s = .next (s.issueSlot t.toNat
      { st := s, later := [⟨2, false, .inject c.toNat ((s.tile t.toNat).gen r.toNat) ((s.tile t.toNat).vec (a.toNat % 16)), 0, 0⟩] }))
  ∧ (∀ (s : State) (t : TileNo) (a : Reg6) (r : BitVec 4), s.ready t (.nsend t a 0 r) {} = true →
    (s.tile t.toNat).injecting = false → s.injectionFull t.toNat 0 = false →
    s.admits (((s.tile t.toNat).gen r.toNat).toNat % 1024) ((s.tile t.toNat).ic + 1) = true →
    exec (.nsend t a 0 r) s = .next (s.issueSlot t.toNat
      { st := s, later := [⟨2, false, .inject 0 ((s.tile t.toNat).gen r.toNat) ((s.tile t.toNat).vec (a.toNat % 16)), 0, 0⟩] }))
  ∧ (∀ (s : State) (t : TileNo) (d : Reg6) (c : BitVec 2) (m : Msg) (l : List Msg), s.ready t (.nrecv t d c) {} = true →
    (s.tile t.toNat).queue c.toNat = m :: l →
    exec (.nrecv t d c) s = .next (s.issueSlot t.toNat
      { st := s.takeMsg t.toNat c.toNat m, later := [⟨3, false, .vec (d.toNat % 16) m.data, 0, 0⟩] }))
  ∧ (∀ (s : State) (t : TileNo) (a : Reg6) (c : Half), s.ready t (.trc t a c) {} = true →
    exec (.trc t a c) s = .next (s.issueSlot t.toNat { st := s.trace t.toNat 1 c.toNat ((s.tile t.toNat).gen a.toNat) }))
  ∧ (∀ (s : State) (t : TileNo) (d : Reg6) (n : BitVec 4) (hi : Bool), s.ready t (.rdctr t d n hi) {} = true →
    exec (.rdctr t d n hi) s = .next (s.issueSlot t.toNat
      { st := s, later := [⟨3, false, .gen d.toNat (BitVec.ofNat 32
          (if hi then s.ctr (64 * t.toNat + n.toNat) / 2 ^ 32 else s.ctr (64 * t.toNat + n.toNat))), 0, 0⟩] }))
  ∧ (∀ (s : State) (t : TileNo) (d : Reg6), s.ready t (.rdsnap t d) {} = true →
    exec (.rdsnap t d) s = .next (s.issueSlot t.toNat { st := s, later := [⟨3, false, .gen d.toNat (s.tile t.toNat).snapNum, 0, 0⟩] }))

/-- Vector arithmetic (R144 to R147, R149 to R151): floating-point lanes at latency 4 in the rounding direction in force, minimum, maximum and
comparisons at latency 2, conversion at 3, `vqb` at 6 with its counts, `vtack` at 5 with the pocket line that its pointer names; `vtap` writes
the delay line one line further on, and accumulates at latency 4. The lanes' exceptions land with the result.
Where the rules leave a point open, the state named here is the model's choice: log entry 26. -/
def Obligations.VectorArithmeticCompletes : Prop :=
  (∀ (s : State) (t : TileNo) (y : BitVec 4) (d a b c : Reg6),
    let va := lane ((s.tile t.toNat).vec (a.toNat % 16))
    let vb := lane ((s.tile t.toNat).vec (b.toNat % 16))
    let vc := lane ((s.tile t.toNat).vec (c.toNat % 16))
    let rnd := flagRD (s.tile t.toNat).flags
    let out (l : Nat) (f : Nat → Word × Exc) : Res := .next (s.issueSlot t.toNat
      { st := s, later := [⟨l, true, .vec (d.toNat % 16) (mapLanes (fun i => (f i).1)),
                            (((List.range 32).map f).foldl (fun e q => e.or q.2) Exc.none).mask, 0⟩] })
    (s.ready t (.vadd t y d a b) { z := some 4 } = true → exec (.vadd t y d a b) s = out 4 (fun i => laneAdd y.toNat rnd (va i) (vb i)))
    ∧ (s.ready t (.vsub t y d a b) { z := some 4 } = true → exec (.vsub t y d a b) s = out 4 (fun i => laneSub y.toNat rnd (va i) (vb i)))
    ∧ (s.ready t (.vmul t y d a b) { z := some 4 } = true → exec (.vmul t y d a b) s = out 4 (fun i => laneMul y.toNat rnd (va i) (vb i)))
    ∧ (s.ready t (.vfma t y d a b c) { z := some 4 } = true →
        exec (.vfma t y d a b c) s = out 4 (fun i => laneFma y.toNat rnd (va i) (vb i) (vc i)))
    ∧ (s.ready t (.vmin t y d a b) { z := some 2 } = true → exec (.vmin t y d a b) s = out 2 (fun i => laneMinMax false y.toNat (va i) (vb i)))
    ∧ (s.ready t (.vmax t y d a b) { z := some 2 } = true → exec (.vmax t y d a b) s = out 2 (fun i => laneMinMax true y.toNat (va i) (vb i)))
    ∧ (∀ r : BitVec 4, s.ready t (.vcmp t y r d a b) { z := some 2 } = true →
        exec (.vcmp t y r d a b) s = out 2 (fun i => laneCmp r.toNat y.toNat (va i) (vb i)))
    ∧ (∀ (r : BitVec 4) (scl : BitVec 8), s.ready t (.vcvt t y r scl d a) { z := some 3 } = true →
        exec (.vcvt t y r scl d a) s =
          out 3 (fun i => laneCvt y.toNat r.toNat scl.toInt rnd (flag s Reg.TIL_NUM_CTRL_OVF_SAT t.toNat) (va i))))
  ∧ (∀ (s : State) (t : TileNo) (d a : Reg6) (q : QbOps), s.ready t (.vqb t d a q) { z := some 6 } = true →
    let n := t.toNat
    let r := quantize q (getF s Reg.TIL_NUM_CTRL_PROMOTE_VANISH n) (getF s Reg.TIL_NUM_CTRL_POCKET_GAP n)
      (lane ((s.tile n).vec (a.toNat % 16)))
    exec (.vqb t d a q) s = .next (s.issueSlot n
      { st := bumpF (bumpF (bumpF (bumpF s Reg.TIL_QB_VANISH_COUNT r.vanished n) Reg.TIL_QB_CLIP_COUNT r.clipped n)
                Reg.TIL_QB_PROMOTE_COUNT r.promoted n) Reg.TIL_QB_POCKET_COUNT r.pocketed n,
        later := [⟨6, true, .half (d.toNat % 16) q.half (BitVec.ofNat 512 r.data), ({ nv := r.invalid : Exc }).mask, 0⟩] }))
  ∧ (∀ (s s' : State) (t : TileNo) (d a b : Reg6) (py my : BitVec 3) (v : Line),
    let x := s.tile t.toNat
    let ya := (x.ptr py.toNat).toNat
    s.ready t (.vtack t d a b py my) { y := some ya, z := some 5 } = true → checkRange 0x20000 128 ya 128 = none →
    s.osLine t.toNat ya = (s', some v) →
    let f (i : Nat) : Word × Exc := laneTack (flag s' Reg.TIL_NUM_CTRL_OVF_SAT t.toNat)
      (lane ((s'.tile t.toNat).vec (a.toNat % 16)) i) (lane ((s'.tile t.toNat).vec (b.toNat % 16)) i) (lane v i)
    exec (.vtack t d a b py my) s = .next (s.issueSlot t.toNat
      { st := s', own := [.gen (16 + py.toNat) (x.postMod py.toNat (x.modr my.toNat))],
        later := [⟨5, true, .vec (d.toNat % 16) (mapLanes (fun i => (f i).1)),
                   (((List.range 32).map f).foldl (fun e q => e.or q.2) Exc.none).mask, 0⟩] }))
  ∧ (∀ (s s1 s2 : State) (t : TileNo) (y : BitVec 4) (d : Reg6) (px mx py my : BitVec 3) (xv hv : Line),
    let x := s.tile t.toNat
    let xa := (x.ptr px.toNat).toNat
    let ya := (x.ptr py.toNat).toNat
    let da := (x.wrapPtr px.toNat (x.ptr px.toNat + 128)).toNat
    s.ready t (.vtap t y d px mx py my) { x := some xa, y := some ya, z := some 4 } = true →
    checkRange 0x20000 128 xa 128 = none → checkRange 0x20000 128 ya 128 = none → checkRange 0x20000 128 da 128 = none →
    s.osLine t.toNat xa = (s1, some xv) → s1.osLine t.toNat ya = (s2, some hv) →
    exec (.vtap t y d px mx py my) s = .next (s.issueSlot t.toNat
      { st := s2,
        own := if px = py then [.gen (16 + py.toNat) (x.postMod py.toNat (x.modr my.toNat))]
               else [.gen (16 + px.toNat) (x.postMod px.toNat (x.modr mx.toNat)), .gen (16 + py.toNat) (x.postMod py.toNat (x.modr my.toNat))],
        later := [⟨2, false, .line da xv, 0, 0⟩, ⟨4, true, .tap (d.toNat % 16) y.toNat (bits x.flags.toNat 15 13) xv hv, 0, 0⟩] }))

/-- Vector integer, logic and moves (R145): each lane at latency 2 over Z, with no exception.
Where the rules leave a point open, the state named here is the model's choice: log entry 26. -/
def Obligations.VectorMovesComplete : Prop :=
  ∀ (s : State) (t : TileNo) (d a b c : Reg6),
    let va := lane ((s.tile t.toNat).vec (a.toNat % 16))
    let vb := lane ((s.tile t.toNat).vec (b.toNat % 16))
    let vc := lane ((s.tile t.toNat).vec (c.toNat % 16))
    let out (f : Nat → Word) : Res :=
      .next (s.issueSlot t.toNat { st := s, later := [⟨2, true, .vec (d.toNat % 16) (mapLanes f), 0, 0⟩] })
    (s.ready t (.viadd t d a b) { z := some 2 } = true → exec (.viadd t d a b) s = out (fun i => va i + vb i))
    ∧ (s.ready t (.visub t d a b) { z := some 2 } = true → exec (.visub t d a b) s = out (fun i => va i - vb i))
    ∧ (s.ready t (.vand t d a b) { z := some 2 } = true → exec (.vand t d a b) s = out (fun i => va i &&& vb i))
    ∧ (s.ready t (.vor t d a b) { z := some 2 } = true → exec (.vor t d a b) s = out (fun i => va i ||| vb i))
    ∧ (s.ready t (.vxor t d a b) { z := some 2 } = true → exec (.vxor t d a b) s = out (fun i => va i ^^^ vb i))
    ∧ (s.ready t (.vshl t d a b) { z := some 2 } = true → exec (.vshl t d a b) s = out (fun i => va i <<< ((vb i).toNat % 32)))
    ∧ (s.ready t (.vshr t false d a b) { z := some 2 } = true → exec (.vshr t false d a b) s = out (fun i => va i >>> ((vb i).toNat % 32)))
    ∧ (s.ready t (.vshr t true d a b) { z := some 2 } = true →
        exec (.vshr t true d a b) s = out (fun i => (va i).sshiftRight ((vb i).toNat % 32)))
    ∧ (s.ready t (.vmov t d a) { z := some 2 } = true → exec (.vmov t d a) s = out va)
    ∧ (s.ready t (.vsel t d a b c) { z := some 2 } = true → exec (.vsel t d a b c) s = out (fun i => if vc i ≠ 0 then va i else vb i))
    ∧ (s.ready t (.vbcast t d a) { z := some 2 } = true → exec (.vbcast t d a) s = out (fun _ => (s.tile t.toNat).gen a.toNat))
    ∧ (∀ l : BitVec 5, s.ready t (.vget t d a l) { z := some 2 } = true →
        exec (.vget t d a l) s = .next (s.issueSlot t.toNat { st := s, later := [⟨2, true, .gen d.toNat (va l.toNat), 0, 0⟩] }))
    ∧ (∀ k : BitVec 5, s.ready t (.vrot t d a b k) { z := some 2 } = true →
        exec (.vrot t d a b k) s =
          out (fun i => va ((i + (if b = 0x3F then k.toNat else ((s.tile t.toNat).gen b.toNat).toNat % 32)) % 32)))

/-- Matrix control (R153, R155 to R158, R46, R47, R55, R57, R58): a stream joins the waiting streams when it has a place and its ranges are legal;
a back-bank operation joins the queue of four when it has a place; a swap exchanges the banks when no back-bank operation runs or waits,
with a tree where RED is set, and joins the queue behind those that do; `mwait` issues once its conditions are about to hold.
Where the rules leave a point open, the state named here is the model's choice: log entries 26, 35 and 79. -/
def Obligations.MatrixInstructionsComplete : Prop :=
  (∀ (s : State) (t : TileNo) (w : StreamOps),
    let x := s.tile t.toNat
    let st (fold : Bool) : StreamSt := ⟨fold, w, (x.ptr (w.areg.toNat % 8)).toNat, (x.ptr w.bptr.toNat).toNat, x.ic, none, 0, 0, [], [], none, [],
      x.bbWait.countP BBOp.isSwap⟩
    let waits (fold : Bool) : Res := .next (s.issueSlot t.toNat
      { st := s.setTile t.toNat { x with waiting := x.waiting ++ [st fold], lastDone := none, lastIssued := some (st fold).m } })
    (s.ready t (.mstream t w) {} = true → x.streamPlace = true → streamFault (st false) = none → exec (.mstream t w) s = waits false)
    ∧ (s.ready t (.mfold t w) {} = true → x.streamPlace = true → w.len.toNat % (st true).bl = 0 → streamFault (st true) = none →
        exec (.mfold t w) s = waits true))
  ∧ (∀ (s : State) (t : TileNo), s.ready t (.mswap t) {} = true → (s.tile t.toNat).bbRun = none → (s.tile t.toNat).bbWait = [] →
    exec (.mswap t) s = .next (s.issueSlot t.toNat { st := s, swap := some (s.swapNow t.toNat none) }))
  ∧ (∀ (s : State) (t : TileNo), s.ready t (.mswap t) {} = true → ((s.tile t.toNat).bbRun.isSome || !(s.tile t.toNat).bbWait.isEmpty) = true →
    exec (.mswap t) s = .next (s.issueSlot t.toNat
      { st := s.setTile t.toNat ((s.tile t.toNat).bbQueue (.swap none)) }))
  ∧ (∀ (s : State) (t : TileNo) (f : BitVec 2) (od : Bool) (r : BitVec 4) (dst : Nat), s.ready t (.mswapReduce t f od r) {} = true →
    lineDst (s.tile t.toNat) od r.toNat 128 = .inl dst →
    exec (.mswapReduce t f od r) s = .next (s.issueSlot t.toNat
      (if (s.tile t.toNat).bbRun.isSome || !(s.tile t.toNat).bbWait.isEmpty then
        { st := s.setTile t.toNat ((s.tile t.toNat).bbQueue (.swap (some (f.toNat, od, dst)))) }
      else { st := s, swap := some (s.swapNow t.toNat (some (f.toNat, od, dst))) })))
  ∧ (∀ (s : State) (t : TileNo), (s.tile t.toNat).bbWaiting < 4 →
    let x := s.tile t.toNat
    let queued (op : BBOp) : Res := .next (s.issueSlot t.toNat
      { st := s.setTile t.toNat { x with bbWait := x.bbWait ++ [op], bbWords := x.bbWords ++ [SMap.get 0 x.pmem x.pc.toNat] } })
    (∀ (n : BitVec 5) (f : BitVec 2) (od b : Bool) (r br : BitVec 4) (dst : Nat), s.ready t (.mdrainConverted t n f od r b br) {} = true →
      lineDst x od r.toNat (128 * (n.toNat + 1)) = .inl dst →
      exec (.mdrainConverted t n f od r b br) s = queued (.drain (n.toNat + 1) f.toNat od dst (if b then some (x.vec br.toNat) else none)))
    ∧ (∀ (n : BitVec 5) (od : Bool) (r : BitVec 4) (dst : Nat), s.ready t (.mdrainRaw t n od r) {} = true →
      lineDst x od r.toNat (512 * (n.toNat + 1)) = .inl dst → exec (.mdrainRaw t n od r) s = queued (.drainRaw (n.toNat + 1) od dst))
    ∧ (∀ (n : BitVec 5) (r : BitVec 4), s.ready t (.mloadRow t n r) {} = true → exec (.mloadRow t n r) s = queued (.loadRow n.toNat r.toNat))
    ∧ (∀ r : BitVec 4, s.ready t (.mloadBroadcast t r) {} = true → exec (.mloadBroadcast t r) s = queued (.loadAll (x.lastIssued.getD 32) r.toNat))
    ∧ (∀ (row n : BitVec 5) (o : Bool) (r : BitVec 4) (src : Nat), s.ready t (.mloadRaw t row n o r) {} = true →
      lineDst x o r.toNat (512 * (n.toNat + 1)) = .inl src → exec (.mloadRaw t row n o r) s = queued (.loadRaw row.toNat (n.toNat + 1) o src))
    ∧ (s.ready t (.mclr t) {} = true → exec (.mclr t) s = queued .clear))
  ∧ (∀ (s : State) (t : TileNo) (bb tr st : Bool), s.ready t (.mwait t bb tr st) {} = true → mwaitReady (s.tile t.toNat) bb tr st = true →
    exec (.mwait t bb tr st) s = .next (s.issueSlot t.toNat { st := s }))

/-- The matrix unit's own events (R44, R47, R55, R58, R65): a due stream starts with the ic of its first plane; the oldest waiting back-bank
operation takes a free port, and leaves it when its last row is done; a due tree result is converted and written; forced rows and columns
take the value written.
Where the rules leave a point open, the state named here is the model's choice: log entries 35, 79 and 81. -/
def Obligations.MatrixEventsComplete : Prop :=
  (∀ (s : State) (t : TileNo) (st : StreamSt) (r : List StreamSt), (s.tile t.toNat).waiting = st :: r → s.startDue t.toNat = true → s.tileFrozen t.toNat = false →
    let x := s.tile t.toNat
    let f := max (x.computedFirst st) (x.ic + 1)
    exec (.streamStart t) s = .next (s.setTile t.toNat
      { x with waiting := r, lastDone := if r.isEmpty then some (f + st.span) else none,
               streams := x.streams.filter (fun e => e.busyAt x.ic) ++ [{ st with first := some f, swaps := 0 }] }))
  ∧ (∀ (s : State) (t : TileNo) (op : BBOp) (r : List BBOp), (s.tile t.toNat).bbRun = none → (s.tile t.toNat).bbWait = op :: r →
    op.isSwap = false → s.tileFrozen t.toNat = false →
    exec (.backBankOpStart t) s = .next (s.setTile t.toNat { (s.tile t.toNat) with bbRun := some (op, 0), bbWait := r }))
  ∧ (∀ (s : State) (t : TileNo), (s.tile t.toNat).bbDoneDue = true → s.tileFrozen t.toNat = false →
    exec (.backBankOpComplete t) s = .next (s.setTile t.toNat { (s.tile t.toNat) with bbRun := none, bbWords := (s.tile t.toNat).bbWords.tail }))
  ∧ (∀ (s : State) (t : TileNo) (r : TreeSt), (s.tile t.toNat).tree.find? (fun r => decide (6 ≤ r.age)) = some r → s.tileFrozen t.toNat = false →
    let recs := (List.range 32).map (fun j =>
      if r.parFail.getD j false then { r.cols.getD j emptyRec with parFail := true } else r.cols.getD j emptyRec)
    let c := (s.matFlag t.toNat Reg.TIL_MAT_STATUS_OVF_OUT r.ovf).convertRow t.toNat r.ofmt recs
    exec (.treeResultWrite t) s =
      .next (c.1.modTile t.toNat (fun y => { (y.putLine r.toStore r.dst c.2) with tree := y.tree.erase r })))
  ∧ (∀ (s : State) (t : TileNo) (col : Bool) (v : Word),
    let f := if col then Reg.TIL_MAT_FORCE_COL_OFF else Reg.TIL_MAT_FORCE_ROW_OFF
    s.mayWrite f t.toNat 0 = true → exec (.matForceWrite t col v) s = .next (setF s f v.toNat t.toNat))

/-- Events of a tile (R119, R121, R123, R125, R128, R163, R167): a halted tile whose work has drained goes idle, with its pending interrupts
discarded and a completion record; an interrupt is entered with ipc, iflags and icause saved, IE and LM cleared and the program counter at
ivec; a reserved word at the program counter raises ILLEGAL, fault code 1; too many transient events retire the tile; a replayed word that
does not fail again holds the test pattern; a corrected lining word is written back, and the patrol scrub moves to the next line.
Where the rules leave a point open, the state named here is the model's choice: log entry 6. -/
def Obligations.TileEventsComplete : Prop :=
  (∀ (s : State) (t : TileNo), (s.tile t.toNat).complete = true → s.tileFrozen t.toNat = false → s.eventDue t.toNat = false →
    let x := s.tile t.toNat
    let u := (s.trace t.toNat 3 x.haltPc.toNat (BitVec.ofNat 32 (bit x.haltAck))).modTile t.toNat
      (fun y => { (y.setSprRaw 0x22 0) with run := .idle, inHandler := false, haltAck := false })
    exec (.tileCompletion t) s = .next (match x.haltAck, u.panelOf t.toNat with
      | true, some p => bumpF u Reg.CMD_POST_ACKS 1 p
      | _, _ => u))
  ∧ (∀ (s : State) (t : TileNo), s.sequencing t.toNat = true → s.eventDue t.toNat = false →
    let x := s.tile t.toNat
    s.chainBehind t.toNat = false → x.gap = 0 → x.rtiPend = false → x.entering = none → x.irqReady = true → x.hold {} = none → x.pipe = [] →
    s.stopsAtWord t.toNat = false →
    let c := irqCause (x.sprv 0x22)
    let y := (x.setSprRaw 0x1E (x.pc.setWidth 32)).setSprRaw 0x1F x.flags
    let y := (y.setSprRaw 0x20 (BitVec.ofNat 32 c)).setSprRaw 0x22 (y.sprv 0x22 &&& ~~~(BitVec.ofNat 32 (2 ^ (c - 1))))
    let y := y.setSprRaw 0x1D (y.flags &&& ~~~(0x30000 : Word))
    exec (.interruptEntry t) s = .next ((s.setTile t.toNat
      { y with pc := (y.sprv 0x21).setWidth 12, inHandler := true, gap := 3, entering := none, fetchWait := 0 }).trace t.toNat 4 c
        (x.pc.setWidth 32)))
  ∧ (∀ (s : State) (t : TileNo) (w : DWord), s.sequencing t.toNat = true → s.eventDue t.toNat = false →
    let x := s.tile t.toNat
    s.chainBehind t.toNat = false → x.entering = none → x.gap = 0 → x.rtiPend = false → x.fetchWait = 0 → SMap.get 0 x.pmemErr x.pc.toNat = 0 →
    SMap.get 0 x.pmem x.pc.toNat = w → decodeTile t w = none →
    exec (.reservedEncoding t w) s = .next (s.tileFault t.toNat 1 0))
  ∧ (∀ (s : State) (t : TileNo), (s.tile t.toNat).fltWindow ≠ 0 → (s.tile t.toNat).fltLimit < (s.tile t.toNat).fltCount →
    exec (.faultLimitExceeded t) s = .next (s.retireTile t.toNat))
  ∧ (∀ (s : State) (t : TileNo) (w : Nat) (r : List (Nat × Nat)), (s.tile t.toNat).replay = (3, w) :: r →
    exec (.uncorrectableReplay t false) s = .next (s.setTile t.toNat { (s.tile t.toNat) with
      replay := r
      os := Mem.store 0 (s.tile t.toNat).os (8 * w) (leBytes 8 (Config.testPattern s.draws).toNat)
      osErr := SMap.set 0 (s.tile t.toNat).osErr w 0 }).drawn)
  ∧ (∀ (s : State) (t : TileNo) (m : Nat × Nat) (r : List (Nat × Nat)), (s.tile t.toNat).replay = m :: r →
    exec (.uncorrectableReplay t true) s = .next ((s.setTile t.toNat { (s.tile t.toNat) with replay := r }).retireTile t.toNat))
  ∧ (∀ (s : State) (t : TileNo), flag s Reg.TIL_LIN_SCRUB_EN t.toNat = true → s.scaleFree t.toNat = true →
    let n := t.toNat
    exec (.patrolScrubRead t) s = .next ((s.linPLine n (128 * (s.tile n).scrubPos) false).1.modTile n
      (fun x => { x with scrubPos := (x.scrubPos + 1) % 16384 })))
  ∧ (∀ (s : State) (t : TileNo) (w : BitVec 18), (s.tile t.toNat).wrBackDue w.toNat = true → s.scaleFree t.toNat = true →
    exec (.correctedWriteBack t w) s = .next (s.modTile t.toNat
      (fun x => { x with liningErr := SMap.set 0 x.liningErr w.toNat 0, wrBack := x.wrBack.filter (fun e => e.1 ≠ w.toNat) })))

/-- Reset, takeover and chains (R127, R174, R175, R189): a host write of TIL_CTRL.RESET resets the tile, or waits for the thaw of a frozen one;
in the availability profile the nearest free held spare takes over a retired tile; ready that reaches the
head starts every stream of its chain, each POS ic after the head, and a member whose parameters differ discards the streams of all.
Where the rules leave a point open, the state named here is the model's choice: log entries 34, 35 and 74. -/
def Obligations.TileControlEventsComplete : Prop :=
  (∀ (s : State) (t : TileNo), s.mayWrite Reg.TIL_CTRL_RESET t.toNat 0 = true → s.tileAsleep t.toNat = false →
    exec (.tileReset t) s = .next (if s.tileFrozen t.toNat then setF s Reg.TIL_CTRL_RESET 1 t.toNat else s.tileReset t.toNat))
  ∧ (∀ (s : State) (t : TileNo) (r : Nat), getF s Reg.MGT_PROFILE_PROFILE = 1 → (s.tile t.toNat).retired = true → s.heldTile t.toNat = false →
    s.chooseSpare t.toNat = some r →
    ∃ u, exec (.tileTakeover t) s = .next u ∧ u.takeover = SMap.set 0 s.takeover t.toNat (r + 1))
  ∧ (∀ (s : State) (t : TileNo) (st : StreamSt) (r : List StreamSt), (s.tile t.toNat).waiting = st :: r →
    let h := t.toNat
    let chain := h :: s.chainAfter 63 h
    let lead := max (st.issued + 2) ((s.tile h).ic + 1) - (s.tile h).ic
    getF s Reg.TIL_CHAIN_ROLE h = 1 → chain.length = getF s Reg.TIL_CHAIN_LENM1 h + 1 → s.readyAt chain.reverse none = .inr true →
    exec (.chainReady t) s = .next (chain.foldl (fun s m => s.chainStart m lead (getF s Reg.TIL_CHAIN_POS m)) s))
  ∧ (∀ (s : State) (t : TileNo) (q : Nat), let h := t.toNat
    let chain := h :: s.chainAfter 63 h
    getF s Reg.TIL_CHAIN_ROLE h = 1 → chain.length = getF s Reg.TIL_CHAIN_LENM1 h + 1 → s.readyAt chain.reverse none = .inl q →
    exec (.chainReady t) s = .next (chain.foldl State.chainDrop (setF s Reg.TIL_FLOW_STATUS_CHAIN_MISMATCH 1 q)))

/-! ### The host's register accesses -/

/-- Register accesses of the host at meeting point 2 (R7 to R10, R36, R37): a granted and aligned write puts every field of the register
that it may write; a field on its own becomes the value written (RW), loses the bits written as 1 (W1C), gains them (W1S) or stays (RO);
a read returns the fields in place and clears an RC field; of a field wider than 32 bits the lower read holds a copy of the upper part and
the upper write puts both; an access where nothing is assigned reads 0 and enters the error log as kind 1 or 2; the profile is written while
no panel is defined, with 48 spares in the availability profile. An access of 8 bytes is its lower half and then its upper half.
Where the rules leave a point open, the state named here is the model's choice: log entries 28, 30, 31 and 32. -/
def Obligations.RegisterAccessesComplete : Prop :=
  (∀ (s : State) (a : Bar0Addr) (v : DWord) (x : FldAt) (l : List FldAt), a.toNat % 4 = 0 → a.toNat < 0x2000000 → msixTable a.toNat = false →
    msixPba a.toNat = false → fieldsAt a.toNat = x :: l → (x :: l).all (fun y => decide (y.fld.wide = .none)) = true →
    s.hostMay a.toNat true (expertAt a.toNat) = true → (x :: l).any (fun y => s.writeBarred y (v.toNat % 2 ^ 32)) = false →
    exec (.registerWrite a false v) s = .next ((x :: l).foldl (fun u y => u.writeOne a.toNat (v.toNat % 2 ^ 32) y) s))
  ∧ (∀ (s : State) (a : Nat) (v : Nat) (f : Fld) (i j : Nat), f.own = false → ownRegister ⟨f, i, j⟩ = false → s.fieldBarred ⟨f, i, j⟩
      (bits v (f.lo + f.width - 1) f.lo) = 0 → f ≠ Reg.MGT_SVC_CTRL_CODE →
    let w := bits v (f.lo + f.width - 1) f.lo
    let old := getF s f i j
    s.writeOne a v ⟨f, i, j⟩ = (match f.acc with
      | .rw => setF s f w i j
      | .w1c => setF s f (old - (old &&& w)) i j
      | .w1s => setF s f (old ||| w) i j
      | _ => s).afterWrite ⟨f, i, j⟩ w)
  ∧ (∀ (s : State) (a : Bar0Addr) (f : Fld) (i j : Nat), a.toNat % 4 = 0 → a.toNat < 0x2000000 → msixTable a.toNat = false →
    msixPba a.toNat = false → fieldsAt a.toNat = [⟨f, i, j⟩] → f.wide = .none → f.acc ≠ .wo → f ≠ Reg.NET_LINK_STATE_EVENTS →
    s.hostMay a.toNat false (expertAt a.toNat) = true →
    exec (.rcRead a false) s = .next ((if f.acc = .rc then setF s f 0 i j else s).emit .completion [a.toNat, 0]
      (leBytes 4 (s.shown ⟨f, i, j⟩ * 2 ^ f.lo))))
  ∧ (∀ (s : State) (a : Bar0Addr), counterWindow a.toNat = true → a.toNat % 8 = 0 → s.hostMay a.toNat false (expertAt a.toNat) = true →
    let v := s.ctrEntry ((a.toNat - 0x2400000) / 8)
    exec (.lowerHalfRead a) s = .next (({ s with holdR := SMap.set none s.holdR a.toNat (some (v / 2 ^ 32)) } : State).emit .completion
      [a.toNat, 0] (leBytes 4 (v % 2 ^ 32))))
  ∧ (∀ (s : State) (a : Bar0Addr) (v : Nat), counterWindow a.toNat = true → a.toNat % 8 = 4 →
    s.hostMay a.toNat false (expertAt a.toNat) = true → SMap.get none s.holdR (a.toNat - 4) = some v →
    exec (.upperHalfRead a) s = .next (({ s with holdR := SMap.set none s.holdR (a.toNat - 4) none } : State).emit .completion [a.toNat, 0]
      (leBytes 4 v)))
  ∧ (∀ (s : State) (a : Bar0Addr) (v : Word) (f : Fld) (i j : Nat), a.toNat % 4 = 0 → a.toNat < 0x2000000 → msixTable a.toNat = false →
    msixPba a.toNat = false → fieldsAt a.toNat = [⟨f, i, j⟩] → f.wide = .low → f.acc = .rw →
    s.hostMay a.toNat true (expertAt a.toNat) = true → s.writeBarred ⟨f, i, j⟩ v.toNat = false →
    exec (.lowerHalfWrite a v) s = .next { s with heldW := SMap.set none s.heldW a.toNat (some v.toNat) })
  ∧ (∀ (s : State) (a : Bar0Addr) (v : Word) (f g : Fld) (i j i' j' low : Nat), a.toNat % 4 = 0 → a.toNat < 0x2000000 →
    msixTable a.toNat = false → msixPba a.toNat = false → fieldsAt a.toNat = [⟨f, i, j⟩] → f.wide = .high → f.acc = .rw →
    fieldsAt (a.toNat - 4) = [⟨g, i', j'⟩] → s.hostMay a.toNat true (expertAt a.toNat) = true →
    s.writeBarred ⟨f, i, j⟩ v.toNat = false → SMap.get none (s.writeOne a.toNat v.toNat ⟨f, i, j⟩).heldW (a.toNat - 4) = some low →
    let u := s.writeOne a.toNat v.toNat ⟨f, i, j⟩
    exec (.upperHalfWrite a v) s = .next
      (({ u with heldW := SMap.set none u.heldW (a.toNat - 4) none } : State).writeOne (a.toNat - 4) low ⟨g, i', j'⟩))
  ∧ (∀ (s : State) (a : Bar0Addr) (w : Bool) (v : Word), nothingAt a.toNat = true → a.toNat % 4 = 0 → s.hostMay a.toNat w (expertAt a.toNat) = true →
    exec (.unassignedAccess a w v) s = .next (
      if w then s.logErr 2 idHost a.toNat v.toNat
      else (s.logErr 1 idHost a.toNat 0).emit .completion [a.toNat, 0] (leBytes 4 0)))
  ∧ (∀ (s : State) (v : Word), s.mayWrite Reg.MGT_PROFILE_PROFILE 0 0 = true → v.toNat % 4 < 2 →
    (List.range 16).all (fun p => decide (s.panelState p = 0)) = true →
    exec (.profileWrite v) s = .next (if getF s Reg.MGT_PROFILE_PROFILE = v.toNat % 4 then { s with profileFresh := true }
      else { setF (setF s Reg.MGT_PROFILE_PROFILE (v.toNat % 4)) Reg.MGT_PROFILE_SPARES_LEFT
        (if v.toNat % 4 = 1 then 48 else 0) with profileFresh := true }))
  ∧ (∀ (s : State) (a : Bar0Addr) (v : DWord), a.toNat % 8 = 0 → a.toNat < 0x2000000 →
    s.hostMay a.toNat true (expertAt a.toNat || expertAt (a.toNat + 4)) = true →
    exec (.registerWrite a true v) s = .next ((s.regWrite a.toNat (v.toNat % 2 ^ 32)).regWrite (a.toNat + 4) (v.toNat / 2 ^ 32)))
  ∧ (∀ (s : State) (a : Bar0Addr), counterWindow a.toNat = true → a.toNat % 8 = 0 →
    s.hostMay a.toNat false (expertAt a.toNat || expertAt (a.toNat + 4)) = true →
    exec (.rcRead a true) s = .next (({ s with holdR := SMap.set none s.holdR a.toNat none } : State).emit .completion [a.toNat, 0]
      (leBytes 8 (s.ctrEntry ((a.toNat - 0x2400000) / 8)))))

/-! ### The tile network -/

/-- Deliveries (R193 to R195, R200 to R202): a message of this device that is the one its tile's ejection grants leaves the network and is
delivered, and its mover gets the acknowledgement it asked for; a message that an output grants crosses to the next router and goes on from there;
among the classes that are ready an output grants class 1 after 3 lost turns, class 3 after 63, else 2 before 1 before 3; the oldest message of a
stitch reaches its next point and, at the last, its destination tile's queue or landing stage; landed lines are written into their ring lines, two
in an ic where their banks differ; a credit comes back to the source of a stitch.
Where the rules leave a point open, the state named here is the model's choice: log entries 22, 46 and 47. -/
def Obligations.DeliveriesComplete : Prop :=
  (∀ (s : State) (n d : Nat) (f : Flight), s.arrayFrozen = false → s.flights[n]? = some f → f.msg.h.ddev = s.devId → f.isAck = false →
    f.dsts = [d] → f.pos = s.posOf d → s.inFront f = none → (s.tileAsleep d && decide (f.msg.h.dlv < 2)) = false →
    (f.msg.h.nt && (s.tile d).retired) = false → s.contenders f.pos 8 = [f] → 1 ≤ f.msg.h.cls → f.msg.h.cls ≤ 3 → f.via < 10 →
    exec (.messageDelivery n) s = .next ((((s.leave f [d]).deliver d (s.voided f.msg)).sendAck f).settleLoads.settleMovers))
  ∧ (∀ (s : State) (n : Nat) (f : Flight) (h : Hop) (ds : List Nat), s.arrayFrozen = false → s.flights[n]? = some f → s.dropAway f = none →
    s.inFront f = none → s.cull f = (s, f) → f.dsts ≠ [] → s.wayOut f = some (h, ds) → s.contenders f.pos h.out = [f] →
    1 ≤ f.msg.h.cls → f.msg.h.cls ≤ 3 → f.via < 10 →
    exec (.messageDelivery n) s = .next ((if h.out = 8 then s.eject f ds
      else State.carry 4095 (s.cross f h ds).1 (s.cross f h ds).2).settleLoads.settleMovers))
  ∧ (∀ (k : LinkSt) (has : Nat → Bool), let c := grantClass k has
    (has 1 = true → 3 ≤ k.lost1 → c = 1) ∧ (¬ (has 1 = true ∧ 3 ≤ k.lost1) → has 3 = true → 63 ≤ k.lost3 → c = 3)
    ∧ (¬ (has 1 = true ∧ 3 ≤ k.lost1) → ¬ (has 3 = true ∧ 63 ≤ k.lost3) → c = if has 2 then 2 else if has 1 then 1 else 3))
  ∧ (∀ (s : State) (n : BitVec 10) (p i : Nat) (st : Stitch) (m : CMsg), s.arrayFrozen = false → s.stitch n.toNat = some st →
    st.nextAt p = some (i, m) → m.points = [p] → st.points.getLast? = some p → m.lostAt = none → st.dstKind = 0 → st.points.filter (· < p) = [] →
    s.pathFrozen (st.hops.take p) = false → s.tileFrozen st.endTile = false → s.tileAsleep st.endTile = false →
    let u := ((s.setStitch n.toNat (some { st with flight := st.flight.eraseIdx i })).countPath 0 (st.hops.take p)).loseTurns (st.hops.take p)
    let v := s.voided m.msg
    (m.msg.h.dlv = 0 → v.h.dlv = 0 → exec (.stitchDelivery n p) s = .next ((u.noteVoid st.dst v).enqueue st.dst 0 v))
    ∧ (m.msg.h.dlv ≠ 0 → v.h.dlv ≠ 0 → (s.tile st.endTile).landing.length < 16 →
        exec (.stitchDelivery n p) s = .next (((u.noteVoid st.dst v).countTile st.dst 14).modTile st.dst
          (fun x => { x with landing := x.landing ++ [⟨v.h.line, v.data, x.ic⟩] }))))
  ∧ (∀ (s : State) (t : TileNo) (l : Landed), s.tileFrozen t.toNat = false → s.landable t.toNat [] = some l →
    exec (.landingStageWrite t) s = .next (match (s.land t.toNat l).landable t.toNat [osBank (128 * l.line)] with
      | none => s.land t.toNat l
      | some m => (s.land t.toNat l).land t.toNat m))
  ∧ (∀ (s : State) (t : TileNo) (l : Landed), s.memWf = true →
    ((s.land t.toNat l).tile t.toNat).landing = (s.tile t.toNat).landing.erase l
      ∧ ∀ b, SMap.get 0 ((s.land t.toNat l).tile t.toNat).os b =
        if 128 * l.line ≤ b ∧ b < 128 * l.line + 128 then (leBytes 128 l.data.toNat).getD (b - 128 * l.line) 0 else SMap.get 0 (s.tile t.toNat).os b)
  ∧ (∀ (s : State) (n : BitVec 10) (st : Stitch), s.stitch n.toNat = some st → st.dlv = 0 → (0 < st.returning ∨ st.dstKind = 2) →
    getF s Reg.NET_ST_STATUS_CREDIT n.toNat < st.credits → s.arrayFrozen = false → s.tileFrozen st.startTile = false →
    let u := setF (s.setStitch n.toNat (some { st with returning := st.returning - 1 }))
      Reg.NET_ST_STATUS_CREDIT (getF s Reg.NET_ST_STATUS_CREDIT n.toNat + 1) n.toNat
    exec (.creditReturn n) s = .next (if st.srcKind = 2 then u.emit .laneCredit [st.src / 8, st.src % 8]
      else if st.srcKind = 1 then u.pumpHem st.src else u))

/-- Failures of links and routers (R203, R211 to R214, R217): a class 0 message that fails its CRC is lost at the next router and reported;
a flit that fails is replayed and counts a link event; too many events in a window, or a router fault, retire links in both directions; the
host forces a link without a reservation out of service and back.
Where the rules leave a point open, the state named here is the model's choice: log entries 46 and 47. -/
def Obligations.LinkFaultsComplete : Prop :=
  (∀ (s : State) (n : BitVec 10) (hop i : Nat) (st : Stitch) (h : Nat × Nat), s.stitch n.toNat = some st → st.hops[hop]? = some h →
    st.flight.findIdx? (fun m => m.lostAt.isNone && m.points.any (hop < ·)) = some i → s.tileFrozen h.1 = false →
    exec (.class0CrcFailure n hop) s = .next (((s.setStitch n.toNat (some { st with
      flight := st.flight.modify i (fun m => { m with lostAt := some (hop + 1) }) })).linkEvent h.1 h.2).report 0 (5 * 4096 + h.1 % 4096) []))
  ∧ (∀ (s : State) (t : TileNo) (p : BitVec 3), s.linkUp t.toNat p.toNat = true → s.tileFrozen t.toNat = false →
    exec (.linkReplay t p false) s = .next (((s.modLink t.toNat p.toNat (fun l => { l with retry := s.resend t.toNat p.toNat })).modLink t.toNat p.toNat
      (fun l => { l with fails := 0 })).linkEvent t.toNat p.toNat))
  ∧ (∀ (s : State) (t : TileNo) (p : BitVec 3), s.linkUp t.toNat p.toNat = true → s.tileFrozen t.toNat = false →
    (s.link t.toNat p.toNat).fails < 2 →
    exec (.linkReplay t p true) s = .next ((s.modLink t.toNat p.toNat (fun l => { l with fails := l.fails + 1 })).linkEvent
      t.toNat p.toNat))
  ∧ (∀ (s : State) (t : TileNo) (p : BitVec 3), s.linkUp t.toNat p.toNat = true → s.tileFrozen t.toNat = false →
    2 ≤ (s.link t.toNat p.toNat).fails → exec (.linkReplay t p true) s = .next (s.retireLink t.toNat p.toNat))
  ∧ (∀ (s : State) (t : TileNo) (p : BitVec 3), getF s Reg.NET_LINK_LIMIT_WINDOW ≠ 0 →
    getF s Reg.NET_LINK_LIMIT_COUNT < (s.link t.toNat p.toNat).inWindow →
    exec (.linkEventLimitExceeded t p) s = .next (s.retireLink t.toNat p.toNat))
  ∧ (∀ (s : State) (t : TileNo), (s.tile t.toNat).routerRetired = false →
    exec (.routerFault t) s = .next (((hemsAt t.toNat).foldl (fun u h => u.emptyHem h)
      (((List.range 8).foldl (fun u p => u.retireLink t.toNat p) s).modTile t.toNat (fun x => { x with routerRetired := true }))).retireTile t.toNat))
  ∧ (∀ (s : State), s.mayWrite Reg.NET_LINK_FORCE_OFF 0 0 = true →
    let w := bothWays (getF s Reg.NET_LINK_SEL_TILE) (getF s Reg.NET_LINK_SEL_PORT)
    w.all (fun h => (s.link h.1 h.2).rsv.isNone) = true →
    exec (.linkForceWrite true) s = .next (w.foldl (fun u h => u.modLink h.1 h.2 (fun l => { l with forced := true, lateRsv := false })) s)
    ∧ exec (.linkForceWrite false) s = .next (w.foldl (fun u h => u.modLink h.1 h.2
        (fun l => { l with forced := false, lateRsv := l.forced || l.lateRsv })) s))

/-- Multicast (R206, R208): a branch output without credit for HOLD ic detaches, and the branch of the oldest held message beyond it is
dropped and counted; when it has credit again, its torn marker goes ahead of the messages in flight; the host defines a group, which is valid
where its rectangle lies in its panel and holds no tile that is taken over.
Where the rules leave a point open, the state named here is the model's choice: log entry 46. -/
def Obligations.MulticastCommandsComplete : Prop :=
  (∀ (s : State) (g : Byte) (t : TileNo) (port : BitVec 4) (f : Flight) (ds : List Nat), getF s Reg.NET_MCAST_HOLD_HOLD ≠ 0 →
    s.arrayFrozen = false → s.panelState (getF s Reg.NET_MCG_PANEL g.toNat) ≠ 2 → s.heldBranch g.toNat t.toNat port.toNat = some (f, ds) →
    (s.branch f port.toNat).1.any (fun h => s.hasCredit f h ds) = false →
    exec (.multicastDetach g t port) s = .next { s.leave f ds with
      torn := addTorn s.torn t.toNat port.toNat g.toNat f ds })
  ∧ (∀ (s : State) (t : TileNo) (port : BitVec 4) (g : Byte) (w : Torn),
    let mine (v : Torn) : Bool := decide (v.router = t.toNat ∧ v.port = port.toNat ∧ v.group = g.toNat)
    let f : Flight := ⟨s.nextId, w.last.origin, w.last.entry, w.marker, w.beyond, w.router, 9, 0⟩
    s.torn.find? mine = some w → (s.branch f port.toNat).1.any (fun h => s.hasCredit f h w.beyond) = true →
    exec (.tornMarker t port g) s = .next { s with
      flights := f :: s.flights
      nextId := s.nextId + 1
      torn := s.torn.filter (fun v => !mine v) })
  ∧ (∀ (s : State) (g : Byte) (v : Word), s.mayWrite Reg.NET_MCG_X0 g.toNat 0 = true →
    let n := g.toNat
    let x0 := bits v.toNat 5 0
    let x1 := bits v.toNat 11 6
    let y0 := bits v.toNat 16 12
    let y1 := bits v.toNat 21 17
    let p := bits v.toNat 25 22
    let u := setF (setF (setF (setF (setF s Reg.NET_MCG_X0 x0 n) Reg.NET_MCG_X1 x1 n) Reg.NET_MCG_Y0 y0 n) Reg.NET_MCG_Y1 y1 n) Reg.NET_MCG_PANEL p n
    (bitAt v.toNat 26 = true → u.groupValid x0 x1 y0 y1 p = true → exec (.mcastGroupWrite g v) s = .next (setF u Reg.NET_MCG_VALID 1 n))
    ∧ (bitAt v.toNat 26 = true → u.groupValid x0 x1 y0 y1 p = false →
        exec (.mcastGroupWrite g v) s = .next ((setF u Reg.NET_MCG_VALID 0 n).logErr 4 idHost (Reg.NET_MCG_X0.addr n 0) v.toNat))
    ∧ (bitAt v.toNat 26 = false → exec (.mcastGroupWrite g v) s = .next (setF u Reg.NET_MCG_VALID 0 n)))

/-! ### Panels -/

/-- Definition, removal, reset and thaw of panels (R218 to R222, R244, R248): a definition that no check of R219 refuses is under way, and
completes in the initial state of R220; one that a check refuses leaves DEF_ERR and its cause; a reset and a removal run the steps of R244
with STATE 3, and end once no bound channel aborts; a frozen panel thaws.
Where the rules leave a point open, the state named here is the model's choice: log entry 63. -/
def Obligations.PanelControlCompletes : Prop :=
  (∀ (s : State) (p : PanelNo), s.mayWrite Reg.CMD_PANEL_CTRL_DEFINE p.toNat 0 = true → flag s Reg.CMD_PANEL_CTRL_DEFINE p.toNat = false →
    exec (.panelDefine p) s = .next (if s.defCause p.toNat = 0
      then (setF s Reg.CMD_PANEL_CTRL_DEFINE 1 p.toNat).modPanel p.toNat (fun x => { x with defining := true })
      else setF (setF s Reg.CMD_PANEL_STATUS_DEF_ERR 1 p.toNat) Reg.CMD_PANEL_STATUS_DEF_CAUSE (s.defCause p.toNat) p.toNat))
  ∧ (∀ (s : State) (p : PanelNo), (s.panel p.toNat).defining = true → s.arrayFrozen = false →
    let n := p.toNat
    let u := setF (setF (s.setPanel n { Panel.init with words := (s.panel n).words }) Reg.CMD_PANEL_CTRL_DEFINE 0 n) Reg.CMD_PANEL_STATUS_STATE 1 n
    let u := setF (setF (setF u Reg.CMD_INTAKE_PTR_NEXT 0 n) Reg.CMD_INTAKE_PTR_CONSUMED 0 n) Reg.CMD_INTAKE_SEQ_VALUE 0 n
    let u := setF (setF (setF u Reg.CMD_TAGS_LAYER 0 n) Reg.CMD_TAGS_OPERATOR 0 n) Reg.CMD_BARRIER_COUNT 0 n
    let u := (List.range 8).foldl (fun u q => setF u Reg.CMD_QMARK_REACHED 0 n q) u
    exec (.panelDefineComplete p) s = .next
      ((u.panelTiles n).foldl (fun u t => u.modTile t (fun x => { x with layer := 0, operator := 0 })) u))
  ∧ (∀ (s : State) (p : PanelNo), s.mayWrite Reg.CMD_PANEL_CTRL_UNDEFINE p.toNat 0 = true → s.arrayFrozen = false →
    s.panelState p.toNat ≠ 0 →
    let u := (setF s Reg.CMD_PANEL_CTRL_UNDEFINE 1 p.toNat).modPanel p.toNat (fun x => { x with undefining := true })
    u.panelState p.toNat ≠ 3 → exec (.panelUndefine p) s = .next ((u.readyForReset p.toNat).startPanelReset p.toNat))
  ∧ (∀ (s : State) (p : PanelNo), s.mayWrite Reg.CMD_PANEL_CTRL_RESET p.toNat 0 = true → s.arrayFrozen = false →
    s.frozenMaster (idCmd p.toNat) = false → s.panelState p.toNat = 1 ∨ s.panelState p.toNat = 2 →
    exec (.panelReset p) s = .next ((setF (s.readyForReset p.toNat) Reg.CMD_PANEL_CTRL_RESET 1 p.toNat).startPanelReset p.toNat))
  ∧ (∀ (s : State) (p : PanelNo), s.panelState p.toNat = 3 → s.arrayFrozen = false →
    (s.boundChans p.toNat).all (fun c => decide (s.chanState c.1 c.2 ≠ 3)) = true →
    exec (.panelResetComplete p) s = .next (if (s.panel p.toNat).undefining
      then (setF s Reg.CMD_PANEL_CTRL_RESET 0 p.toNat).removePanel p.toNat
      else setF (setF s Reg.CMD_PANEL_CTRL_RESET 0 p.toNat) Reg.CMD_PANEL_STATUS_STATE 1 p.toNat))
  ∧ (∀ (s : State) (p : PanelNo), s.mayWrite Reg.CMD_PANEL_CTRL_THAW p.toNat 0 = true → s.arrayFrozen = false →
    s.frozenMaster (idCmd p.toNat) = false → s.panelState p.toNat = 2 →
    exec (.panelThaw p) s = .next (s.thawPanel p.toNat))

/-- Resume, sleep, wake and interrupts of panels (R125, R233, R243, R249, R454): a resume clears HELD; a panel that may sleep sleeps, and another
is refused and recorded; a sleeping one wakes; a preempt or snapshot request is posted to the tiles named.
Where the rules leave a point open, the state named here is the model's choice: log entries 43 and 69. -/
def Obligations.PanelHostCommandsComplete : Prop :=
  (∀ (s : State) (p : PanelNo), s.mayWrite Reg.CMD_PANEL_CTRL_RESUME p.toNat 0 = true → flag s Reg.CMD_PANEL_STATUS_SLEEP p.toNat = false →
    exec (.queueResume p) s = .next (setF (s.modPanel p.toNat (fun x => { x with held := [] })) Reg.CMD_PANEL_STATUS_HELD 0 p.toNat))
  ∧ (∀ (s : State) (p : PanelNo), s.mayWrite Reg.PWR_PSLEEP_SLEEP 0 0 = true → fbit s Reg.PWR_PSLEEP_SLEEP p.toNat = false →
    exec (.panelSleep p) s = .next (if s.maySleep p.toNat
      then setF (setFbit s Reg.PWR_PSLEEP_SLEEP p.toNat true) Reg.CMD_PANEL_STATUS_SLEEP 1 p.toNat
      else (setFbit s Reg.PWR_PSLEEP_REFUSED p.toNat true).logErr 3 idHost (Reg.PWR_PSLEEP_SLEEP.addr 0 0) (2 ^ p.toNat)))
  ∧ (∀ (s : State) (p : PanelNo), s.mayWrite Reg.PWR_PWAKE_WAKE 0 0 = true → flag s Reg.CMD_PANEL_STATUS_SLEEP p.toNat = true →
    exec (.panelWake p) s = .next (if s.panelFrozen p.toNat
      then (setFbit s Reg.PWR_PWAKE_WAKE p.toNat true).modPanel p.toNat (fun x => { x with wakeAtThaw := true })
      else s.wakePanel p.toNat))
  ∧ (∀ (s : State) (p : PanelNo) (v : Word), s.mayWrite Reg.CMD_POST_GO p.toNat 0 = true → flag s Reg.CMD_PANEL_STATUS_SLEEP p.toNat = false →
    flag s Reg.CMD_POST_BUSY p.toNat = false →
    let u (k : Nat) : State := setF (setF (setF s Reg.CMD_POST_TILE (bits v.toNat 10 0) p.toNat) Reg.CMD_POST_ALL (bits v.toNat 11 11) p.toNat)
      Reg.CMD_POST_KIND k p.toNat
    exec (.postPreempt p v) s = .next (((u 1).postTargets p.toNat v.toNat).foldl (fun s t => s.hostPost p.toNat t 1) (u 1))
    ∧ exec (.postSnapshotRequest p v) s = .next (((u 2).postTargets p.toNat v.toNat).foldl (fun s t => s.hostPost p.toNat t 2) (u 2)))

/-- The intake (R223 to R230, R378): the words of a granted write go into the window one by one, the last of a packet commits it with what the
window then holds, and a header of illegal length stops the intake; a resync discards what is uncommitted and
brings NEXT back to CONSUMED; the oldest committed packet is decided, with NEXT past it either way: accepted, with the next SEQ expected, or
rejected, with CAUSE, the rejected SEQ and the panel's vector; an accepted packet moves into its queue once there is room.
Where the rules leave a point open, the state named here is the model's choice: log entries 39 and 40. -/
def Obligations.IntakeCommandsComplete : Prop :=
  (∀ (s : State) (off : BitVec 22) (words : List Word) (pb : Bool), s.hostServed = true → s.warming = none → s.intakeRefused = false →
    exec (.intakeWrite off words pb false) s = .next
      (State.intakeWords (pb || decide (off.toNat % 4 ≠ 0)) off.toNat words s)
    ∧ exec (.intakeWrite off words pb true) s = .next
      (State.intakeWords true off.toNat words ((bumpF s Reg.PCI_ERR_CNT_UNCORR).report 0 (2 * 4096) [])))
  ∧ (∀ (s : State) (p off : Nat) (w : Word), s.panelState p = 1 → flag s Reg.CMD_INTAKE_STATUS_STOPPED p = false → s.protectedAt p off = false →
    let y := if s.intakeWaits p then s.panel p else (s.panel p).commitNow
    let x := { y with words := SMap.set 0 y.words (off / 4) w, hdrHeld := y.hdrHeld || decide (off = y.fill) }
    let n := x.lenAt x.fill
    (off = x.fill → lenOk n = false → s.intakeWord p off w false = setF (s.setPanel p x) Reg.CMD_INTAKE_STATUS_STOPPED 1 p)
    ∧ (off ≠ x.fill ∨ lenOk n = true → x.hdrHeld = true → off = (x.fill + n - 4) % 65536 → s.intakeWord p off w false = s.setPanel p
        { x with undecided := x.undecided ++ [⟨x.fill, n, if s.intakeWaits p then none else some (x.bytes x.fill n)⟩],
                 fill := (x.fill + n) % 65536, hdrHeld := false })
    ∧ (off ≠ x.fill ∨ lenOk n = true → ¬ (x.hdrHeld = true ∧ off = (x.fill + n - 4) % 65536) → s.intakeWord p off w false = s.setPanel p x))
  ∧ (∀ (s : State) (p : PanelNo), s.mayWrite Reg.CMD_INTAKE_CTRL_RESYNC p.toNat 0 = true →
    let c := getF s Reg.CMD_INTAKE_PTR_CONSUMED p.toNat
    exec (.intakeResync p) s = .next (setF (setF (s.modPanel p.toNat (fun x => { x with undecided := [], fill := c, hdrHeld := false }))
      Reg.CMD_INTAKE_PTR_NEXT c p.toNat) Reg.CMD_INTAKE_STATUS_STOPPED 0 p.toNat))
  ∧ (∀ (s : State) (p : PanelNo) (off len : Nat) (held : Option (List Byte)) (r : List Undecided),
    (s.panel p.toNat).undecided = ⟨off, len, held⟩ :: r →
    s.intakeWaits p.toNat = false →
    let n := p.toNat
    let k : Pkt := ⟨held.getD ((s.panel n).bytes off len)⟩
    let u := setF (s.modPanel n (fun x => { x with undecided := r })) Reg.CMD_INTAKE_PTR_NEXT (off + len) n
    (s.packetCause n k = 0 → exec (.packetDecision p) s = .next ((setF (u.modPanel n (fun x => x.accept off k)) Reg.CMD_INTAKE_SEQ_VALUE
      (getF u Reg.CMD_INTAKE_SEQ_VALUE n + 1) n).placeMarks n))
    ∧ (s.packetCause n k ≠ 0 →
      let v := if (u.panel n).packets = [] then setF u Reg.CMD_INTAKE_PTR_CONSUMED (off + len) n else u
      exec (.packetDecision p) s = .next
      ((setF (setF (setF v Reg.CMD_INTAKE_STATUS_CAUSE (s.packetCause n k) n) Reg.CMD_INTAKE_REJ_SEQ_VALUE k.seq n)
        Reg.CMD_INTAKE_STATUS_REJ 1 n).raise n)))
  ∧ (∀ (s : State) (p : PanelNo) (k : Packet) (r : List Packet), (s.panel p.toNat).packets = k :: r → s.intakeWaits p.toNat = false →
    ((s.panel p.toNat).queue k.queue).length < queueSize k.queue →
    let x := s.panel p.toNat
    let u := s.setPanel p.toNat ({ x with packets := r }.setQueue k.queue (x.queue k.queue ++ [k.cmd]))
    exec (.packetConsume p) s = .next (setF u Reg.CMD_INTAKE_PTR_CONSUMED
      (match r.head? with
        | none => getF u Reg.CMD_INTAKE_PTR_NEXT p.toNat
        | some j => j.off) p.toNat))

/-! ### The commands of a panel's queues -/

/-- Commands of queue 0 (R181, R182, R234, R235, R237, R239 to R241): a launch whose targets are idle starts every one, or is
refused; a load writes program memory, or sends its data to the tile; a tag reaches the command processor and every tile; a signal writes VALUE and SEQ and sends its vector; the marker of a snap passes queue 0 and goes to
the tiles; a barrier holds its queue until every tile has arrived and every covered move is complete, when COUNT advances and
each pending arrival is answered.
Where the rules leave a point open, the state named here is the model's choice: log entries 41, 42 and 75. -/
def Obligations.QueueZeroCommandsComplete : Prop :=
  ∀ (s : State) (p : PanelNo) (c : QCmd),
    let n := p.toNat
    (s.head0 n 1 = some c → c.issued = false → c.targets.all (fun t => !(s.tile t).busyRun) = true →
      (s.panel n).snaps.all (fun m => c.targets.all (fun t => !m.tiles.contains t)) = true →
      exec (.launch p) s = .next (if s.launchCause n c = 0 then c.targets.foldl (fun u t => u.launchTile c t) (s.markIssued n 0 c.ord)
        else s.refuseCmd n 0 c (s.launchCause n c) 0))
    ∧ (s.head0 n 2 = some c → c.issued = false → s.loadCause n c = 0 →
      exec (.load p) s = .next (if bits (c.word 0) 13 12 = 0 then (s.popCmd n 0 c.ord).loadProgram (bits (c.word 0) 10 0) c
        else ((s.markIssued n 0 c.ord).loadSend n (bits (c.word 0) 10 0) c).settleLoads))
    ∧ (s.head0 n 9 = some c →
      let l := bits (c.word 0) 15 0
      let o := bits (c.word 0) 31 16
      let u := setF (setF (s.popCmd n 0 c.ord) Reg.CMD_TAGS_LAYER l n) Reg.CMD_TAGS_OPERATOR o n
      exec (.tag p) s = .next ((u.panelTiles n).foldl (fun u t => u.modTile t (fun x => { x with layer := l, operator := o })) u))
    ∧ (s.head0 n 10 = some c →
      exec (.signal p) s = .next ((setF (setF (s.popCmd n 0 c.ord) Reg.CMD_SIGNAL_VAL_VALUE (c.word 0) n) Reg.CMD_SIGNAL_SEQ_VALUE c.seq n).sendVector
        (bits (c.word 4) 7 0)))
    ∧ (s.head0 n 8 = some c →
      let u := (s.popCmd n 0 c.ord).modPanel n (fun x => { x with
        snaps := x.snaps.map (fun m => if m.ord = c.ord then { m with queues := m.queues.filter (· ≠ 0), tiles := s.panelTiles n } else m) })
      exec (.snap p) s = .next ((if bitAt (c.word 4) 0 then (s.panelTiles n).foldl (fun u t => u.postIrq t 2) u else u).placeMarks n))
    ∧ (s.head0 n 6 = some c → exec (.barrier p) s = .next (s.markIssued n 0 c.ord))
    ∧ (s.head0 n 6 = some c → c.issued = true →
      (List.range 8).all (fun q => ((s.panel n).queue q).all (fun e => !decide (e.op = 3 ∧ e.ord < c.ord))) = true →
      (s.panelTiles n).all (fun t => (s.tile t).arrived) = true →
      let num := (getF s Reg.CMD_BARRIER_COUNT n + 1) % 2 ^ 32
      exec (.barrierRelease p) s = .next (((s.panelTiles n).filter (fun t => decide (0 < (s.tile t).barPend))).foldl
        (fun u t => (u.modTile t (fun x => { x with barPend := x.barPend - 1 })).enqueue t 2 (releaseMsg num c.layer c.oper))
        (setF (s.popCmd n 0 c.ord) Reg.CMD_BARRIER_COUNT num n)))

/-- Commands of the mover queues (R179, R180, R236, R254): a move issues within the outstanding limit and behind no unsatisfied wait, and
its descriptor joins the waiting list of its channel, or is refused with cause 6 where that is not bound to the panel; a mark is reached at the head of its queue, with its number in REACHED; a wait
is satisfied once REACHED is at or past its number.
Where the rules leave a point open, the state named here is the model's choice: log entry 41. -/
def Obligations.MoverQueueCommandsComplete : Prop :=
  ∀ (s : State) (p : PanelNo) (q : BitVec 3) (c : QCmd),
    let n := p.toNat
    let k := q.toNat
    let l := (s.panel n).queue k
    (l.find? (fun c => decide (c.op = 3 ∧ ¬ c.issued)) = some c → k ≠ 0 → s.queueRuns n k = true → outstanding l < s.qLimit n k →
      waitBefore l c.ord = false → s.moveRoom n c = true → exec (.moveIssue p q) s = .next (s.markIssued n k c.ord))
    ∧ (l.find? (fun c => decide (c.op = 3) && c.issued && !c.sent) = some c → s.cmdStopped n = false → SMap.get false (s.panel n).held k = false →
      (s.panel n).marksBefore c.ord = false → s.boundTo c.chan.1 c.chan.2 n = false →
      exec (.move p q) s = .next ((s.refuseCmd n k c 6 0).placeMarks n))
    ∧ (l.find? (fun c => decide (c.op = 3) && c.issued && !c.sent) = some c → s.cmdStopped n = false → SMap.get false (s.panel n).held k = false →
      (s.panel n).marksBefore c.ord = false → s.boundTo c.chan.1 c.chan.2 n = true → (s.chan c.chan.1 c.chan.2).waiting.length < 16 →
      exec (.move p q) s = .next (((s.modChan c.chan.1 c.chan.2 (fun x => { x with
          waiting := x.waiting ++ [⟨c.body.drop 16, c.seq, c.layer, c.oper, some ⟨n, k, c.ord⟩⟩] })).modPanel n
        (fun x => x.setQueue k ((x.queue k).map (fun e => if e.ord = c.ord then { e with sent := true } else e)))).placeMarks n))
    ∧ (s.unbegun n k 4 = some c → s.queueRuns n k = true → exec (.mark p q) s = .next ((s.markIssued n k c.ord).placeMarks n))
    ∧ (l.head? = some c → c.op = 4 → c.issued = true → s.cmdStopped n = false →
      exec (.markReached p q) s = .next (setF (s.popCmd n k c.ord) Reg.CMD_QMARK_REACHED (bits (c.word 0) 15 0) n k))
    ∧ (s.unbegun n k 5 = some c → s.queueRuns n k = true → exec (.wait p q) s = .next ((s.markIssued n k c.ord).placeMarks n))
    ∧ ((if k = 0 then s.head0 n 5 else l.find? (fun c => decide (c.op = 5))) = some c → c.issued = true → s.cmdStopped n = false →
      (getF s Reg.CMD_QMARK_REACHED n (bits (c.word 0) 18 16) + 65536 - bits (c.word 0) 15 0) % 65536 < 32768 →
      exec (.waitSatisfied p q) s = .next (s.popCmd n k c.ord))

/-- Stitches (R197 to R199, R204, R217): a reservation that no condition of R198 refuses reserves every link direction of its path, with STATE 1,
the panel and the credits; one refused reserves nothing and gives cause 5 with the index of the condition; a release starts for a
stitch that the panel has reserved, and takes effect once nothing is in flight.
Where the rules leave a point open, the state named here is the model's choice: log entries 40 and 47. -/
def Obligations.StitchCommandsComplete : Prop :=
  (∀ (s : State) (p : PanelNo) (c : QCmd), s.head0 p.toNat 7 = some c → c.stOp ≠ 1 →
    exec (.stitchReserve p) s = .next (if s.stitchCause p.toNat c = 0
      then ((s.popCmd p.toNat 0 c.ord).reserveStitch p.toNat c).settleForced
      else (s.refuseCmd p.toNat 0 c 5 (s.stitchCause p.toNat c)).settleForced))
  ∧ (∀ (s : State) (p n : Nat) (c : QCmd) (hops : List (Nat × Nat)) (drops : List Nat) (last : Nat), s.stPath c = some (hops, drops, last) →
    c.stNum = n →
    let st : Stitch := { dlv := c.stDlv, credits := c.stCredits, srcKind := c.stSrcK, src := c.stSrc, dstKind := c.stDstK, dst := c.stDst,
                         rbase := c.stRbase, rlen := c.stRlen, hops := hops, points := drops ++ [hops.length], sent := 0, lastAdmit := none,
                         flight := [], returning := 0, releasing := false }
    s.reserveStitch p c = setF (setF (setF (hops.foldl (fun u h => u.modLink h.1 h.2 (fun l => { l with rsv := some n }))
      (s.setStitch n (some st))) Reg.NET_ST_STATUS_STATE 1 n) Reg.NET_ST_STATUS_PANEL p n) Reg.NET_ST_STATUS_CREDIT c.stCredits n)
  ∧ (∀ (s : State) (p : PanelNo) (c : QCmd) (st : Stitch), s.head0 p.toNat 7 = some c → c.stOp = 1 → c.issued = false → c.relFields = true →
    s.stitch c.stNum = some st → getF s Reg.NET_ST_STATUS_PANEL c.stNum = p.toNat →
    let u := (s.setStitch c.stNum (some { st with releasing := true })).markIssued p.toNat 0 c.ord
    exec (.stitchRelease p) s = .next (if getF u Reg.NET_ST_STATUS_STATE c.stNum = 1 then setF u Reg.NET_ST_STATUS_STATE 2 c.stNum else u))
  ∧ (∀ (s : State) (k : BitVec 10) (st : Stitch) (c : QCmd), s.stitch k.toNat = some st → st.releasing = true → st.flight = [] →
    s.panelFrozen (getF s Reg.NET_ST_STATUS_PANEL k.toNat) = false →
    let p := getF s Reg.NET_ST_STATUS_PANEL k.toNat
    let u := s.freeStitch k.toNat
    ((u.panel p).queue 0).head? = some c → c.op = 7 → c.stOp = 1 → c.stNum = k.toNat → c.issued = true →
    exec (.stitchReleaseEffect k) s = .next (u.popCmd p 0 c.ord))

/-! ### Movers -/

/-- A mover channel runs (R253, R260, R262 to R265): an idle channel takes its next descriptor; one that R260 refuses ends with status 2 and its
DERR cause, one that the charter refuses freezes the channel, one of no bytes ends complete, and any other begins to move; the engines read bursts
into the buffer and write what stands ready out of it, with BYTES_R and BYTES_W counted; a block that is written and acknowledged is announced, with
BLOCKS counted and the cursor moved, and the last block ends the descriptor complete.
Where the rules leave a point open, the state named here is the model's choice: log entries 44, 45, 70 and 80. -/
def Obligations.MoverRunsComplete : Prop :=
  (∀ (s : State) (k : Fin 9) (n : BitVec 6) (d : Desc) (r : List Desc), s.chanState k n.toNat = 0 → s.chanHeld k n.toNat = false →
    (s.chan k n.toNat).waiting = d :: r →
    let c := n.toNat
    let u := s.modChan k c (fun x => { x with waiting := r, cur := some d, done := 0, errSeen := false }.rewind)
    let u := setF (setF (setF u Reg.MOV_CH_STATUS_BLOCKS 0 k c) Reg.MOV_CH_STATUS_DERR 0 k c) Reg.MOV_CH_STATUS_ERR_SEEN 0 k c
    let v := u.setCursor k c d 0
    (u.derr k d ≠ 0 → exec (.descriptorStart k n) s = .next
      (((setF v Reg.MOV_CH_STATUS_DERR (u.derr k d) k c).logErr 4 (idMover k) (Reg.MOV_CH_STATUS_STATE.addr k c) (u.derr k d)).endDesc k c 2))
    ∧ (u.derr k d = 0 → d.total = 0 → exec (.descriptorStart k n) s = .next (v.endDesc k c 1))
    ∧ (u.derr k d = 0 → d.total ≠ 0 → exec (.descriptorStart k n) s = .next (if (v.descRefused k d).1 = 0
        then (v.setChanState k c 1).askHost k c else v.refuseDesc k c d (v.descRefused k d))))
  ∧ (∀ (s : State) (k : Fin 9) (n : BitVec 6) (d : Desc), (s.chan k n.toNat).cur = some d →
    let c := n.toNat
    let u := State.engines k c d 16384 (s.farData k c)
    let off := (u.chan k c).done
    let done := off + d.blockLen off
    u.chanGoes k c = true → u.blockHere k c d = true → (u.chan k c).far = false →
    let v := u.modChan k c (fun x => { x with done := done, far := false })
    let v := setF ((v.count (ctrChan k c + 2)).setCursor k c d done) Reg.MOV_CH_STATUS_BLOCKS (getF v Reg.MOV_CH_STATUS_BLOCKS k c + 1) k c
    exec (.blockAnnounce k n) s = .next (if (v.chan k c).done = d.total then v.endDesc k c 1 else v.askHost k c))
  ∧ (∀ (s : State) (k n : Nat) (d : Desc) (a len : Nat), s.accessBad k a len = false →
    let u := s.count (ctrChan k n) len
    let q := (u.hbmTaken (idMover k) (a % 2 ^ 39)).hbmRead (a % 2 ^ 39) len
    (spaceOf a = 0 → s.readBurst k n d a len = if q.2.2 then q.1.chanBusError k n a
      else q.1.modChan k n (fun c => { c with buf := c.buf ++ [⟨a, len, q.2.1, [], []⟩], rd := c.rd + len }))
    ∧ (spaceOf a = 3 → s.readBurst k n d a len = (hostBursts len a len).foldl (fun v b => v.emit .hostRead [n, b.1 % 2 ^ 57, b.2])
      (u.modChan k n (fun c => { c with buf := c.buf ++ [⟨a, len, [], [], []⟩], rd := c.rd + len }))))
  ∧ (∀ (s : State) (k n : Nat) (d : Desc) (a : Nat) (bs : List Byte),
    let out (v : State) : State := (v.count (ctrChan k n + 1) bs.length).modChan k n (fun c =>
      { c with wr := c.wr + bs.length, buf := (dropBytes c.buf (c.used + bs.length)).1, used := (dropBytes c.buf (c.used + bs.length)).2 })
    (spaceOf a = 0 → s.writeBurst k n d a bs = out (s.hbmWrite (a % 2 ^ 39) bs))
    ∧ (spaceOf a = 3 → s.writeBurst k n d a bs = out ((s.cachePage a).emit .hostWrite [a % 2 ^ 57] bs)))

/-- Errors of a mover channel (R267, R270, R383 to R386): a failed access stops the descriptor, which fails with status 3 once its bursts in flight
are complete; a page without translation stops it likewise, and then sends a page request or fails it with status 4; the response, or its absence,
is acted on; a completion brings bytes to the oldest read, and an error status or a timeout is a bus error of its first missing byte.
Where the rules leave a point open, the state named here is the model's choice: log entries 45 and 69. -/
def Obligations.MoverErrorsComplete : Prop :=
  (∀ (s : State) (k : Fin 9) (n : BitVec 6) (a : DWord), s.chanState k n.toNat = 1 →
    exec (.busError k n a) s = .next ((s.modChan k n.toNat (fun c => { c with errSeen := true })).stopDesc k n.toNat 3 a.toNat))
  ∧ (∀ (s : State) (k n st addr : Nat) (d : Desc), s.chanState k n = 1 →
    let v := s.modChan k n (fun c => { c with stop := c.stop.or (some (st, addr)) })
    (v.chan k n).cur = some d → (v.chan k n).stop = some (st, addr) → v.inFlight k n = false → v.blockHere k n d = false →
    s.stopDesc k n st addr = if st = 4 then v.needPage k n d addr else v.failDesc k n st addr)
  ∧ (∀ (s : State) (n : BitVec 6) (addr : DWord) (d : Desc), (s.chan 8 n.toNat).cur = some d → s.chanState 8 n.toNat = 1 → s.arrayFrozen = false →
    s.atsEn = true →
    let a := 3 * 2 ^ 60 + addr.toNat % 2 ^ 57
    (s.chan 8 n.toNat).needs d (a % 2 ^ 57 / 4096) = true →
    exec (.translationFault ⟨n, addr⟩) s = .next
      ((s.modChan 8 n.toNat (fun x => { x with buf := x.buf.filter (fun b => !b.onPage (a % 2 ^ 57 / 4096)) })).stopDesc 8 n.toNat 4 a))
  ∧ (∀ (s : State) (k n addr : Nat) (d : Desc),
    ((flag s Reg.MOV_HOST_CFG_PRI_EN && s.priEn && !s.priStopped) = true → s.needPage k n d addr =
      (((s.setCursor k n d (s.chan k n).done).modChan k n (fun c => { c.rewind with failAt := addr })).setChanState k n 4).emit .pageRequest
        [n, addr % 2 ^ 57 / 4096 * 4096])
    ∧ ((flag s Reg.MOV_HOST_CFG_PRI_EN && s.priEn && !s.priStopped) = false → s.needPage k n d addr = s.failDesc k n 4 addr))
  ∧ (∀ (s : State) (n : BitVec 6) (code : BitVec 4), s.chanState 8 n.toNat = 4 → s.chanHeld 8 n.toNat = false →
    exec (.pageResponse n code) s = .next ((if code = 15 then { s with priStopped := true } else s).pageRespond 8 n.toNat code.toNat)
    ∧ exec (.priTimeout n) s = .next (s.pageRespond 8 n.toNat 1))
  ∧ (∀ (s : State) (n : BitVec 6) (st : BitVec 3) (bytes : List Byte) (i : Nat) (b : Burst), (s.chan 8 n.toNat).hostWait = some (i, b) →
    let c := n.toNat
    let lost (u : State) : State :=
      ((u.modChan 8 c (fun x => { x with buf := x.buf.eraseIdx i })).chanBusError 8 c (b.addr + b.raw.length)).settleChan 8 c
    (s.pcieUp = true → exec (.hostCompletion n 0 bytes) s = .next (((s.cachePage (b.addr + b.raw.length)).modChan 8 c (fun x =>
      { x with buf := x.buf.modify i (fun b => { b with raw := b.raw ++ bytes.take (b.len - b.raw.length) }) })).settleChan 8 c))
    ∧ (s.pcieUp = true → st ≠ 0 → exec (.hostCompletion n st bytes) s = .next (lost s))
    ∧ exec (.completionTimeout n) s = .next (lost (s.aerUncorr aerTimeout)))

/-- Control of a mover channel by the host (R269, R271, R274): an abort begins with ABORT and STATE 3, and completes with the current and
the waiting descriptors ended aborted; a halted descriptor resumes from its cursor or is skipped with its recorded status; the write of the
last word of a post queues a descriptor of the words held.
Where the rules leave a point open, the state named here is the model's choice: log entry 69. -/
def Obligations.MoverControlCompletes : Prop :=
  ∀ (s : State) (k : Fin 9) (n : BitVec 6),
    let c := n.toNat
    (s.mayWrite Reg.MOV_CH_CTRL_ABORT k c = true → ((s.chan k c).cur.isSome || decide ((s.chan k c).waiting ≠ [])) = true →
      exec (.channelAbort k n) s = .next ((setF s Reg.MOV_CH_CTRL_ABORT 1 k c).setChanState k c 3))
    ∧ (∀ d, s.arrayFrozen = false → s.chanState k c = 3 → s.inFlight k c = false → (s.chan k c).cur = some d → s.blockHere k c d = false →
      let u := setF ((s.setCursor k c d (s.chan k c).done).endDesc k c 5) Reg.MOV_CH_STATUS_ERR_SEEN (bit (s.chan k c).errSeen) k c
      let u := (u.abortWaiting k c).modChan k c (fun x => { x with errSeen := false })
      exec (.abortComplete k n) s = .next ((setF u Reg.MOV_CH_CTRL_ABORT 0 k c).setChanState k c (if (s.chan k c).charter then 6 else 0)))
    ∧ (s.arrayFrozen = false → s.chanState k c = 3 → s.inFlight k c = false → (s.chan k c).cur = none →
      let u := setF (s.chanErr k c) Reg.MOV_CH_STATUS_ERR_SEEN (bit (s.chan k c).errSeen) k c
      let u := (u.abortWaiting k c).modChan k c (fun x => { x with errSeen := false })
      exec (.abortComplete k n) s = .next ((setF u Reg.MOV_CH_CTRL_ABORT 0 k c).setChanState k c (if (s.chan k c).charter then 6 else 0)))
    ∧ (s.mayWrite Reg.MOV_CH_CTRL_RETRY k c = true →
      exec (.channelRetry k n true) s = .next (s.discard (Reg.MOV_CH_CTRL_RETRY.addr k c) 6))
    ∧ (s.mayWrite Reg.MOV_CH_CTRL_RETRY k c = true → s.chanState k c = 2 → s.chanHeld k c = false →
      exec (.channelRetry k n false) s = .next (((s.modChan k c (fun x => { x with held := 0 })).setChanState k c 1).askHost k c))
    ∧ (s.mayWrite Reg.MOV_CH_CTRL_SKIP k c = true → s.chanState k c = 2 → s.chanHeld k c = false →
      exec (.channelSkip k n) s = .next (s.endDesc k c (s.chan k c).held))
    ∧ (∀ v : Word, s.mayWrite Reg.MOV_CH_POST_DESC k (16 * c + 15) = true → flag s Reg.MOV_CH_CFG_DIRECT k c = true →
      flag s Reg.MOV_CH_CFG_BOUND k c = false → (s.chan k c).waiting.length < 16 →
      exec (.directPost k n v) s = .next (s.modChan k c (fun x =>
        let post := SMap.set 0 x.post 15 v.toNat
        { x with post := post, waiting := x.waiting ++ [⟨(List.range 16).flatMap (fun i => leBytes 4 (SMap.get 0 post i)), 0, 0, 0, none⟩] })))

/-! ### Configuration of the fabric -/

/-- Patch commands and engine requests (R361, R362, R364): a `patch` that the charter grants waits for the engine; the engine takes its next request
when idle; a preload whose checks pass makes its buffer valid; a swap engages the seam, writes and reads back the patch's frames once it is
quiet, and releases it with the new load.
Where the rules leave a point open, the state named here is the model's choice: log entries 54 and 56. -/
def Obligations.PatchRequestsComplete : Prop :=
  (∀ (s : State) (p : PanelNo) (c : QCmd), s.head0 p.toNat 11 = some c → c.issued = false →
    let w := c.word 0
    s.patchRefusal p.toNat (bits w 1 0) (bits w 7 2) (c.num 8 8) (c.word 16) = none →
    let r : Res := .next (((s.markIssued p.toNat 0 c.ord).modPanel p.toNat (fun x => { x with engineWait := true })).ask
      ⟨bits w 1 0, bits w 7 2, bits w 8 8, c.num 8 8, c.word 16, some (p.toNat, c.ord)⟩)
    (bits w 1 0 = 0 → exec (.patchPreload p) s = r) ∧ (bits w 1 0 = 1 → exec (.patchSwap p) s = r)
    ∧ (bits w 1 0 = 2 → exec (.patchLoad p) s = r) ∧ (bits w 1 0 = 3 → exec (.patchScrub p) s = r))
  ∧ (∀ (s : State) (r : EngReq) (q : List EngReq), s.cfg.cur = none → s.cfg.queue = r :: q → s.arrayFrozen = false →
    let u := setF (s.modCfg (fun c => { c with cur := some r, queue := q, phase := 1 })) Reg.CFG_STATUS_BUSY 1
    (r.op = 0 ∨ r.op = 2 ∨ r.op = 5 → exec .engineRequestStart s = .next u)
    ∧ (r.op = 1 → exec .engineRequestStart s = .next (u.startSwap r))
    ∧ (r.op = 3 → exec .engineRequestStart s = .next ((u.scrubPatch r.patch).endRequestCfg r 0))
    ∧ (r.op = 4 → exec .engineRequestStart s = .next (setF (u.modCfg (fun c => { c with phase := 4 })) Reg.CFG_STATUS_STATE 1)))
  ∧ (∀ (s : State) (r : EngReq), s.cfg.cur = some r → s.cfg.phase = 1 → s.arrayFrozen = false →
    r.len ≤ 2 * 2 ^ 20 →
    (r.len ≠ 0 → s.hbmRefused (if r.op = 5 then idMgmt else idHost) r.addr (r.addr + r.len - 1) = false) → s.hbmBusy r.addr r.len = false →
    let q := s.hbmRead r.addr r.len
    let b := if r.op = 0 then r.buf else 0
    let v := (setF (setF q.1 Reg.CFG_STAGE_VALID 1 b) Reg.CFG_STAGE_PATCH r.patch b).modCfg
      (fun c => { c with stage := SMap.set [] c.stage b q.2.1, stageAddr := SMap.set 0 c.stageAddr b r.addr })
    (q.2.2 = true → exec .preloadComplete s = .next (q.1.preloadFailed r 8))
    ∧ (q.2.2 = false → exec .preloadComplete s = .next (match q.1.partialCheck r.patch r.len q.2.1 with
      | .error c => q.1.preloadFailed r c
      | .ok _ => if r.op = 0 then v.endRequestCfg r 0 else v.startSwap { r with buf := 0 })))
  ∧ (∀ (s : State) (r : EngReq), s.cfg.cur = some r → s.cfg.phase = 2 → s.arrayFrozen = false → s.patchQuiet r.patch = true →
    let l := SMap.get [] s.cfg.stage r.swapBuf
    exec (.swapWriteStart true) s = .next (match s.partialCheck r.patch l.length l with
      | .error c => ((setF s Reg.CFG_STAGE_VALID 0 r.swapBuf).lastCode r c).endRequestCfg r c
      | .ok e => (s.writeRegion r.patch e.2).modCfg (fun c => { c with phase := 3 }))
    ∧ exec (.swapWriteStart false) s = .next (match s.partialCheck r.patch l.length l with
      | .error c => ((setF s Reg.CFG_STAGE_VALID 0 r.swapBuf).lastCode r c).endRequestCfg r c
      | .ok e =>
        let u := (setF (s.writeRegion r.patch e.2) Reg.CFG_STAGE_VALID 0 r.swapBuf).lastCode r 10
        (if r.op = 5 then u else u.patchFault r.patch 3 10).endRequestCfg r 10))
  ∧ (∀ (s : State) (r : EngReq), s.cfg.cur = some r → s.cfg.phase = 3 → s.arrayFrozen = false →
    let b := r.swapBuf
    let a := SMap.get 0 s.cfg.stageAddr b
    let u := (s.newLoad r.patch (imSect (SMap.get [] s.cfg.stage b) 0).rclk).initRegion r.patch |>.release r.patch
    let u := setF (setF u Reg.CFG_STAGE_VALID 0 b) Reg.CFG_PATCH_STATUS_STATE 1 r.patch
    let u := setF (setF u Reg.CFG_REPAIR_ADDR_LO_ADDR a r.patch) Reg.CFG_REPAIR_ADDR_HI_ADDR (a / 2 ^ 32) r.patch
    exec .swapRelease s = .next ((setF u Reg.CFG_PATCH_STATUS_LAST_CODE 0 r.patch).endRequestCfg r 0))

/-- Full loads, repair and scrubbing (R358 to R360, R367 to R369): a full load is asked for, ends with the image in place, and leaves STATE, SOURCE,
LAST_CODE 0 and vector 28; a faulted patch is repaired from its address; the scrubber reads one frame and goes on with the next; its watchdog counts a
restart; the test port selects its image and delivers it word by word.
Where the rules leave a point open, the state named here is the model's choice: log entries 54, 56 and 77. -/
def Obligations.FabricLoadsComplete : Prop :=
  (∀ (s : State) (v : Word), s.mayWrite Reg.CFG_LOAD_CTRL_GO 0 0 = true → flag s Reg.CFG_LOAD_CTRL_GO = false → bits v.toNat 1 0 < 3 →
    exec (.fullLoad v) s = .next ((setF (setF s Reg.CFG_LOAD_CTRL_SRC (bits v.toNat 1 0)) Reg.CFG_LOAD_CTRL_GO 1).ask
      ⟨4, 1, bits v.toNat 1 0 + 1, getF s Reg.CFG_LOAD_ADDR_LO_VALUE + getF s Reg.CFG_LOAD_ADDR_HI_VALUE * 2 ^ 32,
       getF s Reg.CFG_LOAD_LEN_VALUE, none⟩))
  ∧ (∀ (s t : State) (r : EngReq) (l : List Byte), s.cfg.cur = some r → s.cfg.phase = 4 → s.arrayFrozen = false →
    (List.range 48).all s.patchQuiet = true → s.fullImage r = some (t, .ok l) →
    let done (u : State) (code state : Nat) : State :=
      let u := setF (setF (setF u Reg.CFG_STATUS_STATE state) Reg.CFG_STATUS_SOURCE (if state = 4 then 0 else r.buf)) Reg.CFG_STATUS_LAST_CODE code
      ((if r.patch = 1 then setF u Reg.CFG_LOAD_CTRL_GO 0 else u).resetAfterLoad.engineIdle.dropTap r).raise 28
    exec .fullLoadEnd s = .next (match t.fullCheck l with
      | .error c =>
        let u := (t.blankAll.allClocks).fullRecord r.buf c
        if r.buf = 3 then done u c 4
        else setF ((u.dropTap r).modCfg (fun x => { x with cur := some { r with buf := 3 } })) Reg.CFG_STATUS_LAST_CODE c
      | .ok w => done ((t.fullWritten l w).fullRecord r.buf 0) 0 (if r.buf = 3 then 3 else 2)))
  ∧ (∀ (s : State) (p : Nat), s.availability = true → s.firmware = true → (List.range 48).find? s.toRepair = some p →
    let a := getF s Reg.CFG_REPAIR_ADDR_LO_ADDR p + getF s Reg.CFG_REPAIR_ADDR_HI_ADDR p * 2 ^ 32
    exec .patchRepair s = .next (s.ask ⟨5, p, 0, a, imTotal (s.hbmBytes a 64), none⟩))
  ∧ (∀ (s : State) (r : Nat), getF s Reg.OBS_FRZ_STATUS_STATE ≠ 3 → s.shutdown = false → s.fullLoading = false →
    faRegion (getF s Reg.CFG_SCRUB_STATUS_FRAME) = some r →
    let f := getF s Reg.CFG_SCRUB_STATUS_FRAME
    let u := s.setFrame f ((s.frame f).upset [])
    flag u Reg.CFG_SCRUB_CFG_EN = true → u.engaged r = false →
    exec (.scrubFrameRead [] false false) s = .next (setF (u.scrubFrame f r) Reg.CFG_SCRUB_STATUS_FRAME ((f + 1) % 114688)))
  ∧ (∀ (s : State), s.firmware = true → exec .scrubberWatchdog s = .next (bumpF s Reg.CFG_SCRUB_STATUS_RESTARTS))
  ∧ (∀ (s : State), (s.cfg.queue ++ s.cfg.cur.toList).all (fun r => !decide (r.op = 4 ∧ r.buf = 4)) = true →
    exec .testPortCfgLoad s = .next ((({ s with tapIr := 0x2C } : State).modCfg (fun c => { c with tapBytes := [] })).ask ⟨4, 0, 4, 0, 0, none⟩))
  ∧ (∀ (s : State) (w : Word), s.tapIr = 0x2C →
    exec (.testPortImageWord w) s = .next (s.modCfg (fun c => { c with tapBytes := c.tapBytes ++ leBytes 4 w.toNat })))

/-! ### HBM -/

/-- HBM requests (R276 to R278, R281 to R284, R287, R288): a granted request within the capacity takes a tracker entry of the controller of its
place, a read with what stands there and a write with its bytes stored; a controller whose 64 entries are in use, or whose requests wait, takes
nothing, and a read that waits out of R283's bound is LATE; a request is counted, and a command that meets no parity error does nothing else; a read's
data leave with the ECC outcome counted, poisoned where the replay, its command or a word of it failed; a committed write frees its entry; a refresh
changes nothing; the host enables the map.
Where the rules leave a point open, the state named here is the model's choice: log entries 7 and 51. -/
def Obligations.HbmRequestsComplete : Prop :=
  (∀ (s : State) (r : HbmReq), s.hbmRuns = true →
    let i := r.master.toNat
    let a := r.addr.toNat / 64 * 64
    let g := (s.hbmPlace a).1
    let c := sectCtl g
    s.hbmGranted i r.write a (a + 63) = true → s.hbmRefused i a (a + 63) = false →
    (s.hbmWaits c = false → (s.trk c).length < 64 →
      (r.write = false →
        let q := (s.hbmTaken i a).hbmRequest a 0
        exec (.hbmRequestAccept r) s = .next (q.1.setTrk c (q.1.trk c ++ [⟨i, false, a, g, q.1.hbmBytes a 64, false, q.2⟩])))
      ∧ (r.write = true →
          let u := (s.hbmRequest a 1).1.hbmStore a (r.data.take 64)
          exec (.hbmRequestAccept r) s = .next (u.setTrk c (u.trk c ++ [⟨i, true, a, g, [], false, false⟩]))))
    ∧ (s.hbmWaits c = true ∨ 64 ≤ (s.trk c).length →
      exec (.hbmRequestAccept r) s = .next (if r.write then s else s.hbmLate i a 64)))
  ∧ (∀ (s : State) (a k : Nat), let c := sectCtl (s.hbmPlace a).1
    SMap.get 0 s.hbm.caErr c = 0 → s.hbmRequest a k = (s.count (ctrHbm c + k), false))
  ∧ (∀ (s : State) (c : Byte) (n : BitVec 6) (e : Trk), (s.trk c.toNat)[n.toNat]? = some e → e.write = false → s.hbmRuns = true →
    let t := s.setTrk c.toNat ((s.trk c.toNat).eraseIdx n.toNat)
    let q := t.hbmWords e.addr 64
    let u (p : Bool) : State := q.1.hbmAnswer { e with data := if s.hbm.err = [] then e.data else q.1.hbmBytes e.addr 64 } (p || q.2 || e.bad)
    let v := (u false).hbmUncorr c.toNat
    (s.hbm.err = [] → q = (t, false))
    ∧ exec (.hbmReadData c n 0) s = .next (u false)
    ∧ exec (.hbmReadData c n 1) s = .next (bumpF (u false) Reg.HBM_CH_ERR_CORR 1 (c.toNat / 32) (c.toNat % 32))
    ∧ exec (.hbmReadData c n 2) s = .next { v with hbm := { v.hbm with events := SMap.mod 0 v.hbm.events e.sect (· + 1) } }
    ∧ exec (.hbmReadData c n 3) s = .next (((u true).hbmUncorr c.toNat).sectDue [e.sect]))
  ∧ (∀ (s : State) (c : Byte) (n : BitVec 6) (e : Trk), (s.trk c.toNat)[n.toNat]? = some e → e.write = true → s.hbmRuns = true →
    exec (.hbmWriteCommit c n) s = .next (s.setTrk c.toNat ((s.trk c.toNat).eraseIdx n.toNat)))
  ∧ (∀ s : State, exec .hbmRefresh s = .next s)
  ∧ (∀ (s : State) (en : Bool), s.mayWrite Reg.HBM_MAP_CTRL_EN 0 0 = true → exec (.mapEnable en) s = .next (setF s Reg.HBM_MAP_CTRL_EN (bit en)))

/-- Retirement of HBM sections (R289 to R292): sections over the event limit become due; the lowest due section, or the whole channel, is
refused while the map rebuilds, unless more than 512 would be retired: a retraining of its channel is abandoned, accepted reads become LATE, and the
units that a memory-port write still owes it are refused; the rebuild ends with a record for each and vector 26.
Where the rules leave a point open, the state named here is the model's choice: log entries 7 and 77. -/
def Obligations.HbmRetirementCompletes : Prop :=
  (∀ (s : State) (c : Byte) (m : Nat), getF s Reg.HBM_CH_LIMIT_WINDOW ≠ 0 → s.hbmRuns = true →
    ¬ (bitAt m 8 = true ∧ getF s Reg.HBM_CH_LIMIT_COUNT < SMap.get 0 s.hbm.parity c.toNat) →
    exec (.hbmEventLimitExceeded c m) s = .next (s.sectDue (((List.range 8).filter (bitAt m)).filterMap (fun k =>
      ((ctlSects c.toNat)[k]?).filter (fun g => decide (getF s Reg.HBM_CH_LIMIT_COUNT < SMap.get 0 s.hbm.events g))))))
  ∧ (∀ (s : State), s.hbmRuns = true → s.hbm.retiring = [] → s.hbm.due ≠ [] →
    let g := s.hbm.due.foldl min (s.hbm.due.headD 0)
    let l := if (ctlSects (sectCtl g)).all s.hbm.due.contains then ctlSects (sectCtl g) else [g]
    (s.retiredSects.length + l.length ≤ 512 →
      let u := if s.hbm.retraining.any (fun r => l.any (fun h => sectCtl h = r.1)) then s.abandonRetrain else s
      let v := setF { u with hbm := { u.hbm with retiring := l, due := u.hbm.due.filter (fun h => !l.contains h) } } Reg.HBM_MAP_CTRL_BUSY 1
      exec .sectionRetirement s = .next ((v.hbm.trk.foldl (fun (x : State) e => x.trkLate e.1) v).refuseWrites l))
    ∧ (512 < s.retiredSects.length + l.length → exec .sectionRetirement s = .next s.hbmOut))
  ∧ (∀ (s : State), s.hbm.retiring ≠ [] → s.hbmRuns = true →
    let u := ({ s with hbm := { s.hbm with retiring := [] } } : State).rebuildMap s.hbm.retiring
    exec .mapRebuildComplete s = .next ((s.hbm.retiring.foldl (fun v g =>
      v.report 6 (unitNo blkHBM g) (leBytes 2 g ++ leBytes 2 v.hbmT)) (setF u Reg.HBM_MAP_CTRL_BUSY 0)).raise 26))

/-- Training of HBM by firmware and by the expert aids (R286, R295): firmware retrains the next channel in turn; control of a channel begins with
its accepted requests complete and STATE 5; a run sets GO, clears DONE and ends with DONE and the errors counted.
Where the rules leave a point open, the state named here is the model's choice: log entries 15 and 51. -/
def Obligations.HbmTrainingCompletes : Prop :=
  (∀ (s : State), s.availability = true → s.firmware = true → s.hbmRuns = true → s.hbm.retiring = [] → s.hbm.retraining = none →
    let c := 32 * (s.hbm.nextRetrain % 8) + s.hbm.nextRetrain / 8
    let u : State := { s with hbm := { s.hbm with nextRetrain := (s.hbm.nextRetrain + 1) % 256 } }
    (s.chF Reg.HBM_CH_STATUS_STATE c = 1 ∨ s.chF Reg.HBM_CH_STATUS_STATE c = 4) → exec .backgroundRetrain s =
      .next ((setF { u with hbm := { u.hbm with retraining := some (c, false) } } Reg.HBM_CH_STATUS_STATE 2 (c / 32) (c % 32)).trkLate c))
  ∧ (∀ (s : State) (k : BitVec 3) (v : Word), s.mayWrite Reg.HBM_TRN_CTRL_OWN k.toNat 0 = true → flag s Reg.HBM_TRN_CTRL_OWN k.toNat = false →
    bitAt v.toNat 6 = true → bits v.toNat 11 10 ≠ 0 →
    let u := setF (setF s Reg.HBM_TRN_CTRL_CH (bits v.toNat 4 0) k.toNat) Reg.HBM_TRN_CTRL_PC (bits v.toNat 5 5) k.toNat
    let u := setF (setF u Reg.HBM_TRN_CTRL_OP (bits v.toNat 8 7) k.toNat) Reg.HBM_TRN_CTRL_RATE (bits v.toNat 11 10) k.toNat
    let c := u.trnChan k.toNat
    exec (.trainingOwn k v) s = .next (setF (setF (u.drainCtl c) Reg.HBM_CH_STATUS_STATE 5 (c / 32) (c % 32)) Reg.HBM_TRN_CTRL_OWN 1 k.toNat))
  ∧ (∀ (s : State) (k : BitVec 3), s.mayWrite Reg.HBM_TRN_CTRL_GO k.toNat 0 = true → flag s Reg.HBM_TRN_CTRL_OWN k.toNat = true →
    flag s Reg.HBM_TRN_CTRL_GO k.toNat = false →
    let w (op : Nat) : State :=
      let u := setF (setF (setF s Reg.HBM_TRN_CTRL_OP op k.toNat) Reg.HBM_TRN_CTRL_GO 1 k.toNat) Reg.HBM_TRN_RESULT_DONE 0 k.toNat
      { u with hbm := { u.hbm with rate := SMap.set 0 u.hbm.rate k.toNat (getF u Reg.HBM_TRN_CTRL_RATE k.toNat) } }
    exec (.trainingWriteCompare k) s = .next ((w 0).hbmLose (fun n => ((w 0).trnSects k.toNat).contains (n / 4096 / 49152)))
    ∧ exec (.trainingReadCompare k) s = .next (w 1) ∧ exec (.trainingCaLoopback k) s = .next (w 2))
  ∧ (∀ (s : State) (k : BitVec 3) (n : Nat), flag s Reg.HBM_TRN_CTRL_GO k.toNat = true → s.hbmRuns = true →
    exec (.trainingRunDone k n) s = .next (setF (setF (setF s Reg.HBM_TRN_CTRL_GO 0 k.toNat) Reg.HBM_TRN_RESULT_DONE 1 k.toNat)
      Reg.HBM_TRN_RESULT_ERRS (min n 0xFFFFFF) k.toNat))

/-! ### Lanes -/

/-- Bring-up of a link (R302, R310, R311, R317): the host asks for it or takes the link down; each step of a lane goes on to the next, and the last
one decides on the parameters; a lane that times out leaves the bring-up; LANE and the partner's lock are read from training blocks, and
rounds of eight words from parameter blocks, each answered with a round of this device's own.
Where the rules leave a point open, the state named here is the model's choice: log entries 15, 52 and 84. -/
def Obligations.LaneBringUpCompletes : Prop :=
  (∀ (s : State) (d : BitVec 2), s.mayWrite Reg.LAN_LINK_CFG_UP d.toNat 0 = true → s.proto d.toNat ≠ 0 →
    ((s.lnkState d.toNat = 0 ∨ s.lnkState d.toNat = 4) → exec (.linkUpRequest d) s = .next (s.startBringUp d.toNat LaneLink.init))
    ∧ (s.proto d.toNat = 2 → s.lnkUp d.toNat = true → exec (.linkUpRequest d) s = .next (s.etherAgain d.toNat)))
  ∧ (∀ (s : State) (d : BitVec 2), s.mayWrite Reg.LAN_LINK_CFG_DOWN d.toNat 0 = true → s.proto d.toNat ≠ 0 → s.lnkState d.toNat ≠ 0 →
    exec (.linkDownRequest d) s = .next (s.lnkOff d.toNat 0 8))
  ∧ (∀ (s : State) (l : BitVec 5) (inv : Bool) (k : BitVec 6), s.lanesRun = true → s.laneState l.toNat = 1 → s.lnkState (l.toNat / 8) = 1 →
    (s.proto (l.toNat / 8) = 2 → exec (.bringUpStepComplete l inv k) s = .next (s.etherTrained l.toNat inv))
    ∧ (s.proto (l.toNat / 8) ≠ 2 → s.laneStep l.toNat = 0 → exec (.bringUpStepComplete l inv k) s = .next (s.setStep l.toNat 1))
    ∧ (s.proto (l.toNat / 8) ≠ 2 → s.laneStep l.toNat = 1 →
        exec (.bringUpStepComplete l inv k) s = .next (setF (s.setStep l.toNat 2) Reg.LAN_LANE_STATUS_INV (bit inv) l.toNat))
    ∧ (s.proto (l.toNat / 8) ≠ 2 → s.laneStep l.toNat = 3 →
        let u := s.setStep l.toNat 4
        exec (.bringUpStepComplete l inv k) s = .next
          ((if u.trainLocked (l.toNat / 8) then u.sendTrain (l.toNat / 8) else u).trySwitch (l.toNat / 8)))
    ∧ (s.proto (l.toNat / 8) ≠ 2 → 5 ≤ s.laneStep l.toNat → exec (.bringUpStepComplete l inv k) s = .next (s.paramExchange (l.toNat / 8))))
  ∧ (∀ (s : State) (l : BitVec 5), s.lanesRun = true → s.laneState l.toNat = 1 → s.lnkState (l.toNat / 8) = 1 →
    let d := l.toNat / 8
    (s.proto d = 2 → exec (.bringUpStepTimeout l) s = .next (s.etherFailed l.toNat))
    ∧ (s.proto d ≠ 2 → 5 ≤ s.laneStep l.toNat → exec (.bringUpStepTimeout l) s = .next (s.lnkOff d 4 1))
    ∧ (s.proto d ≠ 2 → 1 ≤ s.laneStep l.toNat → s.laneStep l.toNat < 5 →
        let u := s.setLaneState l.toNat 0
        exec (.bringUpStepTimeout l) s = .next (if u.training d = [] then u.lnkOff d 4 1 else u.trySwitch d)))
  ∧ (∀ (s : State) (l : BitVec 5) (n : BitVec 3) (sw : Bool) (k : BitVec 4), s.lanesRun = true → s.laneState l.toNat = 1 → 2 ≤ s.laneStep l.toNat →
    let u := s.modLane l.toNat (fun x =>
      if 0 < x.agree ∧ x.read = n.toNat then { x with agree := min 4 (x.agree + 1) } else { x with read := n.toNat, agree := 1 })
    exec (.trainBlock l n false sw k) s = .next u
    ∧ exec (.trainBlock l n true sw k) s = .next ((u.modLnk (l.toNat / 8) (fun x => { x with partnerLocked := true })).trySwitch (l.toNat / 8)))
  ∧ (∀ (s : State) (d : BitVec 2) (i : BitVec 3) (v : Word), s.lanesRun = true → s.lnkState d.toNat = 1 →
    (s.training d.toNat).any (fun l => decide (5 ≤ s.laneStep l)) = true → i.toNat = (s.lnk d.toNat).words.length →
    (i.toNat < 7 → exec (.paramBlock d i v) s = .next (s.modLnk d.toNat (fun x => { x with words := x.words ++ [v.toNat] })))
    ∧ (i.toNat = 7 → exec (.paramBlock d i v) s = .next ((s.modLnk d.toNat (fun x =>
        let w := x.words ++ [v.toNat]
        { x with words := [], round := w, rounds := if w = x.round then min 8 (x.rounds + 1) else 1 })).sendParams d.toNat)))

/-- Traffic on a link (R299 to R301, R303 to R308, R316): a received codeword is decoded: a corrected one is counted, an uncorrectable one is counted as
a lane event besides, and each takes its lane's place in the round of its CWSEQ; a class 0 flit joins its message; a flit in sequence is accepted with the
next SEQ expected, and one out of sequence or of a wrong CRC asks for a replay; an acknowledgement frees the retry buffer and returns credits; one that is due
is sent; a replay sends the flits from FROM again; the oldest message that has arrived and need not wait leaves its link: a bridge's for the fabric, one
for another device by the link of its way, one for this device into the mesh.
Where the rules leave a point open, the state named here is the model's choice: log entries 28, 52, 82 and 83. -/
def Obligations.LaneTrafficCompletes : Prop :=
  (∀ (s : State) (l : BitVec 5) (b : BitVec 5082) (a : Half) (w : BitVec 42) (p : BitVec 300), s.carries (l.toNat / 8) = true → s.laneState l.toNat = 2 →
    let d := l.toNat / 8
    let seq (u : State) (q : Nat) : State := u.modLane l.toNat (fun y => { y with rxSeq := q })
    exec (.codeword l b a w p) s = .next (match decodeCodeword (codewordBits b a w p) with
      | some (o, t) =>
        let u := if o = 0 then s else bumpF s Reg.LAN_LANE_ERR_CORR 1 l.toNat
        let q := trailerSeq t
        ((seq u q).modLnk d (fun x => { x with cwseq := q })).codewordRound d (u.logical l.toNat) q (some t)
      | none =>
        let u := (bumpF s Reg.LAN_LANE_ERR_UNCORR 1 l.toNat).laneEvent l.toNat
        let q := ((u.laneSt l.toNat).rxSeq + 1) % 65536
        let u := (seq u q).codewordRound d (u.logical l.toNat) q none
        let x := u.lnk d
        if x.waitReplay ∧ l.toNat ∈ x.replayLanes then u.retireLane l.toNat
        else u.setLnk d { x with lostLanes := if l.toNat ∈ x.lostLanes then x.lostLanes else x.lostLanes ++ [l.toNat] }))
  ∧ (∀ (s : State) (d : BitVec 2) (v : BitVec 48) (ctl : DWord) (data : BitVec 512) (crc : Half), s.carries d.toNat = true →
    s.proto d.toNat = 1 → bits v.toNat 9 8 = 0 → exec (.flit d v ctl data crc) s = .next ((s.count (ctrLink d.toNat + 1)).flit0 d.toNat
      (bits v.toNat 14 12) (bitAt v.toNat 11) (bits v.toNat 7 0 = 0x1E && crc16 (flitBits v.toNat ctl data) = crc) ctl data))
  ∧ (∀ (s : State) (d : BitVec 2) (v : BitVec 48) (ctl : DWord) (data : BitVec 512) (crc : Half), s.carries d.toNat = true →
    (s.proto d.toNat ≠ 1 ∨ bits v.toNat 9 8 ≠ 0) →
    let u := s.count (ctrLink d.toNat + 1)
    let good := bits v.toNat 7 0 = 0x1E ∧ crc16 (flitBits v.toNat ctl data) = crc
    (good → bits v.toNat 27 16 = (s.lnk d.toNat).expect → exec (.flit d v ctl data crc) s = .next
      (u.flitIn d.toNat (bits v.toNat 9 8) (bits v.toNat 10 10) (bits v.toNat 14 12) (bitAt v.toNat 11) ctl data))
    ∧ (¬ (good ∧ bits v.toNat 27 16 = (s.lnk d.toNat).expect) → (s.lnk d.toNat).waitReplay = false →
      exec (.flit d v ctl data crc) s = .next (u.sendReplay d.toNat)))
  ∧ (∀ (s : State) (d : BitVec 2) (a : BitVec 12) (c1 c2 c3 : Byte) (i : Nat), s.carries d.toNat = true →
    let x := s.lnk d.toNat
    x.retry.findIdx? (fun f => decide (f.seq = a.toNat)) = some i →
    let give (m : SMap Nat) (c k : Nat) : SMap Nat := SMap.set 256 m c (min 256 (SMap.get 256 m c + k))
    exec (.ack d a c1 c2 c3) s = .next ((s.setLnk d.toNat { x with
      retry := x.retry.drop (i + 1)
      credit := give (give (give x.credit 1 c1.toNat) 2 c2.toNat) 3 c3.toNat }).pump d.toNat))
  ∧ (∀ (s : State) (d : BitVec 2), s.carries d.toNat = true → ((s.lnk d.toNat).ackDue = true ∨ (s.lnk d.toNat).freed ≠ []) →
    let x := s.lnk d.toNat
    let c (k : Nat) : Nat := min 255 (SMap.get 0 x.freed k)
    exec (.ackDue d) s = .next ((s.setLnk d.toNat { x with
      ackDue := false
      freed := [1, 2, 3].foldl (fun m k => SMap.set 0 m k (SMap.get 0 m k - c k)) x.freed }).sendCtl d.toNat
        [0x2D, (x.expect + 4095) % 4096, c 1, c 2, c 3]))
  ∧ (∀ (s : State) (d : BitVec 2) (f : BitVec 12) (i : Nat), s.carries d.toNat = true →
    let u := bumpF s Reg.LAN_LINK_CNT_REPLAY 1 d.toNat
    let x := s.lnk d.toNat
    (x.replays = 0 ∨ x.lastFrom ≠ f.toNat) → x.retry.findIdx? (fun e => decide (e.seq = f.toNat)) = some i →
    exec (.replay d f) s = .next ((x.retry.drop i).foldl (fun u e =>
      (u.count (ctrLink d.toNat + 3)).sendFlit d.toNat e.of.cls e.of.vc e.of.port e.seq e.tail e.of.msg)
      (u.setLnk d.toNat { x with lastFrom := f.toNat, replays := 1 })))
  ∧ (∀ (s : State) (d : BitVec 2) (m : LMsg), (s.lnk d.toNat).arrived.find? (fun m => !s.arrivalWaits d.toNat m) = some m →
    s.lanesRun = true →
    (s.proto d.toNat = 3 → exec (.laneMessageArrival d) s = .next
      ((s.takeArrived d.toNat m).emit .bridge [d.toNat, m.msg.hdr.toNat] (leBytes 128 m.msg.data.toNat)))
    ∧ (s.proto d.toNat ≠ 3 → m.msg.h.ddev ≠ s.devId →
      let u := s.takeArrived d.toNat m
      (∀ e, u.suitLink m.msg.h.ddev = .inl e →
        exec (.laneMessageArrival d) s = .next (u.laneSend e m.port (u.vcOn e (some (d.toNat, m.vc))) m.msg none))
      ∧ (∀ e, u.suitLink m.msg.h.ddev = .inr e → exec (.laneMessageArrival d) s = .next (u.countDrop e)))
    ∧ (s.proto d.toNat ≠ 3 → m.msg.h.ddev = s.devId →
      s.portUp (8 * d.toNat + m.port) = true → s.laneAdmits (laneRouter (8 * d.toNat + m.port)) m.msg.h = true →
      exec (.laneMessageArrival d) s = .next ((s.takeArrived d.toNat m).launchMsg (.lane d.toNat) (laneRouter (8 * d.toNat + m.port)) m.msg)))

/-- Changes of a link's lanes, its partner's freeze, bitslip, limits and loops (R305, R312, R313, R316, R318, R320).
Where the rules leave a point open, the state named here is the model's choice: log entries 52 and 84. -/
def Obligations.LaneMaintenanceCompletes : Prop :=
  (∀ (s : State) (d : BitVec 2) (m : Byte) (cw : Half), s.carries d.toNat = true →
    exec (.lane d m cw) s = .next (s.modLnk d.toNat (fun x => { x with
      nextMask := some (m.toNat &&& s.laneMask d.toNat (fun v => decide (v = 2)), cw.toNat) })))
  ∧ (∀ (s : State) (d : BitVec 2) (m cw : Nat), s.carries d.toNat = true → (s.lnk d.toNat).nextMask = some (m, cw) →
    exec (.laneMaskApply d) s = .next ((s.modLnk d.toNat (fun x => { x with nextMask := none, cwseq := cw })).applyMask d.toNat m))
  ∧ (∀ (s : State) (d : BitVec 2), s.carries d.toNat = true → exec (.freezeBlock d) s = .next (s.setLnkState d.toNat 5))
  ∧ (∀ (s : State) (d : BitVec 2), s.lanesRun = true → s.lnkState d.toNat = 5 →
    exec (.linkRetrainAfterPartnerReset d) s = .next ((s.breakOnLink d.toNat).startBringUp d.toNat { LaneLink.init with
      queue := (((s.lnk d.toNat).retry.filter (fun f => !f.tail)).map (·.of)) ++ (s.lnk d.toNat).queue }))
  ∧ (∀ (s : State) (l : BitVec 5) (f : Bool) (o : BitVec 6), s.carries (l.toNat / 8) = true → s.laneState l.toNat = 2 →
    exec (.blockLockLoss l f o) s = .next (((setF (setF ((s.setLaneState l.toNat 3).laneEvent l.toNat) Reg.LAN_LANE_STATUS_FOUND (bit f) l.toNat)
      Reg.LAN_LANE_STATUS_SLIP_OFS (if f then o.toNat else 0) l.toNat).modLane l.toNat
        (fun x => { x with ofs := if f then some o.toNat else none })).removeLane l.toNat))
  ∧ (∀ (s : State) (l : BitVec 5) (c : BitVec 6), s.mayWrite Reg.LAN_BITSLIP_GO 0 0 = true → flag s Reg.LAN_BITSLIP_GO = false →
    let w (op n : Nat) : State := setF (setF (setF s Reg.LAN_BITSLIP_LANE l.toNat) Reg.LAN_BITSLIP_OP op) Reg.LAN_BITSLIP_COUNT n
    ((w 0 c.toNat).laneState l.toNat = 3 ∨ (w 0 c.toNat).laneState l.toNat = 5 →
      exec (.bitslipSlip l c) s = .next ((setF (setF (w 0 c.toNat) Reg.LAN_BITSLIP_GO 1) Reg.LAN_BITSLIP_RESULT 0).modLane l.toNat
        (fun x => { x with ofs := x.ofs.map (fun o => (o + 64 - c.toNat) % 64) })))
    ∧ ((w 1 (getF s Reg.LAN_BITSLIP_COUNT)).laneState l.toNat = 3 ∨ (w 1 (getF s Reg.LAN_BITSLIP_COUNT)).laneState l.toNat = 5 →
      exec (.bitslipRetrain l) s = .next ((((setF (setF (w 1 (getF s Reg.LAN_BITSLIP_COUNT)) Reg.LAN_BITSLIP_GO 1)
        Reg.LAN_BITSLIP_RESULT 0).setLaneState l.toNat 1).setStep l.toNat 0).modLane l.toNat (fun x => { x with read := 0, agree := 0 }))))
  ∧ (∀ (s : State) (l : BitVec 5), s.lanesRun = true → flag s Reg.LAN_BITSLIP_GO = true → getF s Reg.LAN_BITSLIP_LANE = l.toNat →
    ((flag s Reg.LAN_BITSLIP_OP = true ∧ s.laneState l.toNat = 1 ∧ 5 ≤ s.laneStep l.toNat ∧ getF s Reg.LAN_LOOP_MODE l.toNat = 0)
      ∨ (flag s Reg.LAN_BITSLIP_OP = false ∧ s.laneState l.toNat = 3 ∧ (s.laneSt l.toNat).looped = false ∧ (s.laneSt l.toNat).ofs.getD 0 = 0)) →
    exec (.laneRejoin l) s = .next ((s.joinLane l.toNat).bitslipEnd 1))
  ∧ (∀ (s : State), s.lanesRun = true → flag s Reg.LAN_BITSLIP_GO = true → s.laneState (getF s Reg.LAN_BITSLIP_LANE) ≠ 1 →
    exec .bitslipTimeout s = .next (s.bitslipEnd 2))
  ∧ (∀ (s : State) (l : BitVec 5), s.lanesRun = true → getF s Reg.LAN_LANE_LIMIT_WINDOW ≠ 0 →
    getF s Reg.LAN_LANE_LIMIT_COUNT < (s.laneSt l.toNat).events →
    exec (.laneEventLimitExceeded l) s = .next ((s.modLane l.toNat (fun x => { x with events := 0 })).retireLane l.toNat))
  ∧ (∀ (s : State) (l : BitVec 5) (m : BitVec 2), s.mayWrite Reg.LAN_LOOP_MODE l.toNat 0 = true → m ≠ 0 → s.laneState l.toNat = 2 →
    exec (.loopModeWrite l m) s = .next ((((setF s Reg.LAN_LOOP_MODE m.toNat l.toNat).setLaneState l.toNat 5).modLane l.toNat
      (fun x => { x with looped := true })).removeLane l.toNat))
  ∧ (∀ (s : State) (l : BitVec 5), s.mayWrite Reg.LAN_LOOP_GO l.toNat 0 = true → getF s Reg.LAN_LOOP_MODE l.toNat ≠ 0 →
    flag s Reg.LAN_LOOP_GO l.toNat = false →
    exec (.loopRun l) s = .next (setF (setF s Reg.LAN_LOOP_GO 1 l.toNat) Reg.LAN_LOOP_RES_DONE 0 l.toNat))
  ∧ (∀ (s : State) (l : BitVec 5) (n : Nat), s.lanesRun = true → flag s Reg.LAN_LOOP_GO l.toNat = true →
    exec (.loopRunDone l n) s = .next (setF (setF (setF s Reg.LAN_LOOP_GO 0 l.toNat) Reg.LAN_LOOP_RES_DONE 1 l.toNat)
      Reg.LAN_LOOP_RES_ERRS (min n 0xFFFFFF) l.toNat))

/-! ### Ports of the logic fabric -/

/-- MAC client and bridge ports (R343, R344): a frame of legal length joins what the MAC has stored, of which two fill its buffer, and leaves with its
FCS while the link is up; one that arrives is checked, counted where its FCS or length is wrong, stored while it fits in 64 KiB, and presented while
the fabric shows READY; a bridge message joins the link's queue as class 1.
Where the rules leave a point open, the state named here is the model's choice: log entries 17, 18 and 53. -/
def Obligations.MacAndBridgeComplete : Prop :=
  (∀ (s : State) (k : BitVec 3) (bs : List Byte), s.fabricStopped = false → (SMap.get [] s.macTx k.toNat).length < 2 →
    (64 ≤ bs.length + 4 ∧ bs.length + 4 ≤ 9216 →
      let l := SMap.get [] s.macTx k.toNat ++ [bs]
      exec (.macTransmitFrame k bs false) s = .next (({ s with macTx := SMap.set [] s.macTx k.toNat l } : State).macSend k.toNat))
    ∧ (¬ (64 ≤ bs.length + 4 ∧ bs.length + 4 ≤ 9216) → exec (.macTransmitFrame k bs false) s = .next (bumpF s Reg.FAB_MAC_CNT_ERR 1 k.toNat)))
  ∧ (∀ (s : State) (k : Nat), s.macUp k = true → s.macSend k = (SMap.get [] s.macTx k).foldl
    (fun (u : State) l => u.emit .ethFrame [0, k] (l ++ leBytes 4 (fcs l).toNat)) { s with macTx := SMap.set [] s.macTx k [] })
  ∧ (∀ (s : State) (k : BitVec 3) (l : List Byte) (ready : Bool), s.macUp k.toNat = true → getF s Reg.OBS_FRZ_STATUS_STATE ≠ 3 →
    let b := l.take (l.length - 4)
    let badFcs := decide (l.drop (l.length - 4) ≠ leBytes 4 (fcs b).toNat)
    let badLen := !decide (64 ≤ l.length ∧ l.length ≤ 9216)
    let held := (s.macQueue k.toNat).foldl (fun a x => a + x.2.2.length) 0
    let t : State := { s with macTake := SMap.set false s.macTake k.toNat ready }
    let u := if badFcs || badLen then bumpF t Reg.FAB_MAC_CNT_ERR 1 k.toNat else t
    (held + b.length ≤ 65536 → exec (.macReceiveFrame k l ready) s =
      .next ((u.setMacQueue k.toNat (s.macQueue k.toNat ++ [(badFcs, badLen, b)])).macDeliver k.toNat))
    ∧ (65536 < held + b.length → exec (.macReceiveFrame k l ready) s = .next ((bumpF t Reg.FAB_MAC_CNT_RX_DROP 1 k.toNat).macDeliver k.toNat)))
  ∧ (∀ (s : State) (d : BitVec 2) (ctl : DWord) (data : Line), s.fabricStopped = false → s.proto d.toNat = 3 → s.lnkUp d.toNat = true →
    exec (.bridgeTransmit d ctl data) s = .next ((s.drawn.modLnk d.toNat (fun x => { x with
      queue := x.queue ++ [⟨1, 0, 0, ⟨ctl, data, Config.bridgeTail s.draws⟩, none⟩] })).pump d.toNat))

/-- Hem ports (R332 to R337, R362): a head beat that the port takes, of a route it accepts and a delivery the charter grants, is held; its tail beat
stores the message, which leaves as soon as it can; a class 0 head waits while its stitch has no credit, and takes one; the class whose turn it is is
presented in two beats; a head without its tail is discarded while a swap waits; EN is written, and at 0 what the port holds to send is discarded and
counted.
Where the rules leave a point open, the state named here is the model's choice: log entries 53 and 85. -/
def Obligations.HemPortsComplete : Prop :=
  (∀ (s : State) (h : Byte) (c : BitVec 2) (r t : Word) (d : BitVec 512), h.toNat < 192 → s.fabricStopped = false →
    s.frozenMaster (idHem h.toNat) = false → s.engaged (hemPatch h.toNat) = false → s.tileFrozen (hemRouter h.toNat) = false →
    s.hemAttached h.toNat = true → s.fuseFault = false → s.hemRight h.toNat 0 = true → (s.hem h.toNat).head = none → c ≠ 0 →
    s.hemFull h.toNat c.toNat = false → s.hemRouteOk h.toNat c.toNat r.toNat = true →
    s.hemRight h.toNat (1 + bits r.toNat 18 17) = true →
    exec (.hemTransmit h true c r t d) s = .next (s.modHem h.toNat (fun x => { x with head := some ⟨c.toNat, r.toNat, t.toNat, d, true, true⟩ })))
  ∧ (∀ (s : State) (h : Byte) (r t : Word) (d : BitVec 512) (st : Stitch), h.toNat < 192 → s.fabricStopped = false →
    s.frozenMaster (idHem h.toNat) = false → s.engaged (hemPatch h.toNat) = false → s.tileFrozen (hemRouter h.toNat) = false →
    s.hemAttached h.toNat = true → s.fuseFault = false → s.hemRight h.toNat 0 = true → (s.hem h.toNat).head = none →
    s.hemFull h.toNat 0 = false → bits r.toNat 31 10 = 0 → s.stitchFrom (r.toNat % 1024) 1 h.toNat = true →
    s.stitch (r.toNat % 1024) = some st → s.hemRight h.toNat (1 + st.dlv) = true →
    let n := r.toNat % 1024
    let go := s.admits n (s.tile (hemRouter h.toNat)).ic
    (go = false → exec (.hemTransmit h true 0 r t d) s = .next s)
    ∧ (go = true →
      let u := if st.dlv = 0 then setF s Reg.NET_ST_STATUS_CREDIT (getF s Reg.NET_ST_STATUS_CREDIT n - 1) n else s
      exec (.hemTransmit h true 0 r t d) s = .next (u.modHem h.toNat (fun x => { x with head := some ⟨0, r.toNat, t.toNat, d, true, true⟩ }))))
  ∧ (∀ (s : State) (h : Byte) (c : BitVec 2) (r t : Word) (d : BitVec 512) (hd : HemHead), h.toNat < 192 → s.fabricStopped = false →
    s.frozenMaster (idHem h.toNat) = false → (s.hem h.toNat).head = some hd → hd.good = true →
    (s.hemUp h.toNat = true → exec (.hemTransmit h false c r t d) s = .next ((s.modHem h.toNat (fun x => { x with
      head := none, tx := x.tx ++ [(hd.paid, s.hemMsg h.toNat hd d)] })).pumpHem h.toNat))
    ∧ (s.hemUp h.toNat = false →
      exec (.hemTransmit h false c r t d) s = .next (bumpF (s.dropHead h.toNat) Reg.FAB_HEM_CNT_DROP 1 h.toNat)))
  ∧ (∀ (s : State) (h : Byte), h.toNat < 192 → s.patchHeld (hemPatch h.toNat) = true → (s.hem h.toNat).head.isSome = true → s.arrayFrozen = false →
    exec (.hemTailTimeout h) s = .next (setF (s.dropHead h.toNat) Reg.FAB_HEM_STATUS_PROTO 1 h.toNat))
  ∧ (∀ (s : State) (h : Byte) (c : Nat) (x : Hem) (m : Msg) (q : List Msg), h.toNat < 192 → s.fabricStopped = false →
    s.engaged (hemPatch h.toNat) = false → s.tileFrozen (hemRouter h.toNat) = false → s.hemUp h.toNat = true →
    (s.hem h.toNat).turn = some (c, x) → x.rx c = m :: q →
    let u := (s.setHem h.toNat (x.setRx c q)).hemPresent h.toNat m
    exec (.hemReceive h) s = .next (if c = 0 then u.hemCredit m else u))
  ∧ (∀ (s : State) (h : Byte) (v : Word), h.toNat < 192 → s.mayWrite Reg.FAB_HEM_CFG_EN h.toNat 0 = true →
    let held := (s.hem h.toNat).tx.length + bit (s.hem h.toNat).head.isSome
    let u := setF s Reg.FAB_HEM_CFG_CAP (bits v.toNat 7 5) h.toNat
    let u := if bitAt v.toNat 0 = false ∧ held ≠ 0 then bumpF ((u.dropHead h.toNat).dropTx h.toNat) Reg.FAB_HEM_CNT_DROP held h.toNat else u
    exec (.hemEnable h v) s = .next (setF u Reg.FAB_HEM_CFG_EN (bit (bitAt v.toNat 0)) h.toNat))

/-- Memory ports (R338 to R342): a granted request within 4 KiB and the capacity joins the port's requests; a beat of write data is stored at the
next address of the oldest write that awaits data; a beat of a read returns what stands there, poisoned where a word met an uncorrectable error; a complete write is answered once. Reset
trees, probes and the pins' supply (R330, R347, R349) take the values written or measured, a probe's pins showing it.
Where the rules leave a point open, the state named here is the model's choice: log entries 14 and 53. -/
def Obligations.MemoryPortsAndPinsComplete : Prop :=
  (∀ (s : State) (p : BitVec 3) (w : Bool) (addr : HbmAddr) (len : BitVec 5) (id : Byte), s.mpReady p.toNat id.toNat = true →
    let a := addr.toNat / 64 * 64
    let hi := a + 64 * (len.toNat + 1) - 1
    s.hbmGranted (idPort p.toNat) w a hi = true → a / 4096 = hi / 4096 → s.hbmRefused (idPort p.toNat) a hi = false →
    exec (.mpRequest p w addr len id) s = .next (s.setMp p.toNat
      ⟨(s.mp p.toNat).reqs ++ [⟨w, a, len.toNat, id.toNat, 0, len.toNat + 1⟩]⟩))
  ∧ (∀ (s : State) (p : BitVec 3) (bs : List Byte) (i : Nat) (r : MpReq), s.arrayFrozen = false →
    (s.mp p.toNat).first (fun r => r.write && decide (r.left ≠ 0)) = some (i, r) → r.status = 0 →
    s.hbmRefused (idPort p.toNat) r.at_ (r.at_ + 63) = false → s.hbmBusy r.at_ 64 = false →
    exec (.mpWriteData p bs) s = .next ((s.hbmWrite r.at_ ((bs ++ List.replicate 64 0).take 64)).setReq p.toNat i { r with left := r.left - 1 }))
  ∧ (∀ (s : State) (p : BitVec 3) (i : Nat) (r : MpReq), s.arrayFrozen = false →
    (s.mp p.toNat).first (fun r => !r.write) = some (i, r) → r.status = 0 →
    s.hbmRefused (idPort p.toNat) r.at_ (r.at_ + 63) = false → s.hbmBusy r.at_ 64 = false →
    let q := (s.hbmTaken (idPort p.toNat) r.at_).hbmRead r.at_ 64
    (q.2.2 = false → exec (.mpReadResponse p false) s = .next ((q.1.mpAnswer p.toNat r 0 q.2.1).mpBeatGone p.toNat i r))
    ∧ (q.2.2 = true → exec (.mpReadResponse p false) s = .next (((bumpF (setF q.1 Reg.FAB_MP_STATUS_POISON 1 p.toNat) Reg.FAB_MP_CNT_POISON 1
        p.toNat).mpAnswer p.toNat r 1 q.2.1).mpBeatGone p.toNat i r)))
  ∧ (∀ (s : State) (p : BitVec 3) (i : Nat) (r : MpReq), s.arrayFrozen = false →
    (s.mp p.toNat).first (fun r => r.write && decide (r.left = 0)) = some (i, r) →
    exec (.mpWriteResponse p) s = .next ((s.mpAnswer p.toNat r r.status []).setMp p.toNat ⟨(s.mp p.toNat).reqs.eraseIdx i⟩))
  ∧ (∀ (s : State) (v : Word), s.mayWrite Reg.FAB_RST_ASSERT 0 0 = true → exec (.globalResetAssert v) s = .next (setF s.latchResets Reg.FAB_RST_ASSERT v.toNat))
  ∧ (∀ (s : State) (b : BitVec 3) (c : BitVec 2) (v : Word), s.mayWrite Reg.FAB_PROBE_EN b.toNat c.toNat = true →
    let pin := bits v.toNat 17 12
    (bitAt v.toNat 18 = true → s.sparePin b.toNat pin = true ∧ s.pinDriven b.toNat c.toNat pin = false) →
    let old := getF s Reg.FAB_PROBE_PIN b.toNat c.toNat
    let u := setF (setF (setF s Reg.FAB_PROBE_SEL (bits v.toNat 11 0) b.toNat c.toNat) Reg.FAB_PROBE_PIN pin b.toNat c.toNat)
      Reg.FAB_PROBE_EN (bit (bitAt v.toNat 18)) b.toNat c.toNat
    let u := if flag s Reg.FAB_PROBE_EN b.toNat c.toNat = true ∧ (old ≠ pin ∨ bitAt v.toNat 18 = false) then u.showPin b.toNat old else u
    exec (.probeEnable b c v) s = .next (if bitAt v.toNat 18 then u.showPin b.toNat pin else u))
  ∧ (∀ (s : State) (b : BitVec 3) (mv : Nat),
    exec (.vccioChange b mv) s = .next (({ s with vccio := SMap.set 0 s.vccio b.toNat mv } : State).showMismatch b.toNat))

/-! ### PCIe -/

/-- Requests of the host to the endpoint (R371, R372, R374 to R376, R379): configuration space answers every request; a BAR0 access of a size or
alignment that R7 does not allow is counted and a read of it aborted; a granted BAR2 read returns its parts, poisoned where a word met an uncorrectable error, and a granted BAR2 write
stores its enabled bytes; unmasking a vector sends what its pending bit holds.
Where the rules leave a point open, the state named here is the model's choice: log entries 9, 28 and 33. -/
def Obligations.HostRequestsComplete : Prop :=
  (∀ (s : State) (off : BitVec 12) (be : BitVec 4) (v : Word), s.cfgServed = true →
    let o := off.toNat / 4 * 4
    exec (.configRequest false off be v) s = .next (s.emit .completion [o, 0, 3] (leBytes 4 (s.cfgRead o)))
    ∧ exec (.configRequest true off be v) s = .next ((s.cfgWrite o ((v.toNat &&& beMask be) |||
        (if cfgClears o then 0 else s.cfgBits o &&& (2 ^ 32 - 1 - beMask be)))).emit .completion [o, 0, 3]))
  ∧ (∀ (s : State) (a : Bar0Addr), s.hostServed = true → s.blockServed a.toNat = true → s.warmServed a.toNat = true →
    let u := bumpF s Reg.PCI_ERR_CNT_BAD_SIZE
    exec (.bar0InvalidAccess a true) s = .next u
    ∧ exec (.bar0InvalidAccess a false) s = .next ((u.aerUncorr aerAbort).emit .completion [a.toNat, 4]))
  ∧ (∀ (s : State) (addr : HbmAddr) (len : Nat), let a := s.bar2Addr addr.toNat
    s.bar2Served addr.toNat len = true → len ≠ 0 → s.warming = none → s.frozenMaster idHost = false →
    s.hbmGranted idHost false a (a + len - 1) = true → s.hbmRefused idHost a (a + len - 1) = false → s.hbmBusy a len = false →
    exec (.bar2Read addr len []) s = .next (((hbmParts a len).zipIdx).foldl (fun (u : State) p =>
      let q := u.hbmRead p.1.1 p.1.2
      q.1.emit .completion [addr.toNat + (p.1.1 - a), 0, 2, bit q.2.2] q.2.1) (s.hbmTaken idHost a)))
  ∧ (∀ (s : State) (addr : HbmAddr) (bs : List (Option Byte)), let a := s.bar2Addr addr.toNat
    s.bar2Served addr.toNat bs.length = true → bs ≠ [] → s.warming = none → s.frozenMaster idHost = false →
    s.hbmGranted idHost true a (a + bs.length - 1) = true → s.hbmRefused idHost a (a + bs.length - 1) = false → s.hbmBusy a bs.length = false →
    exec (.bar2Write addr bs false) s = .next ((s.hbmAccept a bs.length).storeEnabled a [] bs))
  ∧ (∀ (s : State) (v : Byte), s.hostMay (0x15000C + 16 * v.toNat) true false = true →
    let u : State := { s with msix := SMap.set 0 s.msix (4 * v.toNat + 3) 1 }
    s.msixEn = true → s.msixMaskAll = false → SMap.get false s.pba v.toNat = true →
    exec (.msixUnmask v) s = .next (({ u with pba := SMap.set false u.pba v.toNat false } : State).emit .msix (u.vectorArgs v.toNat)))

/-- Translation, link and power events of the endpoint (R371, R385, R389, R448, R455, R456): an invalidation drops its pages from the cache and is
answered once nothing under them is outstanding; the link comes up with its speed and width; DL_Down and a hot reset have one effect; D3hot
and D0 move the power state.
Where the rules leave a point open, the state named here is the model's choice: log entries 9 and 64. -/
def Obligations.EndpointEventsComplete : Prop :=
  (∀ (s : State) (a : DWord) (n : Nat), s.cfgServed = true → n ≠ 0 →
    exec (.atsInvalidate a n) s = .next { s with
      atc := s.atc.filter (fun pg => !inPages (a.toNat % 2 ^ 57) n pg)
      invalidating := s.invalidating ++ [(a.toNat % 2 ^ 57, n)] })
  ∧ (∀ (s : State) (i : Nat × Nat) (r : List (Nat × Nat)), s.invalidating = i :: r → s.cfgServed = true → s.readsRange i.1 i.2 = false →
    exec .invalidateComplete s = .next (({ s with invalidating := r } : State).emit .invalidateDone [i.1, i.2]))
  ∧ (∀ (s : State) (speed width : Nat) (flit rev : Bool), s.pcieUp = false → s.perst = false → s.endpointStopped = false →
    1 ≤ speed → speed ≤ 6 → (width = 1 ∨ width = 2 ∨ width = 4 ∨ width = 8) →
    exec (.pcieLinkUp speed width flit rev) s = .next { setF (setF (setF (setF s Reg.PCI_LINK_STATUS_SPEED speed) Reg.PCI_LINK_STATUS_WIDTH width)
      Reg.PCI_LINK_STATUS_FLIT (bit (flit || decide (speed = 6)))) Reg.PCI_LINK_STATUS_REV (bit rev) with pcieUp := true })
  ∧ (∀ (s : State), s.pcieUp = true → s.deadlocked = false →
    exec .pcieHotReset s = .next s.hotReset ∧ exec .dlDown s = .next s.hotReset)
  ∧ (∀ (s : State), s.cfgServed = true → s.powerState ≠ 3 → flag s Reg.PWR_STBY_D3_AUTO = false →
    exec .d3hotEntry s = .next (s.setCfgBits (capPM + 4) (s.cfgBits (capPM + 4) / 4 * 4 + 3)))
  ∧ (∀ (s : State), s.cfgServed = true → s.powerState ≠ 0 →
    exec .d0Transition s = .next ((s.setCfgBits (capPM + 4) (s.cfgBits (capPM + 4) / 4 * 4)).standbyLeave))

/-! ### The SPDM responder -/

/-- SPDM requests (R387, R388): while firmware runs and the mailbox is free each is answered: version 1.2; the capabilities; the algorithms that
the requester offers; the digest of the chain of slot 0, a part of that chain; a challenge and measurements signed by the alias key, whose
signature is a free value; any other data object by the responder's own answer; an abort empties the mailbox.
Where the rules leave a point open, the state named here is the model's choice: log entries 10 and 19. -/
def Obligations.SpdmRequestsComplete : Prop :=
  (∀ s : State, s.cfgServed = true → s.doeHeld = none → s.firmware = true →
    exec .getVersion s = .next (s.emit .doe [1, 1, 0x12])
    ∧ exec .getCapabilities s = .next (s.emit .doe [2, 1, 1, 1, 2, 17])
    ∧ (∀ a h, exec (.negotiateAlgorithms a h) s = .next (s.emit .doe [3, 1, bit a, bit h]))
    ∧ exec .getDigests s = .next (s.emit .doe [4, 1, 0] (sm3 s.certChain))
    ∧ (∀ off len, let l := (s.certChain.drop off).take len
        exec (.getCertificate 0 off len) s = .next (s.emit .doe [5, 1, off, l.length, s.certChain.length - off - l.length] l))
    ∧ (∀ nonce, exec (.challenge 0 nonce) s = .next (s.drawn.emit .doe [6, 1]
        (sm3 s.certChain ++ Config.sm2Sign s.draws s.aliasKey (nonce ++ sm3 s.certChain))))
    ∧ (∀ (i : Byte) nonce, 1 ≤ i.toNat → i.toNat ≤ 5 →
        exec (.getMeasurements i false nonce) s = .next (s.emit .doe [7, 1, i.toNat, 1] (s.measurement i.toNat))
        ∧ exec (.getMeasurements i true nonce) s = .next (s.drawn.emit .doe [7, 1, i.toNat, 1]
            (s.measurement i.toNat ++ Config.sm2Sign s.draws s.aliasKey (nonce ++ s.measurement i.toNat))))
    ∧ (∀ l, exec (.doeRequest l) s = .next (s.drawn.emit .doe [0, 1] (Config.doeAnswer s.draws l))))
  ∧ (∀ s : State, s.cfgServed = true → exec .doeAbort s = .next { s with doeHeld := none })

/-! ### Resets, standby, supplies, temperature -/

/-- Resets (R444 to R449): power-on has its effect in every state, and from a thermal shutdown writes cause 8; asserting
PERST_N leaves the device in a cold reset until it is negated; a device warm reset begins with WARM 1, and the idle step after it
ends it with the cause in PWR_RST_CAUSE and one more warm reset counted.
Where the rules leave a point open, the state named here is the model's choice: log entries 23, 63 and 65. -/
def Obligations.ResetsComplete : Prop :=
  (∀ s : State, exec .powerOn s = .next { s.coldDone (if s.shutdown then 8 else 1) with
    locked := false, booted := false, tapIr := 1, tapSel := 0, tapNext := 0, bscan := [], cfg := { CfgSt.init with nextLoad := s.cfg.nextLoad } })
  ∧ (∀ s : State, s.perst = false → s.shutdown = false → exec .perstNAssert s = .next { s.coldReset.senseBanks with perst := true })
  ∧ (∀ s : State, s.perst = true → s.shutdown = false →
    exec .perstNNegate s = .next (if getF s Reg.PWR_RST_CAUSE_CAUSE = 0
      then setF { s with perst := false } Reg.PWR_RST_CAUSE_CAUSE 2 else { s with perst := false }))
  ∧ (∀ s : State, s.warming = none →
    (s.mayWrite Reg.PWR_RST_WARM 0 0 = true → flag s Reg.PWR_RST_WARM = false →
      exec (.deviceWarmReset false) s = .next (s.warmStart 4 supplyFlds id))
    ∧ (s.firmware = true → s.deadlocked = false → exec (.deviceWarmReset true) s = .next (s.warmStart 5 supplyFlds id)))
  ∧ (∀ (s : State) (c : Nat), s.pending = [] → s.warming = some c → step s = .next (s.warmEnd c))

/-- Device standby (R455, R456): an entry that nothing holds back runs at once; an exit negates STBY_N and waits for the rails; good rails end it
with STATE 0, and rails that stay bad end it in a cold reset.
Where the rules leave a point open, the state named here is the model's choice: log entry 68. -/
def Obligations.StandbyCompletes : Prop :=
  (∀ s : State, s.mayWrite Reg.PWR_STBY_ENTER 0 0 = true → s.warming = none → getF s Reg.PWR_STBY_STATE = 0 →
    getF s Reg.OBS_FRZ_STATUS_STATE = 0 → s.cfg.cur = none → exec .standbyEnter s = .next s.standbyNow)
  ∧ (∀ s : State, s.mayWrite Reg.PWR_STBY_EXIT 0 0 = true → getF s Reg.PWR_STBY_STATE = 2 →
    exec .standbyExit s = .next ((setF (setF s Reg.PWR_STBY_STATE 3) Reg.PWR_STBY_EXIT 1).emit .pin [pinSTBY, 1]))
  ∧ (∀ s : State, getF s Reg.PWR_STBY_STATE = 3 → s.shutdown = false →
    exec .standbyExitComplete s = .next
      (setF (setF ((s.selfRefresh false).resetCounters.senseBanks) Reg.PWR_STBY_EXIT 0) Reg.PWR_STBY_STATE 0))
  ∧ (∀ s : State, getF s Reg.PWR_STBY_STATE = 3 → s.deadlocked = false → exec .standbyExitTimeout s = .next (s.coldDone 2))

/-- Supplies, stretch and the power cap (R451, R452, R457 to R459): a core or lining rail below its warning level sets its flag and starts an
episode; a fault of either resets the core, one of VDD_FAB, HBM or the lanes is a cold reset, and one of the management supplies power-on;
an episode ends with a record; a droop asks its island for at most 16; the cap counts and acts on the measured power.
Where the rules leave a point open, the state named here is the model's choice: log entries 66 and 67. -/
def Obligations.SupplyEventsComplete : Prop :=
  (∀ (s : State) (r mv : Nat), r ≤ 2 → s.railMasked r = false → s.perst = false → s.shutdown = false →
    (warnLevel r + 10 ≤ mv → exec (.supplyWarning r mv) s = .next (setF s (warnFlag r) 0))
    ∧ (mv < warnLevel r → r < 2 → exec (.supplyWarning r mv) s = .next ((setF s (warnFlag r) 1).startEpisode))
    ∧ (mv < warnLevel r → r = 2 → flag s (warnFlag r) = false → exec (.supplyWarning r mv) s = .next
        (((setF s (warnFlag r) 1).report 0x0A (unitNo blkPWR 2) (leBytes 2 mv ++ leBytes 2 0)).raise 30)))
  ∧ (∀ (s : State) (r us : Nat),
    (r = 3 ∨ r = 6 → exec (.supplyFault r us) s = .next s.powerOn)
    ∧ (r < 2 → s.railMasked r = false → s.deadlocked = false → exec (.supplyFault r us) s = .next (s.coreReset r us))
    ∧ ((r = 2 ∨ r = 4 ∨ r = 5) → s.railMasked r = false → s.deadlocked = false → exec (.supplyFault r us) s = .next (s.coldDone 2)))
  ∧ (∀ (s : State) (mv us : Nat), s.brownout = true →
    let u := setF (setF (setF s Reg.PWR_SUPPLY_EPISODE 0) Reg.PWR_SUPPLY_CORE_WARN 0) Reg.PWR_SUPPLY_LIN_WARN 0
    let u := setF (setF (bumpF u Reg.PWR_SUPPLY_EPISODES) Reg.PWR_CORE_EPISODE_MIN mv) Reg.PWR_CORE_EPISODE_DURATION (min us 0xFFFF)
    exec (.brownoutEnd mv us) s = .next (u.report 0x0A (unitNo blkPWR 0) (leBytes 2 mv ++ leBytes 2 (min us 0xFFFF))))
  ∧ (∀ (s : State) (u mv k : Nat), 30 < mv → u < 2074 →
    exec (.localDroop u mv k) s = .next { s with droop := SMap.set 0 s.droop u (min k 16) })
  ∧ (∀ (s : State) (u : Nat), exec (.droopEnd u) s = .next { s with droop := SMap.set 0 s.droop u 0 })
  ∧ (∀ (s : State) (w k : Nat), s.firmware = true → s.shutdown = false →
    (flag s Reg.PWR_CAP_EN = false → exec (.powerCapUpdate w k) s = .next (setF { s with capOver := 0 } Reg.PWR_CAP_STATUS_STRETCH 0))
    ∧ (let u := setF s Reg.PWR_CAP_STATUS_POWER (min w 2047)
       let old := getF s Reg.PWR_CAP_STATUS_STRETCH
       flag s Reg.PWR_CAP_EN = true → u.capLimit < w → 0 < old → old < 64 →
       exec (.powerCapUpdate w k) s = .next (setF { u with capOver := 0 } Reg.PWR_CAP_STATUS_STRETCH (min 64 (old + max 1 k)))))

/-- Temperature (R284, R460): a junction reading shows the hottest sensor and moves WARN, THROTTLE and the count of hot readings; the third at 115 or
more is a thermal shutdown; a stack's reading goes to its TEMP and chooses its refresh RATE, and at 115 or more is a shutdown at once.
Where the rules leave a point open, the state named here is the model's choice: log entry 67. -/
def Obligations.TemperatureReadingsComplete : Prop :=
  (∀ (s : State) (l : List Int), l ≠ [] → s.shutdown = false →
    let h := hottest 0 ((l.take 64).map Int.toNat)
    let u := setF (setF s Reg.PWR_THERM_STATUS_TMAX (min h.1 255)) Reg.PWR_THERM_STATUS_SENSOR h.2
    let u := (u.thermWarn h.1 h.2).thermThrottle h.1
    let u : State := { u with hotReads := if 115 ≤ h.1 then min 3 (u.hotReads + 1) else 0 }
    exec (.thermalSensorRead l) s = .next (if u.hotReads = 3 then u.thermalShutdown h.2 h.1 else u))
  ∧ (∀ (s : State) (k : BitVec 3) (t : Nat), s.shutdown = false →
    let u := setF (setF s Reg.HBM_STK_STATUS_TEMP (min t 255) k.toNat) Reg.HBM_STK_STATUS_RATE (if t ≤ 85 then 0 else if t ≤ 95 then 1 else 2) k.toNat
    (t < 105 → exec (.hbmStackTemperature k t) s = .next u)
    ∧ (115 ≤ t → 105 ≤ getF s Reg.HBM_STK_STATUS_TEMP k.toNat → exec (.hbmStackTemperature k t) s = .next (u.thermalShutdown (64 + k.toNat) t)))

/-! ### The management controller -/

/-- Boot, restart and recovery (R391 to R393, R396, R399): with good fuses the ROM recovers the black box and starts the first image whose checks pass;
an uncorrectable fuse word stops the boot in STATE 3; a management reset, asked for or by the watchdog, restarts the ROM with STATE 4; in recovery
the buffer's image starts when its checks pass, and otherwise gives its code.
Where the rules leave a point open, the state named here is the model's choice: log entries 5, 10 and 58. -/
def Obligations.BootCommandsComplete : Prop :=
  (∀ (s : State) (l : List Byte), s.atRom = true →
    (s.fusesBad = true → exec (.boot l) s = .next (setF s Reg.MGT_BOOT_STATUS_STATE 3))
    ∧ (s.fusesBad = false → let r := s.recoverBlackBox
        exec (.boot l) s = .next (if r.fwCode (r.fwFlash 0x0E000000) = 0 then r.startFirmware 0 (r.fwFlash 0x0E000000) (l.map (·.toNat))
          else if r.fwCode (r.fwFlash 0x0F000000) = 0 then
            (setF r Reg.MGT_BOOT_STATUS_CODE (r.fwCode (r.fwFlash 0x0E000000))).startFirmware 1 (r.fwFlash 0x0F000000) (l.map (·.toNat))
          else { setF (setF (setF r Reg.MGT_BOOT_STATUS_CODE (r.fwCode (r.fwFlash 0x0E000000)))
            Reg.MGT_BOOT_STATUS_CODE (r.fwCode (r.fwFlash 0x0F000000))) Reg.MGT_BOOT_STATUS_STATE 2 with locked := true }).resume))
  ∧ (∀ s : State, let u : State := { setF s Reg.MGT_BOOT_STATUS_STATE 4 with coldBoot := false }
    (s.mayWrite Reg.MGT_CTRL_MRESET 0 0 = true → exec .managementReset s = .next u)
    ∧ (s.firmware = true → exec .managementWatchdog s = .next u))
  ∧ (∀ (s : State) (l : List Byte), s.mayWrite Reg.MGT_CTRL_RECOVER 0 0 = true → s.mgmtState = 2 →
    exec (.recover l) s = .next (if s.fwCode s.fwBuffer = 0 then (s.startFirmware 2 s.fwBuffer (l.map (·.toNat))).resume
      else setF s Reg.MGT_BOOT_STATUS_CODE (s.fwCode s.fwBuffer)))

/-- Firmware services (R285, R286, R310, R395, R398, R407): while firmware runs and no service is in progress, a write of GO runs the service of
its code, with its result in RESULT and GO back at 0; RESULT 0, of a service that goes on, leaves GO at 1.
Where the rules leave a point open, the state named here is the model's choice: log entries 59 and 60. -/
def Obligations.ServicesComplete : Prop :=
  ∀ s : State, s.mayWrite Reg.MGT_SVC_CTRL_GO 0 0 = true → flag s Reg.MGT_SVC_CTRL_GO = false →
    let u (code : Nat) : State := setF (setF s Reg.MGT_SVC_CTRL_CODE code) Reg.MGT_SVC_CTRL_RESULT 0
    let done (q : State × Nat) : Res := .next (setF (setF { q.1 with svcHeld := none } Reg.MGT_SVC_CTRL_RESULT q.2) Reg.MGT_SVC_CTRL_GO (bit (decide (q.2 = 0))))
    s.firmware = true →
    exec .svcThaw s = done (u 1).runThaw
    ∧ (∀ l : List Byte, exec (.svcTrainHbm l) s = done ((u 2).runTrain (l.map (·.toNat))))
    ∧ exec .svcRetrainChannel s = done (u 3).runRetrain
    ∧ exec .svcLinkBringUp s = done (u 4).runLink
    ∧ exec .svcSoftRepair s = done (u 5).runRepair
    ∧ exec .svcCommitRetirements s = done ((u 6).fuseService 6 State.runCommit)
    ∧ exec .svcAdvanceRollback s = done ((u 7).fuseService 7 State.runAdvance)
    ∧ exec .svcRevokeKey s = done ((u 8).fuseService 8 State.runRevoke)

/-- Narrowing and the black box (R404, R411, R414 to R417, R434): a narrowing write clears the bits written as 1, and trace rings left outside their
windows are disabled; a host record joins the queue; the oldest queued record is committed through journal and ring with the next SEQ; after 4,096 records
the retirement summaries are written again.
Where the rules leave a point open, the state named here is the model's choice: log entries 11, 57 and 61. -/
def Obligations.ManagementRecordsComplete : Prop :=
  (∀ (s : State) (a : Bar0Addr) (v : Word), (fieldsAt a.toNat).any (fun x => narrowFlds.contains x.fld && decide (x.fld ≠ Reg.MGT_FROZEN_FROZEN)) = true →
    s.hostMay a.toNat true (expertAt a.toNat) = true →
    exec (.charterNarrowing a v) s = .next ((s.narrow a.toNat v.toNat).checkRings))
  ∧ (∀ (s : State) (a v : Nat) (f : Fld) (i j : Nat), fieldsAt a = [⟨f, i, j⟩] → f ≠ Reg.MGT_CHN_WIN_BASE → narrowBit f = true →
    s.narrow a v = setF s f (getF s f i - (getF s f i &&& bits v (f.lo + f.width - 1) f.lo)) i)
  ∧ (∀ (s : State) (v : Word), s.mayWrite Reg.MGT_BB_HOST_DATA 6 0 = true →
    exec (.hostRecord v) s = .next (s.mgmtRecord 0x0E ((List.range 6).flatMap (fun i => leBytes 4 (SMap.get 0 s.bbHost i)) ++ leBytes 4 v.toNat)))
  ∧ (∀ (s : State) (r : FaultRec) (q : List FaultRec), s.firmware = true → s.lostPend = 0 → s.faultQ = r :: q → r.typ ≠ 0 →
    let u := ({ s with faultQ := q } : State).bbCommit r.typ r.unit r.payload
    exec .blackBoxCommit s = .next (if faultType r.typ then u.raise 29 else u))
  ∧ (∀ (s : State), s.firmware = true → 4096 ≤ s.sinceSum →
    exec .retirementSummary s = .next (s.writeSummaries s.namedTiles s.listedSects s.listedLanes))

/-! ### Observation -/

/-- Snapshots and counters (R424 to R429): a marker copies a tile's sets and a channel's set under its header, and the tile takes its number; a
broadcast copies every running unit at once and leaves the stopped ones to copy late; a counter reset clears every set and forgets every tile's last marker.
Where the rules leave a point open, the state named here is the model's choice: log entry 49. -/
def Obligations.SnapshotCommandsComplete : Prop :=
  (∀ (s : State) (t : TileNo) (p : Nat) (m : SnapSt), s.tileFrozen t.toNat = false → s.panelOf t.toNat = some p → s.tileMark p t.toNat = some m →
    exec (.snapMarkerCopyTile t) s = .next (s.copyMark p t.toNat m))
  ∧ (∀ (s : State) (k : Fin 9) (n : BitVec 6) (m : ChanMark) (r : List ChanMark), (s.chan k n.toNat).marks = m :: r → m.ahead = 0 →
    s.chanHeld k n.toNat = false →
    let b := ctrChan k n.toNat
    let u := ((s.copyCtr b 4 0 4).setCtr (b + 12) (markHeader m.num m.layer m.oper)).modChan k n.toNat (fun c => { c with marks := r })
    exec (.snapMarkerCopyChannel k n) s = .next ((u.modPanel m.panel (fun x => { x with snaps := x.snaps.map (fun q =>
      if q.ord = m.ord then { q with chans := q.chans.erase (k.val, n.toNat) } else q) })).finishSnaps m.panel))
  ∧ (∀ (s : State), s.mayWrite Reg.OBS_BSNAP_GO 0 0 = true → flag s Reg.OBS_BSNAP_GO = false →
    let late := allUnits.filter s.unitStopped
    let u := (allUnits.filter (fun x => !s.unitStopped x)).foldl (State.copyBroadcast false) s
    exec .broadcastSnapshot s = .next (setF (setF { u with bsnap := late } Reg.OBS_BSNAP_GO (bit (decide (late ≠ [])))) Reg.OBS_BSNAP_LATE 0))
  ∧ (∀ (s : State) (x : Nat), s.bsnap.contains x = true → s.unitStopped x = false →
    let u := bumpF (s.copyBroadcast true x) Reg.OBS_BSNAP_LATE
    let left := u.bsnap.filter (· ≠ x)
    exec (.broadcastLateCopy x) s = .next (if left = [] then setF { u with bsnap := left } Reg.OBS_BSNAP_GO 0 else { u with bsnap := left }))
  ∧ (∀ (s : State), s.mayWrite Reg.OBS_CTR_CLR_ALL 0 0 = true → s.arrayFrozen = false →
    exec .counterReset s = .next { s with ctrs := [], tiles := SMap.mapAll Tile.init (fun _ x => { x with restart := none, snapNum := 0 }) s.tiles })

/-- Trace (R433, R434): 128 waiting records leave as a chunk; the cluster writes its next chunk at WP of its ring and WP advances; a flush sends every
waiting record; a ring within the cluster's windows is enabled.
Where the rules leave a point open, the state named here is the model's choice: log entry 48. -/
def Obligations.TraceCommandsComplete : Prop :=
  (∀ (s : State) (t : TileNo), s.tileFrozen t.toNat = false → 128 ≤ s.unsent t.toNat →
    exec (.traceChunkDrain t) s = .next (s.sendChunk t.toNat 128 false))
  ∧ (∀ (s : State) (k : BitVec 3) (c : Nat × Nat × Bool), s.nextChunk k.toNat = some c → s.arrayFrozen = false →
    flag s Reg.OBS_TRACE_LEN_EN k.toNat = true → flag s Reg.OBS_TRACE_CFG_STOP = false →
    let wp := getF s Reg.OBS_TRACE_WP_VALUE k.toNat
    let a := s.ringBase k.toNat + 2048 * (wp % s.ringLen k.toNat)
    s.hbmRefused (idMover k.toNat) a (a + 2047) = false → s.hbmBusy a 2048 = false →
    exec (.traceChunkWrite k) s = .next (setF ((s.hbmWrite a (s.chunkBytes c.1 c.2.1)).chunkDone c) Reg.OBS_TRACE_WP_VALUE (wp + 1) k.toNat))
  ∧ (∀ (s : State), s.mayWrite Reg.OBS_TRACE_CTRL_FLUSH 0 0 = true → flag s Reg.OBS_TRACE_CTRL_FLUSH = false →
    let u := (s.tiles.map (·.1)).foldl (fun u t => u.flushTile t) s
    exec .traceFlush s = .next (setF u Reg.OBS_TRACE_CTRL_FLUSH (bit (u.chunks.any (fun c => c.2.2)))))
  ∧ (∀ (s : State) (k : BitVec 3) (v : Word), s.mayWrite Reg.OBS_TRACE_LEN_EN k.toNat 0 = true → flag s Reg.OBS_TRACE_LEN_EN k.toNat = false →
    bitAt v.toNat 31 = true → bits v.toNat 23 0 ≠ 0 → s.ringGranted k.toNat (bits v.toNat 23 0) = true →
    exec (.traceRingEnable k v) s = .next (setF (setF s Reg.OBS_TRACE_LEN_LEN (bits v.toNat 23 0) k.toNat) Reg.OBS_TRACE_LEN_EN 1 k.toNat))

/-- The device freeze (R435 to R437, R442): a request from the pin, the host or the test port is queued; the oldest decides, with SOURCE and MASTER;
when every island in scope has stopped a partial freeze is recorded and raises vector 29 and a full one drains HBM; a partial one thaws.
Where the rules leave a point open, the state named here is the model's choice: log entry 50. -/
def Obligations.FreezeCommandsComplete : Prop :=
  (∀ (s : State), getF s Reg.PWR_STBY_STATE = 0 → s.warming = none →
    (s.frzPin = false → s.booted = true → flag s Reg.OBS_FRZ_CFG_PIN_EN = true → s.drivesPin = false →
      exec (.freezePin true) s = .next { s with frzPin := true, frzReq := s.frzReq ++ [(1, flag s Reg.OBS_FRZ_CFG_PIN_SCOPE, 0)] })
    ∧ exec (.freezePin false) s = .next { s with frzPin := false }
    ∧ exec .frz s = .next { s with tapIr := 0x31, frzReq := s.frzReq ++ [(4, true, 0)] })
  ∧ (∀ (s : State), s.warming = none →
    (let u := setF s Reg.OBS_FRZ_CTRL_PARTIAL 1
     s.mayWrite Reg.OBS_FRZ_CTRL_PARTIAL 0 0 = true → flag s Reg.OBS_FRZ_CTRL_PARTIAL = false → getF u Reg.PWR_STBY_STATE = 0 →
     exec .freezePartialRequest s = .next { u with frzReq := s.frzReq ++ [(2, false, 0)] })
    ∧ (let u := setF s Reg.OBS_FRZ_CTRL_FULL 1
       s.mayWrite Reg.OBS_FRZ_CTRL_FULL 0 0 = true → flag s Reg.OBS_FRZ_CTRL_FULL = false → getF u Reg.PWR_STBY_STATE = 0 →
       exec .freezeFullRequest s = .next { u with frzReq := s.frzReq ++ [(2, true, 0)] }))
  ∧ (∀ (s : State) (src m : Nat) (full : Bool) (r : List (Nat × Bool × Nat)), s.frzReq = (src, full, m) :: r →
    getF s Reg.OBS_FRZ_STATUS_STATE = 0 → s.shutdown = false →
    let u := bumpF { s with frzReq := r, frzFull := full, frzHeld := false } Reg.OBS_FRZ_STATUS_COUNT
    exec .freezeDecision s = .next
      (setF (setF (setF u Reg.OBS_FRZ_STATUS_STATE 1) Reg.OBS_FRZ_STATUS_SOURCE src) Reg.OBS_FRZ_STATUS_MASTER m))
  ∧ (∀ (s : State), getF s Reg.OBS_FRZ_STATUS_STATE = 1 →
    (s.frzFull = false →
      let u := ((s.drivePin true).report 3 (unitNo blkOBS 0) (s.freezePayload 1)).raise 29
      exec .freezeStopped s = .next (setF (setF { u with frzHeld := false } Reg.OBS_FRZ_STATUS_STATE 2) Reg.OBS_FRZ_CTRL_PARTIAL 0))
    ∧ (s.frzFull = true →
      let u := (s.hbmDrain.selfRefresh true).sendFreezes.drivePin true
      let u := if u.mgmtState = 1 then u.bbCommit 3 (unitNo blkOBS 0) (u.freezePayload 2) else u
      exec .freezeStopped s = .next (setF (setF (setF { u with frzHeld := false } Reg.OBS_FRZ_STATUS_STATE 3) Reg.OBS_FRZ_CTRL_FULL 0)
        Reg.OBS_FRZ_CTRL_PARTIAL 0)))
  ∧ (∀ (s : State), s.mayWrite Reg.OBS_FRZ_CTRL_THAW 0 0 = true → getF s Reg.OBS_FRZ_STATUS_STATE = 2 → getF s Reg.OBS_FRZ_STATUS_SOURCE ≠ 1 →
    exec .freezeThaw s = .next ((setF (((s.drivePin false).report 3 (unitNo blkOBS 0) (s.freezePayload 0)).raise 29)
      Reg.OBS_FRZ_STATUS_STATE 0).restartIslands))

/-- The test port (R418, R441, R442, R472): each instruction selects its code; the identification register reads 0 in bits 31 to 28 for
the model's silicon version, 0x4820, 0x7B6 and 1 (the version is the model's choice, log entry 5); the bypass register delays by
one bit; the boundary-scan register is loaded and driven; the black box and stopped units are read out; FRZ_EXIT ends a full freeze with a warm reset.
Where the rules leave a point open, the state named here is the model's choice: log entries 5, 13, 14 and 62. -/
def Obligations.TestPortCommandsComplete : Prop :=
  ∀ s : State,
    exec .idcode s = .next (({ s with tapIr := 1 } : State).emit .testData [0x01] (leBytes 4 (0x4820 * 2 ^ 12 + 0x7B6 * 2 + 1)))
    ∧ (∀ (c : Byte) (l : List Bool), irListed c.toNat = false → exec (.bypass c l) s = .next
        (({ s with tapIr := c } : State).emit .testData (0xFF :: ((false :: l).take l.length).map bit)))
    ∧ (∀ l : List Bool, exec (.samplePreload l) s = .next { ({ s with tapIr := 2 } : State).emit .testData
          (0x02 :: (List.range l.length).map (fun i => bit (Config.outside (s.draws + i)))) with bscan := l, draws := s.draws + l.length })
    ∧ exec .extest s = .next (({ s with tapIr := 3 } : State).emit .pin (0xE0 :: s.bscan.map bit))
    ∧ (∀ v : DWord, exec (.capSel v) s = .next { s with tapIr := 0x2E, tapSel := v, tapNext := 0 })
    ∧ (∀ (n : Nat) (l : List Byte), ({ s with tapIr := 0x2F } : State).capBytes s.tapUnit s.tapOffset (8 * n) = some l →
        exec (.capRead n) s = .next { ({ s with tapIr := 0x2F } : State).emit .testData [0x2F] l with tapNext := s.tapNext + n })
    ∧ exec .bbRead s = .next (({ s with tapIr := 0x2D } : State).emit .testData [0x2D] ((List.range 8192).flatMap s.bbSlot))
    ∧ (getF s Reg.OBS_FRZ_STATUS_STATE = 3 → s.shutdown = false → s.warming = none →
        exec .frzExit s = .next (({ s with tapIr := 0x30 } : State).warmStart 6 supplyFlds id))
end

