-- ==== Sys2Proof/Laws/Dispatch.lean ====
section
/-! SUPPORT. The meaning that each command calls, so that no proof unfolds the dispatch. -/

namespace Sys2Proof.Machine

@[simp] theorem exec_registerWrite (s : State) (addr : Bar0Addr) (wide : Bool) (val : DWord) : exec (.registerWrite addr wide val) s = execRegisterWrite addr wide val s := rfl
@[simp] theorem exec_rcRead (s : State) (addr : Bar0Addr) (wide : Bool) : exec (.rcRead addr wide) s = execRcRead addr wide s := rfl
@[simp] theorem exec_lowerHalfRead (s : State) (addr : Bar0Addr) : exec (.lowerHalfRead addr) s = execLowerHalfRead addr s := rfl
@[simp] theorem exec_upperHalfRead (s : State) (addr : Bar0Addr) : exec (.upperHalfRead addr) s = execUpperHalfRead addr s := rfl
@[simp] theorem exec_lowerHalfWrite (s : State) (addr : Bar0Addr) (val : Word) : exec (.lowerHalfWrite addr val) s = execLowerHalfWrite addr val s := rfl
@[simp] theorem exec_upperHalfWrite (s : State) (addr : Bar0Addr) (val : Word) : exec (.upperHalfWrite addr val) s = execUpperHalfWrite addr val s := rfl
@[simp] theorem exec_unassignedAccess (s : State) (addr : Bar0Addr) (write : Bool) (val : Word) : exec (.unassignedAccess addr write val) s = execUnassignedAccess addr write val s := rfl
@[simp] theorem exec_profileWrite (s : State) (val : Word) : exec (.profileWrite val) s = execProfileWrite val s := rfl
@[simp] theorem exec_nop (s : State) (t : TileNo) : exec (.nop t) s = execNop t s := rfl
@[simp] theorem exec_halt (s : State) (t : TileNo) : exec (.halt t) s = execHalt t s := rfl
@[simp] theorem exec_rti (s : State) (t : TileNo) : exec (.rti t) s = execRti t s := rfl
@[simp] theorem exec_br (s : State) (t : TileNo) (cond : BitVec 4) (target : BitVec 12) : exec (.br t cond target) s = execBr t cond target s := rfl
@[simp] theorem exec_bal (s : State) (t : TileNo) (d : Reg6) (target : BitVec 12) : exec (.bal t d target) s = execBal t d target s := rfl
@[simp] theorem exec_jr (s : State) (t : TileNo) (a : Reg6) : exec (.jr t a) s = execJr t a s := rfl
@[simp] theorem exec_rep (s : State) (t : TileNo) (cs : Bool) (sreg : BitVec 4) (stop : BitVec 12) (imm : Word) : exec (.rep t cs sreg stop imm) s = execRep t cs sreg stop imm s := rfl
@[simp] theorem exec_rbrk (s : State) (t : TileNo) (n : BitVec 3) : exec (.rbrk t n) s = execRbrk t n s := rfl
@[simp] theorem exec_setf (s : State) (t : TileNo) (mask : BitVec 18) : exec (.setf t mask) s = execSetf t mask s := rfl
@[simp] theorem exec_clrf (s : State) (t : TileNo) (mask : BitVec 18) : exec (.clrf t mask) s = execClrf t mask s := rfl
@[simp] theorem exec_add (s : State) (t : TileNo) (o : ScalarOps) : exec (.add t o) s = execAdd t o s := rfl
@[simp] theorem exec_sub (s : State) (t : TileNo) (o : ScalarOps) : exec (.sub t o) s = execSub t o s := rfl
@[simp] theorem exec_and (s : State) (t : TileNo) (o : ScalarOps) : exec (.and t o) s = execAnd t o s := rfl
@[simp] theorem exec_or (s : State) (t : TileNo) (o : ScalarOps) : exec (.or t o) s = execOr t o s := rfl
@[simp] theorem exec_xor (s : State) (t : TileNo) (o : ScalarOps) : exec (.xor t o) s = execXor t o s := rfl
@[simp] theorem exec_shl (s : State) (t : TileNo) (o : ScalarOps) : exec (.shl t o) s = execShl t o s := rfl
@[simp] theorem exec_shr (s : State) (t : TileNo) (o : ScalarOps) : exec (.shr t o) s = execShr t o s := rfl
@[simp] theorem exec_sra (s : State) (t : TileNo) (o : ScalarOps) : exec (.sra t o) s = execSra t o s := rfl
@[simp] theorem exec_mov (s : State) (t : TileNo) (d : Reg6) (b : Reg6) (i : Bool) (imm : Word) : exec (.mov t d b isImm imm) s = execMov t d b isImm imm s := rfl
@[simp] theorem exec_cmp (s : State) (t : TileNo) (a : Reg6) (b : Reg6) (i : Bool) (imm : Word) : exec (.cmp t a b isImm imm) s = execCmp t a b isImm imm s := rfl
@[simp] theorem exec_min (s : State) (t : TileNo) (o : ScalarOps) : exec (.min t o) s = execMin t o s := rfl
@[simp] theorem exec_max (s : State) (t : TileNo) (o : ScalarOps) : exec (.max t o) s = execMax t o s := rfl
@[simp] theorem exec_mul (s : State) (t : TileNo) (o : ScalarOps) : exec (.mul t o) s = execMul t o s := rfl
@[simp] theorem exec_pmod (s : State) (t : TileNo) (d : Reg6) (b : Reg6) (i : Bool) (imm : Word) : exec (.pmod t d b isImm imm) s = execPmod t d b isImm imm s := rfl
@[simp] theorem exec_mvs (s : State) (t : TileNo) (dir : Bool) (gen : Reg6) (spr : Reg6) : exec (.mvs t dir gen spr) s = execMvs t dir gen spr s := rfl
@[simp] theorem exec_setsp (s : State) (t : TileNo) (spr : Reg6) (imm : Word) : exec (.setsp t spr imm) s = execSetsp t spr imm s := rfl
@[simp] theorem exec_ldsp (s : State) (t : TileNo) (spr : Reg6) (m : MAddr) : exec (.ldsp t spr m) s = execLdsp t spr m s := rfl
@[simp] theorem exec_stsp (s : State) (t : TileNo) (spr : Reg6) (m : MAddr) : exec (.stsp t spr m) s = execStsp t spr m s := rfl
@[simp] theorem exec_ld (s : State) (t : TileNo) (d : Reg6) (m : MAddr) : exec (.ld t d m) s = execLd t d m s := rfl
@[simp] theorem exec_st (s : State) (t : TileNo) (r : Reg6) (m : MAddr) : exec (.st t r m) s = execSt t r m s := rfl
@[simp] theorem exec_vld (s : State) (t : TileNo) (d : Reg6) (bus : Bool) (m : MAddr) : exec (.vld t d bus m) s = execVld t d bus m s := rfl
@[simp] theorem exec_vst (s : State) (t : TileNo) (r : Reg6) (m : MAddr) : exec (.vst t r m) s = execVst t r m s := rfl
@[simp] theorem exec_vadd (s : State) (t : TileNo) (ty : BitVec 4) (d a b : Reg6) : exec (.vadd t ty d a b) s = execVadd t ty d a b s := rfl
@[simp] theorem exec_vsub (s : State) (t : TileNo) (ty : BitVec 4) (d a b : Reg6) : exec (.vsub t ty d a b) s = execVsub t ty d a b s := rfl
@[simp] theorem exec_vmul (s : State) (t : TileNo) (ty : BitVec 4) (d a b : Reg6) : exec (.vmul t ty d a b) s = execVmul t ty d a b s := rfl
@[simp] theorem exec_vfma (s : State) (t : TileNo) (ty : BitVec 4) (d a b c : Reg6) : exec (.vfma t ty d a b c) s = execVfma t ty d a b c s := rfl
@[simp] theorem exec_vmin (s : State) (t : TileNo) (ty : BitVec 4) (d a b : Reg6) : exec (.vmin t ty d a b) s = execVmin t ty d a b s := rfl
@[simp] theorem exec_vmax (s : State) (t : TileNo) (ty : BitVec 4) (d a b : Reg6) : exec (.vmax t ty d a b) s = execVmax t ty d a b s := rfl
@[simp] theorem exec_viadd (s : State) (t : TileNo) (d a b : Reg6) : exec (.viadd t d a b) s = execViadd t d a b s := rfl
@[simp] theorem exec_visub (s : State) (t : TileNo) (d a b : Reg6) : exec (.visub t d a b) s = execVisub t d a b s := rfl
@[simp] theorem exec_vand (s : State) (t : TileNo) (d a b : Reg6) : exec (.vand t d a b) s = execVand t d a b s := rfl
@[simp] theorem exec_vor (s : State) (t : TileNo) (d a b : Reg6) : exec (.vor t d a b) s = execVor t d a b s := rfl
@[simp] theorem exec_vxor (s : State) (t : TileNo) (d a b : Reg6) : exec (.vxor t d a b) s = execVxor t d a b s := rfl
@[simp] theorem exec_vshl (s : State) (t : TileNo) (d a b : Reg6) : exec (.vshl t d a b) s = execVshl t d a b s := rfl
@[simp] theorem exec_vshr (s : State) (t : TileNo) (arith : Bool) (d a b : Reg6) : exec (.vshr t arith d a b) s = execVshr t arith d a b s := rfl
@[simp] theorem exec_vcmp (s : State) (t : TileNo) (ty rel : BitVec 4) (d a b : Reg6) : exec (.vcmp t ty rel d a b) s = execVcmp t ty rel d a b s := rfl
@[simp] theorem exec_vmov (s : State) (t : TileNo) (d a : Reg6) : exec (.vmov t d a) s = execVmov t d a s := rfl
@[simp] theorem exec_vsel (s : State) (t : TileNo) (d a b c : Reg6) : exec (.vsel t d a b c) s = execVsel t d a b c s := rfl
@[simp] theorem exec_vbcast (s : State) (t : TileNo) (d a : Reg6) : exec (.vbcast t d a) s = execVbcast t d a s := rfl
@[simp] theorem exec_vget (s : State) (t : TileNo) (d a : Reg6) (lane : BitVec 5) : exec (.vget t d a lane) s = execVget t d a lane s := rfl
@[simp] theorem exec_vrot (s : State) (t : TileNo) (d a b : Reg6) (k : BitVec 5) : exec (.vrot t d a b k) s = execVrot t d a b k s := rfl
@[simp] theorem exec_vcvt (s : State) (t : TileNo) (src dst : BitVec 4) (scl : BitVec 8) (d a : Reg6) : exec (.vcvt t src dst scl d a) s = execVcvt t src dst scl d a s := rfl
@[simp] theorem exec_vqb (s : State) (t : TileNo) (d a : Reg6) (q : QbOps) : exec (.vqb t d a q) s = execVqb t d a q s := rfl
@[simp] theorem exec_vtack (s : State) (t : TileNo) (d a b : Reg6) (py my : BitVec 3) : exec (.vtack t d a b py my) s = execVtack t d a b py my s := rfl
@[simp] theorem exec_vtap (s : State) (t : TileNo) (ty : BitVec 4) (d : Reg6) (px mx py my : BitVec 3) : exec (.vtap t ty d px mx py my) s = execVtap t ty d px mx py my s := rfl
@[simp] theorem exec_mstream (s : State) (t : TileNo) (w : StreamOps) : exec (.mstream t w) s = execMstream t w s := rfl
@[simp] theorem exec_mfold (s : State) (t : TileNo) (w : StreamOps) : exec (.mfold t w) s = execMfold t w s := rfl
@[simp] theorem exec_streamStart (s : State) (t : TileNo) : exec (.streamStart t) s = execStreamStart t s := rfl
@[simp] theorem exec_mswap (s : State) (t : TileNo) : exec (.mswap t) s = execMswap t s := rfl
@[simp] theorem exec_mswapReduce (s : State) (t : TileNo) (ofmt : BitVec 2) (odst : Bool) (oreg : BitVec 4) : exec (.mswapReduce t ofmt odst oreg) s = execMswapReduce t ofmt odst oreg s := rfl
@[simp] theorem exec_treeResultWrite (s : State) (t : TileNo) : exec (.treeResultWrite t) s = execTreeResultWrite t s := rfl
@[simp] theorem exec_mdrainConverted (s : State) (t : TileNo) (rowsm1 : BitVec 5) (ofmt : BitVec 2) (odst : Bool) (oreg : BitVec 4) (bias : Bool) (breg : BitVec 4) : exec (.mdrainConverted t rowsm1 ofmt odst oreg bias breg) s = execMdrainConverted t rowsm1 ofmt odst oreg bias breg s := rfl
@[simp] theorem exec_mdrainRaw (s : State) (t : TileNo) (rowsm1 : BitVec 5) (odst : Bool) (oreg : BitVec 4) : exec (.mdrainRaw t rowsm1 odst oreg) s = execMdrainRaw t rowsm1 odst oreg s := rfl
@[simp] theorem exec_mloadRow (s : State) (t : TileNo) (row : BitVec 5) (sreg : BitVec 4) : exec (.mloadRow t row sreg) s = execMloadRow t row sreg s := rfl
@[simp] theorem exec_mloadBroadcast (s : State) (t : TileNo) (sreg : BitVec 4) : exec (.mloadBroadcast t sreg) s = execMloadBroadcast t sreg s := rfl
@[simp] theorem exec_mloadRaw (s : State) (t : TileNo) (row rowsm1 : BitVec 5) (src : Bool) (sreg : BitVec 4) : exec (.mloadRaw t row rowsm1 src sreg) s = execMloadRaw t row rowsm1 src sreg s := rfl
@[simp] theorem exec_mclr (s : State) (t : TileNo) : exec (.mclr t) s = execMclr t s := rfl
@[simp] theorem exec_backBankOpStart (s : State) (t : TileNo) : exec (.backBankOpStart t) s = execBackBankOpStart t s := rfl
@[simp] theorem exec_backBankOpComplete (s : State) (t : TileNo) : exec (.backBankOpComplete t) s = execBackBankOpComplete t s := rfl
@[simp] theorem exec_mwait (s : State) (t : TileNo) (bb tr st : Bool) : exec (.mwait t bb tr st) s = execMwait t bb tr st s := rfl
@[simp] theorem exec_matForceWrite (s : State) (t : TileNo) (col : Bool) (val : Word) : exec (.matForceWrite t col val) s = execMatForceWrite t col val s := rfl
@[simp] theorem exec_lnld (s : State) (t : TileNo) (d : Reg6) (m : MAddr) : exec (.lnld t d m) s = execLnld t d m s := rfl
@[simp] theorem exec_lnst (s : State) (t : TileNo) (r : Reg6) (m : MAddr) : exec (.lnst t r m) s = execLnst t r m s := rfl
@[simp] theorem exec_nsend (s : State) (t : TileNo) (a : Reg6) (cls : BitVec 2) (sb : BitVec 4) : exec (.nsend t a cls sb) s = execNsend t a cls sb s := rfl
@[simp] theorem exec_nrecv (s : State) (t : TileNo) (d : Reg6) (cls : BitVec 2) : exec (.nrecv t d cls) s = execNrecv t d cls s := rfl
@[simp] theorem exec_trc (s : State) (t : TileNo) (a : Reg6) (code : Half) : exec (.trc t a code) s = execTrc t a code s := rfl
@[simp] theorem exec_rdctr (s : State) (t : TileNo) (d : Reg6) (n : BitVec 4) (hi : Bool) : exec (.rdctr t d n hi) s = execRdctr t d n hi s := rfl
@[simp] theorem exec_rdsnap (s : State) (t : TileNo) (d : Reg6) : exec (.rdsnap t d) s = execRdsnap t d s := rfl
@[simp] theorem exec_tileCompletion (s : State) (t : TileNo) : exec (.tileCompletion t) s = execTileCompletion t s := rfl
@[simp] theorem exec_interruptEntry (s : State) (t : TileNo) : exec (.interruptEntry t) s = execInterruptEntry t s := rfl
@[simp] theorem exec_faultLimitExceeded (s : State) (t : TileNo) : exec (.faultLimitExceeded t) s = execFaultLimitExceeded t s := rfl
@[simp] theorem exec_uncorrectableReplay (s : State) (t : TileNo) (recurs : Bool) : exec (.uncorrectableReplay t recurs) s = execUncorrectableReplay t recurs s := rfl
@[simp] theorem exec_tileTakeover (s : State) (t : TileNo) : exec (.tileTakeover t) s = execTileTakeover t s := rfl
@[simp] theorem exec_tileReset (s : State) (t : TileNo) : exec (.tileReset t) s = execTileReset t s := rfl
@[simp] theorem exec_patrolScrubRead (s : State) (t : TileNo) : exec (.patrolScrubRead t) s = execPatrolScrubRead t s := rfl
@[simp] theorem exec_correctedWriteBack (s : State) (t : TileNo) (word : BitVec 18) : exec (.correctedWriteBack t word) s = execCorrectedWriteBack t word s := rfl
@[simp] theorem exec_chainReady (s : State) (t : TileNo) : exec (.chainReady t) s = execChainReady t s := rfl
@[simp] theorem exec_moveIssue (s : State) (p : PanelNo) (q : BitVec 3) : exec (.moveIssue p q) s = execMoveIssue p q s := rfl
@[simp] theorem exec_markReached (s : State) (p : PanelNo) (q : BitVec 3) : exec (.markReached p q) s = execMarkReached p q s := rfl
@[simp] theorem exec_waitSatisfied (s : State) (p : PanelNo) (q : BitVec 3) : exec (.waitSatisfied p q) s = execWaitSatisfied p q s := rfl
@[simp] theorem exec_barrierRelease (s : State) (p : PanelNo) : exec (.barrierRelease p) s = execBarrierRelease p s := rfl
@[simp] theorem exec_messageDelivery (s : State) (n : Nat) : exec (.messageDelivery n) s = execMessageDelivery n s := rfl
@[simp] theorem exec_stitchDelivery (s : State) (stitch : BitVec 10) (point : Nat) : exec (.stitchDelivery stitch point) s = execStitchDelivery stitch point s := rfl
@[simp] theorem exec_landingStageWrite (s : State) (t : TileNo) : exec (.landingStageWrite t) s = execLandingStageWrite t s := rfl
@[simp] theorem exec_creditReturn (s : State) (stitch : BitVec 10) : exec (.creditReturn stitch) s = execCreditReturn stitch s := rfl
@[simp] theorem exec_class0CrcFailure (s : State) (stitch : BitVec 10) (hop : Nat) : exec (.class0CrcFailure stitch hop) s = execClass0CrcFailure stitch hop s := rfl
@[simp] theorem exec_linkReplay (s : State) (t : TileNo) (port : BitVec 3) (again : Bool) : exec (.linkReplay t port again) s = execLinkReplay t port again s := rfl
@[simp] theorem exec_linkEventLimitExceeded (s : State) (t : TileNo) (port : BitVec 3) : exec (.linkEventLimitExceeded t port) s = execLinkEventLimitExceeded t port s := rfl
@[simp] theorem exec_routerFault (s : State) (t : TileNo) : exec (.routerFault t) s = execRouterFault t s := rfl
@[simp] theorem exec_multicastDetach (s : State) (g : Byte) (t : TileNo) (port : BitVec 4) : exec (.multicastDetach g t port) s = execMulticastDetach g t port s := rfl
@[simp] theorem exec_tornMarker (s : State) (t : TileNo) (port : BitVec 4) (g : Byte) : exec (.tornMarker t port g) s = execTornMarker t port g s := rfl
@[simp] theorem exec_linkForceWrite (s : State) (off : Bool) : exec (.linkForceWrite off) s = execLinkForceWrite off s := rfl
@[simp] theorem exec_mcastGroupWrite (s : State) (g : Byte) (val : Word) : exec (.mcastGroupWrite g val) s = execMcastGroupWrite g val s := rfl
@[simp] theorem exec_panelDefine (s : State) (p : PanelNo) : exec (.panelDefine p) s = execPanelDefine p s := rfl
@[simp] theorem exec_panelDefineComplete (s : State) (p : PanelNo) : exec (.panelDefineComplete p) s = execPanelDefineComplete p s := rfl
@[simp] theorem exec_panelUndefine (s : State) (p : PanelNo) : exec (.panelUndefine p) s = execPanelUndefine p s := rfl
@[simp] theorem exec_panelReset (s : State) (p : PanelNo) : exec (.panelReset p) s = execPanelReset p s := rfl
@[simp] theorem exec_panelResetComplete (s : State) (p : PanelNo) : exec (.panelResetComplete p) s = execPanelResetComplete p s := rfl
@[simp] theorem exec_panelThaw (s : State) (p : PanelNo) : exec (.panelThaw p) s = execPanelThaw p s := rfl
@[simp] theorem exec_queueResume (s : State) (p : PanelNo) : exec (.queueResume p) s = execQueueResume p s := rfl
@[simp] theorem exec_intakeWrite (s : State) (off : BitVec 22) (words : List Word) (partialBe poisoned : Bool) : exec (.intakeWrite off words partialBe poisoned) s = execIntakeWrite off words partialBe poisoned s := rfl
@[simp] theorem exec_intakeResync (s : State) (p : PanelNo) : exec (.intakeResync p) s = execIntakeResync p s := rfl
@[simp] theorem exec_packetDecision (s : State) (p : PanelNo) : exec (.packetDecision p) s = execPacketDecision p s := rfl
@[simp] theorem exec_packetConsume (s : State) (p : PanelNo) : exec (.packetConsume p) s = execPacketConsume p s := rfl
@[simp] theorem exec_launch (s : State) (p : PanelNo) : exec (.launch p) s = execLaunch p s := rfl
@[simp] theorem exec_load (s : State) (p : PanelNo) : exec (.load p) s = execLoad p s := rfl
@[simp] theorem exec_move (s : State) (p : PanelNo) (q : BitVec 3) : exec (.move p q) s = execMove p q s := rfl
@[simp] theorem exec_mark (s : State) (p : PanelNo) (q : BitVec 3) : exec (.mark p q) s = execMark p q s := rfl
@[simp] theorem exec_wait (s : State) (p : PanelNo) (q : BitVec 3) : exec (.wait p q) s = execWait p q s := rfl
@[simp] theorem exec_barrier (s : State) (p : PanelNo) : exec (.barrier p) s = execBarrier p s := rfl
@[simp] theorem exec_stitchReserve (s : State) (p : PanelNo) : exec (.stitchReserve p) s = execStitchReserve p s := rfl
@[simp] theorem exec_stitchRelease (s : State) (p : PanelNo) : exec (.stitchRelease p) s = execStitchRelease p s := rfl
@[simp] theorem exec_stitchReleaseEffect (s : State) (stitch : BitVec 10) : exec (.stitchReleaseEffect stitch) s = execStitchReleaseEffect stitch s := rfl
@[simp] theorem exec_snap (s : State) (p : PanelNo) : exec (.snap p) s = execSnap p s := rfl
@[simp] theorem exec_tag (s : State) (p : PanelNo) : exec (.tag p) s = execTag p s := rfl
@[simp] theorem exec_signal (s : State) (p : PanelNo) : exec (.signal p) s = execSignal p s := rfl
@[simp] theorem exec_patchPreload (s : State) (p : PanelNo) : exec (.patchPreload p) s = execPatchPreload p s := rfl
@[simp] theorem exec_patchSwap (s : State) (p : PanelNo) : exec (.patchSwap p) s = execPatchSwap p s := rfl
@[simp] theorem exec_patchLoad (s : State) (p : PanelNo) : exec (.patchLoad p) s = execPatchLoad p s := rfl
@[simp] theorem exec_patchScrub (s : State) (p : PanelNo) : exec (.patchScrub p) s = execPatchScrub p s := rfl
@[simp] theorem exec_postPreempt (s : State) (p : PanelNo) (val : Word) : exec (.postPreempt p val) s = execPostPreempt p val s := rfl
@[simp] theorem exec_postSnapshotRequest (s : State) (p : PanelNo) (val : Word) : exec (.postSnapshotRequest p val) s = execPostSnapshotRequest p val s := rfl
@[simp] theorem exec_panelSleep (s : State) (p : PanelNo) : exec (.panelSleep p) s = execPanelSleep p s := rfl
@[simp] theorem exec_panelWake (s : State) (p : PanelNo) : exec (.panelWake p) s = execPanelWake p s := rfl
@[simp] theorem exec_descriptorStart (s : State) (k : Fin 9) (n : BitVec 6) : exec (.descriptorStart k n) s = execDescriptorStart k n s := rfl
@[simp] theorem exec_blockAnnounce (s : State) (k : Fin 9) (n : BitVec 6) : exec (.blockAnnounce k n) s = execBlockAnnounce k n s := rfl
@[simp] theorem exec_busError (s : State) (k : Fin 9) (n : BitVec 6) (addr : DWord) : exec (.busError k n addr) s = execBusError k n addr s := rfl
@[simp] theorem exec_translationFault (s : State) (n : PageFault) : exec (.translationFault n) s = execTranslationFault n s := rfl
@[simp] theorem exec_pageResponse (s : State) (n : BitVec 6) (code : BitVec 4) : exec (.pageResponse n code) s = execPageResponse n code s := rfl
@[simp] theorem exec_priTimeout (s : State) (n : BitVec 6) : exec (.priTimeout n) s = execPriTimeout n s := rfl
@[simp] theorem exec_channelAbort (s : State) (k : Fin 9) (n : BitVec 6) : exec (.channelAbort k n) s = execChannelAbort k n s := rfl
@[simp] theorem exec_abortComplete (s : State) (k : Fin 9) (n : BitVec 6) : exec (.abortComplete k n) s = execAbortComplete k n s := rfl
@[simp] theorem exec_channelRetry (s : State) (k : Fin 9) (n : BitVec 6) (skipToo : Bool) : exec (.channelRetry k n skipToo) s = execChannelRetry k n skipToo s := rfl
@[simp] theorem exec_channelSkip (s : State) (k : Fin 9) (n : BitVec 6) : exec (.channelSkip k n) s = execChannelSkip k n s := rfl
@[simp] theorem exec_directPost (s : State) (k : Fin 9) (n : BitVec 6) (val : Word) : exec (.directPost k n val) s = execDirectPost k n val s := rfl
@[simp] theorem exec_hbmRequestAccept (s : State) (r : HbmReq) : exec (.hbmRequestAccept r) s = execHbmRequestAccept r s := rfl
@[simp] theorem exec_hbmReadData (s : State) (ctl : Byte) (n : BitVec 6) (ecc : BitVec 2) : exec (.hbmReadData ctl n ecc) s = execHbmReadData ctl n ecc s := rfl
@[simp] theorem exec_hbmWriteCommit (s : State) (ctl : Byte) (n : BitVec 6) : exec (.hbmWriteCommit ctl n) s = execHbmWriteCommit ctl n s := rfl
@[simp] theorem exec_hbmRefresh (s : State) : exec (.hbmRefresh) s = execHbmRefresh s := rfl
@[simp] theorem exec_hbmEventLimitExceeded (s : State) (ctl : Byte) (sections : Nat) : exec (.hbmEventLimitExceeded ctl sections) s = execHbmEventLimitExceeded ctl sections s := rfl
@[simp] theorem exec_sectionRetirement (s : State) : exec (.sectionRetirement) s = execSectionRetirement s := rfl
@[simp] theorem exec_mapRebuildComplete (s : State) : exec (.mapRebuildComplete) s = execMapRebuildComplete s := rfl
@[simp] theorem exec_backgroundRetrain (s : State) : exec (.backgroundRetrain) s = execBackgroundRetrain s := rfl
@[simp] theorem exec_mapEnable (s : State) (en : Bool) : exec (.mapEnable en) s = execMapEnable en s := rfl
@[simp] theorem exec_trainingOwn (s : State) (stack : BitVec 3) (val : Word) : exec (.trainingOwn stack val) s = execTrainingOwn stack val s := rfl
@[simp] theorem exec_trainingWriteCompare (s : State) (stack : BitVec 3) : exec (.trainingWriteCompare stack) s = execTrainingWriteCompare stack s := rfl
@[simp] theorem exec_trainingReadCompare (s : State) (stack : BitVec 3) : exec (.trainingReadCompare stack) s = execTrainingReadCompare stack s := rfl
@[simp] theorem exec_trainingCaLoopback (s : State) (stack : BitVec 3) : exec (.trainingCaLoopback stack) s = execTrainingCaLoopback stack s := rfl
@[simp] theorem exec_trainingRunDone (s : State) (stack : BitVec 3) (errs : Nat) : exec (.trainingRunDone stack errs) s = execTrainingRunDone stack errs s := rfl
@[simp] theorem exec_linkUpRequest (s : State) (d : BitVec 2) : exec (.linkUpRequest d) s = execLinkUpRequest d s := rfl
@[simp] theorem exec_linkDownRequest (s : State) (d : BitVec 2) : exec (.linkDownRequest d) s = execLinkDownRequest d s := rfl
@[simp] theorem exec_bringUpStepComplete (s : State) (lane : BitVec 5) (inv : Bool) (skew : BitVec 6) : exec (.bringUpStepComplete lane inv skew) s = execBringUpStepComplete lane inv skew s := rfl
@[simp] theorem exec_bringUpStepTimeout (s : State) (lane : BitVec 5) : exec (.bringUpStepTimeout lane) s = execBringUpStepTimeout lane s := rfl
@[simp] theorem exec_trainBlock (s : State) (lane : BitVec 5) (logical : BitVec 3) (locked switch : Bool) (count : BitVec 4) : exec (.trainBlock lane logical locked switch count) s = execTrainBlock lane logical locked switch count s := rfl
@[simp] theorem exec_paramBlock (s : State) (d : BitVec 2) (index : BitVec 3) (value : Word) : exec (.paramBlock d index value) s = execParamBlock d index value s := rfl
@[simp] theorem exec_codeword (s : State) (lane : BitVec 5) (blocks : BitVec 5082) (align : Half) (trailer : BitVec 42) (parity : BitVec 300) : exec (.codeword lane blocks align trailer parity) s = execCodeword lane blocks align trailer parity s := rfl
@[simp] theorem exec_flit (s : State) (d : BitVec 2) (head : BitVec 48) (ctl : DWord) (data : BitVec 512) (crc : Half) : exec (.flit d head ctl data crc) s = execFlit d head ctl data crc s := rfl
@[simp] theorem exec_ack (s : State) (d : BitVec 2) (ackseq : BitVec 12) (cred1 cred2 cred3 : Byte) : exec (.ack d ackseq cred1 cred2 cred3) s = execAck d ackseq cred1 cred2 cred3 s := rfl
@[simp] theorem exec_ackDue (s : State) (d : BitVec 2) : exec (.ackDue d) s = execAckDue d s := rfl
@[simp] theorem exec_replay (s : State) (d : BitVec 2) (from_ : BitVec 12) : exec (.replay d from_) s = execReplay d from_ s := rfl
@[simp] theorem exec_lane (s : State) (d : BitVec 2) (mask : Byte) (cw : Half) : exec (.lane d mask cw) s = execLane d mask cw s := rfl
@[simp] theorem exec_laneMaskApply (s : State) (d : BitVec 2) : exec (.laneMaskApply d) s = execLaneMaskApply d s := rfl
@[simp] theorem exec_freezeBlock (s : State) (d : BitVec 2) : exec (.freezeBlock d) s = execFreezeBlock d s := rfl
@[simp] theorem exec_laneMessageArrival (s : State) (d : BitVec 2) : exec (.laneMessageArrival d) s = execLaneMessageArrival d s := rfl
@[simp] theorem exec_blockLockLoss (s : State) (lane : BitVec 5) (found : Bool) (ofs : BitVec 6) : exec (.blockLockLoss lane found ofs) s = execBlockLockLoss lane found ofs s := rfl
@[simp] theorem exec_bitslipSlip (s : State) (lane : BitVec 5) (count : BitVec 6) : exec (.bitslipSlip lane count) s = execBitslipSlip lane count s := rfl
@[simp] theorem exec_bitslipRetrain (s : State) (lane : BitVec 5) : exec (.bitslipRetrain lane) s = execBitslipRetrain lane s := rfl
@[simp] theorem exec_laneRejoin (s : State) (lane : BitVec 5) : exec (.laneRejoin lane) s = execLaneRejoin lane s := rfl
@[simp] theorem exec_bitslipTimeout (s : State) : exec (.bitslipTimeout) s = execBitslipTimeout s := rfl
@[simp] theorem exec_laneEventLimitExceeded (s : State) (lane : BitVec 5) : exec (.laneEventLimitExceeded lane) s = execLaneEventLimitExceeded lane s := rfl
@[simp] theorem exec_loopModeWrite (s : State) (lane : BitVec 5) (mode : BitVec 2) : exec (.loopModeWrite lane mode) s = execLoopModeWrite lane mode s := rfl
@[simp] theorem exec_loopRun (s : State) (lane : BitVec 5) : exec (.loopRun lane) s = execLoopRun lane s := rfl
@[simp] theorem exec_loopRunDone (s : State) (lane : BitVec 5) (errs : Nat) : exec (.loopRunDone lane errs) s = execLoopRunDone lane errs s := rfl
@[simp] theorem exec_macTransmitFrame (s : State) (k : BitVec 3) (bytes : List Byte) (abort : Bool) : exec (.macTransmitFrame k bytes abort) s = execMacTransmitFrame k bytes abort s := rfl
@[simp] theorem exec_macReceiveFrame (s : State) (k : BitVec 3) (bytes : List Byte) (ready : Bool) : exec (.macReceiveFrame k bytes ready) s = execMacReceiveFrame k bytes ready s := rfl
@[simp] theorem exec_bridgeTransmit (s : State) (d : BitVec 2) (ctl : DWord) (data : Line) : exec (.bridgeTransmit d ctl data) s = execBridgeTransmit d ctl data s := rfl
@[simp] theorem exec_hemTransmit (s : State) (h : Byte) (head : Bool) (cls : BitVec 2) (route tags : Word) (data : BitVec 512) : exec (.hemTransmit h head cls route tags data) s = execHemTransmit h head cls route tags data s := rfl
@[simp] theorem exec_hemReceive (s : State) (h : Byte) : exec (.hemReceive h) s = execHemReceive h s := rfl
@[simp] theorem exec_hemTailTimeout (s : State) (h : Byte) : exec (.hemTailTimeout h) s = execHemTailTimeout h s := rfl
@[simp] theorem exec_hemEnable (s : State) (h : Byte) (val : Word) : exec (.hemEnable h val) s = execHemEnable h val s := rfl
@[simp] theorem exec_mpRequest (s : State) (p : BitVec 3) (write : Bool) (addr : HbmAddr) (len : BitVec 5) (id : Byte) : exec (.mpRequest p write addr len id) s = execMpRequest p write addr len id s := rfl
@[simp] theorem exec_mpWriteData (s : State) (p : BitVec 3) (bytes : List Byte) : exec (.mpWriteData p bytes) s = execMpWriteData p bytes s := rfl
@[simp] theorem exec_mpReadResponse (s : State) (p : BitVec 3) (poison : Bool) : exec (.mpReadResponse p poison) s = execMpReadResponse p poison s := rfl
@[simp] theorem exec_mpWriteResponse (s : State) (p : BitVec 3) : exec (.mpWriteResponse p) s = execMpWriteResponse p s := rfl
@[simp] theorem exec_globalResetAssert (s : State) (val : Word) : exec (.globalResetAssert val) s = execGlobalResetAssert val s := rfl
@[simp] theorem exec_probeEnable (s : State) (bank : BitVec 3) (chan : BitVec 2) (val : Word) : exec (.probeEnable bank chan val) s = execProbeEnable bank chan val s := rfl
@[simp] theorem exec_vccioChange (s : State) (bank : BitVec 3) (mv : Nat) : exec (.vccioChange bank mv) s = execVccioChange bank mv s := rfl
@[simp] theorem exec_fullLoad (s : State) (val : Word) : exec (.fullLoad val) s = execFullLoad val s := rfl
@[simp] theorem exec_fullLoadEnd (s : State) : exec (.fullLoadEnd) s = execFullLoadEnd s := rfl
@[simp] theorem exec_engineRequestStart (s : State) : exec (.engineRequestStart) s = execEngineRequestStart s := rfl
@[simp] theorem exec_preloadComplete (s : State) : exec (.preloadComplete) s = execPreloadComplete s := rfl
@[simp] theorem exec_swapWriteStart (s : State) (ok : Bool) : exec (.swapWriteStart ok) s = execSwapWriteStart ok s := rfl
@[simp] theorem exec_swapRelease (s : State) : exec (.swapRelease) s = execSwapRelease s := rfl
@[simp] theorem exec_patchRepair (s : State) : exec (.patchRepair) s = execPatchRepair s := rfl
@[simp] theorem exec_scrubFrameRead (s : State) (upset : List Nat) (rom setErr : Bool) : exec (.scrubFrameRead upset rom setErr) s = execScrubFrameRead upset rom setErr s := rfl
@[simp] theorem exec_scrubberWatchdog (s : State) : exec (.scrubberWatchdog) s = execScrubberWatchdog s := rfl
@[simp] theorem exec_testPortCfgLoad (s : State) : exec (.testPortCfgLoad) s = execTestPortCfgLoad s := rfl
@[simp] theorem exec_testPortImageWord (s : State) (word : Word) : exec (.testPortImageWord word) s = execTestPortImageWord word s := rfl
@[simp] theorem exec_configRequest (s : State) (write : Bool) (off : BitVec 12) (be : BitVec 4) (val : Word) : exec (.configRequest write off be val) s = execConfigRequest write off be val s := rfl
@[simp] theorem exec_bar0InvalidAccess (s : State) (addr : Bar0Addr) (write : Bool) : exec (.bar0InvalidAccess addr write) s = execBar0InvalidAccess addr write s := rfl
@[simp] theorem exec_bar2Read (s : State) (addr : HbmAddr) (len : Nat) (bad : List Nat) : exec (.bar2Read addr len bad) s = execBar2Read addr len bad s := rfl
@[simp] theorem exec_bar2Write (s : State) (addr : HbmAddr) (bytes : List (Option Byte)) (poisoned : Bool) : exec (.bar2Write addr bytes poisoned) s = execBar2Write addr bytes poisoned s := rfl
@[simp] theorem exec_msixUnmask (s : State) (v : Byte) : exec (.msixUnmask v) s = execMsixUnmask v s := rfl
@[simp] theorem exec_hostCompletion (s : State) (n : BitVec 6) (status : BitVec 3) (bytes : List Byte) : exec (.hostCompletion n status bytes) s = execHostCompletion n status bytes s := rfl
@[simp] theorem exec_completionTimeout (s : State) (n : BitVec 6) : exec (.completionTimeout n) s = execCompletionTimeout n s := rfl
@[simp] theorem exec_atsInvalidate (s : State) (addr : DWord) (len : Nat) : exec (.atsInvalidate addr len) s = execAtsInvalidate addr len s := rfl
@[simp] theorem exec_invalidateComplete (s : State) : exec (.invalidateComplete) s = execInvalidateComplete s := rfl
@[simp] theorem exec_doeRequest (s : State) (bytes : List Byte) : exec (.doeRequest bytes) s = execDoeRequest bytes s := rfl
@[simp] theorem exec_doeAbort (s : State) : exec (.doeAbort) s = execDoeAbort s := rfl
@[simp] theorem exec_getVersion (s : State) : exec (.getVersion) s = execGetVersion s := rfl
@[simp] theorem exec_getCapabilities (s : State) : exec (.getCapabilities) s = execGetCapabilities s := rfl
@[simp] theorem exec_negotiateAlgorithms (s : State) (sm2 sm3 : Bool) : exec (.negotiateAlgorithms sm2 sm3) s = execNegotiateAlgorithms sm2 sm3 s := rfl
@[simp] theorem exec_getDigests (s : State) : exec (.getDigests) s = execGetDigests s := rfl
@[simp] theorem exec_getCertificate (s : State) (slot : BitVec 3) (off len : Nat) : exec (.getCertificate slot off len) s = execGetCertificate slot off len s := rfl
@[simp] theorem exec_challenge (s : State) (slot : BitVec 3) (nonce : List Byte) : exec (.challenge slot nonce) s = execChallenge slot nonce s := rfl
@[simp] theorem exec_getMeasurements (s : State) (index : Byte) (sign : Bool) (nonce : List Byte) : exec (.getMeasurements index sign nonce) s = execGetMeasurements index sign nonce s := rfl
@[simp] theorem exec_pcieHotReset (s : State) : exec (.pcieHotReset) s = execPcieHotReset s := rfl
@[simp] theorem exec_dlDown (s : State) : exec (.dlDown) s = execDlDown s := rfl
@[simp] theorem exec_d3hotEntry (s : State) : exec (.d3hotEntry) s = execD3hotEntry s := rfl
@[simp] theorem exec_d0Transition (s : State) : exec (.d0Transition) s = execD0Transition s := rfl
@[simp] theorem exec_boot (s : State) (failed : List Byte) : exec (.boot failed) s = execBoot failed s := rfl
@[simp] theorem exec_managementReset (s : State) : exec (.managementReset) s = execManagementReset s := rfl
@[simp] theorem exec_managementWatchdog (s : State) : exec (.managementWatchdog) s = execManagementWatchdog s := rfl
@[simp] theorem exec_recover (s : State) (failed : List Byte) : exec (.recover failed) s = execRecover failed s := rfl
@[simp] theorem exec_svcThaw (s : State) : exec (.svcThaw) s = execSvcThaw s := rfl
@[simp] theorem exec_svcTrainHbm (s : State) (failed : List Byte) : exec (.svcTrainHbm failed) s = execSvcTrainHbm failed s := rfl
@[simp] theorem exec_svcRetrainChannel (s : State) : exec (.svcRetrainChannel) s = execSvcRetrainChannel s := rfl
@[simp] theorem exec_svcLinkBringUp (s : State) : exec (.svcLinkBringUp) s = execSvcLinkBringUp s := rfl
@[simp] theorem exec_svcSoftRepair (s : State) : exec (.svcSoftRepair) s = execSvcSoftRepair s := rfl
@[simp] theorem exec_svcCommitRetirements (s : State) : exec (.svcCommitRetirements) s = execSvcCommitRetirements s := rfl
@[simp] theorem exec_svcAdvanceRollback (s : State) : exec (.svcAdvanceRollback) s = execSvcAdvanceRollback s := rfl
@[simp] theorem exec_svcRevokeKey (s : State) : exec (.svcRevokeKey) s = execSvcRevokeKey s := rfl
@[simp] theorem exec_charterNarrowing (s : State) (addr : Bar0Addr) (val : Word) : exec (.charterNarrowing addr val) s = execCharterNarrowing addr val s := rfl
@[simp] theorem exec_hostRecord (s : State) (val : Word) : exec (.hostRecord val) s = execHostRecord val s := rfl
@[simp] theorem exec_blackBoxCommit (s : State) : exec (.blackBoxCommit) s = execBlackBoxCommit s := rfl
@[simp] theorem exec_retirementSummary (s : State) : exec (.retirementSummary) s = execRetirementSummary s := rfl
@[simp] theorem exec_snapMarkerCopyTile (s : State) (t : TileNo) : exec (.snapMarkerCopyTile t) s = execSnapMarkerCopyTile t s := rfl
@[simp] theorem exec_snapMarkerCopyChannel (s : State) (k : Fin 9) (n : BitVec 6) : exec (.snapMarkerCopyChannel k n) s = execSnapMarkerCopyChannel k n s := rfl
@[simp] theorem exec_broadcastSnapshot (s : State) : exec (.broadcastSnapshot) s = execBroadcastSnapshot s := rfl
@[simp] theorem exec_broadcastLateCopy (s : State) (unit : Nat) : exec (.broadcastLateCopy unit) s = execBroadcastLateCopy unit s := rfl
@[simp] theorem exec_counterReset (s : State) : exec (.counterReset) s = execCounterReset s := rfl
@[simp] theorem exec_traceChunkDrain (s : State) (t : TileNo) : exec (.traceChunkDrain t) s = execTraceChunkDrain t s := rfl
@[simp] theorem exec_traceChunkWrite (s : State) (k : BitVec 3) : exec (.traceChunkWrite k) s = execTraceChunkWrite k s := rfl
@[simp] theorem exec_traceFlush (s : State) : exec (.traceFlush) s = execTraceFlush s := rfl
@[simp] theorem exec_traceRingEnable (s : State) (k : BitVec 3) (val : Word) : exec (.traceRingEnable k val) s = execTraceRingEnable k val s := rfl
@[simp] theorem exec_freezePin (s : State) (low : Bool) : exec (.freezePin low) s = execFreezePin low s := rfl
@[simp] theorem exec_freezePartialRequest (s : State) : exec (.freezePartialRequest) s = execFreezePartialRequest s := rfl
@[simp] theorem exec_freezeFullRequest (s : State) : exec (.freezeFullRequest) s = execFreezeFullRequest s := rfl
@[simp] theorem exec_freezeDecision (s : State) : exec (.freezeDecision) s = execFreezeDecision s := rfl
@[simp] theorem exec_freezeStopped (s : State) : exec (.freezeStopped) s = execFreezeStopped s := rfl
@[simp] theorem exec_freezeThaw (s : State) : exec (.freezeThaw) s = execFreezeThaw s := rfl
@[simp] theorem exec_frz (s : State) : exec (.frz) s = execFrz s := rfl
@[simp] theorem exec_frzExit (s : State) : exec (.frzExit) s = execFrzExit s := rfl
@[simp] theorem exec_capSel (s : State) (val : DWord) : exec (.capSel val) s = execCapSel val s := rfl
@[simp] theorem exec_capRead (s : State) (n : Nat) : exec (.capRead n) s = execCapRead n s := rfl
@[simp] theorem exec_bbRead (s : State) : exec (.bbRead) s = execBbRead s := rfl
@[simp] theorem exec_idcode (s : State) : exec (.idcode) s = execIdcode s := rfl
@[simp] theorem exec_bypass (s : State) (code : Byte) (bits : List Bool) : exec (.bypass code bits) s = execBypass code bits s := rfl
@[simp] theorem exec_samplePreload (s : State) (bits : List Bool) : exec (.samplePreload bits) s = execSamplePreload bits s := rfl
@[simp] theorem exec_extest (s : State) : exec (.extest) s = execExtest s := rfl
@[simp] theorem exec_powerOn (s : State) : exec (.powerOn) s = execPowerOn s := rfl
@[simp] theorem exec_perstNAssert (s : State) : exec (.perstNAssert) s = execPerstNAssert s := rfl
@[simp] theorem exec_perstNNegate (s : State) : exec (.perstNNegate) s = execPerstNNegate s := rfl
@[simp] theorem exec_deviceWarmReset (s : State) (firmware : Bool) : exec (.deviceWarmReset firmware) s = execDeviceWarmReset firmware s := rfl
@[simp] theorem exec_supplyWarning (s : State) (rail : Nat) (mv : Nat) : exec (.supplyWarning rail mv) s = execSupplyWarning rail mv s := rfl
@[simp] theorem exec_supplyFault (s : State) (rail : Nat) (micros : Nat) : exec (.supplyFault rail micros) s = execSupplyFault rail micros s := rfl
@[simp] theorem exec_brownoutEnd (s : State) (lowest micros : Nat) : exec (.brownoutEnd lowest micros) s = execBrownoutEnd lowest micros s := rfl
@[simp] theorem exec_localDroop (s : State) (unit : Nat) (mv : Nat) (stretch : Nat) : exec (.localDroop unit mv stretch) s = execLocalDroop unit mv stretch s := rfl
@[simp] theorem exec_powerCapUpdate (s : State) (watts step : Nat) : exec (.powerCapUpdate watts step) s = execPowerCapUpdate watts step s := rfl
@[simp] theorem exec_thermalSensorRead (s : State) (temps : List Int) : exec (.thermalSensorRead temps) s = execThermalSensorRead temps s := rfl
@[simp] theorem exec_standbyEnter (s : State) : exec (.standbyEnter) s = execStandbyEnter s := rfl
@[simp] theorem exec_standbyExit (s : State) : exec (.standbyExit) s = execStandbyExit s := rfl
@[simp] theorem exec_standbyExitComplete (s : State) : exec (.standbyExitComplete) s = execStandbyExitComplete s := rfl
@[simp] theorem exec_standbyExitTimeout (s : State) : exec (.standbyExitTimeout) s = execStandbyExitTimeout s := rfl
@[simp] theorem exec_reservedEncoding (s : State) (t : TileNo) (w : DWord) : exec (.reservedEncoding t w) s = execReservedEncoding t w s := rfl
@[simp] theorem exec_pcieLinkUp (s : State) (speed width : Nat) (flit rev : Bool) : exec (.pcieLinkUp speed width flit rev) s = execPcieLinkUp speed width flit rev s := rfl
@[simp] theorem exec_hbmStackTemperature (s : State) (stack : BitVec 3) (temp : Nat) : exec (.hbmStackTemperature stack temp) s = execHbmStackTemperature stack temp s := rfl
@[simp] theorem exec_linkRetrainAfterPartnerReset (s : State) (d : BitVec 2) : exec (.linkRetrainAfterPartnerReset d) s = execLinkRetrainAfterPartnerReset d s := rfl
@[simp] theorem exec_droopEnd (s : State) (unit : Nat) : exec (.droopEnd unit) s = execDroopEnd unit s := rfl

end Sys2Proof.Machine
end

