-- ==== Sys2Proof/Laws/SMap.lean ====
section
/-! SUPPORT. Laws of the sparse maps: a read after a write, and the canonical form that every write keeps. -/

namespace Sys2Proof.Machine

variable {α : Type}

/-! ### Read after write -/

/-- What is put at a key is read there. -/
@[simp] theorem SMap.get_set_self [DecidableEq α] (d : α) (m : SMap α) (k : Nat) (v : α) (h : SMap.rising none m = true) :
    SMap.get d (SMap.set d m k v) k = v := by
  suffices H : ∀ (b : Option Nat) (m : SMap α), SMap.rising b m = true → (∀ c, b = some c → c < k) →
      SMap.get d (SMap.set d m k v) k = v from H none m h (by simp)
  intro b m
  induction m generalizing b with
  | nil => intro _ _; by_cases hv : v = d <;> simp [SMap.set, SMap.get, hv]
  | cons e r ih =>
    obtain ⟨j, w⟩ := e
    intro hr hb
    have hr' : SMap.rising (some j) r = true := by
      cases b with
      | none => exact hr
      | some c => simp [SMap.rising] at hr; exact hr.2
    have low : ∀ (l : SMap α) (c : Nat), SMap.rising (some c) l = true → k ≤ c → SMap.get d l k = d := by
      intro l
      induction l with
      | nil => intro _ _ _; rfl
      | cons e l ihl =>
        obtain ⟨i, x⟩ := e
        intro c h1 h2
        simp only [SMap.rising, Bool.and_eq_true, decide_eq_true_eq] at h1
        have : i ≠ k := by omega
        simp only [SMap.get, this, if_false]
        exact ihl i h1.2 (by omega)
    simp only [SMap.set]
    by_cases h1 : j = k
    · subst h1
      by_cases hv : v = d
      · simp only [hv, if_true]; exact low r j hr' (Nat.le_refl _)
      · simp [hv, SMap.get]
    · simp only [h1, if_false]
      by_cases h2 : k < j
      · by_cases hv : v = d
        · simp only [h2, hv, if_true, SMap.get, h1, if_false]; exact low r j hr' (by omega)
        · simp [h2, hv, SMap.get]
      · simp only [h2, if_false, SMap.get, h1]
        exact ih (some j) hr' (by intro c hc; injection hc; omega)

/-- What is put at a key is read nowhere else. -/
theorem SMap.get_set_ne [DecidableEq α] (d : α) (m : SMap α) (k q : Nat) (v : α) (h : q ≠ k) :
    SMap.get d (SMap.set d m k v) q = SMap.get d m q := by
  induction m with
  | nil =>
    by_cases hv : v = d
    · simp [SMap.set, SMap.get, hv]
    · simp [SMap.set, SMap.get, hv, Ne.symm h]
  | cons e r ih =>
    obtain ⟨j, w⟩ := e
    simp only [SMap.set]
    by_cases h1 : j = k
    · subst h1
      by_cases hv : v = d <;> simp [hv, SMap.get, Ne.symm h]
    · by_cases h2 : k < j
      · by_cases hv : v = d
        · simp [h1, h2, hv]
        · simp [h1, h2, hv, SMap.get, Ne.symm h]
      · simp only [h1, h2, if_false, SMap.get, ih]

/-! ### The canonical form -/

/-- A lower bound of the keys may be lowered. -/
theorem SMap.rising_weaken {b c : Nat} (m : SMap α) (h : SMap.rising (some c) m = true) (hb : b ≤ c) : SMap.rising (some b) m = true := by
  cases m with
  | nil => rfl
  | cons e r =>
    obtain ⟨j, w⟩ := e
    simp only [SMap.rising, Bool.and_eq_true, decide_eq_true_eq] at h ⊢
    exact ⟨by omega, h.2⟩

/-- The keys of a bounded map rise without the bound. -/
theorem SMap.rising_none {c : Nat} (m : SMap α) (h : SMap.rising (some c) m = true) : SMap.rising none m = true := by
  cases m with
  | nil => rfl
  | cons e r =>
    obtain ⟨j, w⟩ := e
    simp only [SMap.rising, Bool.and_eq_true] at h ⊢
    exact h.2

/-- A write above a bound keeps the keys rising above it. -/
theorem SMap.rising_set_some [DecidableEq α] (d : α) (m : SMap α) (b k : Nat) (v : α) (h : SMap.rising (some b) m = true) (hk : b < k) :
    SMap.rising (some b) (SMap.set d m k v) = true := by
  induction m generalizing b with
  | nil => by_cases hv : v = d <;> simp [SMap.set, SMap.rising, hv, hk]
  | cons e r ih =>
    obtain ⟨j, w⟩ := e
    simp only [SMap.rising, Bool.and_eq_true, decide_eq_true_eq] at h
    simp only [SMap.set]
    by_cases h1 : j = k
    · by_cases hv : v = d
      · simp only [h1, hv, if_true]; exact SMap.rising_weaken r h.2 (by omega)
      · simp only [h1, hv, if_true, if_false, SMap.rising, Bool.and_eq_true, decide_eq_true_eq]
        exact ⟨hk, by rw [← h1]; exact h.2⟩
    · by_cases h2 : k < j
      · by_cases hv : v = d
        · simp [h1, h2, hv, SMap.rising, h.1, h.2]
        · simp [h1, h2, hv, SMap.rising, hk, h.2]
      · simp only [h1, h2, if_false, SMap.rising, Bool.and_eq_true, decide_eq_true_eq]
        exact ⟨h.1, ih j h.2 (by omega)⟩

/-- A write keeps the keys rising. -/
theorem SMap.rising_set [DecidableEq α] (d : α) (m : SMap α) (k : Nat) (v : α) (h : SMap.rising none m = true) :
    SMap.rising none (SMap.set d m k v) = true := by
  cases m with
  | nil => by_cases hv : v = d <;> simp [SMap.set, SMap.rising, hv]
  | cons e r =>
    obtain ⟨j, w⟩ := e
    simp only [SMap.rising] at h
    simp only [SMap.set]
    by_cases h1 : j = k
    · by_cases hv : v = d
      · simp only [h1, hv, if_true]; exact SMap.rising_none r h
      · simp only [h1, hv, if_true, if_false, SMap.rising]; rw [← h1]; exact h
    · by_cases h2 : k < j
      · by_cases hv : v = d
        · simp [h1, h2, hv, SMap.rising, h]
        · simp [h1, h2, hv, SMap.rising, h]
      · simp only [h1, h2, if_false, SMap.rising]
        exact SMap.rising_set_some d r j k v h (by omega)

/-- A write lists no entry that equals what an unlisted key reads as. -/
theorem SMap.listed_set [DecidableEq α] (d : α) (m : SMap α) (k : Nat) (v : α) (h : m.all (fun e => decide (e.2 ≠ d)) = true) :
    (SMap.set d m k v).all (fun e => decide (e.2 ≠ d)) = true := by
  induction m with
  | nil => by_cases hv : v = d <;> simp [SMap.set, hv]
  | cons e r ih =>
    obtain ⟨j, w⟩ := e
    simp only [List.all_cons, Bool.and_eq_true, decide_eq_true_eq] at h
    simp only [SMap.set]
    by_cases h1 : j = k
    · by_cases hv : v = d
      · simp only [h1, hv, if_true]; exact h.2
      · simp only [h1, hv, if_true, if_false, List.all_cons, Bool.and_eq_true, decide_eq_true_eq]; exact ⟨hv, h.2⟩
    · by_cases h2 : k < j
      · by_cases hv : v = d
        · simp only [h1, h2, hv, if_true, if_false, List.all_cons, Bool.and_eq_true, decide_eq_true_eq]; exact h
        · simp only [h1, h2, hv, if_true, if_false, List.all_cons, Bool.and_eq_true, decide_eq_true_eq]; exact ⟨hv, h⟩
      · simp only [h1, h2, if_false, List.all_cons, Bool.and_eq_true, decide_eq_true_eq]; exact ⟨h.1, ih h.2⟩

/-- A write keeps the canonical form. -/
theorem SMap.wf_set [DecidableEq α] (d : α) (m : SMap α) (k : Nat) (v : α) (h : SMap.wf d m = true) : SMap.wf d (SMap.set d m k v) = true := by
  simp only [SMap.wf, Bool.and_eq_true] at h ⊢
  exact ⟨SMap.rising_set d m k v h.1, SMap.listed_set d m k v h.2⟩

/-- A change at a key keeps the canonical form. -/
theorem SMap.wf_mod [DecidableEq α] (d : α) (m : SMap α) (k : Nat) (f : α → α) (h : SMap.wf d m = true) : SMap.wf d (SMap.mod d m k f) = true :=
  SMap.wf_set d m k _ h

/-- A filtered map stays bounded. -/
theorem SMap.rising_filter_some (p : Nat × α → Bool) (m : SMap α) (b : Nat) (h : SMap.rising (some b) m = true) :
    SMap.rising (some b) (m.filter p) = true := by
  induction m generalizing b with
  | nil => rfl
  | cons e r ih =>
    obtain ⟨j, w⟩ := e
    simp only [SMap.rising, Bool.and_eq_true, decide_eq_true_eq] at h
    by_cases hp : p (j, w) = true
    · simp only [List.filter_cons, hp, if_true, SMap.rising, Bool.and_eq_true, decide_eq_true_eq]
      exact ⟨h.1, ih j h.2⟩
    · simp only [List.filter_cons, hp]
      exact ih b (SMap.rising_weaken r h.2 (by omega))

/-- A filtered map rises. -/
theorem SMap.rising_filter (p : Nat × α → Bool) (m : SMap α) (h : SMap.rising none m = true) : SMap.rising none (m.filter p) = true := by
  induction m with
  | nil => rfl
  | cons e r ih =>
    obtain ⟨j, w⟩ := e
    simp only [SMap.rising] at h
    by_cases hp : p (j, w) = true
    · simp only [List.filter_cons, hp, if_true, SMap.rising]; exact SMap.rising_filter_some p r j h
    · simp only [List.filter_cons, hp]; exact ih (SMap.rising_none r h)

/-- A map whose values change keeps its keys. -/
theorem SMap.rising_map (f : Nat → α → α) (b : Option Nat) (m : SMap α) : SMap.rising b (m.map (fun e => (e.1, f e.1 e.2))) = SMap.rising b m := by
  induction m generalizing b with
  | nil => cases b <;> rfl
  | cons e r ih =>
    obtain ⟨j, w⟩ := e
    cases b <;> simp [SMap.rising, ih]

/-- A restriction keeps the canonical form. -/
theorem SMap.wf_keep [DecidableEq α] (d : α) (p : Nat → Bool) (m : SMap α) (h : SMap.wf d m = true) : SMap.wf d (SMap.keep p m) = true := by
  simp only [SMap.wf, Bool.and_eq_true, List.all_eq_true] at h ⊢
  exact ⟨SMap.rising_filter _ m h.1, fun e he => h.2 e (List.mem_filter.mp he).1⟩

/-- A change of every listed value keeps the canonical form. -/
theorem SMap.wf_mapAll [DecidableEq α] (d : α) (f : Nat → α → α) (m : SMap α) (h : SMap.wf d m = true) :
    SMap.wf d (SMap.mapAll d f m) = true := by
  simp only [SMap.wf, Bool.and_eq_true, List.all_eq_true] at h ⊢
  refine ⟨SMap.rising_filter _ _ ?_, ?_⟩
  · rw [SMap.rising_map]; exact h.1
  · intro e he; exact (List.mem_filter.mp he).2

/-! ### Memories -/

/-- A store of bytes keeps the canonical form of a memory. -/
theorem Mem.wf_store (d : Byte) (m : Mem) (a : Nat) (l : List Byte) (h : SMap.wf d m = true) : SMap.wf d (Mem.store d m a l) = true := by
  induction l generalizing m a with
  | nil => exact h
  | cons b r ih => exact ih _ _ (SMap.wf_set d m a b h)

/-- A byte outside the bytes stored reads as before. -/
theorem Mem.get_store_out (d : Byte) (m : Mem) (a q : Nat) (l : List Byte) (h : q < a ∨ a + l.length ≤ q) :
    SMap.get d (Mem.store d m a l) q = SMap.get d m q := by
  induction l generalizing m a with
  | nil => rfl
  | cons b r ih =>
    simp only [Mem.store, List.length_cons] at h ⊢
    rw [ih _ _ (by omega), SMap.get_set_ne _ _ _ _ _ (by omega)]

/-- A byte inside the bytes stored reads as the byte stored there. -/
theorem Mem.get_store_in (d : Byte) (m : Mem) (a i : Nat) (l : List Byte) (hm : SMap.rising none m = true) (h : i < l.length) :
    SMap.get d (Mem.store d m a l) (a + i) = l[i] := by
  induction l generalizing m a i with
  | nil => simp at h
  | cons b r ih =>
    cases i with
    | zero =>
      simp only [Mem.store, Nat.add_zero, List.getElem_cons_zero]
      rw [Mem.get_store_out _ _ _ _ _ (by omega), SMap.get_set_self _ _ _ _ hm]
    | succ i =>
      simp only [Mem.store, List.getElem_cons_succ]
      have := ih (SMap.set d m a b) (a + 1) i (SMap.rising_set d m a b hm) (by simpa using h)
      rw [show a + (i + 1) = a + 1 + i by omega]
      exact this

end Sys2Proof.Machine
end

