-- ==== Sys2Proof/Laws/State.lean ====
section
/-! SUPPORT. What each named update of the state leaves unchanged, field by field, and the reads of registers and units after an update. -/

namespace Sys2Proof.Machine

variable (s : State)

/-! ### setF -/

@[simp] theorem setF_pending (f : Fld) (v i j : Nat) : (setF s f v i j).pending = s.pending := rfl
@[simp] theorem setF_holdR (f : Fld) (v i j : Nat) : (setF s f v i j).holdR = s.holdR := rfl
@[simp] theorem setF_heldW (f : Fld) (v i j : Nat) : (setF s f v i j).heldW = s.heldW := rfl
@[simp] theorem setF_out (f : Fld) (v i j : Nat) : (setF s f v i j).out = s.out := rfl
@[simp] theorem setF_draws (f : Fld) (v i j : Nat) : (setF s f v i j).draws = s.draws := rfl
@[simp] theorem setF_tiles (f : Fld) (v i j : Nat) : (setF s f v i j).tiles = s.tiles := rfl
@[simp] theorem setF_flights (f : Fld) (v i j : Nat) : (setF s f v i j).flights = s.flights := rfl
@[simp] theorem setF_nextId (f : Fld) (v i j : Nat) : (setF s f v i j).nextId = s.nextId := rfl
@[simp] theorem setF_stitches (f : Fld) (v i j : Nat) : (setF s f v i j).stitches = s.stitches := rfl
@[simp] theorem setF_links (f : Fld) (v i j : Nat) : (setF s f v i j).links = s.links := rfl
@[simp] theorem setF_torn (f : Fld) (v i j : Nat) : (setF s f v i j).torn = s.torn := rfl
@[simp] theorem setF_takeover (f : Fld) (v i j : Nat) : (setF s f v i j).takeover = s.takeover := rfl
@[simp] theorem setF_spent (f : Fld) (v i j : Nat) : (setF s f v i j).spent = s.spent := rfl
@[simp] theorem setF_panels (f : Fld) (v i j : Nat) : (setF s f v i j).panels = s.panels := rfl
@[simp] theorem setF_profileFresh (f : Fld) (v i j : Nat) : (setF s f v i j).profileFresh = s.profileFresh := rfl
@[simp] theorem setF_ctrs (f : Fld) (v i j : Nat) : (setF s f v i j).ctrs = s.ctrs := rfl
@[simp] theorem setF_faultQ (f : Fld) (v i j : Nat) : (setF s f v i j).faultQ = s.faultQ := rfl
@[simp] theorem setF_faultPend (f : Fld) (v i j : Nat) : (setF s f v i j).faultPend = s.faultPend := rfl
@[simp] theorem setF_lostPend (f : Fld) (v i j : Nat) : (setF s f v i j).lostPend = s.lostPend := rfl
@[simp] theorem setF_errLog (f : Fld) (v i j : Nat) : (setF s f v i j).errLog = s.errLog := rfl
@[simp] theorem setF_frzReq (f : Fld) (v i j : Nat) : (setF s f v i j).frzReq = s.frzReq := rfl
@[simp] theorem setF_fuses (f : Fld) (v i j : Nat) : (setF s f v i j).fuses = s.fuses := rfl
@[simp] theorem setF_fuseErr (f : Fld) (v i j : Nat) : (setF s f v i j).fuseErr = s.fuseErr := rfl
@[simp] theorem setF_hbm (f : Fld) (v i j : Nat) : (setF s f v i j).hbm = s.hbm := rfl
@[simp] theorem setF_chans (f : Fld) (v i j : Nat) : (setF s f v i j).chans = s.chans := rfl
@[simp] theorem setF_movTurn (f : Fld) (v i j : Nat) : (setF s f v i j).movTurn = s.movTurn := rfl
@[simp] theorem setF_lan (f : Fld) (v i j : Nat) : (setF s f v i j).lan = s.lan := rfl
@[simp] theorem setF_lanes (f : Fld) (v i j : Nat) : (setF s f v i j).lanes = s.lanes := rfl
@[simp] theorem setF_hems (f : Fld) (v i j : Nat) : (setF s f v i j).hems = s.hems := rfl
@[simp] theorem setF_mps (f : Fld) (v i j : Nat) : (setF s f v i j).mps = s.mps := rfl
@[simp] theorem setF_pcieUp (f : Fld) (v i j : Nat) : (setF s f v i j).pcieUp = s.pcieUp := rfl
@[simp] theorem setF_pciCfg (f : Fld) (v i j : Nat) : (setF s f v i j).pciCfg = s.pciCfg := rfl
@[simp] theorem setF_atc (f : Fld) (v i j : Nat) : (setF s f v i j).atc = s.atc := rfl
@[simp] theorem setF_priStopped (f : Fld) (v i j : Nat) : (setF s f v i j).priStopped = s.priStopped := rfl
@[simp] theorem setF_invalidating (f : Fld) (v i j : Nat) : (setF s f v i j).invalidating = s.invalidating := rfl
@[simp] theorem setF_msix (f : Fld) (v i j : Nat) : (setF s f v i j).msix = s.msix := rfl
@[simp] theorem setF_pba (f : Fld) (v i j : Nat) : (setF s f v i j).pba = s.pba := rfl
@[simp] theorem setF_msixEn (f : Fld) (v i j : Nat) : (setF s f v i j).msixEn = s.msixEn := rfl
@[simp] theorem setF_msixMaskAll (f : Fld) (v i j : Nat) : (setF s f v i j).msixMaskAll = s.msixMaskAll := rfl
@[simp] theorem setF_chunks (f : Fld) (v i j : Nat) : (setF s f v i j).chunks = s.chunks := rfl
@[simp] theorem setF_bsnap (f : Fld) (v i j : Nat) : (setF s f v i j).bsnap = s.bsnap := rfl
@[simp] theorem setF_frzFull (f : Fld) (v i j : Nat) : (setF s f v i j).frzFull = s.frzFull := rfl
@[simp] theorem setF_frzHeld (f : Fld) (v i j : Nat) : (setF s f v i j).frzHeld = s.frzHeld := rfl
@[simp] theorem setF_frzPin (f : Fld) (v i j : Nat) : (setF s f v i j).frzPin = s.frzPin := rfl
@[simp] theorem setF_shutdown (f : Fld) (v i j : Nat) : (setF s f v i j).shutdown = s.shutdown := rfl
@[simp] theorem setF_booted (f : Fld) (v i j : Nat) : (setF s f v i j).booted = s.booted := rfl
@[simp] theorem setF_coldBoot (f : Fld) (v i j : Nat) : (setF s f v i j).coldBoot = s.coldBoot := rfl
@[simp] theorem setF_boots (f : Fld) (v i j : Nat) : (setF s f v i j).boots = s.boots := rfl
@[simp] theorem setF_perst (f : Fld) (v i j : Nat) : (setF s f v i j).perst = s.perst := rfl
@[simp] theorem setF_warming (f : Fld) (v i j : Nat) : (setF s f v i j).warming = s.warming := rfl
@[simp] theorem setF_bbox (f : Fld) (v i j : Nat) : (setF s f v i j).bbox = s.bbox := rfl
@[simp] theorem setF_bbBreak (f : Fld) (v i j : Nat) : (setF s f v i j).bbBreak = s.bbBreak := rfl
@[simp] theorem setF_sinceSum (f : Fld) (v i j : Nat) : (setF s f v i j).sinceSum = s.sinceSum := rfl
@[simp] theorem setF_bbHost (f : Fld) (v i j : Nat) : (setF s f v i j).bbHost = s.bbHost := rfl
@[simp] theorem setF_failed (f : Fld) (v i j : Nat) : (setF s f v i j).failed = s.failed := rfl
@[simp] theorem setF_soft (f : Fld) (v i j : Nat) : (setF s f v i j).soft = s.soft := rfl
@[simp] theorem setF_vfuse (f : Fld) (v i j : Nat) : (setF s f v i j).vfuse = s.vfuse := rfl
@[simp] theorem setF_locked (f : Fld) (v i j : Nat) : (setF s f v i j).locked = s.locked := rfl
@[simp] theorem setF_fwKey (f : Fld) (v i j : Nat) : (setF s f v i j).fwKey = s.fwKey := rfl
@[simp] theorem setF_fwVer (f : Fld) (v i j : Nat) : (setF s f v i j).fwVer = s.fwVer := rfl
@[simp] theorem setF_fwDigest (f : Fld) (v i j : Nat) : (setF s f v i j).fwDigest = s.fwDigest := rfl
@[simp] theorem setF_aliasKey (f : Fld) (v i j : Nat) : (setF s f v i j).aliasKey = s.aliasKey := rfl
@[simp] theorem setF_flash (f : Fld) (v i j : Nat) : (setF s f v i j).flash = s.flash := rfl
@[simp] theorem setF_recov (f : Fld) (v i j : Nat) : (setF s f v i j).recov = s.recov := rfl
@[simp] theorem setF_cfg (f : Fld) (v i j : Nat) : (setF s f v i j).cfg = s.cfg := rfl
@[simp] theorem setF_fab (f : Fld) (v i j : Nat) : (setF s f v i j).fab = s.fab := rfl
@[simp] theorem setF_vccio (f : Fld) (v i j : Nat) : (setF s f v i j).vccio = s.vccio := rfl
@[simp] theorem setF_macRx (f : Fld) (v i j : Nat) : (setF s f v i j).macRx = s.macRx := rfl
@[simp] theorem setF_macTx (f : Fld) (v i j : Nat) : (setF s f v i j).macTx = s.macTx := rfl
@[simp] theorem setF_macTake (f : Fld) (v i j : Nat) : (setF s f v i j).macTake = s.macTake := rfl
@[simp] theorem setF_droop (f : Fld) (v i j : Nat) : (setF s f v i j).droop = s.droop := rfl
@[simp] theorem setF_capOver (f : Fld) (v i j : Nat) : (setF s f v i j).capOver = s.capOver := rfl
@[simp] theorem setF_hotReads (f : Fld) (v i j : Nat) : (setF s f v i j).hotReads = s.hotReads := rfl
@[simp] theorem setF_doeHeld (f : Fld) (v i j : Nat) : (setF s f v i j).doeHeld = s.doeHeld := rfl
@[simp] theorem setF_svcHeld (f : Fld) (v i j : Nat) : (setF s f v i j).svcHeld = s.svcHeld := rfl
@[simp] theorem setF_tapIr (f : Fld) (v i j : Nat) : (setF s f v i j).tapIr = s.tapIr := rfl
@[simp] theorem setF_tapSel (f : Fld) (v i j : Nat) : (setF s f v i j).tapSel = s.tapSel := rfl
@[simp] theorem setF_tapNext (f : Fld) (v i j : Nat) : (setF s f v i j).tapNext = s.tapNext := rfl
@[simp] theorem setF_bscan (f : Fld) (v i j : Nat) : (setF s f v i j).bscan = s.bscan := rfl
@[simp] theorem setF_tile_read (f : Fld) (v i j : Nat) (q : Nat) : State.tile (setF s f v i j) q = State.tile s q := rfl
@[simp] theorem setF_panel_read (f : Fld) (v i j : Nat) (q : Nat) : State.panel (setF s f v i j) q = State.panel s q := rfl
@[simp] theorem setF_stitch_read (f : Fld) (v i j : Nat) (q : Nat) : State.stitch (setF s f v i j) q = State.stitch s q := rfl
@[simp] theorem setF_chan_read (f : Fld) (v i j : Nat) (q r : Nat) : State.chan (setF s f v i j) q r = State.chan s q r := rfl
@[simp] theorem setF_ctr_read (f : Fld) (v i j : Nat) (q : Nat) : State.ctr (setF s f v i j) q = State.ctr s q := rfl
@[simp] theorem setF_hem_read (f : Fld) (v i j : Nat) (q : Nat) : State.hem (setF s f v i j) q = State.hem s q := rfl
@[simp] theorem setF_lnk_read (f : Fld) (v i j : Nat) (q : Nat) : State.lnk (setF s f v i j) q = State.lnk s q := rfl
@[simp] theorem setF_mp_read (f : Fld) (v i j : Nat) (q : Nat) : State.mp (setF s f v i j) q = State.mp s q := rfl
@[simp] theorem setF_link_read (f : Fld) (v i j : Nat) (q r : Nat) : State.link (setF s f v i j) q r = State.link s q r := rfl

/-! ### setFbit -/

@[simp] theorem setFbit_pending (f : Fld) (b : Nat) (v : Bool) (i j : Nat) : (setFbit s f b v i j).pending = s.pending := rfl
@[simp] theorem setFbit_holdR (f : Fld) (b : Nat) (v : Bool) (i j : Nat) : (setFbit s f b v i j).holdR = s.holdR := rfl
@[simp] theorem setFbit_heldW (f : Fld) (b : Nat) (v : Bool) (i j : Nat) : (setFbit s f b v i j).heldW = s.heldW := rfl
@[simp] theorem setFbit_out (f : Fld) (b : Nat) (v : Bool) (i j : Nat) : (setFbit s f b v i j).out = s.out := rfl
@[simp] theorem setFbit_draws (f : Fld) (b : Nat) (v : Bool) (i j : Nat) : (setFbit s f b v i j).draws = s.draws := rfl
@[simp] theorem setFbit_tiles (f : Fld) (b : Nat) (v : Bool) (i j : Nat) : (setFbit s f b v i j).tiles = s.tiles := rfl
@[simp] theorem setFbit_flights (f : Fld) (b : Nat) (v : Bool) (i j : Nat) : (setFbit s f b v i j).flights = s.flights := rfl
@[simp] theorem setFbit_nextId (f : Fld) (b : Nat) (v : Bool) (i j : Nat) : (setFbit s f b v i j).nextId = s.nextId := rfl
@[simp] theorem setFbit_stitches (f : Fld) (b : Nat) (v : Bool) (i j : Nat) : (setFbit s f b v i j).stitches = s.stitches := rfl
@[simp] theorem setFbit_links (f : Fld) (b : Nat) (v : Bool) (i j : Nat) : (setFbit s f b v i j).links = s.links := rfl
@[simp] theorem setFbit_torn (f : Fld) (b : Nat) (v : Bool) (i j : Nat) : (setFbit s f b v i j).torn = s.torn := rfl
@[simp] theorem setFbit_takeover (f : Fld) (b : Nat) (v : Bool) (i j : Nat) : (setFbit s f b v i j).takeover = s.takeover := rfl
@[simp] theorem setFbit_spent (f : Fld) (b : Nat) (v : Bool) (i j : Nat) : (setFbit s f b v i j).spent = s.spent := rfl
@[simp] theorem setFbit_panels (f : Fld) (b : Nat) (v : Bool) (i j : Nat) : (setFbit s f b v i j).panels = s.panels := rfl
@[simp] theorem setFbit_profileFresh (f : Fld) (b : Nat) (v : Bool) (i j : Nat) : (setFbit s f b v i j).profileFresh = s.profileFresh := rfl
@[simp] theorem setFbit_ctrs (f : Fld) (b : Nat) (v : Bool) (i j : Nat) : (setFbit s f b v i j).ctrs = s.ctrs := rfl
@[simp] theorem setFbit_faultQ (f : Fld) (b : Nat) (v : Bool) (i j : Nat) : (setFbit s f b v i j).faultQ = s.faultQ := rfl
@[simp] theorem setFbit_faultPend (f : Fld) (b : Nat) (v : Bool) (i j : Nat) : (setFbit s f b v i j).faultPend = s.faultPend := rfl
@[simp] theorem setFbit_lostPend (f : Fld) (b : Nat) (v : Bool) (i j : Nat) : (setFbit s f b v i j).lostPend = s.lostPend := rfl
@[simp] theorem setFbit_errLog (f : Fld) (b : Nat) (v : Bool) (i j : Nat) : (setFbit s f b v i j).errLog = s.errLog := rfl
@[simp] theorem setFbit_frzReq (f : Fld) (b : Nat) (v : Bool) (i j : Nat) : (setFbit s f b v i j).frzReq = s.frzReq := rfl
@[simp] theorem setFbit_fuses (f : Fld) (b : Nat) (v : Bool) (i j : Nat) : (setFbit s f b v i j).fuses = s.fuses := rfl
@[simp] theorem setFbit_fuseErr (f : Fld) (b : Nat) (v : Bool) (i j : Nat) : (setFbit s f b v i j).fuseErr = s.fuseErr := rfl
@[simp] theorem setFbit_hbm (f : Fld) (b : Nat) (v : Bool) (i j : Nat) : (setFbit s f b v i j).hbm = s.hbm := rfl
@[simp] theorem setFbit_chans (f : Fld) (b : Nat) (v : Bool) (i j : Nat) : (setFbit s f b v i j).chans = s.chans := rfl
@[simp] theorem setFbit_movTurn (f : Fld) (b : Nat) (v : Bool) (i j : Nat) : (setFbit s f b v i j).movTurn = s.movTurn := rfl
@[simp] theorem setFbit_lan (f : Fld) (b : Nat) (v : Bool) (i j : Nat) : (setFbit s f b v i j).lan = s.lan := rfl
@[simp] theorem setFbit_lanes (f : Fld) (b : Nat) (v : Bool) (i j : Nat) : (setFbit s f b v i j).lanes = s.lanes := rfl
@[simp] theorem setFbit_hems (f : Fld) (b : Nat) (v : Bool) (i j : Nat) : (setFbit s f b v i j).hems = s.hems := rfl
@[simp] theorem setFbit_mps (f : Fld) (b : Nat) (v : Bool) (i j : Nat) : (setFbit s f b v i j).mps = s.mps := rfl
@[simp] theorem setFbit_pcieUp (f : Fld) (b : Nat) (v : Bool) (i j : Nat) : (setFbit s f b v i j).pcieUp = s.pcieUp := rfl
@[simp] theorem setFbit_pciCfg (f : Fld) (b : Nat) (v : Bool) (i j : Nat) : (setFbit s f b v i j).pciCfg = s.pciCfg := rfl
@[simp] theorem setFbit_atc (f : Fld) (b : Nat) (v : Bool) (i j : Nat) : (setFbit s f b v i j).atc = s.atc := rfl
@[simp] theorem setFbit_priStopped (f : Fld) (b : Nat) (v : Bool) (i j : Nat) : (setFbit s f b v i j).priStopped = s.priStopped := rfl
@[simp] theorem setFbit_invalidating (f : Fld) (b : Nat) (v : Bool) (i j : Nat) : (setFbit s f b v i j).invalidating = s.invalidating := rfl
@[simp] theorem setFbit_msix (f : Fld) (b : Nat) (v : Bool) (i j : Nat) : (setFbit s f b v i j).msix = s.msix := rfl
@[simp] theorem setFbit_pba (f : Fld) (b : Nat) (v : Bool) (i j : Nat) : (setFbit s f b v i j).pba = s.pba := rfl
@[simp] theorem setFbit_msixEn (f : Fld) (b : Nat) (v : Bool) (i j : Nat) : (setFbit s f b v i j).msixEn = s.msixEn := rfl
@[simp] theorem setFbit_msixMaskAll (f : Fld) (b : Nat) (v : Bool) (i j : Nat) : (setFbit s f b v i j).msixMaskAll = s.msixMaskAll := rfl
@[simp] theorem setFbit_chunks (f : Fld) (b : Nat) (v : Bool) (i j : Nat) : (setFbit s f b v i j).chunks = s.chunks := rfl
@[simp] theorem setFbit_bsnap (f : Fld) (b : Nat) (v : Bool) (i j : Nat) : (setFbit s f b v i j).bsnap = s.bsnap := rfl
@[simp] theorem setFbit_frzFull (f : Fld) (b : Nat) (v : Bool) (i j : Nat) : (setFbit s f b v i j).frzFull = s.frzFull := rfl
@[simp] theorem setFbit_frzHeld (f : Fld) (b : Nat) (v : Bool) (i j : Nat) : (setFbit s f b v i j).frzHeld = s.frzHeld := rfl
@[simp] theorem setFbit_frzPin (f : Fld) (b : Nat) (v : Bool) (i j : Nat) : (setFbit s f b v i j).frzPin = s.frzPin := rfl
@[simp] theorem setFbit_shutdown (f : Fld) (b : Nat) (v : Bool) (i j : Nat) : (setFbit s f b v i j).shutdown = s.shutdown := rfl
@[simp] theorem setFbit_booted (f : Fld) (b : Nat) (v : Bool) (i j : Nat) : (setFbit s f b v i j).booted = s.booted := rfl
@[simp] theorem setFbit_coldBoot (f : Fld) (b : Nat) (v : Bool) (i j : Nat) : (setFbit s f b v i j).coldBoot = s.coldBoot := rfl
@[simp] theorem setFbit_boots (f : Fld) (b : Nat) (v : Bool) (i j : Nat) : (setFbit s f b v i j).boots = s.boots := rfl
@[simp] theorem setFbit_perst (f : Fld) (b : Nat) (v : Bool) (i j : Nat) : (setFbit s f b v i j).perst = s.perst := rfl
@[simp] theorem setFbit_warming (f : Fld) (b : Nat) (v : Bool) (i j : Nat) : (setFbit s f b v i j).warming = s.warming := rfl
@[simp] theorem setFbit_bbox (f : Fld) (b : Nat) (v : Bool) (i j : Nat) : (setFbit s f b v i j).bbox = s.bbox := rfl
@[simp] theorem setFbit_bbBreak (f : Fld) (b : Nat) (v : Bool) (i j : Nat) : (setFbit s f b v i j).bbBreak = s.bbBreak := rfl
@[simp] theorem setFbit_sinceSum (f : Fld) (b : Nat) (v : Bool) (i j : Nat) : (setFbit s f b v i j).sinceSum = s.sinceSum := rfl
@[simp] theorem setFbit_bbHost (f : Fld) (b : Nat) (v : Bool) (i j : Nat) : (setFbit s f b v i j).bbHost = s.bbHost := rfl
@[simp] theorem setFbit_failed (f : Fld) (b : Nat) (v : Bool) (i j : Nat) : (setFbit s f b v i j).failed = s.failed := rfl
@[simp] theorem setFbit_soft (f : Fld) (b : Nat) (v : Bool) (i j : Nat) : (setFbit s f b v i j).soft = s.soft := rfl
@[simp] theorem setFbit_vfuse (f : Fld) (b : Nat) (v : Bool) (i j : Nat) : (setFbit s f b v i j).vfuse = s.vfuse := rfl
@[simp] theorem setFbit_locked (f : Fld) (b : Nat) (v : Bool) (i j : Nat) : (setFbit s f b v i j).locked = s.locked := rfl
@[simp] theorem setFbit_fwKey (f : Fld) (b : Nat) (v : Bool) (i j : Nat) : (setFbit s f b v i j).fwKey = s.fwKey := rfl
@[simp] theorem setFbit_fwVer (f : Fld) (b : Nat) (v : Bool) (i j : Nat) : (setFbit s f b v i j).fwVer = s.fwVer := rfl
@[simp] theorem setFbit_fwDigest (f : Fld) (b : Nat) (v : Bool) (i j : Nat) : (setFbit s f b v i j).fwDigest = s.fwDigest := rfl
@[simp] theorem setFbit_aliasKey (f : Fld) (b : Nat) (v : Bool) (i j : Nat) : (setFbit s f b v i j).aliasKey = s.aliasKey := rfl
@[simp] theorem setFbit_flash (f : Fld) (b : Nat) (v : Bool) (i j : Nat) : (setFbit s f b v i j).flash = s.flash := rfl
@[simp] theorem setFbit_recov (f : Fld) (b : Nat) (v : Bool) (i j : Nat) : (setFbit s f b v i j).recov = s.recov := rfl
@[simp] theorem setFbit_cfg (f : Fld) (b : Nat) (v : Bool) (i j : Nat) : (setFbit s f b v i j).cfg = s.cfg := rfl
@[simp] theorem setFbit_fab (f : Fld) (b : Nat) (v : Bool) (i j : Nat) : (setFbit s f b v i j).fab = s.fab := rfl
@[simp] theorem setFbit_vccio (f : Fld) (b : Nat) (v : Bool) (i j : Nat) : (setFbit s f b v i j).vccio = s.vccio := rfl
@[simp] theorem setFbit_macRx (f : Fld) (b : Nat) (v : Bool) (i j : Nat) : (setFbit s f b v i j).macRx = s.macRx := rfl
@[simp] theorem setFbit_macTx (f : Fld) (b : Nat) (v : Bool) (i j : Nat) : (setFbit s f b v i j).macTx = s.macTx := rfl
@[simp] theorem setFbit_macTake (f : Fld) (b : Nat) (v : Bool) (i j : Nat) : (setFbit s f b v i j).macTake = s.macTake := rfl
@[simp] theorem setFbit_droop (f : Fld) (b : Nat) (v : Bool) (i j : Nat) : (setFbit s f b v i j).droop = s.droop := rfl
@[simp] theorem setFbit_capOver (f : Fld) (b : Nat) (v : Bool) (i j : Nat) : (setFbit s f b v i j).capOver = s.capOver := rfl
@[simp] theorem setFbit_hotReads (f : Fld) (b : Nat) (v : Bool) (i j : Nat) : (setFbit s f b v i j).hotReads = s.hotReads := rfl
@[simp] theorem setFbit_doeHeld (f : Fld) (b : Nat) (v : Bool) (i j : Nat) : (setFbit s f b v i j).doeHeld = s.doeHeld := rfl
@[simp] theorem setFbit_svcHeld (f : Fld) (b : Nat) (v : Bool) (i j : Nat) : (setFbit s f b v i j).svcHeld = s.svcHeld := rfl
@[simp] theorem setFbit_tapIr (f : Fld) (b : Nat) (v : Bool) (i j : Nat) : (setFbit s f b v i j).tapIr = s.tapIr := rfl
@[simp] theorem setFbit_tapSel (f : Fld) (b : Nat) (v : Bool) (i j : Nat) : (setFbit s f b v i j).tapSel = s.tapSel := rfl
@[simp] theorem setFbit_tapNext (f : Fld) (b : Nat) (v : Bool) (i j : Nat) : (setFbit s f b v i j).tapNext = s.tapNext := rfl
@[simp] theorem setFbit_bscan (f : Fld) (b : Nat) (v : Bool) (i j : Nat) : (setFbit s f b v i j).bscan = s.bscan := rfl
@[simp] theorem setFbit_tile_read (f : Fld) (b : Nat) (v : Bool) (i j : Nat) (q : Nat) : State.tile (setFbit s f b v i j) q = State.tile s q := rfl
@[simp] theorem setFbit_panel_read (f : Fld) (b : Nat) (v : Bool) (i j : Nat) (q : Nat) : State.panel (setFbit s f b v i j) q = State.panel s q := rfl
@[simp] theorem setFbit_stitch_read (f : Fld) (b : Nat) (v : Bool) (i j : Nat) (q : Nat) : State.stitch (setFbit s f b v i j) q = State.stitch s q := rfl
@[simp] theorem setFbit_chan_read (f : Fld) (b : Nat) (v : Bool) (i j : Nat) (q r : Nat) : State.chan (setFbit s f b v i j) q r = State.chan s q r := rfl
@[simp] theorem setFbit_ctr_read (f : Fld) (b : Nat) (v : Bool) (i j : Nat) (q : Nat) : State.ctr (setFbit s f b v i j) q = State.ctr s q := rfl
@[simp] theorem setFbit_hem_read (f : Fld) (b : Nat) (v : Bool) (i j : Nat) (q : Nat) : State.hem (setFbit s f b v i j) q = State.hem s q := rfl
@[simp] theorem setFbit_lnk_read (f : Fld) (b : Nat) (v : Bool) (i j : Nat) (q : Nat) : State.lnk (setFbit s f b v i j) q = State.lnk s q := rfl
@[simp] theorem setFbit_mp_read (f : Fld) (b : Nat) (v : Bool) (i j : Nat) (q : Nat) : State.mp (setFbit s f b v i j) q = State.mp s q := rfl
@[simp] theorem setFbit_link_read (f : Fld) (b : Nat) (v : Bool) (i j : Nat) (q r : Nat) : State.link (setFbit s f b v i j) q r = State.link s q r := rfl

/-! ### bumpF -/

@[simp] theorem bumpF_pending (f : Fld) (n i j : Nat) : (bumpF s f n i j).pending = s.pending := rfl
@[simp] theorem bumpF_holdR (f : Fld) (n i j : Nat) : (bumpF s f n i j).holdR = s.holdR := rfl
@[simp] theorem bumpF_heldW (f : Fld) (n i j : Nat) : (bumpF s f n i j).heldW = s.heldW := rfl
@[simp] theorem bumpF_out (f : Fld) (n i j : Nat) : (bumpF s f n i j).out = s.out := rfl
@[simp] theorem bumpF_draws (f : Fld) (n i j : Nat) : (bumpF s f n i j).draws = s.draws := rfl
@[simp] theorem bumpF_tiles (f : Fld) (n i j : Nat) : (bumpF s f n i j).tiles = s.tiles := rfl
@[simp] theorem bumpF_flights (f : Fld) (n i j : Nat) : (bumpF s f n i j).flights = s.flights := rfl
@[simp] theorem bumpF_nextId (f : Fld) (n i j : Nat) : (bumpF s f n i j).nextId = s.nextId := rfl
@[simp] theorem bumpF_stitches (f : Fld) (n i j : Nat) : (bumpF s f n i j).stitches = s.stitches := rfl
@[simp] theorem bumpF_links (f : Fld) (n i j : Nat) : (bumpF s f n i j).links = s.links := rfl
@[simp] theorem bumpF_torn (f : Fld) (n i j : Nat) : (bumpF s f n i j).torn = s.torn := rfl
@[simp] theorem bumpF_takeover (f : Fld) (n i j : Nat) : (bumpF s f n i j).takeover = s.takeover := rfl
@[simp] theorem bumpF_spent (f : Fld) (n i j : Nat) : (bumpF s f n i j).spent = s.spent := rfl
@[simp] theorem bumpF_panels (f : Fld) (n i j : Nat) : (bumpF s f n i j).panels = s.panels := rfl
@[simp] theorem bumpF_profileFresh (f : Fld) (n i j : Nat) : (bumpF s f n i j).profileFresh = s.profileFresh := rfl
@[simp] theorem bumpF_ctrs (f : Fld) (n i j : Nat) : (bumpF s f n i j).ctrs = s.ctrs := rfl
@[simp] theorem bumpF_faultQ (f : Fld) (n i j : Nat) : (bumpF s f n i j).faultQ = s.faultQ := rfl
@[simp] theorem bumpF_faultPend (f : Fld) (n i j : Nat) : (bumpF s f n i j).faultPend = s.faultPend := rfl
@[simp] theorem bumpF_lostPend (f : Fld) (n i j : Nat) : (bumpF s f n i j).lostPend = s.lostPend := rfl
@[simp] theorem bumpF_errLog (f : Fld) (n i j : Nat) : (bumpF s f n i j).errLog = s.errLog := rfl
@[simp] theorem bumpF_frzReq (f : Fld) (n i j : Nat) : (bumpF s f n i j).frzReq = s.frzReq := rfl
@[simp] theorem bumpF_fuses (f : Fld) (n i j : Nat) : (bumpF s f n i j).fuses = s.fuses := rfl
@[simp] theorem bumpF_fuseErr (f : Fld) (n i j : Nat) : (bumpF s f n i j).fuseErr = s.fuseErr := rfl
@[simp] theorem bumpF_hbm (f : Fld) (n i j : Nat) : (bumpF s f n i j).hbm = s.hbm := rfl
@[simp] theorem bumpF_chans (f : Fld) (n i j : Nat) : (bumpF s f n i j).chans = s.chans := rfl
@[simp] theorem bumpF_movTurn (f : Fld) (n i j : Nat) : (bumpF s f n i j).movTurn = s.movTurn := rfl
@[simp] theorem bumpF_lan (f : Fld) (n i j : Nat) : (bumpF s f n i j).lan = s.lan := rfl
@[simp] theorem bumpF_lanes (f : Fld) (n i j : Nat) : (bumpF s f n i j).lanes = s.lanes := rfl
@[simp] theorem bumpF_hems (f : Fld) (n i j : Nat) : (bumpF s f n i j).hems = s.hems := rfl
@[simp] theorem bumpF_mps (f : Fld) (n i j : Nat) : (bumpF s f n i j).mps = s.mps := rfl
@[simp] theorem bumpF_pcieUp (f : Fld) (n i j : Nat) : (bumpF s f n i j).pcieUp = s.pcieUp := rfl
@[simp] theorem bumpF_pciCfg (f : Fld) (n i j : Nat) : (bumpF s f n i j).pciCfg = s.pciCfg := rfl
@[simp] theorem bumpF_atc (f : Fld) (n i j : Nat) : (bumpF s f n i j).atc = s.atc := rfl
@[simp] theorem bumpF_priStopped (f : Fld) (n i j : Nat) : (bumpF s f n i j).priStopped = s.priStopped := rfl
@[simp] theorem bumpF_invalidating (f : Fld) (n i j : Nat) : (bumpF s f n i j).invalidating = s.invalidating := rfl
@[simp] theorem bumpF_msix (f : Fld) (n i j : Nat) : (bumpF s f n i j).msix = s.msix := rfl
@[simp] theorem bumpF_pba (f : Fld) (n i j : Nat) : (bumpF s f n i j).pba = s.pba := rfl
@[simp] theorem bumpF_msixEn (f : Fld) (n i j : Nat) : (bumpF s f n i j).msixEn = s.msixEn := rfl
@[simp] theorem bumpF_msixMaskAll (f : Fld) (n i j : Nat) : (bumpF s f n i j).msixMaskAll = s.msixMaskAll := rfl
@[simp] theorem bumpF_chunks (f : Fld) (n i j : Nat) : (bumpF s f n i j).chunks = s.chunks := rfl
@[simp] theorem bumpF_bsnap (f : Fld) (n i j : Nat) : (bumpF s f n i j).bsnap = s.bsnap := rfl
@[simp] theorem bumpF_frzFull (f : Fld) (n i j : Nat) : (bumpF s f n i j).frzFull = s.frzFull := rfl
@[simp] theorem bumpF_frzHeld (f : Fld) (n i j : Nat) : (bumpF s f n i j).frzHeld = s.frzHeld := rfl
@[simp] theorem bumpF_frzPin (f : Fld) (n i j : Nat) : (bumpF s f n i j).frzPin = s.frzPin := rfl
@[simp] theorem bumpF_shutdown (f : Fld) (n i j : Nat) : (bumpF s f n i j).shutdown = s.shutdown := rfl
@[simp] theorem bumpF_booted (f : Fld) (n i j : Nat) : (bumpF s f n i j).booted = s.booted := rfl
@[simp] theorem bumpF_coldBoot (f : Fld) (n i j : Nat) : (bumpF s f n i j).coldBoot = s.coldBoot := rfl
@[simp] theorem bumpF_boots (f : Fld) (n i j : Nat) : (bumpF s f n i j).boots = s.boots := rfl
@[simp] theorem bumpF_perst (f : Fld) (n i j : Nat) : (bumpF s f n i j).perst = s.perst := rfl
@[simp] theorem bumpF_warming (f : Fld) (n i j : Nat) : (bumpF s f n i j).warming = s.warming := rfl
@[simp] theorem bumpF_bbox (f : Fld) (n i j : Nat) : (bumpF s f n i j).bbox = s.bbox := rfl
@[simp] theorem bumpF_bbBreak (f : Fld) (n i j : Nat) : (bumpF s f n i j).bbBreak = s.bbBreak := rfl
@[simp] theorem bumpF_sinceSum (f : Fld) (n i j : Nat) : (bumpF s f n i j).sinceSum = s.sinceSum := rfl
@[simp] theorem bumpF_bbHost (f : Fld) (n i j : Nat) : (bumpF s f n i j).bbHost = s.bbHost := rfl
@[simp] theorem bumpF_failed (f : Fld) (n i j : Nat) : (bumpF s f n i j).failed = s.failed := rfl
@[simp] theorem bumpF_soft (f : Fld) (n i j : Nat) : (bumpF s f n i j).soft = s.soft := rfl
@[simp] theorem bumpF_vfuse (f : Fld) (n i j : Nat) : (bumpF s f n i j).vfuse = s.vfuse := rfl
@[simp] theorem bumpF_locked (f : Fld) (n i j : Nat) : (bumpF s f n i j).locked = s.locked := rfl
@[simp] theorem bumpF_fwKey (f : Fld) (n i j : Nat) : (bumpF s f n i j).fwKey = s.fwKey := rfl
@[simp] theorem bumpF_fwVer (f : Fld) (n i j : Nat) : (bumpF s f n i j).fwVer = s.fwVer := rfl
@[simp] theorem bumpF_fwDigest (f : Fld) (n i j : Nat) : (bumpF s f n i j).fwDigest = s.fwDigest := rfl
@[simp] theorem bumpF_aliasKey (f : Fld) (n i j : Nat) : (bumpF s f n i j).aliasKey = s.aliasKey := rfl
@[simp] theorem bumpF_flash (f : Fld) (n i j : Nat) : (bumpF s f n i j).flash = s.flash := rfl
@[simp] theorem bumpF_recov (f : Fld) (n i j : Nat) : (bumpF s f n i j).recov = s.recov := rfl
@[simp] theorem bumpF_cfg (f : Fld) (n i j : Nat) : (bumpF s f n i j).cfg = s.cfg := rfl
@[simp] theorem bumpF_fab (f : Fld) (n i j : Nat) : (bumpF s f n i j).fab = s.fab := rfl
@[simp] theorem bumpF_vccio (f : Fld) (n i j : Nat) : (bumpF s f n i j).vccio = s.vccio := rfl
@[simp] theorem bumpF_macRx (f : Fld) (n i j : Nat) : (bumpF s f n i j).macRx = s.macRx := rfl
@[simp] theorem bumpF_macTx (f : Fld) (n i j : Nat) : (bumpF s f n i j).macTx = s.macTx := rfl
@[simp] theorem bumpF_macTake (f : Fld) (n i j : Nat) : (bumpF s f n i j).macTake = s.macTake := rfl
@[simp] theorem bumpF_droop (f : Fld) (n i j : Nat) : (bumpF s f n i j).droop = s.droop := rfl
@[simp] theorem bumpF_capOver (f : Fld) (n i j : Nat) : (bumpF s f n i j).capOver = s.capOver := rfl
@[simp] theorem bumpF_hotReads (f : Fld) (n i j : Nat) : (bumpF s f n i j).hotReads = s.hotReads := rfl
@[simp] theorem bumpF_doeHeld (f : Fld) (n i j : Nat) : (bumpF s f n i j).doeHeld = s.doeHeld := rfl
@[simp] theorem bumpF_svcHeld (f : Fld) (n i j : Nat) : (bumpF s f n i j).svcHeld = s.svcHeld := rfl
@[simp] theorem bumpF_tapIr (f : Fld) (n i j : Nat) : (bumpF s f n i j).tapIr = s.tapIr := rfl
@[simp] theorem bumpF_tapSel (f : Fld) (n i j : Nat) : (bumpF s f n i j).tapSel = s.tapSel := rfl
@[simp] theorem bumpF_tapNext (f : Fld) (n i j : Nat) : (bumpF s f n i j).tapNext = s.tapNext := rfl
@[simp] theorem bumpF_bscan (f : Fld) (n i j : Nat) : (bumpF s f n i j).bscan = s.bscan := rfl
@[simp] theorem bumpF_tile_read (f : Fld) (n i j : Nat) (q : Nat) : State.tile (bumpF s f n i j) q = State.tile s q := rfl
@[simp] theorem bumpF_panel_read (f : Fld) (n i j : Nat) (q : Nat) : State.panel (bumpF s f n i j) q = State.panel s q := rfl
@[simp] theorem bumpF_stitch_read (f : Fld) (n i j : Nat) (q : Nat) : State.stitch (bumpF s f n i j) q = State.stitch s q := rfl
@[simp] theorem bumpF_chan_read (f : Fld) (n i j : Nat) (q r : Nat) : State.chan (bumpF s f n i j) q r = State.chan s q r := rfl
@[simp] theorem bumpF_ctr_read (f : Fld) (n i j : Nat) (q : Nat) : State.ctr (bumpF s f n i j) q = State.ctr s q := rfl
@[simp] theorem bumpF_hem_read (f : Fld) (n i j : Nat) (q : Nat) : State.hem (bumpF s f n i j) q = State.hem s q := rfl
@[simp] theorem bumpF_lnk_read (f : Fld) (n i j : Nat) (q : Nat) : State.lnk (bumpF s f n i j) q = State.lnk s q := rfl
@[simp] theorem bumpF_mp_read (f : Fld) (n i j : Nat) (q : Nat) : State.mp (bumpF s f n i j) q = State.mp s q := rfl
@[simp] theorem bumpF_link_read (f : Fld) (n i j : Nat) (q r : Nat) : State.link (bumpF s f n i j) q r = State.link s q r := rfl

/-! ### State.drawn -/

@[simp] theorem State.drawn_pending : (s.drawn).pending = s.pending := rfl
@[simp] theorem State.drawn_regs : (s.drawn).regs = s.regs := rfl
@[simp] theorem State.drawn_holdR : (s.drawn).holdR = s.holdR := rfl
@[simp] theorem State.drawn_heldW : (s.drawn).heldW = s.heldW := rfl
@[simp] theorem State.drawn_out : (s.drawn).out = s.out := rfl
@[simp] theorem State.drawn_tiles : (s.drawn).tiles = s.tiles := rfl
@[simp] theorem State.drawn_flights : (s.drawn).flights = s.flights := rfl
@[simp] theorem State.drawn_nextId : (s.drawn).nextId = s.nextId := rfl
@[simp] theorem State.drawn_stitches : (s.drawn).stitches = s.stitches := rfl
@[simp] theorem State.drawn_links : (s.drawn).links = s.links := rfl
@[simp] theorem State.drawn_torn : (s.drawn).torn = s.torn := rfl
@[simp] theorem State.drawn_takeover : (s.drawn).takeover = s.takeover := rfl
@[simp] theorem State.drawn_spent : (s.drawn).spent = s.spent := rfl
@[simp] theorem State.drawn_panels : (s.drawn).panels = s.panels := rfl
@[simp] theorem State.drawn_profileFresh : (s.drawn).profileFresh = s.profileFresh := rfl
@[simp] theorem State.drawn_ctrs : (s.drawn).ctrs = s.ctrs := rfl
@[simp] theorem State.drawn_faultQ : (s.drawn).faultQ = s.faultQ := rfl
@[simp] theorem State.drawn_faultPend : (s.drawn).faultPend = s.faultPend := rfl
@[simp] theorem State.drawn_lostPend : (s.drawn).lostPend = s.lostPend := rfl
@[simp] theorem State.drawn_errLog : (s.drawn).errLog = s.errLog := rfl
@[simp] theorem State.drawn_frzReq : (s.drawn).frzReq = s.frzReq := rfl
@[simp] theorem State.drawn_fuses : (s.drawn).fuses = s.fuses := rfl
@[simp] theorem State.drawn_fuseErr : (s.drawn).fuseErr = s.fuseErr := rfl
@[simp] theorem State.drawn_hbm : (s.drawn).hbm = s.hbm := rfl
@[simp] theorem State.drawn_chans : (s.drawn).chans = s.chans := rfl
@[simp] theorem State.drawn_movTurn : (s.drawn).movTurn = s.movTurn := rfl
@[simp] theorem State.drawn_lan : (s.drawn).lan = s.lan := rfl
@[simp] theorem State.drawn_lanes : (s.drawn).lanes = s.lanes := rfl
@[simp] theorem State.drawn_hems : (s.drawn).hems = s.hems := rfl
@[simp] theorem State.drawn_mps : (s.drawn).mps = s.mps := rfl
@[simp] theorem State.drawn_pcieUp : (s.drawn).pcieUp = s.pcieUp := rfl
@[simp] theorem State.drawn_pciCfg : (s.drawn).pciCfg = s.pciCfg := rfl
@[simp] theorem State.drawn_atc : (s.drawn).atc = s.atc := rfl
@[simp] theorem State.drawn_priStopped : (s.drawn).priStopped = s.priStopped := rfl
@[simp] theorem State.drawn_invalidating : (s.drawn).invalidating = s.invalidating := rfl
@[simp] theorem State.drawn_msix : (s.drawn).msix = s.msix := rfl
@[simp] theorem State.drawn_pba : (s.drawn).pba = s.pba := rfl
@[simp] theorem State.drawn_msixEn : (s.drawn).msixEn = s.msixEn := rfl
@[simp] theorem State.drawn_msixMaskAll : (s.drawn).msixMaskAll = s.msixMaskAll := rfl
@[simp] theorem State.drawn_chunks : (s.drawn).chunks = s.chunks := rfl
@[simp] theorem State.drawn_bsnap : (s.drawn).bsnap = s.bsnap := rfl
@[simp] theorem State.drawn_frzFull : (s.drawn).frzFull = s.frzFull := rfl
@[simp] theorem State.drawn_frzHeld : (s.drawn).frzHeld = s.frzHeld := rfl
@[simp] theorem State.drawn_frzPin : (s.drawn).frzPin = s.frzPin := rfl
@[simp] theorem State.drawn_shutdown : (s.drawn).shutdown = s.shutdown := rfl
@[simp] theorem State.drawn_booted : (s.drawn).booted = s.booted := rfl
@[simp] theorem State.drawn_coldBoot : (s.drawn).coldBoot = s.coldBoot := rfl
@[simp] theorem State.drawn_boots : (s.drawn).boots = s.boots := rfl
@[simp] theorem State.drawn_perst : (s.drawn).perst = s.perst := rfl
@[simp] theorem State.drawn_warming : (s.drawn).warming = s.warming := rfl
@[simp] theorem State.drawn_bbox : (s.drawn).bbox = s.bbox := rfl
@[simp] theorem State.drawn_bbBreak : (s.drawn).bbBreak = s.bbBreak := rfl
@[simp] theorem State.drawn_sinceSum : (s.drawn).sinceSum = s.sinceSum := rfl
@[simp] theorem State.drawn_bbHost : (s.drawn).bbHost = s.bbHost := rfl
@[simp] theorem State.drawn_failed : (s.drawn).failed = s.failed := rfl
@[simp] theorem State.drawn_soft : (s.drawn).soft = s.soft := rfl
@[simp] theorem State.drawn_vfuse : (s.drawn).vfuse = s.vfuse := rfl
@[simp] theorem State.drawn_locked : (s.drawn).locked = s.locked := rfl
@[simp] theorem State.drawn_fwKey : (s.drawn).fwKey = s.fwKey := rfl
@[simp] theorem State.drawn_fwVer : (s.drawn).fwVer = s.fwVer := rfl
@[simp] theorem State.drawn_fwDigest : (s.drawn).fwDigest = s.fwDigest := rfl
@[simp] theorem State.drawn_aliasKey : (s.drawn).aliasKey = s.aliasKey := rfl
@[simp] theorem State.drawn_flash : (s.drawn).flash = s.flash := rfl
@[simp] theorem State.drawn_recov : (s.drawn).recov = s.recov := rfl
@[simp] theorem State.drawn_cfg : (s.drawn).cfg = s.cfg := rfl
@[simp] theorem State.drawn_fab : (s.drawn).fab = s.fab := rfl
@[simp] theorem State.drawn_vccio : (s.drawn).vccio = s.vccio := rfl
@[simp] theorem State.drawn_macRx : (s.drawn).macRx = s.macRx := rfl
@[simp] theorem State.drawn_macTx : (s.drawn).macTx = s.macTx := rfl
@[simp] theorem State.drawn_macTake : (s.drawn).macTake = s.macTake := rfl
@[simp] theorem State.drawn_droop : (s.drawn).droop = s.droop := rfl
@[simp] theorem State.drawn_capOver : (s.drawn).capOver = s.capOver := rfl
@[simp] theorem State.drawn_hotReads : (s.drawn).hotReads = s.hotReads := rfl
@[simp] theorem State.drawn_doeHeld : (s.drawn).doeHeld = s.doeHeld := rfl
@[simp] theorem State.drawn_svcHeld : (s.drawn).svcHeld = s.svcHeld := rfl
@[simp] theorem State.drawn_tapIr : (s.drawn).tapIr = s.tapIr := rfl
@[simp] theorem State.drawn_tapSel : (s.drawn).tapSel = s.tapSel := rfl
@[simp] theorem State.drawn_tapNext : (s.drawn).tapNext = s.tapNext := rfl
@[simp] theorem State.drawn_bscan : (s.drawn).bscan = s.bscan := rfl
@[simp] theorem State.drawn_getF_read (y : Fld) (q r : Nat) : getF (s.drawn) y q r = getF s y q r := rfl
@[simp] theorem State.drawn_tile_read (q : Nat) : State.tile (s.drawn) q = State.tile s q := rfl
@[simp] theorem State.drawn_panel_read (q : Nat) : State.panel (s.drawn) q = State.panel s q := rfl
@[simp] theorem State.drawn_stitch_read (q : Nat) : State.stitch (s.drawn) q = State.stitch s q := rfl
@[simp] theorem State.drawn_chan_read (q r : Nat) : State.chan (s.drawn) q r = State.chan s q r := rfl
@[simp] theorem State.drawn_ctr_read (q : Nat) : State.ctr (s.drawn) q = State.ctr s q := rfl
@[simp] theorem State.drawn_hem_read (q : Nat) : State.hem (s.drawn) q = State.hem s q := rfl
@[simp] theorem State.drawn_lnk_read (q : Nat) : State.lnk (s.drawn) q = State.lnk s q := rfl
@[simp] theorem State.drawn_mp_read (q : Nat) : State.mp (s.drawn) q = State.mp s q := rfl
@[simp] theorem State.drawn_link_read (q r : Nat) : State.link (s.drawn) q r = State.link s q r := rfl

/-! ### State.setTile -/

@[simp] theorem State.setTile_pending (t : Nat) (x : Tile) : (s.setTile t x).pending = s.pending := rfl
@[simp] theorem State.setTile_regs (t : Nat) (x : Tile) : (s.setTile t x).regs = s.regs := rfl
@[simp] theorem State.setTile_holdR (t : Nat) (x : Tile) : (s.setTile t x).holdR = s.holdR := rfl
@[simp] theorem State.setTile_heldW (t : Nat) (x : Tile) : (s.setTile t x).heldW = s.heldW := rfl
@[simp] theorem State.setTile_out (t : Nat) (x : Tile) : (s.setTile t x).out = s.out := rfl
@[simp] theorem State.setTile_draws (t : Nat) (x : Tile) : (s.setTile t x).draws = s.draws := rfl
@[simp] theorem State.setTile_flights (t : Nat) (x : Tile) : (s.setTile t x).flights = s.flights := rfl
@[simp] theorem State.setTile_nextId (t : Nat) (x : Tile) : (s.setTile t x).nextId = s.nextId := rfl
@[simp] theorem State.setTile_stitches (t : Nat) (x : Tile) : (s.setTile t x).stitches = s.stitches := rfl
@[simp] theorem State.setTile_links (t : Nat) (x : Tile) : (s.setTile t x).links = s.links := rfl
@[simp] theorem State.setTile_torn (t : Nat) (x : Tile) : (s.setTile t x).torn = s.torn := rfl
@[simp] theorem State.setTile_takeover (t : Nat) (x : Tile) : (s.setTile t x).takeover = s.takeover := rfl
@[simp] theorem State.setTile_spent (t : Nat) (x : Tile) : (s.setTile t x).spent = s.spent := rfl
@[simp] theorem State.setTile_panels (t : Nat) (x : Tile) : (s.setTile t x).panels = s.panels := rfl
@[simp] theorem State.setTile_profileFresh (t : Nat) (x : Tile) : (s.setTile t x).profileFresh = s.profileFresh := rfl
@[simp] theorem State.setTile_ctrs (t : Nat) (x : Tile) : (s.setTile t x).ctrs = s.ctrs := rfl
@[simp] theorem State.setTile_faultQ (t : Nat) (x : Tile) : (s.setTile t x).faultQ = s.faultQ := rfl
@[simp] theorem State.setTile_faultPend (t : Nat) (x : Tile) : (s.setTile t x).faultPend = s.faultPend := rfl
@[simp] theorem State.setTile_lostPend (t : Nat) (x : Tile) : (s.setTile t x).lostPend = s.lostPend := rfl
@[simp] theorem State.setTile_errLog (t : Nat) (x : Tile) : (s.setTile t x).errLog = s.errLog := rfl
@[simp] theorem State.setTile_frzReq (t : Nat) (x : Tile) : (s.setTile t x).frzReq = s.frzReq := rfl
@[simp] theorem State.setTile_fuses (t : Nat) (x : Tile) : (s.setTile t x).fuses = s.fuses := rfl
@[simp] theorem State.setTile_fuseErr (t : Nat) (x : Tile) : (s.setTile t x).fuseErr = s.fuseErr := rfl
@[simp] theorem State.setTile_hbm (t : Nat) (x : Tile) : (s.setTile t x).hbm = s.hbm := rfl
@[simp] theorem State.setTile_chans (t : Nat) (x : Tile) : (s.setTile t x).chans = s.chans := rfl
@[simp] theorem State.setTile_movTurn (t : Nat) (x : Tile) : (s.setTile t x).movTurn = s.movTurn := rfl
@[simp] theorem State.setTile_lan (t : Nat) (x : Tile) : (s.setTile t x).lan = s.lan := rfl
@[simp] theorem State.setTile_lanes (t : Nat) (x : Tile) : (s.setTile t x).lanes = s.lanes := rfl
@[simp] theorem State.setTile_hems (t : Nat) (x : Tile) : (s.setTile t x).hems = s.hems := rfl
@[simp] theorem State.setTile_mps (t : Nat) (x : Tile) : (s.setTile t x).mps = s.mps := rfl
@[simp] theorem State.setTile_pcieUp (t : Nat) (x : Tile) : (s.setTile t x).pcieUp = s.pcieUp := rfl
@[simp] theorem State.setTile_pciCfg (t : Nat) (x : Tile) : (s.setTile t x).pciCfg = s.pciCfg := rfl
@[simp] theorem State.setTile_atc (t : Nat) (x : Tile) : (s.setTile t x).atc = s.atc := rfl
@[simp] theorem State.setTile_priStopped (t : Nat) (x : Tile) : (s.setTile t x).priStopped = s.priStopped := rfl
@[simp] theorem State.setTile_invalidating (t : Nat) (x : Tile) : (s.setTile t x).invalidating = s.invalidating := rfl
@[simp] theorem State.setTile_msix (t : Nat) (x : Tile) : (s.setTile t x).msix = s.msix := rfl
@[simp] theorem State.setTile_pba (t : Nat) (x : Tile) : (s.setTile t x).pba = s.pba := rfl
@[simp] theorem State.setTile_msixEn (t : Nat) (x : Tile) : (s.setTile t x).msixEn = s.msixEn := rfl
@[simp] theorem State.setTile_msixMaskAll (t : Nat) (x : Tile) : (s.setTile t x).msixMaskAll = s.msixMaskAll := rfl
@[simp] theorem State.setTile_chunks (t : Nat) (x : Tile) : (s.setTile t x).chunks = s.chunks := rfl
@[simp] theorem State.setTile_bsnap (t : Nat) (x : Tile) : (s.setTile t x).bsnap = s.bsnap := rfl
@[simp] theorem State.setTile_frzFull (t : Nat) (x : Tile) : (s.setTile t x).frzFull = s.frzFull := rfl
@[simp] theorem State.setTile_frzHeld (t : Nat) (x : Tile) : (s.setTile t x).frzHeld = s.frzHeld := rfl
@[simp] theorem State.setTile_frzPin (t : Nat) (x : Tile) : (s.setTile t x).frzPin = s.frzPin := rfl
@[simp] theorem State.setTile_shutdown (t : Nat) (x : Tile) : (s.setTile t x).shutdown = s.shutdown := rfl
@[simp] theorem State.setTile_booted (t : Nat) (x : Tile) : (s.setTile t x).booted = s.booted := rfl
@[simp] theorem State.setTile_coldBoot (t : Nat) (x : Tile) : (s.setTile t x).coldBoot = s.coldBoot := rfl
@[simp] theorem State.setTile_boots (t : Nat) (x : Tile) : (s.setTile t x).boots = s.boots := rfl
@[simp] theorem State.setTile_perst (t : Nat) (x : Tile) : (s.setTile t x).perst = s.perst := rfl
@[simp] theorem State.setTile_warming (t : Nat) (x : Tile) : (s.setTile t x).warming = s.warming := rfl
@[simp] theorem State.setTile_bbox (t : Nat) (x : Tile) : (s.setTile t x).bbox = s.bbox := rfl
@[simp] theorem State.setTile_bbBreak (t : Nat) (x : Tile) : (s.setTile t x).bbBreak = s.bbBreak := rfl
@[simp] theorem State.setTile_sinceSum (t : Nat) (x : Tile) : (s.setTile t x).sinceSum = s.sinceSum := rfl
@[simp] theorem State.setTile_bbHost (t : Nat) (x : Tile) : (s.setTile t x).bbHost = s.bbHost := rfl
@[simp] theorem State.setTile_failed (t : Nat) (x : Tile) : (s.setTile t x).failed = s.failed := rfl
@[simp] theorem State.setTile_soft (t : Nat) (x : Tile) : (s.setTile t x).soft = s.soft := rfl
@[simp] theorem State.setTile_vfuse (t : Nat) (x : Tile) : (s.setTile t x).vfuse = s.vfuse := rfl
@[simp] theorem State.setTile_locked (t : Nat) (x : Tile) : (s.setTile t x).locked = s.locked := rfl
@[simp] theorem State.setTile_fwKey (t : Nat) (x : Tile) : (s.setTile t x).fwKey = s.fwKey := rfl
@[simp] theorem State.setTile_fwVer (t : Nat) (x : Tile) : (s.setTile t x).fwVer = s.fwVer := rfl
@[simp] theorem State.setTile_fwDigest (t : Nat) (x : Tile) : (s.setTile t x).fwDigest = s.fwDigest := rfl
@[simp] theorem State.setTile_aliasKey (t : Nat) (x : Tile) : (s.setTile t x).aliasKey = s.aliasKey := rfl
@[simp] theorem State.setTile_flash (t : Nat) (x : Tile) : (s.setTile t x).flash = s.flash := rfl
@[simp] theorem State.setTile_recov (t : Nat) (x : Tile) : (s.setTile t x).recov = s.recov := rfl
@[simp] theorem State.setTile_cfg (t : Nat) (x : Tile) : (s.setTile t x).cfg = s.cfg := rfl
@[simp] theorem State.setTile_fab (t : Nat) (x : Tile) : (s.setTile t x).fab = s.fab := rfl
@[simp] theorem State.setTile_vccio (t : Nat) (x : Tile) : (s.setTile t x).vccio = s.vccio := rfl
@[simp] theorem State.setTile_macRx (t : Nat) (x : Tile) : (s.setTile t x).macRx = s.macRx := rfl
@[simp] theorem State.setTile_macTx (t : Nat) (x : Tile) : (s.setTile t x).macTx = s.macTx := rfl
@[simp] theorem State.setTile_macTake (t : Nat) (x : Tile) : (s.setTile t x).macTake = s.macTake := rfl
@[simp] theorem State.setTile_droop (t : Nat) (x : Tile) : (s.setTile t x).droop = s.droop := rfl
@[simp] theorem State.setTile_capOver (t : Nat) (x : Tile) : (s.setTile t x).capOver = s.capOver := rfl
@[simp] theorem State.setTile_hotReads (t : Nat) (x : Tile) : (s.setTile t x).hotReads = s.hotReads := rfl
@[simp] theorem State.setTile_doeHeld (t : Nat) (x : Tile) : (s.setTile t x).doeHeld = s.doeHeld := rfl
@[simp] theorem State.setTile_svcHeld (t : Nat) (x : Tile) : (s.setTile t x).svcHeld = s.svcHeld := rfl
@[simp] theorem State.setTile_tapIr (t : Nat) (x : Tile) : (s.setTile t x).tapIr = s.tapIr := rfl
@[simp] theorem State.setTile_tapSel (t : Nat) (x : Tile) : (s.setTile t x).tapSel = s.tapSel := rfl
@[simp] theorem State.setTile_tapNext (t : Nat) (x : Tile) : (s.setTile t x).tapNext = s.tapNext := rfl
@[simp] theorem State.setTile_bscan (t : Nat) (x : Tile) : (s.setTile t x).bscan = s.bscan := rfl
@[simp] theorem State.setTile_getF_read (t : Nat) (x : Tile) (y : Fld) (q r : Nat) : getF (s.setTile t x) y q r = getF s y q r := rfl
@[simp] theorem State.setTile_panel_read (t : Nat) (x : Tile) (q : Nat) : State.panel (s.setTile t x) q = State.panel s q := rfl
@[simp] theorem State.setTile_stitch_read (t : Nat) (x : Tile) (q : Nat) : State.stitch (s.setTile t x) q = State.stitch s q := rfl
@[simp] theorem State.setTile_chan_read (t : Nat) (x : Tile) (q r : Nat) : State.chan (s.setTile t x) q r = State.chan s q r := rfl
@[simp] theorem State.setTile_ctr_read (t : Nat) (x : Tile) (q : Nat) : State.ctr (s.setTile t x) q = State.ctr s q := rfl
@[simp] theorem State.setTile_hem_read (t : Nat) (x : Tile) (q : Nat) : State.hem (s.setTile t x) q = State.hem s q := rfl
@[simp] theorem State.setTile_lnk_read (t : Nat) (x : Tile) (q : Nat) : State.lnk (s.setTile t x) q = State.lnk s q := rfl
@[simp] theorem State.setTile_mp_read (t : Nat) (x : Tile) (q : Nat) : State.mp (s.setTile t x) q = State.mp s q := rfl
@[simp] theorem State.setTile_link_read (t : Nat) (x : Tile) (q r : Nat) : State.link (s.setTile t x) q r = State.link s q r := rfl

/-! ### State.modTile -/

@[simp] theorem State.modTile_pending (t : Nat) (g : Tile → Tile) : (s.modTile t g).pending = s.pending := rfl
@[simp] theorem State.modTile_regs (t : Nat) (g : Tile → Tile) : (s.modTile t g).regs = s.regs := rfl
@[simp] theorem State.modTile_holdR (t : Nat) (g : Tile → Tile) : (s.modTile t g).holdR = s.holdR := rfl
@[simp] theorem State.modTile_heldW (t : Nat) (g : Tile → Tile) : (s.modTile t g).heldW = s.heldW := rfl
@[simp] theorem State.modTile_out (t : Nat) (g : Tile → Tile) : (s.modTile t g).out = s.out := rfl
@[simp] theorem State.modTile_draws (t : Nat) (g : Tile → Tile) : (s.modTile t g).draws = s.draws := rfl
@[simp] theorem State.modTile_flights (t : Nat) (g : Tile → Tile) : (s.modTile t g).flights = s.flights := rfl
@[simp] theorem State.modTile_nextId (t : Nat) (g : Tile → Tile) : (s.modTile t g).nextId = s.nextId := rfl
@[simp] theorem State.modTile_stitches (t : Nat) (g : Tile → Tile) : (s.modTile t g).stitches = s.stitches := rfl
@[simp] theorem State.modTile_links (t : Nat) (g : Tile → Tile) : (s.modTile t g).links = s.links := rfl
@[simp] theorem State.modTile_torn (t : Nat) (g : Tile → Tile) : (s.modTile t g).torn = s.torn := rfl
@[simp] theorem State.modTile_takeover (t : Nat) (g : Tile → Tile) : (s.modTile t g).takeover = s.takeover := rfl
@[simp] theorem State.modTile_spent (t : Nat) (g : Tile → Tile) : (s.modTile t g).spent = s.spent := rfl
@[simp] theorem State.modTile_panels (t : Nat) (g : Tile → Tile) : (s.modTile t g).panels = s.panels := rfl
@[simp] theorem State.modTile_profileFresh (t : Nat) (g : Tile → Tile) : (s.modTile t g).profileFresh = s.profileFresh := rfl
@[simp] theorem State.modTile_ctrs (t : Nat) (g : Tile → Tile) : (s.modTile t g).ctrs = s.ctrs := rfl
@[simp] theorem State.modTile_faultQ (t : Nat) (g : Tile → Tile) : (s.modTile t g).faultQ = s.faultQ := rfl
@[simp] theorem State.modTile_faultPend (t : Nat) (g : Tile → Tile) : (s.modTile t g).faultPend = s.faultPend := rfl
@[simp] theorem State.modTile_lostPend (t : Nat) (g : Tile → Tile) : (s.modTile t g).lostPend = s.lostPend := rfl
@[simp] theorem State.modTile_errLog (t : Nat) (g : Tile → Tile) : (s.modTile t g).errLog = s.errLog := rfl
@[simp] theorem State.modTile_frzReq (t : Nat) (g : Tile → Tile) : (s.modTile t g).frzReq = s.frzReq := rfl
@[simp] theorem State.modTile_fuses (t : Nat) (g : Tile → Tile) : (s.modTile t g).fuses = s.fuses := rfl
@[simp] theorem State.modTile_fuseErr (t : Nat) (g : Tile → Tile) : (s.modTile t g).fuseErr = s.fuseErr := rfl
@[simp] theorem State.modTile_hbm (t : Nat) (g : Tile → Tile) : (s.modTile t g).hbm = s.hbm := rfl
@[simp] theorem State.modTile_chans (t : Nat) (g : Tile → Tile) : (s.modTile t g).chans = s.chans := rfl
@[simp] theorem State.modTile_movTurn (t : Nat) (g : Tile → Tile) : (s.modTile t g).movTurn = s.movTurn := rfl
@[simp] theorem State.modTile_lan (t : Nat) (g : Tile → Tile) : (s.modTile t g).lan = s.lan := rfl
@[simp] theorem State.modTile_lanes (t : Nat) (g : Tile → Tile) : (s.modTile t g).lanes = s.lanes := rfl
@[simp] theorem State.modTile_hems (t : Nat) (g : Tile → Tile) : (s.modTile t g).hems = s.hems := rfl
@[simp] theorem State.modTile_mps (t : Nat) (g : Tile → Tile) : (s.modTile t g).mps = s.mps := rfl
@[simp] theorem State.modTile_pcieUp (t : Nat) (g : Tile → Tile) : (s.modTile t g).pcieUp = s.pcieUp := rfl
@[simp] theorem State.modTile_pciCfg (t : Nat) (g : Tile → Tile) : (s.modTile t g).pciCfg = s.pciCfg := rfl
@[simp] theorem State.modTile_atc (t : Nat) (g : Tile → Tile) : (s.modTile t g).atc = s.atc := rfl
@[simp] theorem State.modTile_priStopped (t : Nat) (g : Tile → Tile) : (s.modTile t g).priStopped = s.priStopped := rfl
@[simp] theorem State.modTile_invalidating (t : Nat) (g : Tile → Tile) : (s.modTile t g).invalidating = s.invalidating := rfl
@[simp] theorem State.modTile_msix (t : Nat) (g : Tile → Tile) : (s.modTile t g).msix = s.msix := rfl
@[simp] theorem State.modTile_pba (t : Nat) (g : Tile → Tile) : (s.modTile t g).pba = s.pba := rfl
@[simp] theorem State.modTile_msixEn (t : Nat) (g : Tile → Tile) : (s.modTile t g).msixEn = s.msixEn := rfl
@[simp] theorem State.modTile_msixMaskAll (t : Nat) (g : Tile → Tile) : (s.modTile t g).msixMaskAll = s.msixMaskAll := rfl
@[simp] theorem State.modTile_chunks (t : Nat) (g : Tile → Tile) : (s.modTile t g).chunks = s.chunks := rfl
@[simp] theorem State.modTile_bsnap (t : Nat) (g : Tile → Tile) : (s.modTile t g).bsnap = s.bsnap := rfl
@[simp] theorem State.modTile_frzFull (t : Nat) (g : Tile → Tile) : (s.modTile t g).frzFull = s.frzFull := rfl
@[simp] theorem State.modTile_frzHeld (t : Nat) (g : Tile → Tile) : (s.modTile t g).frzHeld = s.frzHeld := rfl
@[simp] theorem State.modTile_frzPin (t : Nat) (g : Tile → Tile) : (s.modTile t g).frzPin = s.frzPin := rfl
@[simp] theorem State.modTile_shutdown (t : Nat) (g : Tile → Tile) : (s.modTile t g).shutdown = s.shutdown := rfl
@[simp] theorem State.modTile_booted (t : Nat) (g : Tile → Tile) : (s.modTile t g).booted = s.booted := rfl
@[simp] theorem State.modTile_coldBoot (t : Nat) (g : Tile → Tile) : (s.modTile t g).coldBoot = s.coldBoot := rfl
@[simp] theorem State.modTile_boots (t : Nat) (g : Tile → Tile) : (s.modTile t g).boots = s.boots := rfl
@[simp] theorem State.modTile_perst (t : Nat) (g : Tile → Tile) : (s.modTile t g).perst = s.perst := rfl
@[simp] theorem State.modTile_warming (t : Nat) (g : Tile → Tile) : (s.modTile t g).warming = s.warming := rfl
@[simp] theorem State.modTile_bbox (t : Nat) (g : Tile → Tile) : (s.modTile t g).bbox = s.bbox := rfl
@[simp] theorem State.modTile_bbBreak (t : Nat) (g : Tile → Tile) : (s.modTile t g).bbBreak = s.bbBreak := rfl
@[simp] theorem State.modTile_sinceSum (t : Nat) (g : Tile → Tile) : (s.modTile t g).sinceSum = s.sinceSum := rfl
@[simp] theorem State.modTile_bbHost (t : Nat) (g : Tile → Tile) : (s.modTile t g).bbHost = s.bbHost := rfl
@[simp] theorem State.modTile_failed (t : Nat) (g : Tile → Tile) : (s.modTile t g).failed = s.failed := rfl
@[simp] theorem State.modTile_soft (t : Nat) (g : Tile → Tile) : (s.modTile t g).soft = s.soft := rfl
@[simp] theorem State.modTile_vfuse (t : Nat) (g : Tile → Tile) : (s.modTile t g).vfuse = s.vfuse := rfl
@[simp] theorem State.modTile_locked (t : Nat) (g : Tile → Tile) : (s.modTile t g).locked = s.locked := rfl
@[simp] theorem State.modTile_fwKey (t : Nat) (g : Tile → Tile) : (s.modTile t g).fwKey = s.fwKey := rfl
@[simp] theorem State.modTile_fwVer (t : Nat) (g : Tile → Tile) : (s.modTile t g).fwVer = s.fwVer := rfl
@[simp] theorem State.modTile_fwDigest (t : Nat) (g : Tile → Tile) : (s.modTile t g).fwDigest = s.fwDigest := rfl
@[simp] theorem State.modTile_aliasKey (t : Nat) (g : Tile → Tile) : (s.modTile t g).aliasKey = s.aliasKey := rfl
@[simp] theorem State.modTile_flash (t : Nat) (g : Tile → Tile) : (s.modTile t g).flash = s.flash := rfl
@[simp] theorem State.modTile_recov (t : Nat) (g : Tile → Tile) : (s.modTile t g).recov = s.recov := rfl
@[simp] theorem State.modTile_cfg (t : Nat) (g : Tile → Tile) : (s.modTile t g).cfg = s.cfg := rfl
@[simp] theorem State.modTile_fab (t : Nat) (g : Tile → Tile) : (s.modTile t g).fab = s.fab := rfl
@[simp] theorem State.modTile_vccio (t : Nat) (g : Tile → Tile) : (s.modTile t g).vccio = s.vccio := rfl
@[simp] theorem State.modTile_macRx (t : Nat) (g : Tile → Tile) : (s.modTile t g).macRx = s.macRx := rfl
@[simp] theorem State.modTile_macTx (t : Nat) (g : Tile → Tile) : (s.modTile t g).macTx = s.macTx := rfl
@[simp] theorem State.modTile_macTake (t : Nat) (g : Tile → Tile) : (s.modTile t g).macTake = s.macTake := rfl
@[simp] theorem State.modTile_droop (t : Nat) (g : Tile → Tile) : (s.modTile t g).droop = s.droop := rfl
@[simp] theorem State.modTile_capOver (t : Nat) (g : Tile → Tile) : (s.modTile t g).capOver = s.capOver := rfl
@[simp] theorem State.modTile_hotReads (t : Nat) (g : Tile → Tile) : (s.modTile t g).hotReads = s.hotReads := rfl
@[simp] theorem State.modTile_doeHeld (t : Nat) (g : Tile → Tile) : (s.modTile t g).doeHeld = s.doeHeld := rfl
@[simp] theorem State.modTile_svcHeld (t : Nat) (g : Tile → Tile) : (s.modTile t g).svcHeld = s.svcHeld := rfl
@[simp] theorem State.modTile_tapIr (t : Nat) (g : Tile → Tile) : (s.modTile t g).tapIr = s.tapIr := rfl
@[simp] theorem State.modTile_tapSel (t : Nat) (g : Tile → Tile) : (s.modTile t g).tapSel = s.tapSel := rfl
@[simp] theorem State.modTile_tapNext (t : Nat) (g : Tile → Tile) : (s.modTile t g).tapNext = s.tapNext := rfl
@[simp] theorem State.modTile_bscan (t : Nat) (g : Tile → Tile) : (s.modTile t g).bscan = s.bscan := rfl
@[simp] theorem State.modTile_getF_read (t : Nat) (g : Tile → Tile) (y : Fld) (q r : Nat) : getF (s.modTile t g) y q r = getF s y q r := rfl
@[simp] theorem State.modTile_panel_read (t : Nat) (g : Tile → Tile) (q : Nat) : State.panel (s.modTile t g) q = State.panel s q := rfl
@[simp] theorem State.modTile_stitch_read (t : Nat) (g : Tile → Tile) (q : Nat) : State.stitch (s.modTile t g) q = State.stitch s q := rfl
@[simp] theorem State.modTile_chan_read (t : Nat) (g : Tile → Tile) (q r : Nat) : State.chan (s.modTile t g) q r = State.chan s q r := rfl
@[simp] theorem State.modTile_ctr_read (t : Nat) (g : Tile → Tile) (q : Nat) : State.ctr (s.modTile t g) q = State.ctr s q := rfl
@[simp] theorem State.modTile_hem_read (t : Nat) (g : Tile → Tile) (q : Nat) : State.hem (s.modTile t g) q = State.hem s q := rfl
@[simp] theorem State.modTile_lnk_read (t : Nat) (g : Tile → Tile) (q : Nat) : State.lnk (s.modTile t g) q = State.lnk s q := rfl
@[simp] theorem State.modTile_mp_read (t : Nat) (g : Tile → Tile) (q : Nat) : State.mp (s.modTile t g) q = State.mp s q := rfl
@[simp] theorem State.modTile_link_read (t : Nat) (g : Tile → Tile) (q r : Nat) : State.link (s.modTile t g) q r = State.link s q r := rfl

/-! ### State.emit -/

@[simp] theorem State.emit_pending (k : OutKind) (a : List Nat) (b : List Byte) : (s.emit k a b).pending = s.pending := rfl
@[simp] theorem State.emit_regs (k : OutKind) (a : List Nat) (b : List Byte) : (s.emit k a b).regs = s.regs := rfl
@[simp] theorem State.emit_holdR (k : OutKind) (a : List Nat) (b : List Byte) : (s.emit k a b).holdR = s.holdR := rfl
@[simp] theorem State.emit_heldW (k : OutKind) (a : List Nat) (b : List Byte) : (s.emit k a b).heldW = s.heldW := rfl
@[simp] theorem State.emit_draws (k : OutKind) (a : List Nat) (b : List Byte) : (s.emit k a b).draws = s.draws := rfl
@[simp] theorem State.emit_tiles (k : OutKind) (a : List Nat) (b : List Byte) : (s.emit k a b).tiles = s.tiles := rfl
@[simp] theorem State.emit_flights (k : OutKind) (a : List Nat) (b : List Byte) : (s.emit k a b).flights = s.flights := rfl
@[simp] theorem State.emit_nextId (k : OutKind) (a : List Nat) (b : List Byte) : (s.emit k a b).nextId = s.nextId := rfl
@[simp] theorem State.emit_stitches (k : OutKind) (a : List Nat) (b : List Byte) : (s.emit k a b).stitches = s.stitches := rfl
@[simp] theorem State.emit_links (k : OutKind) (a : List Nat) (b : List Byte) : (s.emit k a b).links = s.links := rfl
@[simp] theorem State.emit_torn (k : OutKind) (a : List Nat) (b : List Byte) : (s.emit k a b).torn = s.torn := rfl
@[simp] theorem State.emit_takeover (k : OutKind) (a : List Nat) (b : List Byte) : (s.emit k a b).takeover = s.takeover := rfl
@[simp] theorem State.emit_spent (k : OutKind) (a : List Nat) (b : List Byte) : (s.emit k a b).spent = s.spent := rfl
@[simp] theorem State.emit_panels (k : OutKind) (a : List Nat) (b : List Byte) : (s.emit k a b).panels = s.panels := rfl
@[simp] theorem State.emit_profileFresh (k : OutKind) (a : List Nat) (b : List Byte) : (s.emit k a b).profileFresh = s.profileFresh := rfl
@[simp] theorem State.emit_ctrs (k : OutKind) (a : List Nat) (b : List Byte) : (s.emit k a b).ctrs = s.ctrs := rfl
@[simp] theorem State.emit_faultQ (k : OutKind) (a : List Nat) (b : List Byte) : (s.emit k a b).faultQ = s.faultQ := rfl
@[simp] theorem State.emit_faultPend (k : OutKind) (a : List Nat) (b : List Byte) : (s.emit k a b).faultPend = s.faultPend := rfl
@[simp] theorem State.emit_lostPend (k : OutKind) (a : List Nat) (b : List Byte) : (s.emit k a b).lostPend = s.lostPend := rfl
@[simp] theorem State.emit_errLog (k : OutKind) (a : List Nat) (b : List Byte) : (s.emit k a b).errLog = s.errLog := rfl
@[simp] theorem State.emit_frzReq (k : OutKind) (a : List Nat) (b : List Byte) : (s.emit k a b).frzReq = s.frzReq := rfl
@[simp] theorem State.emit_fuses (k : OutKind) (a : List Nat) (b : List Byte) : (s.emit k a b).fuses = s.fuses := rfl
@[simp] theorem State.emit_fuseErr (k : OutKind) (a : List Nat) (b : List Byte) : (s.emit k a b).fuseErr = s.fuseErr := rfl
@[simp] theorem State.emit_hbm (k : OutKind) (a : List Nat) (b : List Byte) : (s.emit k a b).hbm = s.hbm := rfl
@[simp] theorem State.emit_chans (k : OutKind) (a : List Nat) (b : List Byte) : (s.emit k a b).chans = s.chans := rfl
@[simp] theorem State.emit_movTurn (k : OutKind) (a : List Nat) (b : List Byte) : (s.emit k a b).movTurn = s.movTurn := rfl
@[simp] theorem State.emit_lan (k : OutKind) (a : List Nat) (b : List Byte) : (s.emit k a b).lan = s.lan := rfl
@[simp] theorem State.emit_lanes (k : OutKind) (a : List Nat) (b : List Byte) : (s.emit k a b).lanes = s.lanes := rfl
@[simp] theorem State.emit_hems (k : OutKind) (a : List Nat) (b : List Byte) : (s.emit k a b).hems = s.hems := rfl
@[simp] theorem State.emit_mps (k : OutKind) (a : List Nat) (b : List Byte) : (s.emit k a b).mps = s.mps := rfl
@[simp] theorem State.emit_pcieUp (k : OutKind) (a : List Nat) (b : List Byte) : (s.emit k a b).pcieUp = s.pcieUp := rfl
@[simp] theorem State.emit_pciCfg (k : OutKind) (a : List Nat) (b : List Byte) : (s.emit k a b).pciCfg = s.pciCfg := rfl
@[simp] theorem State.emit_atc (k : OutKind) (a : List Nat) (b : List Byte) : (s.emit k a b).atc = s.atc := rfl
@[simp] theorem State.emit_priStopped (k : OutKind) (a : List Nat) (b : List Byte) : (s.emit k a b).priStopped = s.priStopped := rfl
@[simp] theorem State.emit_invalidating (k : OutKind) (a : List Nat) (b : List Byte) : (s.emit k a b).invalidating = s.invalidating := rfl
@[simp] theorem State.emit_msix (k : OutKind) (a : List Nat) (b : List Byte) : (s.emit k a b).msix = s.msix := rfl
@[simp] theorem State.emit_pba (k : OutKind) (a : List Nat) (b : List Byte) : (s.emit k a b).pba = s.pba := rfl
@[simp] theorem State.emit_msixEn (k : OutKind) (a : List Nat) (b : List Byte) : (s.emit k a b).msixEn = s.msixEn := rfl
@[simp] theorem State.emit_msixMaskAll (k : OutKind) (a : List Nat) (b : List Byte) : (s.emit k a b).msixMaskAll = s.msixMaskAll := rfl
@[simp] theorem State.emit_chunks (k : OutKind) (a : List Nat) (b : List Byte) : (s.emit k a b).chunks = s.chunks := rfl
@[simp] theorem State.emit_bsnap (k : OutKind) (a : List Nat) (b : List Byte) : (s.emit k a b).bsnap = s.bsnap := rfl
@[simp] theorem State.emit_frzFull (k : OutKind) (a : List Nat) (b : List Byte) : (s.emit k a b).frzFull = s.frzFull := rfl
@[simp] theorem State.emit_frzHeld (k : OutKind) (a : List Nat) (b : List Byte) : (s.emit k a b).frzHeld = s.frzHeld := rfl
@[simp] theorem State.emit_frzPin (k : OutKind) (a : List Nat) (b : List Byte) : (s.emit k a b).frzPin = s.frzPin := rfl
@[simp] theorem State.emit_shutdown (k : OutKind) (a : List Nat) (b : List Byte) : (s.emit k a b).shutdown = s.shutdown := rfl
@[simp] theorem State.emit_booted (k : OutKind) (a : List Nat) (b : List Byte) : (s.emit k a b).booted = s.booted := rfl
@[simp] theorem State.emit_coldBoot (k : OutKind) (a : List Nat) (b : List Byte) : (s.emit k a b).coldBoot = s.coldBoot := rfl
@[simp] theorem State.emit_boots (k : OutKind) (a : List Nat) (b : List Byte) : (s.emit k a b).boots = s.boots := rfl
@[simp] theorem State.emit_perst (k : OutKind) (a : List Nat) (b : List Byte) : (s.emit k a b).perst = s.perst := rfl
@[simp] theorem State.emit_warming (k : OutKind) (a : List Nat) (b : List Byte) : (s.emit k a b).warming = s.warming := rfl
@[simp] theorem State.emit_bbox (k : OutKind) (a : List Nat) (b : List Byte) : (s.emit k a b).bbox = s.bbox := rfl
@[simp] theorem State.emit_bbBreak (k : OutKind) (a : List Nat) (b : List Byte) : (s.emit k a b).bbBreak = s.bbBreak := rfl
@[simp] theorem State.emit_sinceSum (k : OutKind) (a : List Nat) (b : List Byte) : (s.emit k a b).sinceSum = s.sinceSum := rfl
@[simp] theorem State.emit_bbHost (k : OutKind) (a : List Nat) (b : List Byte) : (s.emit k a b).bbHost = s.bbHost := rfl
@[simp] theorem State.emit_failed (k : OutKind) (a : List Nat) (b : List Byte) : (s.emit k a b).failed = s.failed := rfl
@[simp] theorem State.emit_soft (k : OutKind) (a : List Nat) (b : List Byte) : (s.emit k a b).soft = s.soft := rfl
@[simp] theorem State.emit_vfuse (k : OutKind) (a : List Nat) (b : List Byte) : (s.emit k a b).vfuse = s.vfuse := rfl
@[simp] theorem State.emit_locked (k : OutKind) (a : List Nat) (b : List Byte) : (s.emit k a b).locked = s.locked := rfl
@[simp] theorem State.emit_fwKey (k : OutKind) (a : List Nat) (b : List Byte) : (s.emit k a b).fwKey = s.fwKey := rfl
@[simp] theorem State.emit_fwVer (k : OutKind) (a : List Nat) (b : List Byte) : (s.emit k a b).fwVer = s.fwVer := rfl
@[simp] theorem State.emit_fwDigest (k : OutKind) (a : List Nat) (b : List Byte) : (s.emit k a b).fwDigest = s.fwDigest := rfl
@[simp] theorem State.emit_aliasKey (k : OutKind) (a : List Nat) (b : List Byte) : (s.emit k a b).aliasKey = s.aliasKey := rfl
@[simp] theorem State.emit_flash (k : OutKind) (a : List Nat) (b : List Byte) : (s.emit k a b).flash = s.flash := rfl
@[simp] theorem State.emit_recov (k : OutKind) (a : List Nat) (b : List Byte) : (s.emit k a b).recov = s.recov := rfl
@[simp] theorem State.emit_cfg (k : OutKind) (a : List Nat) (b : List Byte) : (s.emit k a b).cfg = s.cfg := rfl
@[simp] theorem State.emit_fab (k : OutKind) (a : List Nat) (b : List Byte) : (s.emit k a b).fab = s.fab := rfl
@[simp] theorem State.emit_vccio (k : OutKind) (a : List Nat) (b : List Byte) : (s.emit k a b).vccio = s.vccio := rfl
@[simp] theorem State.emit_macRx (k : OutKind) (a : List Nat) (b : List Byte) : (s.emit k a b).macRx = s.macRx := rfl
@[simp] theorem State.emit_macTx (k : OutKind) (a : List Nat) (b : List Byte) : (s.emit k a b).macTx = s.macTx := rfl
@[simp] theorem State.emit_macTake (k : OutKind) (a : List Nat) (b : List Byte) : (s.emit k a b).macTake = s.macTake := rfl
@[simp] theorem State.emit_droop (k : OutKind) (a : List Nat) (b : List Byte) : (s.emit k a b).droop = s.droop := rfl
@[simp] theorem State.emit_capOver (k : OutKind) (a : List Nat) (b : List Byte) : (s.emit k a b).capOver = s.capOver := rfl
@[simp] theorem State.emit_hotReads (k : OutKind) (a : List Nat) (b : List Byte) : (s.emit k a b).hotReads = s.hotReads := rfl
@[simp] theorem State.emit_doeHeld (k : OutKind) (a : List Nat) (b : List Byte) : (s.emit k a b).doeHeld = s.doeHeld := rfl
@[simp] theorem State.emit_svcHeld (k : OutKind) (a : List Nat) (b : List Byte) : (s.emit k a b).svcHeld = s.svcHeld := rfl
@[simp] theorem State.emit_tapIr (k : OutKind) (a : List Nat) (b : List Byte) : (s.emit k a b).tapIr = s.tapIr := rfl
@[simp] theorem State.emit_tapSel (k : OutKind) (a : List Nat) (b : List Byte) : (s.emit k a b).tapSel = s.tapSel := rfl
@[simp] theorem State.emit_tapNext (k : OutKind) (a : List Nat) (b : List Byte) : (s.emit k a b).tapNext = s.tapNext := rfl
@[simp] theorem State.emit_bscan (k : OutKind) (a : List Nat) (b : List Byte) : (s.emit k a b).bscan = s.bscan := rfl
@[simp] theorem State.emit_getF_read (k : OutKind) (a : List Nat) (b : List Byte) (y : Fld) (q r : Nat) : getF (s.emit k a b) y q r = getF s y q r := rfl
@[simp] theorem State.emit_tile_read (k : OutKind) (a : List Nat) (b : List Byte) (q : Nat) : State.tile (s.emit k a b) q = State.tile s q := rfl
@[simp] theorem State.emit_panel_read (k : OutKind) (a : List Nat) (b : List Byte) (q : Nat) : State.panel (s.emit k a b) q = State.panel s q := rfl
@[simp] theorem State.emit_stitch_read (k : OutKind) (a : List Nat) (b : List Byte) (q : Nat) : State.stitch (s.emit k a b) q = State.stitch s q := rfl
@[simp] theorem State.emit_chan_read (k : OutKind) (a : List Nat) (b : List Byte) (q r : Nat) : State.chan (s.emit k a b) q r = State.chan s q r := rfl
@[simp] theorem State.emit_ctr_read (k : OutKind) (a : List Nat) (b : List Byte) (q : Nat) : State.ctr (s.emit k a b) q = State.ctr s q := rfl
@[simp] theorem State.emit_hem_read (k : OutKind) (a : List Nat) (b : List Byte) (q : Nat) : State.hem (s.emit k a b) q = State.hem s q := rfl
@[simp] theorem State.emit_lnk_read (k : OutKind) (a : List Nat) (b : List Byte) (q : Nat) : State.lnk (s.emit k a b) q = State.lnk s q := rfl
@[simp] theorem State.emit_mp_read (k : OutKind) (a : List Nat) (b : List Byte) (q : Nat) : State.mp (s.emit k a b) q = State.mp s q := rfl
@[simp] theorem State.emit_link_read (k : OutKind) (a : List Nat) (b : List Byte) (q r : Nat) : State.link (s.emit k a b) q r = State.link s q r := rfl

/-! ### State.setCtr -/

@[simp] theorem State.setCtr_pending (e v : Nat) : (s.setCtr e v).pending = s.pending := rfl
@[simp] theorem State.setCtr_regs (e v : Nat) : (s.setCtr e v).regs = s.regs := rfl
@[simp] theorem State.setCtr_holdR (e v : Nat) : (s.setCtr e v).holdR = s.holdR := rfl
@[simp] theorem State.setCtr_heldW (e v : Nat) : (s.setCtr e v).heldW = s.heldW := rfl
@[simp] theorem State.setCtr_out (e v : Nat) : (s.setCtr e v).out = s.out := rfl
@[simp] theorem State.setCtr_draws (e v : Nat) : (s.setCtr e v).draws = s.draws := rfl
@[simp] theorem State.setCtr_tiles (e v : Nat) : (s.setCtr e v).tiles = s.tiles := rfl
@[simp] theorem State.setCtr_flights (e v : Nat) : (s.setCtr e v).flights = s.flights := rfl
@[simp] theorem State.setCtr_nextId (e v : Nat) : (s.setCtr e v).nextId = s.nextId := rfl
@[simp] theorem State.setCtr_stitches (e v : Nat) : (s.setCtr e v).stitches = s.stitches := rfl
@[simp] theorem State.setCtr_links (e v : Nat) : (s.setCtr e v).links = s.links := rfl
@[simp] theorem State.setCtr_torn (e v : Nat) : (s.setCtr e v).torn = s.torn := rfl
@[simp] theorem State.setCtr_takeover (e v : Nat) : (s.setCtr e v).takeover = s.takeover := rfl
@[simp] theorem State.setCtr_spent (e v : Nat) : (s.setCtr e v).spent = s.spent := rfl
@[simp] theorem State.setCtr_panels (e v : Nat) : (s.setCtr e v).panels = s.panels := rfl
@[simp] theorem State.setCtr_profileFresh (e v : Nat) : (s.setCtr e v).profileFresh = s.profileFresh := rfl
@[simp] theorem State.setCtr_faultQ (e v : Nat) : (s.setCtr e v).faultQ = s.faultQ := rfl
@[simp] theorem State.setCtr_faultPend (e v : Nat) : (s.setCtr e v).faultPend = s.faultPend := rfl
@[simp] theorem State.setCtr_lostPend (e v : Nat) : (s.setCtr e v).lostPend = s.lostPend := rfl
@[simp] theorem State.setCtr_errLog (e v : Nat) : (s.setCtr e v).errLog = s.errLog := rfl
@[simp] theorem State.setCtr_frzReq (e v : Nat) : (s.setCtr e v).frzReq = s.frzReq := rfl
@[simp] theorem State.setCtr_fuses (e v : Nat) : (s.setCtr e v).fuses = s.fuses := rfl
@[simp] theorem State.setCtr_fuseErr (e v : Nat) : (s.setCtr e v).fuseErr = s.fuseErr := rfl
@[simp] theorem State.setCtr_hbm (e v : Nat) : (s.setCtr e v).hbm = s.hbm := rfl
@[simp] theorem State.setCtr_chans (e v : Nat) : (s.setCtr e v).chans = s.chans := rfl
@[simp] theorem State.setCtr_movTurn (e v : Nat) : (s.setCtr e v).movTurn = s.movTurn := rfl
@[simp] theorem State.setCtr_lan (e v : Nat) : (s.setCtr e v).lan = s.lan := rfl
@[simp] theorem State.setCtr_lanes (e v : Nat) : (s.setCtr e v).lanes = s.lanes := rfl
@[simp] theorem State.setCtr_hems (e v : Nat) : (s.setCtr e v).hems = s.hems := rfl
@[simp] theorem State.setCtr_mps (e v : Nat) : (s.setCtr e v).mps = s.mps := rfl
@[simp] theorem State.setCtr_pcieUp (e v : Nat) : (s.setCtr e v).pcieUp = s.pcieUp := rfl
@[simp] theorem State.setCtr_pciCfg (e v : Nat) : (s.setCtr e v).pciCfg = s.pciCfg := rfl
@[simp] theorem State.setCtr_atc (e v : Nat) : (s.setCtr e v).atc = s.atc := rfl
@[simp] theorem State.setCtr_priStopped (e v : Nat) : (s.setCtr e v).priStopped = s.priStopped := rfl
@[simp] theorem State.setCtr_invalidating (e v : Nat) : (s.setCtr e v).invalidating = s.invalidating := rfl
@[simp] theorem State.setCtr_msix (e v : Nat) : (s.setCtr e v).msix = s.msix := rfl
@[simp] theorem State.setCtr_pba (e v : Nat) : (s.setCtr e v).pba = s.pba := rfl
@[simp] theorem State.setCtr_msixEn (e v : Nat) : (s.setCtr e v).msixEn = s.msixEn := rfl
@[simp] theorem State.setCtr_msixMaskAll (e v : Nat) : (s.setCtr e v).msixMaskAll = s.msixMaskAll := rfl
@[simp] theorem State.setCtr_chunks (e v : Nat) : (s.setCtr e v).chunks = s.chunks := rfl
@[simp] theorem State.setCtr_bsnap (e v : Nat) : (s.setCtr e v).bsnap = s.bsnap := rfl
@[simp] theorem State.setCtr_frzFull (e v : Nat) : (s.setCtr e v).frzFull = s.frzFull := rfl
@[simp] theorem State.setCtr_frzHeld (e v : Nat) : (s.setCtr e v).frzHeld = s.frzHeld := rfl
@[simp] theorem State.setCtr_frzPin (e v : Nat) : (s.setCtr e v).frzPin = s.frzPin := rfl
@[simp] theorem State.setCtr_shutdown (e v : Nat) : (s.setCtr e v).shutdown = s.shutdown := rfl
@[simp] theorem State.setCtr_booted (e v : Nat) : (s.setCtr e v).booted = s.booted := rfl
@[simp] theorem State.setCtr_coldBoot (e v : Nat) : (s.setCtr e v).coldBoot = s.coldBoot := rfl
@[simp] theorem State.setCtr_boots (e v : Nat) : (s.setCtr e v).boots = s.boots := rfl
@[simp] theorem State.setCtr_perst (e v : Nat) : (s.setCtr e v).perst = s.perst := rfl
@[simp] theorem State.setCtr_warming (e v : Nat) : (s.setCtr e v).warming = s.warming := rfl
@[simp] theorem State.setCtr_bbox (e v : Nat) : (s.setCtr e v).bbox = s.bbox := rfl
@[simp] theorem State.setCtr_bbBreak (e v : Nat) : (s.setCtr e v).bbBreak = s.bbBreak := rfl
@[simp] theorem State.setCtr_sinceSum (e v : Nat) : (s.setCtr e v).sinceSum = s.sinceSum := rfl
@[simp] theorem State.setCtr_bbHost (e v : Nat) : (s.setCtr e v).bbHost = s.bbHost := rfl
@[simp] theorem State.setCtr_failed (e v : Nat) : (s.setCtr e v).failed = s.failed := rfl
@[simp] theorem State.setCtr_soft (e v : Nat) : (s.setCtr e v).soft = s.soft := rfl
@[simp] theorem State.setCtr_vfuse (e v : Nat) : (s.setCtr e v).vfuse = s.vfuse := rfl
@[simp] theorem State.setCtr_locked (e v : Nat) : (s.setCtr e v).locked = s.locked := rfl
@[simp] theorem State.setCtr_fwKey (e v : Nat) : (s.setCtr e v).fwKey = s.fwKey := rfl
@[simp] theorem State.setCtr_fwVer (e v : Nat) : (s.setCtr e v).fwVer = s.fwVer := rfl
@[simp] theorem State.setCtr_fwDigest (e v : Nat) : (s.setCtr e v).fwDigest = s.fwDigest := rfl
@[simp] theorem State.setCtr_aliasKey (e v : Nat) : (s.setCtr e v).aliasKey = s.aliasKey := rfl
@[simp] theorem State.setCtr_flash (e v : Nat) : (s.setCtr e v).flash = s.flash := rfl
@[simp] theorem State.setCtr_recov (e v : Nat) : (s.setCtr e v).recov = s.recov := rfl
@[simp] theorem State.setCtr_cfg (e v : Nat) : (s.setCtr e v).cfg = s.cfg := rfl
@[simp] theorem State.setCtr_fab (e v : Nat) : (s.setCtr e v).fab = s.fab := rfl
@[simp] theorem State.setCtr_vccio (e v : Nat) : (s.setCtr e v).vccio = s.vccio := rfl
@[simp] theorem State.setCtr_macRx (e v : Nat) : (s.setCtr e v).macRx = s.macRx := rfl
@[simp] theorem State.setCtr_macTx (e v : Nat) : (s.setCtr e v).macTx = s.macTx := rfl
@[simp] theorem State.setCtr_macTake (e v : Nat) : (s.setCtr e v).macTake = s.macTake := rfl
@[simp] theorem State.setCtr_droop (e v : Nat) : (s.setCtr e v).droop = s.droop := rfl
@[simp] theorem State.setCtr_capOver (e v : Nat) : (s.setCtr e v).capOver = s.capOver := rfl
@[simp] theorem State.setCtr_hotReads (e v : Nat) : (s.setCtr e v).hotReads = s.hotReads := rfl
@[simp] theorem State.setCtr_doeHeld (e v : Nat) : (s.setCtr e v).doeHeld = s.doeHeld := rfl
@[simp] theorem State.setCtr_svcHeld (e v : Nat) : (s.setCtr e v).svcHeld = s.svcHeld := rfl
@[simp] theorem State.setCtr_tapIr (e v : Nat) : (s.setCtr e v).tapIr = s.tapIr := rfl
@[simp] theorem State.setCtr_tapSel (e v : Nat) : (s.setCtr e v).tapSel = s.tapSel := rfl
@[simp] theorem State.setCtr_tapNext (e v : Nat) : (s.setCtr e v).tapNext = s.tapNext := rfl
@[simp] theorem State.setCtr_bscan (e v : Nat) : (s.setCtr e v).bscan = s.bscan := rfl
@[simp] theorem State.setCtr_getF_read (e v : Nat) (y : Fld) (q r : Nat) : getF (s.setCtr e v) y q r = getF s y q r := rfl
@[simp] theorem State.setCtr_tile_read (e v : Nat) (q : Nat) : State.tile (s.setCtr e v) q = State.tile s q := rfl
@[simp] theorem State.setCtr_panel_read (e v : Nat) (q : Nat) : State.panel (s.setCtr e v) q = State.panel s q := rfl
@[simp] theorem State.setCtr_stitch_read (e v : Nat) (q : Nat) : State.stitch (s.setCtr e v) q = State.stitch s q := rfl
@[simp] theorem State.setCtr_chan_read (e v : Nat) (q r : Nat) : State.chan (s.setCtr e v) q r = State.chan s q r := rfl
@[simp] theorem State.setCtr_hem_read (e v : Nat) (q : Nat) : State.hem (s.setCtr e v) q = State.hem s q := rfl
@[simp] theorem State.setCtr_lnk_read (e v : Nat) (q : Nat) : State.lnk (s.setCtr e v) q = State.lnk s q := rfl
@[simp] theorem State.setCtr_mp_read (e v : Nat) (q : Nat) : State.mp (s.setCtr e v) q = State.mp s q := rfl
@[simp] theorem State.setCtr_link_read (e v : Nat) (q r : Nat) : State.link (s.setCtr e v) q r = State.link s q r := rfl

/-! ### State.count -/

@[simp] theorem State.count_pending (e n : Nat) : (s.count e n).pending = s.pending := rfl
@[simp] theorem State.count_regs (e n : Nat) : (s.count e n).regs = s.regs := rfl
@[simp] theorem State.count_holdR (e n : Nat) : (s.count e n).holdR = s.holdR := rfl
@[simp] theorem State.count_heldW (e n : Nat) : (s.count e n).heldW = s.heldW := rfl
@[simp] theorem State.count_out (e n : Nat) : (s.count e n).out = s.out := rfl
@[simp] theorem State.count_draws (e n : Nat) : (s.count e n).draws = s.draws := rfl
@[simp] theorem State.count_tiles (e n : Nat) : (s.count e n).tiles = s.tiles := rfl
@[simp] theorem State.count_flights (e n : Nat) : (s.count e n).flights = s.flights := rfl
@[simp] theorem State.count_nextId (e n : Nat) : (s.count e n).nextId = s.nextId := rfl
@[simp] theorem State.count_stitches (e n : Nat) : (s.count e n).stitches = s.stitches := rfl
@[simp] theorem State.count_links (e n : Nat) : (s.count e n).links = s.links := rfl
@[simp] theorem State.count_torn (e n : Nat) : (s.count e n).torn = s.torn := rfl
@[simp] theorem State.count_takeover (e n : Nat) : (s.count e n).takeover = s.takeover := rfl
@[simp] theorem State.count_spent (e n : Nat) : (s.count e n).spent = s.spent := rfl
@[simp] theorem State.count_panels (e n : Nat) : (s.count e n).panels = s.panels := rfl
@[simp] theorem State.count_profileFresh (e n : Nat) : (s.count e n).profileFresh = s.profileFresh := rfl
@[simp] theorem State.count_faultQ (e n : Nat) : (s.count e n).faultQ = s.faultQ := rfl
@[simp] theorem State.count_faultPend (e n : Nat) : (s.count e n).faultPend = s.faultPend := rfl
@[simp] theorem State.count_lostPend (e n : Nat) : (s.count e n).lostPend = s.lostPend := rfl
@[simp] theorem State.count_errLog (e n : Nat) : (s.count e n).errLog = s.errLog := rfl
@[simp] theorem State.count_frzReq (e n : Nat) : (s.count e n).frzReq = s.frzReq := rfl
@[simp] theorem State.count_fuses (e n : Nat) : (s.count e n).fuses = s.fuses := rfl
@[simp] theorem State.count_fuseErr (e n : Nat) : (s.count e n).fuseErr = s.fuseErr := rfl
@[simp] theorem State.count_hbm (e n : Nat) : (s.count e n).hbm = s.hbm := rfl
@[simp] theorem State.count_chans (e n : Nat) : (s.count e n).chans = s.chans := rfl
@[simp] theorem State.count_movTurn (e n : Nat) : (s.count e n).movTurn = s.movTurn := rfl
@[simp] theorem State.count_lan (e n : Nat) : (s.count e n).lan = s.lan := rfl
@[simp] theorem State.count_lanes (e n : Nat) : (s.count e n).lanes = s.lanes := rfl
@[simp] theorem State.count_hems (e n : Nat) : (s.count e n).hems = s.hems := rfl
@[simp] theorem State.count_mps (e n : Nat) : (s.count e n).mps = s.mps := rfl
@[simp] theorem State.count_pcieUp (e n : Nat) : (s.count e n).pcieUp = s.pcieUp := rfl
@[simp] theorem State.count_pciCfg (e n : Nat) : (s.count e n).pciCfg = s.pciCfg := rfl
@[simp] theorem State.count_atc (e n : Nat) : (s.count e n).atc = s.atc := rfl
@[simp] theorem State.count_priStopped (e n : Nat) : (s.count e n).priStopped = s.priStopped := rfl
@[simp] theorem State.count_invalidating (e n : Nat) : (s.count e n).invalidating = s.invalidating := rfl
@[simp] theorem State.count_msix (e n : Nat) : (s.count e n).msix = s.msix := rfl
@[simp] theorem State.count_pba (e n : Nat) : (s.count e n).pba = s.pba := rfl
@[simp] theorem State.count_msixEn (e n : Nat) : (s.count e n).msixEn = s.msixEn := rfl
@[simp] theorem State.count_msixMaskAll (e n : Nat) : (s.count e n).msixMaskAll = s.msixMaskAll := rfl
@[simp] theorem State.count_chunks (e n : Nat) : (s.count e n).chunks = s.chunks := rfl
@[simp] theorem State.count_bsnap (e n : Nat) : (s.count e n).bsnap = s.bsnap := rfl
@[simp] theorem State.count_frzFull (e n : Nat) : (s.count e n).frzFull = s.frzFull := rfl
@[simp] theorem State.count_frzHeld (e n : Nat) : (s.count e n).frzHeld = s.frzHeld := rfl
@[simp] theorem State.count_frzPin (e n : Nat) : (s.count e n).frzPin = s.frzPin := rfl
@[simp] theorem State.count_shutdown (e n : Nat) : (s.count e n).shutdown = s.shutdown := rfl
@[simp] theorem State.count_booted (e n : Nat) : (s.count e n).booted = s.booted := rfl
@[simp] theorem State.count_coldBoot (e n : Nat) : (s.count e n).coldBoot = s.coldBoot := rfl
@[simp] theorem State.count_boots (e n : Nat) : (s.count e n).boots = s.boots := rfl
@[simp] theorem State.count_perst (e n : Nat) : (s.count e n).perst = s.perst := rfl
@[simp] theorem State.count_warming (e n : Nat) : (s.count e n).warming = s.warming := rfl
@[simp] theorem State.count_bbox (e n : Nat) : (s.count e n).bbox = s.bbox := rfl
@[simp] theorem State.count_bbBreak (e n : Nat) : (s.count e n).bbBreak = s.bbBreak := rfl
@[simp] theorem State.count_sinceSum (e n : Nat) : (s.count e n).sinceSum = s.sinceSum := rfl
@[simp] theorem State.count_bbHost (e n : Nat) : (s.count e n).bbHost = s.bbHost := rfl
@[simp] theorem State.count_failed (e n : Nat) : (s.count e n).failed = s.failed := rfl
@[simp] theorem State.count_soft (e n : Nat) : (s.count e n).soft = s.soft := rfl
@[simp] theorem State.count_vfuse (e n : Nat) : (s.count e n).vfuse = s.vfuse := rfl
@[simp] theorem State.count_locked (e n : Nat) : (s.count e n).locked = s.locked := rfl
@[simp] theorem State.count_fwKey (e n : Nat) : (s.count e n).fwKey = s.fwKey := rfl
@[simp] theorem State.count_fwVer (e n : Nat) : (s.count e n).fwVer = s.fwVer := rfl
@[simp] theorem State.count_fwDigest (e n : Nat) : (s.count e n).fwDigest = s.fwDigest := rfl
@[simp] theorem State.count_aliasKey (e n : Nat) : (s.count e n).aliasKey = s.aliasKey := rfl
@[simp] theorem State.count_flash (e n : Nat) : (s.count e n).flash = s.flash := rfl
@[simp] theorem State.count_recov (e n : Nat) : (s.count e n).recov = s.recov := rfl
@[simp] theorem State.count_cfg (e n : Nat) : (s.count e n).cfg = s.cfg := rfl
@[simp] theorem State.count_fab (e n : Nat) : (s.count e n).fab = s.fab := rfl
@[simp] theorem State.count_vccio (e n : Nat) : (s.count e n).vccio = s.vccio := rfl
@[simp] theorem State.count_macRx (e n : Nat) : (s.count e n).macRx = s.macRx := rfl
@[simp] theorem State.count_macTx (e n : Nat) : (s.count e n).macTx = s.macTx := rfl
@[simp] theorem State.count_macTake (e n : Nat) : (s.count e n).macTake = s.macTake := rfl
@[simp] theorem State.count_droop (e n : Nat) : (s.count e n).droop = s.droop := rfl
@[simp] theorem State.count_capOver (e n : Nat) : (s.count e n).capOver = s.capOver := rfl
@[simp] theorem State.count_hotReads (e n : Nat) : (s.count e n).hotReads = s.hotReads := rfl
@[simp] theorem State.count_doeHeld (e n : Nat) : (s.count e n).doeHeld = s.doeHeld := rfl
@[simp] theorem State.count_svcHeld (e n : Nat) : (s.count e n).svcHeld = s.svcHeld := rfl
@[simp] theorem State.count_tapIr (e n : Nat) : (s.count e n).tapIr = s.tapIr := rfl
@[simp] theorem State.count_tapSel (e n : Nat) : (s.count e n).tapSel = s.tapSel := rfl
@[simp] theorem State.count_tapNext (e n : Nat) : (s.count e n).tapNext = s.tapNext := rfl
@[simp] theorem State.count_bscan (e n : Nat) : (s.count e n).bscan = s.bscan := rfl
@[simp] theorem State.count_getF_read (e n : Nat) (y : Fld) (q r : Nat) : getF (s.count e n) y q r = getF s y q r := rfl
@[simp] theorem State.count_tile_read (e n : Nat) (q : Nat) : State.tile (s.count e n) q = State.tile s q := rfl
@[simp] theorem State.count_panel_read (e n : Nat) (q : Nat) : State.panel (s.count e n) q = State.panel s q := rfl
@[simp] theorem State.count_stitch_read (e n : Nat) (q : Nat) : State.stitch (s.count e n) q = State.stitch s q := rfl
@[simp] theorem State.count_chan_read (e n : Nat) (q r : Nat) : State.chan (s.count e n) q r = State.chan s q r := rfl
@[simp] theorem State.count_hem_read (e n : Nat) (q : Nat) : State.hem (s.count e n) q = State.hem s q := rfl
@[simp] theorem State.count_lnk_read (e n : Nat) (q : Nat) : State.lnk (s.count e n) q = State.lnk s q := rfl
@[simp] theorem State.count_mp_read (e n : Nat) (q : Nat) : State.mp (s.count e n) q = State.mp s q := rfl
@[simp] theorem State.count_link_read (e n : Nat) (q r : Nat) : State.link (s.count e n) q r = State.link s q r := rfl

/-! ### State.countTile -/

@[simp] theorem State.countTile_pending (t c n : Nat) : (s.countTile t c n).pending = s.pending := rfl
@[simp] theorem State.countTile_regs (t c n : Nat) : (s.countTile t c n).regs = s.regs := rfl
@[simp] theorem State.countTile_holdR (t c n : Nat) : (s.countTile t c n).holdR = s.holdR := rfl
@[simp] theorem State.countTile_heldW (t c n : Nat) : (s.countTile t c n).heldW = s.heldW := rfl
@[simp] theorem State.countTile_out (t c n : Nat) : (s.countTile t c n).out = s.out := rfl
@[simp] theorem State.countTile_draws (t c n : Nat) : (s.countTile t c n).draws = s.draws := rfl
@[simp] theorem State.countTile_tiles (t c n : Nat) : (s.countTile t c n).tiles = s.tiles := rfl
@[simp] theorem State.countTile_flights (t c n : Nat) : (s.countTile t c n).flights = s.flights := rfl
@[simp] theorem State.countTile_nextId (t c n : Nat) : (s.countTile t c n).nextId = s.nextId := rfl
@[simp] theorem State.countTile_stitches (t c n : Nat) : (s.countTile t c n).stitches = s.stitches := rfl
@[simp] theorem State.countTile_links (t c n : Nat) : (s.countTile t c n).links = s.links := rfl
@[simp] theorem State.countTile_torn (t c n : Nat) : (s.countTile t c n).torn = s.torn := rfl
@[simp] theorem State.countTile_takeover (t c n : Nat) : (s.countTile t c n).takeover = s.takeover := rfl
@[simp] theorem State.countTile_spent (t c n : Nat) : (s.countTile t c n).spent = s.spent := rfl
@[simp] theorem State.countTile_panels (t c n : Nat) : (s.countTile t c n).panels = s.panels := rfl
@[simp] theorem State.countTile_profileFresh (t c n : Nat) : (s.countTile t c n).profileFresh = s.profileFresh := rfl
@[simp] theorem State.countTile_faultQ (t c n : Nat) : (s.countTile t c n).faultQ = s.faultQ := rfl
@[simp] theorem State.countTile_faultPend (t c n : Nat) : (s.countTile t c n).faultPend = s.faultPend := rfl
@[simp] theorem State.countTile_lostPend (t c n : Nat) : (s.countTile t c n).lostPend = s.lostPend := rfl
@[simp] theorem State.countTile_errLog (t c n : Nat) : (s.countTile t c n).errLog = s.errLog := rfl
@[simp] theorem State.countTile_frzReq (t c n : Nat) : (s.countTile t c n).frzReq = s.frzReq := rfl
@[simp] theorem State.countTile_fuses (t c n : Nat) : (s.countTile t c n).fuses = s.fuses := rfl
@[simp] theorem State.countTile_fuseErr (t c n : Nat) : (s.countTile t c n).fuseErr = s.fuseErr := rfl
@[simp] theorem State.countTile_hbm (t c n : Nat) : (s.countTile t c n).hbm = s.hbm := rfl
@[simp] theorem State.countTile_chans (t c n : Nat) : (s.countTile t c n).chans = s.chans := rfl
@[simp] theorem State.countTile_movTurn (t c n : Nat) : (s.countTile t c n).movTurn = s.movTurn := rfl
@[simp] theorem State.countTile_lan (t c n : Nat) : (s.countTile t c n).lan = s.lan := rfl
@[simp] theorem State.countTile_lanes (t c n : Nat) : (s.countTile t c n).lanes = s.lanes := rfl
@[simp] theorem State.countTile_hems (t c n : Nat) : (s.countTile t c n).hems = s.hems := rfl
@[simp] theorem State.countTile_mps (t c n : Nat) : (s.countTile t c n).mps = s.mps := rfl
@[simp] theorem State.countTile_pcieUp (t c n : Nat) : (s.countTile t c n).pcieUp = s.pcieUp := rfl
@[simp] theorem State.countTile_pciCfg (t c n : Nat) : (s.countTile t c n).pciCfg = s.pciCfg := rfl
@[simp] theorem State.countTile_atc (t c n : Nat) : (s.countTile t c n).atc = s.atc := rfl
@[simp] theorem State.countTile_priStopped (t c n : Nat) : (s.countTile t c n).priStopped = s.priStopped := rfl
@[simp] theorem State.countTile_invalidating (t c n : Nat) : (s.countTile t c n).invalidating = s.invalidating := rfl
@[simp] theorem State.countTile_msix (t c n : Nat) : (s.countTile t c n).msix = s.msix := rfl
@[simp] theorem State.countTile_pba (t c n : Nat) : (s.countTile t c n).pba = s.pba := rfl
@[simp] theorem State.countTile_msixEn (t c n : Nat) : (s.countTile t c n).msixEn = s.msixEn := rfl
@[simp] theorem State.countTile_msixMaskAll (t c n : Nat) : (s.countTile t c n).msixMaskAll = s.msixMaskAll := rfl
@[simp] theorem State.countTile_chunks (t c n : Nat) : (s.countTile t c n).chunks = s.chunks := rfl
@[simp] theorem State.countTile_bsnap (t c n : Nat) : (s.countTile t c n).bsnap = s.bsnap := rfl
@[simp] theorem State.countTile_frzFull (t c n : Nat) : (s.countTile t c n).frzFull = s.frzFull := rfl
@[simp] theorem State.countTile_frzHeld (t c n : Nat) : (s.countTile t c n).frzHeld = s.frzHeld := rfl
@[simp] theorem State.countTile_frzPin (t c n : Nat) : (s.countTile t c n).frzPin = s.frzPin := rfl
@[simp] theorem State.countTile_shutdown (t c n : Nat) : (s.countTile t c n).shutdown = s.shutdown := rfl
@[simp] theorem State.countTile_booted (t c n : Nat) : (s.countTile t c n).booted = s.booted := rfl
@[simp] theorem State.countTile_coldBoot (t c n : Nat) : (s.countTile t c n).coldBoot = s.coldBoot := rfl
@[simp] theorem State.countTile_boots (t c n : Nat) : (s.countTile t c n).boots = s.boots := rfl
@[simp] theorem State.countTile_perst (t c n : Nat) : (s.countTile t c n).perst = s.perst := rfl
@[simp] theorem State.countTile_warming (t c n : Nat) : (s.countTile t c n).warming = s.warming := rfl
@[simp] theorem State.countTile_bbox (t c n : Nat) : (s.countTile t c n).bbox = s.bbox := rfl
@[simp] theorem State.countTile_bbBreak (t c n : Nat) : (s.countTile t c n).bbBreak = s.bbBreak := rfl
@[simp] theorem State.countTile_sinceSum (t c n : Nat) : (s.countTile t c n).sinceSum = s.sinceSum := rfl
@[simp] theorem State.countTile_bbHost (t c n : Nat) : (s.countTile t c n).bbHost = s.bbHost := rfl
@[simp] theorem State.countTile_failed (t c n : Nat) : (s.countTile t c n).failed = s.failed := rfl
@[simp] theorem State.countTile_soft (t c n : Nat) : (s.countTile t c n).soft = s.soft := rfl
@[simp] theorem State.countTile_vfuse (t c n : Nat) : (s.countTile t c n).vfuse = s.vfuse := rfl
@[simp] theorem State.countTile_locked (t c n : Nat) : (s.countTile t c n).locked = s.locked := rfl
@[simp] theorem State.countTile_fwKey (t c n : Nat) : (s.countTile t c n).fwKey = s.fwKey := rfl
@[simp] theorem State.countTile_fwVer (t c n : Nat) : (s.countTile t c n).fwVer = s.fwVer := rfl
@[simp] theorem State.countTile_fwDigest (t c n : Nat) : (s.countTile t c n).fwDigest = s.fwDigest := rfl
@[simp] theorem State.countTile_aliasKey (t c n : Nat) : (s.countTile t c n).aliasKey = s.aliasKey := rfl
@[simp] theorem State.countTile_flash (t c n : Nat) : (s.countTile t c n).flash = s.flash := rfl
@[simp] theorem State.countTile_recov (t c n : Nat) : (s.countTile t c n).recov = s.recov := rfl
@[simp] theorem State.countTile_cfg (t c n : Nat) : (s.countTile t c n).cfg = s.cfg := rfl
@[simp] theorem State.countTile_fab (t c n : Nat) : (s.countTile t c n).fab = s.fab := rfl
@[simp] theorem State.countTile_vccio (t c n : Nat) : (s.countTile t c n).vccio = s.vccio := rfl
@[simp] theorem State.countTile_macRx (t c n : Nat) : (s.countTile t c n).macRx = s.macRx := rfl
@[simp] theorem State.countTile_macTx (t c n : Nat) : (s.countTile t c n).macTx = s.macTx := rfl
@[simp] theorem State.countTile_macTake (t c n : Nat) : (s.countTile t c n).macTake = s.macTake := rfl
@[simp] theorem State.countTile_droop (t c n : Nat) : (s.countTile t c n).droop = s.droop := rfl
@[simp] theorem State.countTile_capOver (t c n : Nat) : (s.countTile t c n).capOver = s.capOver := rfl
@[simp] theorem State.countTile_hotReads (t c n : Nat) : (s.countTile t c n).hotReads = s.hotReads := rfl
@[simp] theorem State.countTile_doeHeld (t c n : Nat) : (s.countTile t c n).doeHeld = s.doeHeld := rfl
@[simp] theorem State.countTile_svcHeld (t c n : Nat) : (s.countTile t c n).svcHeld = s.svcHeld := rfl
@[simp] theorem State.countTile_tapIr (t c n : Nat) : (s.countTile t c n).tapIr = s.tapIr := rfl
@[simp] theorem State.countTile_tapSel (t c n : Nat) : (s.countTile t c n).tapSel = s.tapSel := rfl
@[simp] theorem State.countTile_tapNext (t c n : Nat) : (s.countTile t c n).tapNext = s.tapNext := rfl
@[simp] theorem State.countTile_bscan (t c n : Nat) : (s.countTile t c n).bscan = s.bscan := rfl
@[simp] theorem State.countTile_getF_read (t c n : Nat) (y : Fld) (q r : Nat) : getF (s.countTile t c n) y q r = getF s y q r := rfl
@[simp] theorem State.countTile_tile_read (t c n : Nat) (q : Nat) : State.tile (s.countTile t c n) q = State.tile s q := rfl
@[simp] theorem State.countTile_panel_read (t c n : Nat) (q : Nat) : State.panel (s.countTile t c n) q = State.panel s q := rfl
@[simp] theorem State.countTile_stitch_read (t c n : Nat) (q : Nat) : State.stitch (s.countTile t c n) q = State.stitch s q := rfl
@[simp] theorem State.countTile_chan_read (t c n : Nat) (q r : Nat) : State.chan (s.countTile t c n) q r = State.chan s q r := rfl
@[simp] theorem State.countTile_hem_read (t c n : Nat) (q : Nat) : State.hem (s.countTile t c n) q = State.hem s q := rfl
@[simp] theorem State.countTile_lnk_read (t c n : Nat) (q : Nat) : State.lnk (s.countTile t c n) q = State.lnk s q := rfl
@[simp] theorem State.countTile_mp_read (t c n : Nat) (q : Nat) : State.mp (s.countTile t c n) q = State.mp s q := rfl
@[simp] theorem State.countTile_link_read (t c n : Nat) (q r : Nat) : State.link (s.countTile t c n) q r = State.link s q r := rfl

/-! ### State.setPanel -/

@[simp] theorem State.setPanel_pending (p : Nat) (x : Panel) : (s.setPanel p x).pending = s.pending := rfl
@[simp] theorem State.setPanel_regs (p : Nat) (x : Panel) : (s.setPanel p x).regs = s.regs := rfl
@[simp] theorem State.setPanel_holdR (p : Nat) (x : Panel) : (s.setPanel p x).holdR = s.holdR := rfl
@[simp] theorem State.setPanel_heldW (p : Nat) (x : Panel) : (s.setPanel p x).heldW = s.heldW := rfl
@[simp] theorem State.setPanel_out (p : Nat) (x : Panel) : (s.setPanel p x).out = s.out := rfl
@[simp] theorem State.setPanel_draws (p : Nat) (x : Panel) : (s.setPanel p x).draws = s.draws := rfl
@[simp] theorem State.setPanel_tiles (p : Nat) (x : Panel) : (s.setPanel p x).tiles = s.tiles := rfl
@[simp] theorem State.setPanel_flights (p : Nat) (x : Panel) : (s.setPanel p x).flights = s.flights := rfl
@[simp] theorem State.setPanel_nextId (p : Nat) (x : Panel) : (s.setPanel p x).nextId = s.nextId := rfl
@[simp] theorem State.setPanel_stitches (p : Nat) (x : Panel) : (s.setPanel p x).stitches = s.stitches := rfl
@[simp] theorem State.setPanel_links (p : Nat) (x : Panel) : (s.setPanel p x).links = s.links := rfl
@[simp] theorem State.setPanel_torn (p : Nat) (x : Panel) : (s.setPanel p x).torn = s.torn := rfl
@[simp] theorem State.setPanel_takeover (p : Nat) (x : Panel) : (s.setPanel p x).takeover = s.takeover := rfl
@[simp] theorem State.setPanel_spent (p : Nat) (x : Panel) : (s.setPanel p x).spent = s.spent := rfl
@[simp] theorem State.setPanel_profileFresh (p : Nat) (x : Panel) : (s.setPanel p x).profileFresh = s.profileFresh := rfl
@[simp] theorem State.setPanel_ctrs (p : Nat) (x : Panel) : (s.setPanel p x).ctrs = s.ctrs := rfl
@[simp] theorem State.setPanel_faultQ (p : Nat) (x : Panel) : (s.setPanel p x).faultQ = s.faultQ := rfl
@[simp] theorem State.setPanel_faultPend (p : Nat) (x : Panel) : (s.setPanel p x).faultPend = s.faultPend := rfl
@[simp] theorem State.setPanel_lostPend (p : Nat) (x : Panel) : (s.setPanel p x).lostPend = s.lostPend := rfl
@[simp] theorem State.setPanel_errLog (p : Nat) (x : Panel) : (s.setPanel p x).errLog = s.errLog := rfl
@[simp] theorem State.setPanel_frzReq (p : Nat) (x : Panel) : (s.setPanel p x).frzReq = s.frzReq := rfl
@[simp] theorem State.setPanel_fuses (p : Nat) (x : Panel) : (s.setPanel p x).fuses = s.fuses := rfl
@[simp] theorem State.setPanel_fuseErr (p : Nat) (x : Panel) : (s.setPanel p x).fuseErr = s.fuseErr := rfl
@[simp] theorem State.setPanel_hbm (p : Nat) (x : Panel) : (s.setPanel p x).hbm = s.hbm := rfl
@[simp] theorem State.setPanel_chans (p : Nat) (x : Panel) : (s.setPanel p x).chans = s.chans := rfl
@[simp] theorem State.setPanel_movTurn (p : Nat) (x : Panel) : (s.setPanel p x).movTurn = s.movTurn := rfl
@[simp] theorem State.setPanel_lan (p : Nat) (x : Panel) : (s.setPanel p x).lan = s.lan := rfl
@[simp] theorem State.setPanel_lanes (p : Nat) (x : Panel) : (s.setPanel p x).lanes = s.lanes := rfl
@[simp] theorem State.setPanel_hems (p : Nat) (x : Panel) : (s.setPanel p x).hems = s.hems := rfl
@[simp] theorem State.setPanel_mps (p : Nat) (x : Panel) : (s.setPanel p x).mps = s.mps := rfl
@[simp] theorem State.setPanel_pcieUp (p : Nat) (x : Panel) : (s.setPanel p x).pcieUp = s.pcieUp := rfl
@[simp] theorem State.setPanel_pciCfg (p : Nat) (x : Panel) : (s.setPanel p x).pciCfg = s.pciCfg := rfl
@[simp] theorem State.setPanel_atc (p : Nat) (x : Panel) : (s.setPanel p x).atc = s.atc := rfl
@[simp] theorem State.setPanel_priStopped (p : Nat) (x : Panel) : (s.setPanel p x).priStopped = s.priStopped := rfl
@[simp] theorem State.setPanel_invalidating (p : Nat) (x : Panel) : (s.setPanel p x).invalidating = s.invalidating := rfl
@[simp] theorem State.setPanel_msix (p : Nat) (x : Panel) : (s.setPanel p x).msix = s.msix := rfl
@[simp] theorem State.setPanel_pba (p : Nat) (x : Panel) : (s.setPanel p x).pba = s.pba := rfl
@[simp] theorem State.setPanel_msixEn (p : Nat) (x : Panel) : (s.setPanel p x).msixEn = s.msixEn := rfl
@[simp] theorem State.setPanel_msixMaskAll (p : Nat) (x : Panel) : (s.setPanel p x).msixMaskAll = s.msixMaskAll := rfl
@[simp] theorem State.setPanel_chunks (p : Nat) (x : Panel) : (s.setPanel p x).chunks = s.chunks := rfl
@[simp] theorem State.setPanel_bsnap (p : Nat) (x : Panel) : (s.setPanel p x).bsnap = s.bsnap := rfl
@[simp] theorem State.setPanel_frzFull (p : Nat) (x : Panel) : (s.setPanel p x).frzFull = s.frzFull := rfl
@[simp] theorem State.setPanel_frzHeld (p : Nat) (x : Panel) : (s.setPanel p x).frzHeld = s.frzHeld := rfl
@[simp] theorem State.setPanel_frzPin (p : Nat) (x : Panel) : (s.setPanel p x).frzPin = s.frzPin := rfl
@[simp] theorem State.setPanel_shutdown (p : Nat) (x : Panel) : (s.setPanel p x).shutdown = s.shutdown := rfl
@[simp] theorem State.setPanel_booted (p : Nat) (x : Panel) : (s.setPanel p x).booted = s.booted := rfl
@[simp] theorem State.setPanel_coldBoot (p : Nat) (x : Panel) : (s.setPanel p x).coldBoot = s.coldBoot := rfl
@[simp] theorem State.setPanel_boots (p : Nat) (x : Panel) : (s.setPanel p x).boots = s.boots := rfl
@[simp] theorem State.setPanel_perst (p : Nat) (x : Panel) : (s.setPanel p x).perst = s.perst := rfl
@[simp] theorem State.setPanel_warming (p : Nat) (x : Panel) : (s.setPanel p x).warming = s.warming := rfl
@[simp] theorem State.setPanel_bbox (p : Nat) (x : Panel) : (s.setPanel p x).bbox = s.bbox := rfl
@[simp] theorem State.setPanel_bbBreak (p : Nat) (x : Panel) : (s.setPanel p x).bbBreak = s.bbBreak := rfl
@[simp] theorem State.setPanel_sinceSum (p : Nat) (x : Panel) : (s.setPanel p x).sinceSum = s.sinceSum := rfl
@[simp] theorem State.setPanel_bbHost (p : Nat) (x : Panel) : (s.setPanel p x).bbHost = s.bbHost := rfl
@[simp] theorem State.setPanel_failed (p : Nat) (x : Panel) : (s.setPanel p x).failed = s.failed := rfl
@[simp] theorem State.setPanel_soft (p : Nat) (x : Panel) : (s.setPanel p x).soft = s.soft := rfl
@[simp] theorem State.setPanel_vfuse (p : Nat) (x : Panel) : (s.setPanel p x).vfuse = s.vfuse := rfl
@[simp] theorem State.setPanel_locked (p : Nat) (x : Panel) : (s.setPanel p x).locked = s.locked := rfl
@[simp] theorem State.setPanel_fwKey (p : Nat) (x : Panel) : (s.setPanel p x).fwKey = s.fwKey := rfl
@[simp] theorem State.setPanel_fwVer (p : Nat) (x : Panel) : (s.setPanel p x).fwVer = s.fwVer := rfl
@[simp] theorem State.setPanel_fwDigest (p : Nat) (x : Panel) : (s.setPanel p x).fwDigest = s.fwDigest := rfl
@[simp] theorem State.setPanel_aliasKey (p : Nat) (x : Panel) : (s.setPanel p x).aliasKey = s.aliasKey := rfl
@[simp] theorem State.setPanel_flash (p : Nat) (x : Panel) : (s.setPanel p x).flash = s.flash := rfl
@[simp] theorem State.setPanel_recov (p : Nat) (x : Panel) : (s.setPanel p x).recov = s.recov := rfl
@[simp] theorem State.setPanel_cfg (p : Nat) (x : Panel) : (s.setPanel p x).cfg = s.cfg := rfl
@[simp] theorem State.setPanel_fab (p : Nat) (x : Panel) : (s.setPanel p x).fab = s.fab := rfl
@[simp] theorem State.setPanel_vccio (p : Nat) (x : Panel) : (s.setPanel p x).vccio = s.vccio := rfl
@[simp] theorem State.setPanel_macRx (p : Nat) (x : Panel) : (s.setPanel p x).macRx = s.macRx := rfl
@[simp] theorem State.setPanel_macTx (p : Nat) (x : Panel) : (s.setPanel p x).macTx = s.macTx := rfl
@[simp] theorem State.setPanel_macTake (p : Nat) (x : Panel) : (s.setPanel p x).macTake = s.macTake := rfl
@[simp] theorem State.setPanel_droop (p : Nat) (x : Panel) : (s.setPanel p x).droop = s.droop := rfl
@[simp] theorem State.setPanel_capOver (p : Nat) (x : Panel) : (s.setPanel p x).capOver = s.capOver := rfl
@[simp] theorem State.setPanel_hotReads (p : Nat) (x : Panel) : (s.setPanel p x).hotReads = s.hotReads := rfl
@[simp] theorem State.setPanel_doeHeld (p : Nat) (x : Panel) : (s.setPanel p x).doeHeld = s.doeHeld := rfl
@[simp] theorem State.setPanel_svcHeld (p : Nat) (x : Panel) : (s.setPanel p x).svcHeld = s.svcHeld := rfl
@[simp] theorem State.setPanel_tapIr (p : Nat) (x : Panel) : (s.setPanel p x).tapIr = s.tapIr := rfl
@[simp] theorem State.setPanel_tapSel (p : Nat) (x : Panel) : (s.setPanel p x).tapSel = s.tapSel := rfl
@[simp] theorem State.setPanel_tapNext (p : Nat) (x : Panel) : (s.setPanel p x).tapNext = s.tapNext := rfl
@[simp] theorem State.setPanel_bscan (p : Nat) (x : Panel) : (s.setPanel p x).bscan = s.bscan := rfl
@[simp] theorem State.setPanel_getF_read (p : Nat) (x : Panel) (y : Fld) (q r : Nat) : getF (s.setPanel p x) y q r = getF s y q r := rfl
@[simp] theorem State.setPanel_tile_read (p : Nat) (x : Panel) (q : Nat) : State.tile (s.setPanel p x) q = State.tile s q := rfl
@[simp] theorem State.setPanel_stitch_read (p : Nat) (x : Panel) (q : Nat) : State.stitch (s.setPanel p x) q = State.stitch s q := rfl
@[simp] theorem State.setPanel_chan_read (p : Nat) (x : Panel) (q r : Nat) : State.chan (s.setPanel p x) q r = State.chan s q r := rfl
@[simp] theorem State.setPanel_ctr_read (p : Nat) (x : Panel) (q : Nat) : State.ctr (s.setPanel p x) q = State.ctr s q := rfl
@[simp] theorem State.setPanel_hem_read (p : Nat) (x : Panel) (q : Nat) : State.hem (s.setPanel p x) q = State.hem s q := rfl
@[simp] theorem State.setPanel_lnk_read (p : Nat) (x : Panel) (q : Nat) : State.lnk (s.setPanel p x) q = State.lnk s q := rfl
@[simp] theorem State.setPanel_mp_read (p : Nat) (x : Panel) (q : Nat) : State.mp (s.setPanel p x) q = State.mp s q := rfl
@[simp] theorem State.setPanel_link_read (p : Nat) (x : Panel) (q r : Nat) : State.link (s.setPanel p x) q r = State.link s q r := rfl

/-! ### State.modPanel -/

@[simp] theorem State.modPanel_pending (p : Nat) (g : Panel → Panel) : (s.modPanel p g).pending = s.pending := rfl
@[simp] theorem State.modPanel_regs (p : Nat) (g : Panel → Panel) : (s.modPanel p g).regs = s.regs := rfl
@[simp] theorem State.modPanel_holdR (p : Nat) (g : Panel → Panel) : (s.modPanel p g).holdR = s.holdR := rfl
@[simp] theorem State.modPanel_heldW (p : Nat) (g : Panel → Panel) : (s.modPanel p g).heldW = s.heldW := rfl
@[simp] theorem State.modPanel_out (p : Nat) (g : Panel → Panel) : (s.modPanel p g).out = s.out := rfl
@[simp] theorem State.modPanel_draws (p : Nat) (g : Panel → Panel) : (s.modPanel p g).draws = s.draws := rfl
@[simp] theorem State.modPanel_tiles (p : Nat) (g : Panel → Panel) : (s.modPanel p g).tiles = s.tiles := rfl
@[simp] theorem State.modPanel_flights (p : Nat) (g : Panel → Panel) : (s.modPanel p g).flights = s.flights := rfl
@[simp] theorem State.modPanel_nextId (p : Nat) (g : Panel → Panel) : (s.modPanel p g).nextId = s.nextId := rfl
@[simp] theorem State.modPanel_stitches (p : Nat) (g : Panel → Panel) : (s.modPanel p g).stitches = s.stitches := rfl
@[simp] theorem State.modPanel_links (p : Nat) (g : Panel → Panel) : (s.modPanel p g).links = s.links := rfl
@[simp] theorem State.modPanel_torn (p : Nat) (g : Panel → Panel) : (s.modPanel p g).torn = s.torn := rfl
@[simp] theorem State.modPanel_takeover (p : Nat) (g : Panel → Panel) : (s.modPanel p g).takeover = s.takeover := rfl
@[simp] theorem State.modPanel_spent (p : Nat) (g : Panel → Panel) : (s.modPanel p g).spent = s.spent := rfl
@[simp] theorem State.modPanel_profileFresh (p : Nat) (g : Panel → Panel) : (s.modPanel p g).profileFresh = s.profileFresh := rfl
@[simp] theorem State.modPanel_ctrs (p : Nat) (g : Panel → Panel) : (s.modPanel p g).ctrs = s.ctrs := rfl
@[simp] theorem State.modPanel_faultQ (p : Nat) (g : Panel → Panel) : (s.modPanel p g).faultQ = s.faultQ := rfl
@[simp] theorem State.modPanel_faultPend (p : Nat) (g : Panel → Panel) : (s.modPanel p g).faultPend = s.faultPend := rfl
@[simp] theorem State.modPanel_lostPend (p : Nat) (g : Panel → Panel) : (s.modPanel p g).lostPend = s.lostPend := rfl
@[simp] theorem State.modPanel_errLog (p : Nat) (g : Panel → Panel) : (s.modPanel p g).errLog = s.errLog := rfl
@[simp] theorem State.modPanel_frzReq (p : Nat) (g : Panel → Panel) : (s.modPanel p g).frzReq = s.frzReq := rfl
@[simp] theorem State.modPanel_fuses (p : Nat) (g : Panel → Panel) : (s.modPanel p g).fuses = s.fuses := rfl
@[simp] theorem State.modPanel_fuseErr (p : Nat) (g : Panel → Panel) : (s.modPanel p g).fuseErr = s.fuseErr := rfl
@[simp] theorem State.modPanel_hbm (p : Nat) (g : Panel → Panel) : (s.modPanel p g).hbm = s.hbm := rfl
@[simp] theorem State.modPanel_chans (p : Nat) (g : Panel → Panel) : (s.modPanel p g).chans = s.chans := rfl
@[simp] theorem State.modPanel_movTurn (p : Nat) (g : Panel → Panel) : (s.modPanel p g).movTurn = s.movTurn := rfl
@[simp] theorem State.modPanel_lan (p : Nat) (g : Panel → Panel) : (s.modPanel p g).lan = s.lan := rfl
@[simp] theorem State.modPanel_lanes (p : Nat) (g : Panel → Panel) : (s.modPanel p g).lanes = s.lanes := rfl
@[simp] theorem State.modPanel_hems (p : Nat) (g : Panel → Panel) : (s.modPanel p g).hems = s.hems := rfl
@[simp] theorem State.modPanel_mps (p : Nat) (g : Panel → Panel) : (s.modPanel p g).mps = s.mps := rfl
@[simp] theorem State.modPanel_pcieUp (p : Nat) (g : Panel → Panel) : (s.modPanel p g).pcieUp = s.pcieUp := rfl
@[simp] theorem State.modPanel_pciCfg (p : Nat) (g : Panel → Panel) : (s.modPanel p g).pciCfg = s.pciCfg := rfl
@[simp] theorem State.modPanel_atc (p : Nat) (g : Panel → Panel) : (s.modPanel p g).atc = s.atc := rfl
@[simp] theorem State.modPanel_priStopped (p : Nat) (g : Panel → Panel) : (s.modPanel p g).priStopped = s.priStopped := rfl
@[simp] theorem State.modPanel_invalidating (p : Nat) (g : Panel → Panel) : (s.modPanel p g).invalidating = s.invalidating := rfl
@[simp] theorem State.modPanel_msix (p : Nat) (g : Panel → Panel) : (s.modPanel p g).msix = s.msix := rfl
@[simp] theorem State.modPanel_pba (p : Nat) (g : Panel → Panel) : (s.modPanel p g).pba = s.pba := rfl
@[simp] theorem State.modPanel_msixEn (p : Nat) (g : Panel → Panel) : (s.modPanel p g).msixEn = s.msixEn := rfl
@[simp] theorem State.modPanel_msixMaskAll (p : Nat) (g : Panel → Panel) : (s.modPanel p g).msixMaskAll = s.msixMaskAll := rfl
@[simp] theorem State.modPanel_chunks (p : Nat) (g : Panel → Panel) : (s.modPanel p g).chunks = s.chunks := rfl
@[simp] theorem State.modPanel_bsnap (p : Nat) (g : Panel → Panel) : (s.modPanel p g).bsnap = s.bsnap := rfl
@[simp] theorem State.modPanel_frzFull (p : Nat) (g : Panel → Panel) : (s.modPanel p g).frzFull = s.frzFull := rfl
@[simp] theorem State.modPanel_frzHeld (p : Nat) (g : Panel → Panel) : (s.modPanel p g).frzHeld = s.frzHeld := rfl
@[simp] theorem State.modPanel_frzPin (p : Nat) (g : Panel → Panel) : (s.modPanel p g).frzPin = s.frzPin := rfl
@[simp] theorem State.modPanel_shutdown (p : Nat) (g : Panel → Panel) : (s.modPanel p g).shutdown = s.shutdown := rfl
@[simp] theorem State.modPanel_booted (p : Nat) (g : Panel → Panel) : (s.modPanel p g).booted = s.booted := rfl
@[simp] theorem State.modPanel_coldBoot (p : Nat) (g : Panel → Panel) : (s.modPanel p g).coldBoot = s.coldBoot := rfl
@[simp] theorem State.modPanel_boots (p : Nat) (g : Panel → Panel) : (s.modPanel p g).boots = s.boots := rfl
@[simp] theorem State.modPanel_perst (p : Nat) (g : Panel → Panel) : (s.modPanel p g).perst = s.perst := rfl
@[simp] theorem State.modPanel_warming (p : Nat) (g : Panel → Panel) : (s.modPanel p g).warming = s.warming := rfl
@[simp] theorem State.modPanel_bbox (p : Nat) (g : Panel → Panel) : (s.modPanel p g).bbox = s.bbox := rfl
@[simp] theorem State.modPanel_bbBreak (p : Nat) (g : Panel → Panel) : (s.modPanel p g).bbBreak = s.bbBreak := rfl
@[simp] theorem State.modPanel_sinceSum (p : Nat) (g : Panel → Panel) : (s.modPanel p g).sinceSum = s.sinceSum := rfl
@[simp] theorem State.modPanel_bbHost (p : Nat) (g : Panel → Panel) : (s.modPanel p g).bbHost = s.bbHost := rfl
@[simp] theorem State.modPanel_failed (p : Nat) (g : Panel → Panel) : (s.modPanel p g).failed = s.failed := rfl
@[simp] theorem State.modPanel_soft (p : Nat) (g : Panel → Panel) : (s.modPanel p g).soft = s.soft := rfl
@[simp] theorem State.modPanel_vfuse (p : Nat) (g : Panel → Panel) : (s.modPanel p g).vfuse = s.vfuse := rfl
@[simp] theorem State.modPanel_locked (p : Nat) (g : Panel → Panel) : (s.modPanel p g).locked = s.locked := rfl
@[simp] theorem State.modPanel_fwKey (p : Nat) (g : Panel → Panel) : (s.modPanel p g).fwKey = s.fwKey := rfl
@[simp] theorem State.modPanel_fwVer (p : Nat) (g : Panel → Panel) : (s.modPanel p g).fwVer = s.fwVer := rfl
@[simp] theorem State.modPanel_fwDigest (p : Nat) (g : Panel → Panel) : (s.modPanel p g).fwDigest = s.fwDigest := rfl
@[simp] theorem State.modPanel_aliasKey (p : Nat) (g : Panel → Panel) : (s.modPanel p g).aliasKey = s.aliasKey := rfl
@[simp] theorem State.modPanel_flash (p : Nat) (g : Panel → Panel) : (s.modPanel p g).flash = s.flash := rfl
@[simp] theorem State.modPanel_recov (p : Nat) (g : Panel → Panel) : (s.modPanel p g).recov = s.recov := rfl
@[simp] theorem State.modPanel_cfg (p : Nat) (g : Panel → Panel) : (s.modPanel p g).cfg = s.cfg := rfl
@[simp] theorem State.modPanel_fab (p : Nat) (g : Panel → Panel) : (s.modPanel p g).fab = s.fab := rfl
@[simp] theorem State.modPanel_vccio (p : Nat) (g : Panel → Panel) : (s.modPanel p g).vccio = s.vccio := rfl
@[simp] theorem State.modPanel_macRx (p : Nat) (g : Panel → Panel) : (s.modPanel p g).macRx = s.macRx := rfl
@[simp] theorem State.modPanel_macTx (p : Nat) (g : Panel → Panel) : (s.modPanel p g).macTx = s.macTx := rfl
@[simp] theorem State.modPanel_macTake (p : Nat) (g : Panel → Panel) : (s.modPanel p g).macTake = s.macTake := rfl
@[simp] theorem State.modPanel_droop (p : Nat) (g : Panel → Panel) : (s.modPanel p g).droop = s.droop := rfl
@[simp] theorem State.modPanel_capOver (p : Nat) (g : Panel → Panel) : (s.modPanel p g).capOver = s.capOver := rfl
@[simp] theorem State.modPanel_hotReads (p : Nat) (g : Panel → Panel) : (s.modPanel p g).hotReads = s.hotReads := rfl
@[simp] theorem State.modPanel_doeHeld (p : Nat) (g : Panel → Panel) : (s.modPanel p g).doeHeld = s.doeHeld := rfl
@[simp] theorem State.modPanel_svcHeld (p : Nat) (g : Panel → Panel) : (s.modPanel p g).svcHeld = s.svcHeld := rfl
@[simp] theorem State.modPanel_tapIr (p : Nat) (g : Panel → Panel) : (s.modPanel p g).tapIr = s.tapIr := rfl
@[simp] theorem State.modPanel_tapSel (p : Nat) (g : Panel → Panel) : (s.modPanel p g).tapSel = s.tapSel := rfl
@[simp] theorem State.modPanel_tapNext (p : Nat) (g : Panel → Panel) : (s.modPanel p g).tapNext = s.tapNext := rfl
@[simp] theorem State.modPanel_bscan (p : Nat) (g : Panel → Panel) : (s.modPanel p g).bscan = s.bscan := rfl
@[simp] theorem State.modPanel_getF_read (p : Nat) (g : Panel → Panel) (y : Fld) (q r : Nat) : getF (s.modPanel p g) y q r = getF s y q r := rfl
@[simp] theorem State.modPanel_tile_read (p : Nat) (g : Panel → Panel) (q : Nat) : State.tile (s.modPanel p g) q = State.tile s q := rfl
@[simp] theorem State.modPanel_stitch_read (p : Nat) (g : Panel → Panel) (q : Nat) : State.stitch (s.modPanel p g) q = State.stitch s q := rfl
@[simp] theorem State.modPanel_chan_read (p : Nat) (g : Panel → Panel) (q r : Nat) : State.chan (s.modPanel p g) q r = State.chan s q r := rfl
@[simp] theorem State.modPanel_ctr_read (p : Nat) (g : Panel → Panel) (q : Nat) : State.ctr (s.modPanel p g) q = State.ctr s q := rfl
@[simp] theorem State.modPanel_hem_read (p : Nat) (g : Panel → Panel) (q : Nat) : State.hem (s.modPanel p g) q = State.hem s q := rfl
@[simp] theorem State.modPanel_lnk_read (p : Nat) (g : Panel → Panel) (q : Nat) : State.lnk (s.modPanel p g) q = State.lnk s q := rfl
@[simp] theorem State.modPanel_mp_read (p : Nat) (g : Panel → Panel) (q : Nat) : State.mp (s.modPanel p g) q = State.mp s q := rfl
@[simp] theorem State.modPanel_link_read (p : Nat) (g : Panel → Panel) (q r : Nat) : State.link (s.modPanel p g) q r = State.link s q r := rfl

/-! ### State.setStitch -/

@[simp] theorem State.setStitch_pending (n : Nat) (x : Option Stitch) : (s.setStitch n x).pending = s.pending := rfl
@[simp] theorem State.setStitch_regs (n : Nat) (x : Option Stitch) : (s.setStitch n x).regs = s.regs := rfl
@[simp] theorem State.setStitch_holdR (n : Nat) (x : Option Stitch) : (s.setStitch n x).holdR = s.holdR := rfl
@[simp] theorem State.setStitch_heldW (n : Nat) (x : Option Stitch) : (s.setStitch n x).heldW = s.heldW := rfl
@[simp] theorem State.setStitch_out (n : Nat) (x : Option Stitch) : (s.setStitch n x).out = s.out := rfl
@[simp] theorem State.setStitch_draws (n : Nat) (x : Option Stitch) : (s.setStitch n x).draws = s.draws := rfl
@[simp] theorem State.setStitch_tiles (n : Nat) (x : Option Stitch) : (s.setStitch n x).tiles = s.tiles := rfl
@[simp] theorem State.setStitch_flights (n : Nat) (x : Option Stitch) : (s.setStitch n x).flights = s.flights := rfl
@[simp] theorem State.setStitch_nextId (n : Nat) (x : Option Stitch) : (s.setStitch n x).nextId = s.nextId := rfl
@[simp] theorem State.setStitch_links (n : Nat) (x : Option Stitch) : (s.setStitch n x).links = s.links := rfl
@[simp] theorem State.setStitch_torn (n : Nat) (x : Option Stitch) : (s.setStitch n x).torn = s.torn := rfl
@[simp] theorem State.setStitch_takeover (n : Nat) (x : Option Stitch) : (s.setStitch n x).takeover = s.takeover := rfl
@[simp] theorem State.setStitch_spent (n : Nat) (x : Option Stitch) : (s.setStitch n x).spent = s.spent := rfl
@[simp] theorem State.setStitch_panels (n : Nat) (x : Option Stitch) : (s.setStitch n x).panels = s.panels := rfl
@[simp] theorem State.setStitch_profileFresh (n : Nat) (x : Option Stitch) : (s.setStitch n x).profileFresh = s.profileFresh := rfl
@[simp] theorem State.setStitch_ctrs (n : Nat) (x : Option Stitch) : (s.setStitch n x).ctrs = s.ctrs := rfl
@[simp] theorem State.setStitch_faultQ (n : Nat) (x : Option Stitch) : (s.setStitch n x).faultQ = s.faultQ := rfl
@[simp] theorem State.setStitch_faultPend (n : Nat) (x : Option Stitch) : (s.setStitch n x).faultPend = s.faultPend := rfl
@[simp] theorem State.setStitch_lostPend (n : Nat) (x : Option Stitch) : (s.setStitch n x).lostPend = s.lostPend := rfl
@[simp] theorem State.setStitch_errLog (n : Nat) (x : Option Stitch) : (s.setStitch n x).errLog = s.errLog := rfl
@[simp] theorem State.setStitch_frzReq (n : Nat) (x : Option Stitch) : (s.setStitch n x).frzReq = s.frzReq := rfl
@[simp] theorem State.setStitch_fuses (n : Nat) (x : Option Stitch) : (s.setStitch n x).fuses = s.fuses := rfl
@[simp] theorem State.setStitch_fuseErr (n : Nat) (x : Option Stitch) : (s.setStitch n x).fuseErr = s.fuseErr := rfl
@[simp] theorem State.setStitch_hbm (n : Nat) (x : Option Stitch) : (s.setStitch n x).hbm = s.hbm := rfl
@[simp] theorem State.setStitch_chans (n : Nat) (x : Option Stitch) : (s.setStitch n x).chans = s.chans := rfl
@[simp] theorem State.setStitch_movTurn (n : Nat) (x : Option Stitch) : (s.setStitch n x).movTurn = s.movTurn := rfl
@[simp] theorem State.setStitch_lan (n : Nat) (x : Option Stitch) : (s.setStitch n x).lan = s.lan := rfl
@[simp] theorem State.setStitch_lanes (n : Nat) (x : Option Stitch) : (s.setStitch n x).lanes = s.lanes := rfl
@[simp] theorem State.setStitch_hems (n : Nat) (x : Option Stitch) : (s.setStitch n x).hems = s.hems := rfl
@[simp] theorem State.setStitch_mps (n : Nat) (x : Option Stitch) : (s.setStitch n x).mps = s.mps := rfl
@[simp] theorem State.setStitch_pcieUp (n : Nat) (x : Option Stitch) : (s.setStitch n x).pcieUp = s.pcieUp := rfl
@[simp] theorem State.setStitch_pciCfg (n : Nat) (x : Option Stitch) : (s.setStitch n x).pciCfg = s.pciCfg := rfl
@[simp] theorem State.setStitch_atc (n : Nat) (x : Option Stitch) : (s.setStitch n x).atc = s.atc := rfl
@[simp] theorem State.setStitch_priStopped (n : Nat) (x : Option Stitch) : (s.setStitch n x).priStopped = s.priStopped := rfl
@[simp] theorem State.setStitch_invalidating (n : Nat) (x : Option Stitch) : (s.setStitch n x).invalidating = s.invalidating := rfl
@[simp] theorem State.setStitch_msix (n : Nat) (x : Option Stitch) : (s.setStitch n x).msix = s.msix := rfl
@[simp] theorem State.setStitch_pba (n : Nat) (x : Option Stitch) : (s.setStitch n x).pba = s.pba := rfl
@[simp] theorem State.setStitch_msixEn (n : Nat) (x : Option Stitch) : (s.setStitch n x).msixEn = s.msixEn := rfl
@[simp] theorem State.setStitch_msixMaskAll (n : Nat) (x : Option Stitch) : (s.setStitch n x).msixMaskAll = s.msixMaskAll := rfl
@[simp] theorem State.setStitch_chunks (n : Nat) (x : Option Stitch) : (s.setStitch n x).chunks = s.chunks := rfl
@[simp] theorem State.setStitch_bsnap (n : Nat) (x : Option Stitch) : (s.setStitch n x).bsnap = s.bsnap := rfl
@[simp] theorem State.setStitch_frzFull (n : Nat) (x : Option Stitch) : (s.setStitch n x).frzFull = s.frzFull := rfl
@[simp] theorem State.setStitch_frzHeld (n : Nat) (x : Option Stitch) : (s.setStitch n x).frzHeld = s.frzHeld := rfl
@[simp] theorem State.setStitch_frzPin (n : Nat) (x : Option Stitch) : (s.setStitch n x).frzPin = s.frzPin := rfl
@[simp] theorem State.setStitch_shutdown (n : Nat) (x : Option Stitch) : (s.setStitch n x).shutdown = s.shutdown := rfl
@[simp] theorem State.setStitch_booted (n : Nat) (x : Option Stitch) : (s.setStitch n x).booted = s.booted := rfl
@[simp] theorem State.setStitch_coldBoot (n : Nat) (x : Option Stitch) : (s.setStitch n x).coldBoot = s.coldBoot := rfl
@[simp] theorem State.setStitch_boots (n : Nat) (x : Option Stitch) : (s.setStitch n x).boots = s.boots := rfl
@[simp] theorem State.setStitch_perst (n : Nat) (x : Option Stitch) : (s.setStitch n x).perst = s.perst := rfl
@[simp] theorem State.setStitch_warming (n : Nat) (x : Option Stitch) : (s.setStitch n x).warming = s.warming := rfl
@[simp] theorem State.setStitch_bbox (n : Nat) (x : Option Stitch) : (s.setStitch n x).bbox = s.bbox := rfl
@[simp] theorem State.setStitch_bbBreak (n : Nat) (x : Option Stitch) : (s.setStitch n x).bbBreak = s.bbBreak := rfl
@[simp] theorem State.setStitch_sinceSum (n : Nat) (x : Option Stitch) : (s.setStitch n x).sinceSum = s.sinceSum := rfl
@[simp] theorem State.setStitch_bbHost (n : Nat) (x : Option Stitch) : (s.setStitch n x).bbHost = s.bbHost := rfl
@[simp] theorem State.setStitch_failed (n : Nat) (x : Option Stitch) : (s.setStitch n x).failed = s.failed := rfl
@[simp] theorem State.setStitch_soft (n : Nat) (x : Option Stitch) : (s.setStitch n x).soft = s.soft := rfl
@[simp] theorem State.setStitch_vfuse (n : Nat) (x : Option Stitch) : (s.setStitch n x).vfuse = s.vfuse := rfl
@[simp] theorem State.setStitch_locked (n : Nat) (x : Option Stitch) : (s.setStitch n x).locked = s.locked := rfl
@[simp] theorem State.setStitch_fwKey (n : Nat) (x : Option Stitch) : (s.setStitch n x).fwKey = s.fwKey := rfl
@[simp] theorem State.setStitch_fwVer (n : Nat) (x : Option Stitch) : (s.setStitch n x).fwVer = s.fwVer := rfl
@[simp] theorem State.setStitch_fwDigest (n : Nat) (x : Option Stitch) : (s.setStitch n x).fwDigest = s.fwDigest := rfl
@[simp] theorem State.setStitch_aliasKey (n : Nat) (x : Option Stitch) : (s.setStitch n x).aliasKey = s.aliasKey := rfl
@[simp] theorem State.setStitch_flash (n : Nat) (x : Option Stitch) : (s.setStitch n x).flash = s.flash := rfl
@[simp] theorem State.setStitch_recov (n : Nat) (x : Option Stitch) : (s.setStitch n x).recov = s.recov := rfl
@[simp] theorem State.setStitch_cfg (n : Nat) (x : Option Stitch) : (s.setStitch n x).cfg = s.cfg := rfl
@[simp] theorem State.setStitch_fab (n : Nat) (x : Option Stitch) : (s.setStitch n x).fab = s.fab := rfl
@[simp] theorem State.setStitch_vccio (n : Nat) (x : Option Stitch) : (s.setStitch n x).vccio = s.vccio := rfl
@[simp] theorem State.setStitch_macRx (n : Nat) (x : Option Stitch) : (s.setStitch n x).macRx = s.macRx := rfl
@[simp] theorem State.setStitch_macTx (n : Nat) (x : Option Stitch) : (s.setStitch n x).macTx = s.macTx := rfl
@[simp] theorem State.setStitch_macTake (n : Nat) (x : Option Stitch) : (s.setStitch n x).macTake = s.macTake := rfl
@[simp] theorem State.setStitch_droop (n : Nat) (x : Option Stitch) : (s.setStitch n x).droop = s.droop := rfl
@[simp] theorem State.setStitch_capOver (n : Nat) (x : Option Stitch) : (s.setStitch n x).capOver = s.capOver := rfl
@[simp] theorem State.setStitch_hotReads (n : Nat) (x : Option Stitch) : (s.setStitch n x).hotReads = s.hotReads := rfl
@[simp] theorem State.setStitch_doeHeld (n : Nat) (x : Option Stitch) : (s.setStitch n x).doeHeld = s.doeHeld := rfl
@[simp] theorem State.setStitch_svcHeld (n : Nat) (x : Option Stitch) : (s.setStitch n x).svcHeld = s.svcHeld := rfl
@[simp] theorem State.setStitch_tapIr (n : Nat) (x : Option Stitch) : (s.setStitch n x).tapIr = s.tapIr := rfl
@[simp] theorem State.setStitch_tapSel (n : Nat) (x : Option Stitch) : (s.setStitch n x).tapSel = s.tapSel := rfl
@[simp] theorem State.setStitch_tapNext (n : Nat) (x : Option Stitch) : (s.setStitch n x).tapNext = s.tapNext := rfl
@[simp] theorem State.setStitch_bscan (n : Nat) (x : Option Stitch) : (s.setStitch n x).bscan = s.bscan := rfl
@[simp] theorem State.setStitch_getF_read (n : Nat) (x : Option Stitch) (y : Fld) (q r : Nat) : getF (s.setStitch n x) y q r = getF s y q r := rfl
@[simp] theorem State.setStitch_tile_read (n : Nat) (x : Option Stitch) (q : Nat) : State.tile (s.setStitch n x) q = State.tile s q := rfl
@[simp] theorem State.setStitch_panel_read (n : Nat) (x : Option Stitch) (q : Nat) : State.panel (s.setStitch n x) q = State.panel s q := rfl
@[simp] theorem State.setStitch_chan_read (n : Nat) (x : Option Stitch) (q r : Nat) : State.chan (s.setStitch n x) q r = State.chan s q r := rfl
@[simp] theorem State.setStitch_ctr_read (n : Nat) (x : Option Stitch) (q : Nat) : State.ctr (s.setStitch n x) q = State.ctr s q := rfl
@[simp] theorem State.setStitch_hem_read (n : Nat) (x : Option Stitch) (q : Nat) : State.hem (s.setStitch n x) q = State.hem s q := rfl
@[simp] theorem State.setStitch_lnk_read (n : Nat) (x : Option Stitch) (q : Nat) : State.lnk (s.setStitch n x) q = State.lnk s q := rfl
@[simp] theorem State.setStitch_mp_read (n : Nat) (x : Option Stitch) (q : Nat) : State.mp (s.setStitch n x) q = State.mp s q := rfl
@[simp] theorem State.setStitch_link_read (n : Nat) (x : Option Stitch) (q r : Nat) : State.link (s.setStitch n x) q r = State.link s q r := rfl

/-! ### State.modLink -/

@[simp] theorem State.modLink_pending (t p : Nat) (g : LinkSt → LinkSt) : (s.modLink t p g).pending = s.pending := rfl
@[simp] theorem State.modLink_regs (t p : Nat) (g : LinkSt → LinkSt) : (s.modLink t p g).regs = s.regs := rfl
@[simp] theorem State.modLink_holdR (t p : Nat) (g : LinkSt → LinkSt) : (s.modLink t p g).holdR = s.holdR := rfl
@[simp] theorem State.modLink_heldW (t p : Nat) (g : LinkSt → LinkSt) : (s.modLink t p g).heldW = s.heldW := rfl
@[simp] theorem State.modLink_out (t p : Nat) (g : LinkSt → LinkSt) : (s.modLink t p g).out = s.out := rfl
@[simp] theorem State.modLink_draws (t p : Nat) (g : LinkSt → LinkSt) : (s.modLink t p g).draws = s.draws := rfl
@[simp] theorem State.modLink_tiles (t p : Nat) (g : LinkSt → LinkSt) : (s.modLink t p g).tiles = s.tiles := rfl
@[simp] theorem State.modLink_flights (t p : Nat) (g : LinkSt → LinkSt) : (s.modLink t p g).flights = s.flights := rfl
@[simp] theorem State.modLink_nextId (t p : Nat) (g : LinkSt → LinkSt) : (s.modLink t p g).nextId = s.nextId := rfl
@[simp] theorem State.modLink_stitches (t p : Nat) (g : LinkSt → LinkSt) : (s.modLink t p g).stitches = s.stitches := rfl
@[simp] theorem State.modLink_torn (t p : Nat) (g : LinkSt → LinkSt) : (s.modLink t p g).torn = s.torn := rfl
@[simp] theorem State.modLink_takeover (t p : Nat) (g : LinkSt → LinkSt) : (s.modLink t p g).takeover = s.takeover := rfl
@[simp] theorem State.modLink_spent (t p : Nat) (g : LinkSt → LinkSt) : (s.modLink t p g).spent = s.spent := rfl
@[simp] theorem State.modLink_panels (t p : Nat) (g : LinkSt → LinkSt) : (s.modLink t p g).panels = s.panels := rfl
@[simp] theorem State.modLink_profileFresh (t p : Nat) (g : LinkSt → LinkSt) : (s.modLink t p g).profileFresh = s.profileFresh := rfl
@[simp] theorem State.modLink_ctrs (t p : Nat) (g : LinkSt → LinkSt) : (s.modLink t p g).ctrs = s.ctrs := rfl
@[simp] theorem State.modLink_faultQ (t p : Nat) (g : LinkSt → LinkSt) : (s.modLink t p g).faultQ = s.faultQ := rfl
@[simp] theorem State.modLink_faultPend (t p : Nat) (g : LinkSt → LinkSt) : (s.modLink t p g).faultPend = s.faultPend := rfl
@[simp] theorem State.modLink_lostPend (t p : Nat) (g : LinkSt → LinkSt) : (s.modLink t p g).lostPend = s.lostPend := rfl
@[simp] theorem State.modLink_errLog (t p : Nat) (g : LinkSt → LinkSt) : (s.modLink t p g).errLog = s.errLog := rfl
@[simp] theorem State.modLink_frzReq (t p : Nat) (g : LinkSt → LinkSt) : (s.modLink t p g).frzReq = s.frzReq := rfl
@[simp] theorem State.modLink_fuses (t p : Nat) (g : LinkSt → LinkSt) : (s.modLink t p g).fuses = s.fuses := rfl
@[simp] theorem State.modLink_fuseErr (t p : Nat) (g : LinkSt → LinkSt) : (s.modLink t p g).fuseErr = s.fuseErr := rfl
@[simp] theorem State.modLink_hbm (t p : Nat) (g : LinkSt → LinkSt) : (s.modLink t p g).hbm = s.hbm := rfl
@[simp] theorem State.modLink_chans (t p : Nat) (g : LinkSt → LinkSt) : (s.modLink t p g).chans = s.chans := rfl
@[simp] theorem State.modLink_movTurn (t p : Nat) (g : LinkSt → LinkSt) : (s.modLink t p g).movTurn = s.movTurn := rfl
@[simp] theorem State.modLink_lan (t p : Nat) (g : LinkSt → LinkSt) : (s.modLink t p g).lan = s.lan := rfl
@[simp] theorem State.modLink_lanes (t p : Nat) (g : LinkSt → LinkSt) : (s.modLink t p g).lanes = s.lanes := rfl
@[simp] theorem State.modLink_hems (t p : Nat) (g : LinkSt → LinkSt) : (s.modLink t p g).hems = s.hems := rfl
@[simp] theorem State.modLink_mps (t p : Nat) (g : LinkSt → LinkSt) : (s.modLink t p g).mps = s.mps := rfl
@[simp] theorem State.modLink_pcieUp (t p : Nat) (g : LinkSt → LinkSt) : (s.modLink t p g).pcieUp = s.pcieUp := rfl
@[simp] theorem State.modLink_pciCfg (t p : Nat) (g : LinkSt → LinkSt) : (s.modLink t p g).pciCfg = s.pciCfg := rfl
@[simp] theorem State.modLink_atc (t p : Nat) (g : LinkSt → LinkSt) : (s.modLink t p g).atc = s.atc := rfl
@[simp] theorem State.modLink_priStopped (t p : Nat) (g : LinkSt → LinkSt) : (s.modLink t p g).priStopped = s.priStopped := rfl
@[simp] theorem State.modLink_invalidating (t p : Nat) (g : LinkSt → LinkSt) : (s.modLink t p g).invalidating = s.invalidating := rfl
@[simp] theorem State.modLink_msix (t p : Nat) (g : LinkSt → LinkSt) : (s.modLink t p g).msix = s.msix := rfl
@[simp] theorem State.modLink_pba (t p : Nat) (g : LinkSt → LinkSt) : (s.modLink t p g).pba = s.pba := rfl
@[simp] theorem State.modLink_msixEn (t p : Nat) (g : LinkSt → LinkSt) : (s.modLink t p g).msixEn = s.msixEn := rfl
@[simp] theorem State.modLink_msixMaskAll (t p : Nat) (g : LinkSt → LinkSt) : (s.modLink t p g).msixMaskAll = s.msixMaskAll := rfl
@[simp] theorem State.modLink_chunks (t p : Nat) (g : LinkSt → LinkSt) : (s.modLink t p g).chunks = s.chunks := rfl
@[simp] theorem State.modLink_bsnap (t p : Nat) (g : LinkSt → LinkSt) : (s.modLink t p g).bsnap = s.bsnap := rfl
@[simp] theorem State.modLink_frzFull (t p : Nat) (g : LinkSt → LinkSt) : (s.modLink t p g).frzFull = s.frzFull := rfl
@[simp] theorem State.modLink_frzHeld (t p : Nat) (g : LinkSt → LinkSt) : (s.modLink t p g).frzHeld = s.frzHeld := rfl
@[simp] theorem State.modLink_frzPin (t p : Nat) (g : LinkSt → LinkSt) : (s.modLink t p g).frzPin = s.frzPin := rfl
@[simp] theorem State.modLink_shutdown (t p : Nat) (g : LinkSt → LinkSt) : (s.modLink t p g).shutdown = s.shutdown := rfl
@[simp] theorem State.modLink_booted (t p : Nat) (g : LinkSt → LinkSt) : (s.modLink t p g).booted = s.booted := rfl
@[simp] theorem State.modLink_coldBoot (t p : Nat) (g : LinkSt → LinkSt) : (s.modLink t p g).coldBoot = s.coldBoot := rfl
@[simp] theorem State.modLink_boots (t p : Nat) (g : LinkSt → LinkSt) : (s.modLink t p g).boots = s.boots := rfl
@[simp] theorem State.modLink_perst (t p : Nat) (g : LinkSt → LinkSt) : (s.modLink t p g).perst = s.perst := rfl
@[simp] theorem State.modLink_warming (t p : Nat) (g : LinkSt → LinkSt) : (s.modLink t p g).warming = s.warming := rfl
@[simp] theorem State.modLink_bbox (t p : Nat) (g : LinkSt → LinkSt) : (s.modLink t p g).bbox = s.bbox := rfl
@[simp] theorem State.modLink_bbBreak (t p : Nat) (g : LinkSt → LinkSt) : (s.modLink t p g).bbBreak = s.bbBreak := rfl
@[simp] theorem State.modLink_sinceSum (t p : Nat) (g : LinkSt → LinkSt) : (s.modLink t p g).sinceSum = s.sinceSum := rfl
@[simp] theorem State.modLink_bbHost (t p : Nat) (g : LinkSt → LinkSt) : (s.modLink t p g).bbHost = s.bbHost := rfl
@[simp] theorem State.modLink_failed (t p : Nat) (g : LinkSt → LinkSt) : (s.modLink t p g).failed = s.failed := rfl
@[simp] theorem State.modLink_soft (t p : Nat) (g : LinkSt → LinkSt) : (s.modLink t p g).soft = s.soft := rfl
@[simp] theorem State.modLink_vfuse (t p : Nat) (g : LinkSt → LinkSt) : (s.modLink t p g).vfuse = s.vfuse := rfl
@[simp] theorem State.modLink_locked (t p : Nat) (g : LinkSt → LinkSt) : (s.modLink t p g).locked = s.locked := rfl
@[simp] theorem State.modLink_fwKey (t p : Nat) (g : LinkSt → LinkSt) : (s.modLink t p g).fwKey = s.fwKey := rfl
@[simp] theorem State.modLink_fwVer (t p : Nat) (g : LinkSt → LinkSt) : (s.modLink t p g).fwVer = s.fwVer := rfl
@[simp] theorem State.modLink_fwDigest (t p : Nat) (g : LinkSt → LinkSt) : (s.modLink t p g).fwDigest = s.fwDigest := rfl
@[simp] theorem State.modLink_aliasKey (t p : Nat) (g : LinkSt → LinkSt) : (s.modLink t p g).aliasKey = s.aliasKey := rfl
@[simp] theorem State.modLink_flash (t p : Nat) (g : LinkSt → LinkSt) : (s.modLink t p g).flash = s.flash := rfl
@[simp] theorem State.modLink_recov (t p : Nat) (g : LinkSt → LinkSt) : (s.modLink t p g).recov = s.recov := rfl
@[simp] theorem State.modLink_cfg (t p : Nat) (g : LinkSt → LinkSt) : (s.modLink t p g).cfg = s.cfg := rfl
@[simp] theorem State.modLink_fab (t p : Nat) (g : LinkSt → LinkSt) : (s.modLink t p g).fab = s.fab := rfl
@[simp] theorem State.modLink_vccio (t p : Nat) (g : LinkSt → LinkSt) : (s.modLink t p g).vccio = s.vccio := rfl
@[simp] theorem State.modLink_macRx (t p : Nat) (g : LinkSt → LinkSt) : (s.modLink t p g).macRx = s.macRx := rfl
@[simp] theorem State.modLink_macTx (t p : Nat) (g : LinkSt → LinkSt) : (s.modLink t p g).macTx = s.macTx := rfl
@[simp] theorem State.modLink_macTake (t p : Nat) (g : LinkSt → LinkSt) : (s.modLink t p g).macTake = s.macTake := rfl
@[simp] theorem State.modLink_droop (t p : Nat) (g : LinkSt → LinkSt) : (s.modLink t p g).droop = s.droop := rfl
@[simp] theorem State.modLink_capOver (t p : Nat) (g : LinkSt → LinkSt) : (s.modLink t p g).capOver = s.capOver := rfl
@[simp] theorem State.modLink_hotReads (t p : Nat) (g : LinkSt → LinkSt) : (s.modLink t p g).hotReads = s.hotReads := rfl
@[simp] theorem State.modLink_doeHeld (t p : Nat) (g : LinkSt → LinkSt) : (s.modLink t p g).doeHeld = s.doeHeld := rfl
@[simp] theorem State.modLink_svcHeld (t p : Nat) (g : LinkSt → LinkSt) : (s.modLink t p g).svcHeld = s.svcHeld := rfl
@[simp] theorem State.modLink_tapIr (t p : Nat) (g : LinkSt → LinkSt) : (s.modLink t p g).tapIr = s.tapIr := rfl
@[simp] theorem State.modLink_tapSel (t p : Nat) (g : LinkSt → LinkSt) : (s.modLink t p g).tapSel = s.tapSel := rfl
@[simp] theorem State.modLink_tapNext (t p : Nat) (g : LinkSt → LinkSt) : (s.modLink t p g).tapNext = s.tapNext := rfl
@[simp] theorem State.modLink_bscan (t p : Nat) (g : LinkSt → LinkSt) : (s.modLink t p g).bscan = s.bscan := rfl
@[simp] theorem State.modLink_getF_read (t p : Nat) (g : LinkSt → LinkSt) (y : Fld) (q r : Nat) : getF (s.modLink t p g) y q r = getF s y q r := rfl
@[simp] theorem State.modLink_tile_read (t p : Nat) (g : LinkSt → LinkSt) (q : Nat) : State.tile (s.modLink t p g) q = State.tile s q := rfl
@[simp] theorem State.modLink_panel_read (t p : Nat) (g : LinkSt → LinkSt) (q : Nat) : State.panel (s.modLink t p g) q = State.panel s q := rfl
@[simp] theorem State.modLink_stitch_read (t p : Nat) (g : LinkSt → LinkSt) (q : Nat) : State.stitch (s.modLink t p g) q = State.stitch s q := rfl
@[simp] theorem State.modLink_chan_read (t p : Nat) (g : LinkSt → LinkSt) (q r : Nat) : State.chan (s.modLink t p g) q r = State.chan s q r := rfl
@[simp] theorem State.modLink_ctr_read (t p : Nat) (g : LinkSt → LinkSt) (q : Nat) : State.ctr (s.modLink t p g) q = State.ctr s q := rfl
@[simp] theorem State.modLink_hem_read (t p : Nat) (g : LinkSt → LinkSt) (q : Nat) : State.hem (s.modLink t p g) q = State.hem s q := rfl
@[simp] theorem State.modLink_lnk_read (t p : Nat) (g : LinkSt → LinkSt) (q : Nat) : State.lnk (s.modLink t p g) q = State.lnk s q := rfl
@[simp] theorem State.modLink_mp_read (t p : Nat) (g : LinkSt → LinkSt) (q : Nat) : State.mp (s.modLink t p g) q = State.mp s q := rfl

/-! ### State.setChan -/

@[simp] theorem State.setChan_pending (k n : Nat) (x : Chan) : (s.setChan k n x).pending = s.pending := rfl
@[simp] theorem State.setChan_holdR (k n : Nat) (x : Chan) : (s.setChan k n x).holdR = s.holdR := rfl
@[simp] theorem State.setChan_heldW (k n : Nat) (x : Chan) : (s.setChan k n x).heldW = s.heldW := rfl
@[simp] theorem State.setChan_out (k n : Nat) (x : Chan) : (s.setChan k n x).out = s.out := rfl
@[simp] theorem State.setChan_draws (k n : Nat) (x : Chan) : (s.setChan k n x).draws = s.draws := rfl
@[simp] theorem State.setChan_tiles (k n : Nat) (x : Chan) : (s.setChan k n x).tiles = s.tiles := rfl
@[simp] theorem State.setChan_flights (k n : Nat) (x : Chan) : (s.setChan k n x).flights = s.flights := rfl
@[simp] theorem State.setChan_nextId (k n : Nat) (x : Chan) : (s.setChan k n x).nextId = s.nextId := rfl
@[simp] theorem State.setChan_stitches (k n : Nat) (x : Chan) : (s.setChan k n x).stitches = s.stitches := rfl
@[simp] theorem State.setChan_links (k n : Nat) (x : Chan) : (s.setChan k n x).links = s.links := rfl
@[simp] theorem State.setChan_torn (k n : Nat) (x : Chan) : (s.setChan k n x).torn = s.torn := rfl
@[simp] theorem State.setChan_takeover (k n : Nat) (x : Chan) : (s.setChan k n x).takeover = s.takeover := rfl
@[simp] theorem State.setChan_spent (k n : Nat) (x : Chan) : (s.setChan k n x).spent = s.spent := rfl
@[simp] theorem State.setChan_panels (k n : Nat) (x : Chan) : (s.setChan k n x).panels = s.panels := rfl
@[simp] theorem State.setChan_profileFresh (k n : Nat) (x : Chan) : (s.setChan k n x).profileFresh = s.profileFresh := rfl
@[simp] theorem State.setChan_ctrs (k n : Nat) (x : Chan) : (s.setChan k n x).ctrs = s.ctrs := rfl
@[simp] theorem State.setChan_faultQ (k n : Nat) (x : Chan) : (s.setChan k n x).faultQ = s.faultQ := rfl
@[simp] theorem State.setChan_faultPend (k n : Nat) (x : Chan) : (s.setChan k n x).faultPend = s.faultPend := rfl
@[simp] theorem State.setChan_lostPend (k n : Nat) (x : Chan) : (s.setChan k n x).lostPend = s.lostPend := rfl
@[simp] theorem State.setChan_errLog (k n : Nat) (x : Chan) : (s.setChan k n x).errLog = s.errLog := rfl
@[simp] theorem State.setChan_frzReq (k n : Nat) (x : Chan) : (s.setChan k n x).frzReq = s.frzReq := rfl
@[simp] theorem State.setChan_fuses (k n : Nat) (x : Chan) : (s.setChan k n x).fuses = s.fuses := rfl
@[simp] theorem State.setChan_fuseErr (k n : Nat) (x : Chan) : (s.setChan k n x).fuseErr = s.fuseErr := rfl
@[simp] theorem State.setChan_hbm (k n : Nat) (x : Chan) : (s.setChan k n x).hbm = s.hbm := rfl
@[simp] theorem State.setChan_movTurn (k n : Nat) (x : Chan) : (s.setChan k n x).movTurn = s.movTurn := rfl
@[simp] theorem State.setChan_lan (k n : Nat) (x : Chan) : (s.setChan k n x).lan = s.lan := rfl
@[simp] theorem State.setChan_lanes (k n : Nat) (x : Chan) : (s.setChan k n x).lanes = s.lanes := rfl
@[simp] theorem State.setChan_hems (k n : Nat) (x : Chan) : (s.setChan k n x).hems = s.hems := rfl
@[simp] theorem State.setChan_mps (k n : Nat) (x : Chan) : (s.setChan k n x).mps = s.mps := rfl
@[simp] theorem State.setChan_pcieUp (k n : Nat) (x : Chan) : (s.setChan k n x).pcieUp = s.pcieUp := rfl
@[simp] theorem State.setChan_pciCfg (k n : Nat) (x : Chan) : (s.setChan k n x).pciCfg = s.pciCfg := rfl
@[simp] theorem State.setChan_atc (k n : Nat) (x : Chan) : (s.setChan k n x).atc = s.atc := rfl
@[simp] theorem State.setChan_priStopped (k n : Nat) (x : Chan) : (s.setChan k n x).priStopped = s.priStopped := rfl
@[simp] theorem State.setChan_invalidating (k n : Nat) (x : Chan) : (s.setChan k n x).invalidating = s.invalidating := rfl
@[simp] theorem State.setChan_msix (k n : Nat) (x : Chan) : (s.setChan k n x).msix = s.msix := rfl
@[simp] theorem State.setChan_pba (k n : Nat) (x : Chan) : (s.setChan k n x).pba = s.pba := rfl
@[simp] theorem State.setChan_msixEn (k n : Nat) (x : Chan) : (s.setChan k n x).msixEn = s.msixEn := rfl
@[simp] theorem State.setChan_msixMaskAll (k n : Nat) (x : Chan) : (s.setChan k n x).msixMaskAll = s.msixMaskAll := rfl
@[simp] theorem State.setChan_chunks (k n : Nat) (x : Chan) : (s.setChan k n x).chunks = s.chunks := rfl
@[simp] theorem State.setChan_bsnap (k n : Nat) (x : Chan) : (s.setChan k n x).bsnap = s.bsnap := rfl
@[simp] theorem State.setChan_frzFull (k n : Nat) (x : Chan) : (s.setChan k n x).frzFull = s.frzFull := rfl
@[simp] theorem State.setChan_frzHeld (k n : Nat) (x : Chan) : (s.setChan k n x).frzHeld = s.frzHeld := rfl
@[simp] theorem State.setChan_frzPin (k n : Nat) (x : Chan) : (s.setChan k n x).frzPin = s.frzPin := rfl
@[simp] theorem State.setChan_shutdown (k n : Nat) (x : Chan) : (s.setChan k n x).shutdown = s.shutdown := rfl
@[simp] theorem State.setChan_booted (k n : Nat) (x : Chan) : (s.setChan k n x).booted = s.booted := rfl
@[simp] theorem State.setChan_coldBoot (k n : Nat) (x : Chan) : (s.setChan k n x).coldBoot = s.coldBoot := rfl
@[simp] theorem State.setChan_boots (k n : Nat) (x : Chan) : (s.setChan k n x).boots = s.boots := rfl
@[simp] theorem State.setChan_perst (k n : Nat) (x : Chan) : (s.setChan k n x).perst = s.perst := rfl
@[simp] theorem State.setChan_warming (k n : Nat) (x : Chan) : (s.setChan k n x).warming = s.warming := rfl
@[simp] theorem State.setChan_bbox (k n : Nat) (x : Chan) : (s.setChan k n x).bbox = s.bbox := rfl
@[simp] theorem State.setChan_bbBreak (k n : Nat) (x : Chan) : (s.setChan k n x).bbBreak = s.bbBreak := rfl
@[simp] theorem State.setChan_sinceSum (k n : Nat) (x : Chan) : (s.setChan k n x).sinceSum = s.sinceSum := rfl
@[simp] theorem State.setChan_bbHost (k n : Nat) (x : Chan) : (s.setChan k n x).bbHost = s.bbHost := rfl
@[simp] theorem State.setChan_failed (k n : Nat) (x : Chan) : (s.setChan k n x).failed = s.failed := rfl
@[simp] theorem State.setChan_soft (k n : Nat) (x : Chan) : (s.setChan k n x).soft = s.soft := rfl
@[simp] theorem State.setChan_vfuse (k n : Nat) (x : Chan) : (s.setChan k n x).vfuse = s.vfuse := rfl
@[simp] theorem State.setChan_locked (k n : Nat) (x : Chan) : (s.setChan k n x).locked = s.locked := rfl
@[simp] theorem State.setChan_fwKey (k n : Nat) (x : Chan) : (s.setChan k n x).fwKey = s.fwKey := rfl
@[simp] theorem State.setChan_fwVer (k n : Nat) (x : Chan) : (s.setChan k n x).fwVer = s.fwVer := rfl
@[simp] theorem State.setChan_fwDigest (k n : Nat) (x : Chan) : (s.setChan k n x).fwDigest = s.fwDigest := rfl
@[simp] theorem State.setChan_aliasKey (k n : Nat) (x : Chan) : (s.setChan k n x).aliasKey = s.aliasKey := rfl
@[simp] theorem State.setChan_flash (k n : Nat) (x : Chan) : (s.setChan k n x).flash = s.flash := rfl
@[simp] theorem State.setChan_recov (k n : Nat) (x : Chan) : (s.setChan k n x).recov = s.recov := rfl
@[simp] theorem State.setChan_cfg (k n : Nat) (x : Chan) : (s.setChan k n x).cfg = s.cfg := rfl
@[simp] theorem State.setChan_fab (k n : Nat) (x : Chan) : (s.setChan k n x).fab = s.fab := rfl
@[simp] theorem State.setChan_vccio (k n : Nat) (x : Chan) : (s.setChan k n x).vccio = s.vccio := rfl
@[simp] theorem State.setChan_macRx (k n : Nat) (x : Chan) : (s.setChan k n x).macRx = s.macRx := rfl
@[simp] theorem State.setChan_macTx (k n : Nat) (x : Chan) : (s.setChan k n x).macTx = s.macTx := rfl
@[simp] theorem State.setChan_macTake (k n : Nat) (x : Chan) : (s.setChan k n x).macTake = s.macTake := rfl
@[simp] theorem State.setChan_droop (k n : Nat) (x : Chan) : (s.setChan k n x).droop = s.droop := rfl
@[simp] theorem State.setChan_capOver (k n : Nat) (x : Chan) : (s.setChan k n x).capOver = s.capOver := rfl
@[simp] theorem State.setChan_hotReads (k n : Nat) (x : Chan) : (s.setChan k n x).hotReads = s.hotReads := rfl
@[simp] theorem State.setChan_doeHeld (k n : Nat) (x : Chan) : (s.setChan k n x).doeHeld = s.doeHeld := rfl
@[simp] theorem State.setChan_svcHeld (k n : Nat) (x : Chan) : (s.setChan k n x).svcHeld = s.svcHeld := rfl
@[simp] theorem State.setChan_tapIr (k n : Nat) (x : Chan) : (s.setChan k n x).tapIr = s.tapIr := rfl
@[simp] theorem State.setChan_tapSel (k n : Nat) (x : Chan) : (s.setChan k n x).tapSel = s.tapSel := rfl
@[simp] theorem State.setChan_tapNext (k n : Nat) (x : Chan) : (s.setChan k n x).tapNext = s.tapNext := rfl
@[simp] theorem State.setChan_bscan (k n : Nat) (x : Chan) : (s.setChan k n x).bscan = s.bscan := rfl
@[simp] theorem State.setChan_tile_read (k n : Nat) (x : Chan) (q : Nat) : State.tile (s.setChan k n x) q = State.tile s q := rfl
@[simp] theorem State.setChan_panel_read (k n : Nat) (x : Chan) (q : Nat) : State.panel (s.setChan k n x) q = State.panel s q := rfl
@[simp] theorem State.setChan_stitch_read (k n : Nat) (x : Chan) (q : Nat) : State.stitch (s.setChan k n x) q = State.stitch s q := rfl
@[simp] theorem State.setChan_ctr_read (k n : Nat) (x : Chan) (q : Nat) : State.ctr (s.setChan k n x) q = State.ctr s q := rfl
@[simp] theorem State.setChan_hem_read (k n : Nat) (x : Chan) (q : Nat) : State.hem (s.setChan k n x) q = State.hem s q := rfl
@[simp] theorem State.setChan_lnk_read (k n : Nat) (x : Chan) (q : Nat) : State.lnk (s.setChan k n x) q = State.lnk s q := rfl
@[simp] theorem State.setChan_mp_read (k n : Nat) (x : Chan) (q : Nat) : State.mp (s.setChan k n x) q = State.mp s q := rfl
@[simp] theorem State.setChan_link_read (k n : Nat) (x : Chan) (q r : Nat) : State.link (s.setChan k n x) q r = State.link s q r := rfl

/-! ### State.modChan -/

@[simp] theorem State.modChan_pending (k n : Nat) (g : Chan → Chan) : (s.modChan k n g).pending = s.pending := rfl
@[simp] theorem State.modChan_holdR (k n : Nat) (g : Chan → Chan) : (s.modChan k n g).holdR = s.holdR := rfl
@[simp] theorem State.modChan_heldW (k n : Nat) (g : Chan → Chan) : (s.modChan k n g).heldW = s.heldW := rfl
@[simp] theorem State.modChan_out (k n : Nat) (g : Chan → Chan) : (s.modChan k n g).out = s.out := rfl
@[simp] theorem State.modChan_draws (k n : Nat) (g : Chan → Chan) : (s.modChan k n g).draws = s.draws := rfl
@[simp] theorem State.modChan_tiles (k n : Nat) (g : Chan → Chan) : (s.modChan k n g).tiles = s.tiles := rfl
@[simp] theorem State.modChan_flights (k n : Nat) (g : Chan → Chan) : (s.modChan k n g).flights = s.flights := rfl
@[simp] theorem State.modChan_nextId (k n : Nat) (g : Chan → Chan) : (s.modChan k n g).nextId = s.nextId := rfl
@[simp] theorem State.modChan_stitches (k n : Nat) (g : Chan → Chan) : (s.modChan k n g).stitches = s.stitches := rfl
@[simp] theorem State.modChan_links (k n : Nat) (g : Chan → Chan) : (s.modChan k n g).links = s.links := rfl
@[simp] theorem State.modChan_torn (k n : Nat) (g : Chan → Chan) : (s.modChan k n g).torn = s.torn := rfl
@[simp] theorem State.modChan_takeover (k n : Nat) (g : Chan → Chan) : (s.modChan k n g).takeover = s.takeover := rfl
@[simp] theorem State.modChan_spent (k n : Nat) (g : Chan → Chan) : (s.modChan k n g).spent = s.spent := rfl
@[simp] theorem State.modChan_panels (k n : Nat) (g : Chan → Chan) : (s.modChan k n g).panels = s.panels := rfl
@[simp] theorem State.modChan_profileFresh (k n : Nat) (g : Chan → Chan) : (s.modChan k n g).profileFresh = s.profileFresh := rfl
@[simp] theorem State.modChan_ctrs (k n : Nat) (g : Chan → Chan) : (s.modChan k n g).ctrs = s.ctrs := rfl
@[simp] theorem State.modChan_faultQ (k n : Nat) (g : Chan → Chan) : (s.modChan k n g).faultQ = s.faultQ := rfl
@[simp] theorem State.modChan_faultPend (k n : Nat) (g : Chan → Chan) : (s.modChan k n g).faultPend = s.faultPend := rfl
@[simp] theorem State.modChan_lostPend (k n : Nat) (g : Chan → Chan) : (s.modChan k n g).lostPend = s.lostPend := rfl
@[simp] theorem State.modChan_errLog (k n : Nat) (g : Chan → Chan) : (s.modChan k n g).errLog = s.errLog := rfl
@[simp] theorem State.modChan_frzReq (k n : Nat) (g : Chan → Chan) : (s.modChan k n g).frzReq = s.frzReq := rfl
@[simp] theorem State.modChan_fuses (k n : Nat) (g : Chan → Chan) : (s.modChan k n g).fuses = s.fuses := rfl
@[simp] theorem State.modChan_fuseErr (k n : Nat) (g : Chan → Chan) : (s.modChan k n g).fuseErr = s.fuseErr := rfl
@[simp] theorem State.modChan_hbm (k n : Nat) (g : Chan → Chan) : (s.modChan k n g).hbm = s.hbm := rfl
@[simp] theorem State.modChan_movTurn (k n : Nat) (g : Chan → Chan) : (s.modChan k n g).movTurn = s.movTurn := rfl
@[simp] theorem State.modChan_lan (k n : Nat) (g : Chan → Chan) : (s.modChan k n g).lan = s.lan := rfl
@[simp] theorem State.modChan_lanes (k n : Nat) (g : Chan → Chan) : (s.modChan k n g).lanes = s.lanes := rfl
@[simp] theorem State.modChan_hems (k n : Nat) (g : Chan → Chan) : (s.modChan k n g).hems = s.hems := rfl
@[simp] theorem State.modChan_mps (k n : Nat) (g : Chan → Chan) : (s.modChan k n g).mps = s.mps := rfl
@[simp] theorem State.modChan_pcieUp (k n : Nat) (g : Chan → Chan) : (s.modChan k n g).pcieUp = s.pcieUp := rfl
@[simp] theorem State.modChan_pciCfg (k n : Nat) (g : Chan → Chan) : (s.modChan k n g).pciCfg = s.pciCfg := rfl
@[simp] theorem State.modChan_atc (k n : Nat) (g : Chan → Chan) : (s.modChan k n g).atc = s.atc := rfl
@[simp] theorem State.modChan_priStopped (k n : Nat) (g : Chan → Chan) : (s.modChan k n g).priStopped = s.priStopped := rfl
@[simp] theorem State.modChan_invalidating (k n : Nat) (g : Chan → Chan) : (s.modChan k n g).invalidating = s.invalidating := rfl
@[simp] theorem State.modChan_msix (k n : Nat) (g : Chan → Chan) : (s.modChan k n g).msix = s.msix := rfl
@[simp] theorem State.modChan_pba (k n : Nat) (g : Chan → Chan) : (s.modChan k n g).pba = s.pba := rfl
@[simp] theorem State.modChan_msixEn (k n : Nat) (g : Chan → Chan) : (s.modChan k n g).msixEn = s.msixEn := rfl
@[simp] theorem State.modChan_msixMaskAll (k n : Nat) (g : Chan → Chan) : (s.modChan k n g).msixMaskAll = s.msixMaskAll := rfl
@[simp] theorem State.modChan_chunks (k n : Nat) (g : Chan → Chan) : (s.modChan k n g).chunks = s.chunks := rfl
@[simp] theorem State.modChan_bsnap (k n : Nat) (g : Chan → Chan) : (s.modChan k n g).bsnap = s.bsnap := rfl
@[simp] theorem State.modChan_frzFull (k n : Nat) (g : Chan → Chan) : (s.modChan k n g).frzFull = s.frzFull := rfl
@[simp] theorem State.modChan_frzHeld (k n : Nat) (g : Chan → Chan) : (s.modChan k n g).frzHeld = s.frzHeld := rfl
@[simp] theorem State.modChan_frzPin (k n : Nat) (g : Chan → Chan) : (s.modChan k n g).frzPin = s.frzPin := rfl
@[simp] theorem State.modChan_shutdown (k n : Nat) (g : Chan → Chan) : (s.modChan k n g).shutdown = s.shutdown := rfl
@[simp] theorem State.modChan_booted (k n : Nat) (g : Chan → Chan) : (s.modChan k n g).booted = s.booted := rfl
@[simp] theorem State.modChan_coldBoot (k n : Nat) (g : Chan → Chan) : (s.modChan k n g).coldBoot = s.coldBoot := rfl
@[simp] theorem State.modChan_boots (k n : Nat) (g : Chan → Chan) : (s.modChan k n g).boots = s.boots := rfl
@[simp] theorem State.modChan_perst (k n : Nat) (g : Chan → Chan) : (s.modChan k n g).perst = s.perst := rfl
@[simp] theorem State.modChan_warming (k n : Nat) (g : Chan → Chan) : (s.modChan k n g).warming = s.warming := rfl
@[simp] theorem State.modChan_bbox (k n : Nat) (g : Chan → Chan) : (s.modChan k n g).bbox = s.bbox := rfl
@[simp] theorem State.modChan_bbBreak (k n : Nat) (g : Chan → Chan) : (s.modChan k n g).bbBreak = s.bbBreak := rfl
@[simp] theorem State.modChan_sinceSum (k n : Nat) (g : Chan → Chan) : (s.modChan k n g).sinceSum = s.sinceSum := rfl
@[simp] theorem State.modChan_bbHost (k n : Nat) (g : Chan → Chan) : (s.modChan k n g).bbHost = s.bbHost := rfl
@[simp] theorem State.modChan_failed (k n : Nat) (g : Chan → Chan) : (s.modChan k n g).failed = s.failed := rfl
@[simp] theorem State.modChan_soft (k n : Nat) (g : Chan → Chan) : (s.modChan k n g).soft = s.soft := rfl
@[simp] theorem State.modChan_vfuse (k n : Nat) (g : Chan → Chan) : (s.modChan k n g).vfuse = s.vfuse := rfl
@[simp] theorem State.modChan_locked (k n : Nat) (g : Chan → Chan) : (s.modChan k n g).locked = s.locked := rfl
@[simp] theorem State.modChan_fwKey (k n : Nat) (g : Chan → Chan) : (s.modChan k n g).fwKey = s.fwKey := rfl
@[simp] theorem State.modChan_fwVer (k n : Nat) (g : Chan → Chan) : (s.modChan k n g).fwVer = s.fwVer := rfl
@[simp] theorem State.modChan_fwDigest (k n : Nat) (g : Chan → Chan) : (s.modChan k n g).fwDigest = s.fwDigest := rfl
@[simp] theorem State.modChan_aliasKey (k n : Nat) (g : Chan → Chan) : (s.modChan k n g).aliasKey = s.aliasKey := rfl
@[simp] theorem State.modChan_flash (k n : Nat) (g : Chan → Chan) : (s.modChan k n g).flash = s.flash := rfl
@[simp] theorem State.modChan_recov (k n : Nat) (g : Chan → Chan) : (s.modChan k n g).recov = s.recov := rfl
@[simp] theorem State.modChan_cfg (k n : Nat) (g : Chan → Chan) : (s.modChan k n g).cfg = s.cfg := rfl
@[simp] theorem State.modChan_fab (k n : Nat) (g : Chan → Chan) : (s.modChan k n g).fab = s.fab := rfl
@[simp] theorem State.modChan_vccio (k n : Nat) (g : Chan → Chan) : (s.modChan k n g).vccio = s.vccio := rfl
@[simp] theorem State.modChan_macRx (k n : Nat) (g : Chan → Chan) : (s.modChan k n g).macRx = s.macRx := rfl
@[simp] theorem State.modChan_macTx (k n : Nat) (g : Chan → Chan) : (s.modChan k n g).macTx = s.macTx := rfl
@[simp] theorem State.modChan_macTake (k n : Nat) (g : Chan → Chan) : (s.modChan k n g).macTake = s.macTake := rfl
@[simp] theorem State.modChan_droop (k n : Nat) (g : Chan → Chan) : (s.modChan k n g).droop = s.droop := rfl
@[simp] theorem State.modChan_capOver (k n : Nat) (g : Chan → Chan) : (s.modChan k n g).capOver = s.capOver := rfl
@[simp] theorem State.modChan_hotReads (k n : Nat) (g : Chan → Chan) : (s.modChan k n g).hotReads = s.hotReads := rfl
@[simp] theorem State.modChan_doeHeld (k n : Nat) (g : Chan → Chan) : (s.modChan k n g).doeHeld = s.doeHeld := rfl
@[simp] theorem State.modChan_svcHeld (k n : Nat) (g : Chan → Chan) : (s.modChan k n g).svcHeld = s.svcHeld := rfl
@[simp] theorem State.modChan_tapIr (k n : Nat) (g : Chan → Chan) : (s.modChan k n g).tapIr = s.tapIr := rfl
@[simp] theorem State.modChan_tapSel (k n : Nat) (g : Chan → Chan) : (s.modChan k n g).tapSel = s.tapSel := rfl
@[simp] theorem State.modChan_tapNext (k n : Nat) (g : Chan → Chan) : (s.modChan k n g).tapNext = s.tapNext := rfl
@[simp] theorem State.modChan_bscan (k n : Nat) (g : Chan → Chan) : (s.modChan k n g).bscan = s.bscan := rfl
@[simp] theorem State.modChan_tile_read (k n : Nat) (g : Chan → Chan) (q : Nat) : State.tile (s.modChan k n g) q = State.tile s q := rfl
@[simp] theorem State.modChan_panel_read (k n : Nat) (g : Chan → Chan) (q : Nat) : State.panel (s.modChan k n g) q = State.panel s q := rfl
@[simp] theorem State.modChan_stitch_read (k n : Nat) (g : Chan → Chan) (q : Nat) : State.stitch (s.modChan k n g) q = State.stitch s q := rfl
@[simp] theorem State.modChan_ctr_read (k n : Nat) (g : Chan → Chan) (q : Nat) : State.ctr (s.modChan k n g) q = State.ctr s q := rfl
@[simp] theorem State.modChan_hem_read (k n : Nat) (g : Chan → Chan) (q : Nat) : State.hem (s.modChan k n g) q = State.hem s q := rfl
@[simp] theorem State.modChan_lnk_read (k n : Nat) (g : Chan → Chan) (q : Nat) : State.lnk (s.modChan k n g) q = State.lnk s q := rfl
@[simp] theorem State.modChan_mp_read (k n : Nat) (g : Chan → Chan) (q : Nat) : State.mp (s.modChan k n g) q = State.mp s q := rfl
@[simp] theorem State.modChan_link_read (k n : Nat) (g : Chan → Chan) (q r : Nat) : State.link (s.modChan k n g) q r = State.link s q r := rfl

/-! ### State.setTrk -/

@[simp] theorem State.setTrk_pending (c : Nat) (l : List Trk) : (s.setTrk c l).pending = s.pending := rfl
@[simp] theorem State.setTrk_holdR (c : Nat) (l : List Trk) : (s.setTrk c l).holdR = s.holdR := rfl
@[simp] theorem State.setTrk_heldW (c : Nat) (l : List Trk) : (s.setTrk c l).heldW = s.heldW := rfl
@[simp] theorem State.setTrk_out (c : Nat) (l : List Trk) : (s.setTrk c l).out = s.out := rfl
@[simp] theorem State.setTrk_draws (c : Nat) (l : List Trk) : (s.setTrk c l).draws = s.draws := rfl
@[simp] theorem State.setTrk_tiles (c : Nat) (l : List Trk) : (s.setTrk c l).tiles = s.tiles := rfl
@[simp] theorem State.setTrk_flights (c : Nat) (l : List Trk) : (s.setTrk c l).flights = s.flights := rfl
@[simp] theorem State.setTrk_nextId (c : Nat) (l : List Trk) : (s.setTrk c l).nextId = s.nextId := rfl
@[simp] theorem State.setTrk_stitches (c : Nat) (l : List Trk) : (s.setTrk c l).stitches = s.stitches := rfl
@[simp] theorem State.setTrk_links (c : Nat) (l : List Trk) : (s.setTrk c l).links = s.links := rfl
@[simp] theorem State.setTrk_torn (c : Nat) (l : List Trk) : (s.setTrk c l).torn = s.torn := rfl
@[simp] theorem State.setTrk_takeover (c : Nat) (l : List Trk) : (s.setTrk c l).takeover = s.takeover := rfl
@[simp] theorem State.setTrk_spent (c : Nat) (l : List Trk) : (s.setTrk c l).spent = s.spent := rfl
@[simp] theorem State.setTrk_panels (c : Nat) (l : List Trk) : (s.setTrk c l).panels = s.panels := rfl
@[simp] theorem State.setTrk_profileFresh (c : Nat) (l : List Trk) : (s.setTrk c l).profileFresh = s.profileFresh := rfl
@[simp] theorem State.setTrk_ctrs (c : Nat) (l : List Trk) : (s.setTrk c l).ctrs = s.ctrs := rfl
@[simp] theorem State.setTrk_faultQ (c : Nat) (l : List Trk) : (s.setTrk c l).faultQ = s.faultQ := rfl
@[simp] theorem State.setTrk_faultPend (c : Nat) (l : List Trk) : (s.setTrk c l).faultPend = s.faultPend := rfl
@[simp] theorem State.setTrk_lostPend (c : Nat) (l : List Trk) : (s.setTrk c l).lostPend = s.lostPend := rfl
@[simp] theorem State.setTrk_errLog (c : Nat) (l : List Trk) : (s.setTrk c l).errLog = s.errLog := rfl
@[simp] theorem State.setTrk_frzReq (c : Nat) (l : List Trk) : (s.setTrk c l).frzReq = s.frzReq := rfl
@[simp] theorem State.setTrk_fuses (c : Nat) (l : List Trk) : (s.setTrk c l).fuses = s.fuses := rfl
@[simp] theorem State.setTrk_fuseErr (c : Nat) (l : List Trk) : (s.setTrk c l).fuseErr = s.fuseErr := rfl
@[simp] theorem State.setTrk_chans (c : Nat) (l : List Trk) : (s.setTrk c l).chans = s.chans := rfl
@[simp] theorem State.setTrk_movTurn (c : Nat) (l : List Trk) : (s.setTrk c l).movTurn = s.movTurn := rfl
@[simp] theorem State.setTrk_lan (c : Nat) (l : List Trk) : (s.setTrk c l).lan = s.lan := rfl
@[simp] theorem State.setTrk_lanes (c : Nat) (l : List Trk) : (s.setTrk c l).lanes = s.lanes := rfl
@[simp] theorem State.setTrk_hems (c : Nat) (l : List Trk) : (s.setTrk c l).hems = s.hems := rfl
@[simp] theorem State.setTrk_mps (c : Nat) (l : List Trk) : (s.setTrk c l).mps = s.mps := rfl
@[simp] theorem State.setTrk_pcieUp (c : Nat) (l : List Trk) : (s.setTrk c l).pcieUp = s.pcieUp := rfl
@[simp] theorem State.setTrk_pciCfg (c : Nat) (l : List Trk) : (s.setTrk c l).pciCfg = s.pciCfg := rfl
@[simp] theorem State.setTrk_atc (c : Nat) (l : List Trk) : (s.setTrk c l).atc = s.atc := rfl
@[simp] theorem State.setTrk_priStopped (c : Nat) (l : List Trk) : (s.setTrk c l).priStopped = s.priStopped := rfl
@[simp] theorem State.setTrk_invalidating (c : Nat) (l : List Trk) : (s.setTrk c l).invalidating = s.invalidating := rfl
@[simp] theorem State.setTrk_msix (c : Nat) (l : List Trk) : (s.setTrk c l).msix = s.msix := rfl
@[simp] theorem State.setTrk_pba (c : Nat) (l : List Trk) : (s.setTrk c l).pba = s.pba := rfl
@[simp] theorem State.setTrk_msixEn (c : Nat) (l : List Trk) : (s.setTrk c l).msixEn = s.msixEn := rfl
@[simp] theorem State.setTrk_msixMaskAll (c : Nat) (l : List Trk) : (s.setTrk c l).msixMaskAll = s.msixMaskAll := rfl
@[simp] theorem State.setTrk_chunks (c : Nat) (l : List Trk) : (s.setTrk c l).chunks = s.chunks := rfl
@[simp] theorem State.setTrk_bsnap (c : Nat) (l : List Trk) : (s.setTrk c l).bsnap = s.bsnap := rfl
@[simp] theorem State.setTrk_frzFull (c : Nat) (l : List Trk) : (s.setTrk c l).frzFull = s.frzFull := rfl
@[simp] theorem State.setTrk_frzHeld (c : Nat) (l : List Trk) : (s.setTrk c l).frzHeld = s.frzHeld := rfl
@[simp] theorem State.setTrk_frzPin (c : Nat) (l : List Trk) : (s.setTrk c l).frzPin = s.frzPin := rfl
@[simp] theorem State.setTrk_shutdown (c : Nat) (l : List Trk) : (s.setTrk c l).shutdown = s.shutdown := rfl
@[simp] theorem State.setTrk_booted (c : Nat) (l : List Trk) : (s.setTrk c l).booted = s.booted := rfl
@[simp] theorem State.setTrk_coldBoot (c : Nat) (l : List Trk) : (s.setTrk c l).coldBoot = s.coldBoot := rfl
@[simp] theorem State.setTrk_boots (c : Nat) (l : List Trk) : (s.setTrk c l).boots = s.boots := rfl
@[simp] theorem State.setTrk_perst (c : Nat) (l : List Trk) : (s.setTrk c l).perst = s.perst := rfl
@[simp] theorem State.setTrk_warming (c : Nat) (l : List Trk) : (s.setTrk c l).warming = s.warming := rfl
@[simp] theorem State.setTrk_bbox (c : Nat) (l : List Trk) : (s.setTrk c l).bbox = s.bbox := rfl
@[simp] theorem State.setTrk_bbBreak (c : Nat) (l : List Trk) : (s.setTrk c l).bbBreak = s.bbBreak := rfl
@[simp] theorem State.setTrk_sinceSum (c : Nat) (l : List Trk) : (s.setTrk c l).sinceSum = s.sinceSum := rfl
@[simp] theorem State.setTrk_bbHost (c : Nat) (l : List Trk) : (s.setTrk c l).bbHost = s.bbHost := rfl
@[simp] theorem State.setTrk_failed (c : Nat) (l : List Trk) : (s.setTrk c l).failed = s.failed := rfl
@[simp] theorem State.setTrk_soft (c : Nat) (l : List Trk) : (s.setTrk c l).soft = s.soft := rfl
@[simp] theorem State.setTrk_vfuse (c : Nat) (l : List Trk) : (s.setTrk c l).vfuse = s.vfuse := rfl
@[simp] theorem State.setTrk_locked (c : Nat) (l : List Trk) : (s.setTrk c l).locked = s.locked := rfl
@[simp] theorem State.setTrk_fwKey (c : Nat) (l : List Trk) : (s.setTrk c l).fwKey = s.fwKey := rfl
@[simp] theorem State.setTrk_fwVer (c : Nat) (l : List Trk) : (s.setTrk c l).fwVer = s.fwVer := rfl
@[simp] theorem State.setTrk_fwDigest (c : Nat) (l : List Trk) : (s.setTrk c l).fwDigest = s.fwDigest := rfl
@[simp] theorem State.setTrk_aliasKey (c : Nat) (l : List Trk) : (s.setTrk c l).aliasKey = s.aliasKey := rfl
@[simp] theorem State.setTrk_flash (c : Nat) (l : List Trk) : (s.setTrk c l).flash = s.flash := rfl
@[simp] theorem State.setTrk_recov (c : Nat) (l : List Trk) : (s.setTrk c l).recov = s.recov := rfl
@[simp] theorem State.setTrk_cfg (c : Nat) (l : List Trk) : (s.setTrk c l).cfg = s.cfg := rfl
@[simp] theorem State.setTrk_fab (c : Nat) (l : List Trk) : (s.setTrk c l).fab = s.fab := rfl
@[simp] theorem State.setTrk_vccio (c : Nat) (l : List Trk) : (s.setTrk c l).vccio = s.vccio := rfl
@[simp] theorem State.setTrk_macRx (c : Nat) (l : List Trk) : (s.setTrk c l).macRx = s.macRx := rfl
@[simp] theorem State.setTrk_macTx (c : Nat) (l : List Trk) : (s.setTrk c l).macTx = s.macTx := rfl
@[simp] theorem State.setTrk_macTake (c : Nat) (l : List Trk) : (s.setTrk c l).macTake = s.macTake := rfl
@[simp] theorem State.setTrk_droop (c : Nat) (l : List Trk) : (s.setTrk c l).droop = s.droop := rfl
@[simp] theorem State.setTrk_capOver (c : Nat) (l : List Trk) : (s.setTrk c l).capOver = s.capOver := rfl
@[simp] theorem State.setTrk_hotReads (c : Nat) (l : List Trk) : (s.setTrk c l).hotReads = s.hotReads := rfl
@[simp] theorem State.setTrk_doeHeld (c : Nat) (l : List Trk) : (s.setTrk c l).doeHeld = s.doeHeld := rfl
@[simp] theorem State.setTrk_svcHeld (c : Nat) (l : List Trk) : (s.setTrk c l).svcHeld = s.svcHeld := rfl
@[simp] theorem State.setTrk_tapIr (c : Nat) (l : List Trk) : (s.setTrk c l).tapIr = s.tapIr := rfl
@[simp] theorem State.setTrk_tapSel (c : Nat) (l : List Trk) : (s.setTrk c l).tapSel = s.tapSel := rfl
@[simp] theorem State.setTrk_tapNext (c : Nat) (l : List Trk) : (s.setTrk c l).tapNext = s.tapNext := rfl
@[simp] theorem State.setTrk_bscan (c : Nat) (l : List Trk) : (s.setTrk c l).bscan = s.bscan := rfl
@[simp] theorem State.setTrk_tile_read (c : Nat) (l : List Trk) (q : Nat) : State.tile (s.setTrk c l) q = State.tile s q := rfl
@[simp] theorem State.setTrk_panel_read (c : Nat) (l : List Trk) (q : Nat) : State.panel (s.setTrk c l) q = State.panel s q := rfl
@[simp] theorem State.setTrk_stitch_read (c : Nat) (l : List Trk) (q : Nat) : State.stitch (s.setTrk c l) q = State.stitch s q := rfl
@[simp] theorem State.setTrk_chan_read (c : Nat) (l : List Trk) (q r : Nat) : State.chan (s.setTrk c l) q r = State.chan s q r := rfl
@[simp] theorem State.setTrk_ctr_read (c : Nat) (l : List Trk) (q : Nat) : State.ctr (s.setTrk c l) q = State.ctr s q := rfl
@[simp] theorem State.setTrk_hem_read (c : Nat) (l : List Trk) (q : Nat) : State.hem (s.setTrk c l) q = State.hem s q := rfl
@[simp] theorem State.setTrk_lnk_read (c : Nat) (l : List Trk) (q : Nat) : State.lnk (s.setTrk c l) q = State.lnk s q := rfl
@[simp] theorem State.setTrk_mp_read (c : Nat) (l : List Trk) (q : Nat) : State.mp (s.setTrk c l) q = State.mp s q := rfl
@[simp] theorem State.setTrk_link_read (c : Nat) (l : List Trk) (q r : Nat) : State.link (s.setTrk c l) q r = State.link s q r := rfl

/-! ### State.setLnk -/

@[simp] theorem State.setLnk_pending (d : Nat) (x : LaneLink) : (s.setLnk d x).pending = s.pending := rfl
@[simp] theorem State.setLnk_regs (d : Nat) (x : LaneLink) : (s.setLnk d x).regs = s.regs := rfl
@[simp] theorem State.setLnk_holdR (d : Nat) (x : LaneLink) : (s.setLnk d x).holdR = s.holdR := rfl
@[simp] theorem State.setLnk_heldW (d : Nat) (x : LaneLink) : (s.setLnk d x).heldW = s.heldW := rfl
@[simp] theorem State.setLnk_out (d : Nat) (x : LaneLink) : (s.setLnk d x).out = s.out := rfl
@[simp] theorem State.setLnk_draws (d : Nat) (x : LaneLink) : (s.setLnk d x).draws = s.draws := rfl
@[simp] theorem State.setLnk_tiles (d : Nat) (x : LaneLink) : (s.setLnk d x).tiles = s.tiles := rfl
@[simp] theorem State.setLnk_flights (d : Nat) (x : LaneLink) : (s.setLnk d x).flights = s.flights := rfl
@[simp] theorem State.setLnk_nextId (d : Nat) (x : LaneLink) : (s.setLnk d x).nextId = s.nextId := rfl
@[simp] theorem State.setLnk_stitches (d : Nat) (x : LaneLink) : (s.setLnk d x).stitches = s.stitches := rfl
@[simp] theorem State.setLnk_links (d : Nat) (x : LaneLink) : (s.setLnk d x).links = s.links := rfl
@[simp] theorem State.setLnk_torn (d : Nat) (x : LaneLink) : (s.setLnk d x).torn = s.torn := rfl
@[simp] theorem State.setLnk_takeover (d : Nat) (x : LaneLink) : (s.setLnk d x).takeover = s.takeover := rfl
@[simp] theorem State.setLnk_spent (d : Nat) (x : LaneLink) : (s.setLnk d x).spent = s.spent := rfl
@[simp] theorem State.setLnk_panels (d : Nat) (x : LaneLink) : (s.setLnk d x).panels = s.panels := rfl
@[simp] theorem State.setLnk_profileFresh (d : Nat) (x : LaneLink) : (s.setLnk d x).profileFresh = s.profileFresh := rfl
@[simp] theorem State.setLnk_ctrs (d : Nat) (x : LaneLink) : (s.setLnk d x).ctrs = s.ctrs := rfl
@[simp] theorem State.setLnk_faultQ (d : Nat) (x : LaneLink) : (s.setLnk d x).faultQ = s.faultQ := rfl
@[simp] theorem State.setLnk_faultPend (d : Nat) (x : LaneLink) : (s.setLnk d x).faultPend = s.faultPend := rfl
@[simp] theorem State.setLnk_lostPend (d : Nat) (x : LaneLink) : (s.setLnk d x).lostPend = s.lostPend := rfl
@[simp] theorem State.setLnk_errLog (d : Nat) (x : LaneLink) : (s.setLnk d x).errLog = s.errLog := rfl
@[simp] theorem State.setLnk_frzReq (d : Nat) (x : LaneLink) : (s.setLnk d x).frzReq = s.frzReq := rfl
@[simp] theorem State.setLnk_fuses (d : Nat) (x : LaneLink) : (s.setLnk d x).fuses = s.fuses := rfl
@[simp] theorem State.setLnk_fuseErr (d : Nat) (x : LaneLink) : (s.setLnk d x).fuseErr = s.fuseErr := rfl
@[simp] theorem State.setLnk_hbm (d : Nat) (x : LaneLink) : (s.setLnk d x).hbm = s.hbm := rfl
@[simp] theorem State.setLnk_chans (d : Nat) (x : LaneLink) : (s.setLnk d x).chans = s.chans := rfl
@[simp] theorem State.setLnk_movTurn (d : Nat) (x : LaneLink) : (s.setLnk d x).movTurn = s.movTurn := rfl
@[simp] theorem State.setLnk_lanes (d : Nat) (x : LaneLink) : (s.setLnk d x).lanes = s.lanes := rfl
@[simp] theorem State.setLnk_hems (d : Nat) (x : LaneLink) : (s.setLnk d x).hems = s.hems := rfl
@[simp] theorem State.setLnk_mps (d : Nat) (x : LaneLink) : (s.setLnk d x).mps = s.mps := rfl
@[simp] theorem State.setLnk_pcieUp (d : Nat) (x : LaneLink) : (s.setLnk d x).pcieUp = s.pcieUp := rfl
@[simp] theorem State.setLnk_pciCfg (d : Nat) (x : LaneLink) : (s.setLnk d x).pciCfg = s.pciCfg := rfl
@[simp] theorem State.setLnk_atc (d : Nat) (x : LaneLink) : (s.setLnk d x).atc = s.atc := rfl
@[simp] theorem State.setLnk_priStopped (d : Nat) (x : LaneLink) : (s.setLnk d x).priStopped = s.priStopped := rfl
@[simp] theorem State.setLnk_invalidating (d : Nat) (x : LaneLink) : (s.setLnk d x).invalidating = s.invalidating := rfl
@[simp] theorem State.setLnk_msix (d : Nat) (x : LaneLink) : (s.setLnk d x).msix = s.msix := rfl
@[simp] theorem State.setLnk_pba (d : Nat) (x : LaneLink) : (s.setLnk d x).pba = s.pba := rfl
@[simp] theorem State.setLnk_msixEn (d : Nat) (x : LaneLink) : (s.setLnk d x).msixEn = s.msixEn := rfl
@[simp] theorem State.setLnk_msixMaskAll (d : Nat) (x : LaneLink) : (s.setLnk d x).msixMaskAll = s.msixMaskAll := rfl
@[simp] theorem State.setLnk_chunks (d : Nat) (x : LaneLink) : (s.setLnk d x).chunks = s.chunks := rfl
@[simp] theorem State.setLnk_bsnap (d : Nat) (x : LaneLink) : (s.setLnk d x).bsnap = s.bsnap := rfl
@[simp] theorem State.setLnk_frzFull (d : Nat) (x : LaneLink) : (s.setLnk d x).frzFull = s.frzFull := rfl
@[simp] theorem State.setLnk_frzHeld (d : Nat) (x : LaneLink) : (s.setLnk d x).frzHeld = s.frzHeld := rfl
@[simp] theorem State.setLnk_frzPin (d : Nat) (x : LaneLink) : (s.setLnk d x).frzPin = s.frzPin := rfl
@[simp] theorem State.setLnk_shutdown (d : Nat) (x : LaneLink) : (s.setLnk d x).shutdown = s.shutdown := rfl
@[simp] theorem State.setLnk_booted (d : Nat) (x : LaneLink) : (s.setLnk d x).booted = s.booted := rfl
@[simp] theorem State.setLnk_coldBoot (d : Nat) (x : LaneLink) : (s.setLnk d x).coldBoot = s.coldBoot := rfl
@[simp] theorem State.setLnk_boots (d : Nat) (x : LaneLink) : (s.setLnk d x).boots = s.boots := rfl
@[simp] theorem State.setLnk_perst (d : Nat) (x : LaneLink) : (s.setLnk d x).perst = s.perst := rfl
@[simp] theorem State.setLnk_warming (d : Nat) (x : LaneLink) : (s.setLnk d x).warming = s.warming := rfl
@[simp] theorem State.setLnk_bbox (d : Nat) (x : LaneLink) : (s.setLnk d x).bbox = s.bbox := rfl
@[simp] theorem State.setLnk_bbBreak (d : Nat) (x : LaneLink) : (s.setLnk d x).bbBreak = s.bbBreak := rfl
@[simp] theorem State.setLnk_sinceSum (d : Nat) (x : LaneLink) : (s.setLnk d x).sinceSum = s.sinceSum := rfl
@[simp] theorem State.setLnk_bbHost (d : Nat) (x : LaneLink) : (s.setLnk d x).bbHost = s.bbHost := rfl
@[simp] theorem State.setLnk_failed (d : Nat) (x : LaneLink) : (s.setLnk d x).failed = s.failed := rfl
@[simp] theorem State.setLnk_soft (d : Nat) (x : LaneLink) : (s.setLnk d x).soft = s.soft := rfl
@[simp] theorem State.setLnk_vfuse (d : Nat) (x : LaneLink) : (s.setLnk d x).vfuse = s.vfuse := rfl
@[simp] theorem State.setLnk_locked (d : Nat) (x : LaneLink) : (s.setLnk d x).locked = s.locked := rfl
@[simp] theorem State.setLnk_fwKey (d : Nat) (x : LaneLink) : (s.setLnk d x).fwKey = s.fwKey := rfl
@[simp] theorem State.setLnk_fwVer (d : Nat) (x : LaneLink) : (s.setLnk d x).fwVer = s.fwVer := rfl
@[simp] theorem State.setLnk_fwDigest (d : Nat) (x : LaneLink) : (s.setLnk d x).fwDigest = s.fwDigest := rfl
@[simp] theorem State.setLnk_aliasKey (d : Nat) (x : LaneLink) : (s.setLnk d x).aliasKey = s.aliasKey := rfl
@[simp] theorem State.setLnk_flash (d : Nat) (x : LaneLink) : (s.setLnk d x).flash = s.flash := rfl
@[simp] theorem State.setLnk_recov (d : Nat) (x : LaneLink) : (s.setLnk d x).recov = s.recov := rfl
@[simp] theorem State.setLnk_cfg (d : Nat) (x : LaneLink) : (s.setLnk d x).cfg = s.cfg := rfl
@[simp] theorem State.setLnk_fab (d : Nat) (x : LaneLink) : (s.setLnk d x).fab = s.fab := rfl
@[simp] theorem State.setLnk_vccio (d : Nat) (x : LaneLink) : (s.setLnk d x).vccio = s.vccio := rfl
@[simp] theorem State.setLnk_macRx (d : Nat) (x : LaneLink) : (s.setLnk d x).macRx = s.macRx := rfl
@[simp] theorem State.setLnk_macTx (d : Nat) (x : LaneLink) : (s.setLnk d x).macTx = s.macTx := rfl
@[simp] theorem State.setLnk_macTake (d : Nat) (x : LaneLink) : (s.setLnk d x).macTake = s.macTake := rfl
@[simp] theorem State.setLnk_droop (d : Nat) (x : LaneLink) : (s.setLnk d x).droop = s.droop := rfl
@[simp] theorem State.setLnk_capOver (d : Nat) (x : LaneLink) : (s.setLnk d x).capOver = s.capOver := rfl
@[simp] theorem State.setLnk_hotReads (d : Nat) (x : LaneLink) : (s.setLnk d x).hotReads = s.hotReads := rfl
@[simp] theorem State.setLnk_doeHeld (d : Nat) (x : LaneLink) : (s.setLnk d x).doeHeld = s.doeHeld := rfl
@[simp] theorem State.setLnk_svcHeld (d : Nat) (x : LaneLink) : (s.setLnk d x).svcHeld = s.svcHeld := rfl
@[simp] theorem State.setLnk_tapIr (d : Nat) (x : LaneLink) : (s.setLnk d x).tapIr = s.tapIr := rfl
@[simp] theorem State.setLnk_tapSel (d : Nat) (x : LaneLink) : (s.setLnk d x).tapSel = s.tapSel := rfl
@[simp] theorem State.setLnk_tapNext (d : Nat) (x : LaneLink) : (s.setLnk d x).tapNext = s.tapNext := rfl
@[simp] theorem State.setLnk_bscan (d : Nat) (x : LaneLink) : (s.setLnk d x).bscan = s.bscan := rfl
@[simp] theorem State.setLnk_getF_read (d : Nat) (x : LaneLink) (y : Fld) (q r : Nat) : getF (s.setLnk d x) y q r = getF s y q r := rfl
@[simp] theorem State.setLnk_tile_read (d : Nat) (x : LaneLink) (q : Nat) : State.tile (s.setLnk d x) q = State.tile s q := rfl
@[simp] theorem State.setLnk_panel_read (d : Nat) (x : LaneLink) (q : Nat) : State.panel (s.setLnk d x) q = State.panel s q := rfl
@[simp] theorem State.setLnk_stitch_read (d : Nat) (x : LaneLink) (q : Nat) : State.stitch (s.setLnk d x) q = State.stitch s q := rfl
@[simp] theorem State.setLnk_chan_read (d : Nat) (x : LaneLink) (q r : Nat) : State.chan (s.setLnk d x) q r = State.chan s q r := rfl
@[simp] theorem State.setLnk_ctr_read (d : Nat) (x : LaneLink) (q : Nat) : State.ctr (s.setLnk d x) q = State.ctr s q := rfl
@[simp] theorem State.setLnk_hem_read (d : Nat) (x : LaneLink) (q : Nat) : State.hem (s.setLnk d x) q = State.hem s q := rfl
@[simp] theorem State.setLnk_mp_read (d : Nat) (x : LaneLink) (q : Nat) : State.mp (s.setLnk d x) q = State.mp s q := rfl
@[simp] theorem State.setLnk_link_read (d : Nat) (x : LaneLink) (q r : Nat) : State.link (s.setLnk d x) q r = State.link s q r := rfl

/-! ### State.modLane -/

@[simp] theorem State.modLane_pending (l : Nat) (g : LaneSt → LaneSt) : (s.modLane l g).pending = s.pending := rfl
@[simp] theorem State.modLane_regs (l : Nat) (g : LaneSt → LaneSt) : (s.modLane l g).regs = s.regs := rfl
@[simp] theorem State.modLane_holdR (l : Nat) (g : LaneSt → LaneSt) : (s.modLane l g).holdR = s.holdR := rfl
@[simp] theorem State.modLane_heldW (l : Nat) (g : LaneSt → LaneSt) : (s.modLane l g).heldW = s.heldW := rfl
@[simp] theorem State.modLane_out (l : Nat) (g : LaneSt → LaneSt) : (s.modLane l g).out = s.out := rfl
@[simp] theorem State.modLane_draws (l : Nat) (g : LaneSt → LaneSt) : (s.modLane l g).draws = s.draws := rfl
@[simp] theorem State.modLane_tiles (l : Nat) (g : LaneSt → LaneSt) : (s.modLane l g).tiles = s.tiles := rfl
@[simp] theorem State.modLane_flights (l : Nat) (g : LaneSt → LaneSt) : (s.modLane l g).flights = s.flights := rfl
@[simp] theorem State.modLane_nextId (l : Nat) (g : LaneSt → LaneSt) : (s.modLane l g).nextId = s.nextId := rfl
@[simp] theorem State.modLane_stitches (l : Nat) (g : LaneSt → LaneSt) : (s.modLane l g).stitches = s.stitches := rfl
@[simp] theorem State.modLane_links (l : Nat) (g : LaneSt → LaneSt) : (s.modLane l g).links = s.links := rfl
@[simp] theorem State.modLane_torn (l : Nat) (g : LaneSt → LaneSt) : (s.modLane l g).torn = s.torn := rfl
@[simp] theorem State.modLane_takeover (l : Nat) (g : LaneSt → LaneSt) : (s.modLane l g).takeover = s.takeover := rfl
@[simp] theorem State.modLane_spent (l : Nat) (g : LaneSt → LaneSt) : (s.modLane l g).spent = s.spent := rfl
@[simp] theorem State.modLane_panels (l : Nat) (g : LaneSt → LaneSt) : (s.modLane l g).panels = s.panels := rfl
@[simp] theorem State.modLane_profileFresh (l : Nat) (g : LaneSt → LaneSt) : (s.modLane l g).profileFresh = s.profileFresh := rfl
@[simp] theorem State.modLane_ctrs (l : Nat) (g : LaneSt → LaneSt) : (s.modLane l g).ctrs = s.ctrs := rfl
@[simp] theorem State.modLane_faultQ (l : Nat) (g : LaneSt → LaneSt) : (s.modLane l g).faultQ = s.faultQ := rfl
@[simp] theorem State.modLane_faultPend (l : Nat) (g : LaneSt → LaneSt) : (s.modLane l g).faultPend = s.faultPend := rfl
@[simp] theorem State.modLane_lostPend (l : Nat) (g : LaneSt → LaneSt) : (s.modLane l g).lostPend = s.lostPend := rfl
@[simp] theorem State.modLane_errLog (l : Nat) (g : LaneSt → LaneSt) : (s.modLane l g).errLog = s.errLog := rfl
@[simp] theorem State.modLane_frzReq (l : Nat) (g : LaneSt → LaneSt) : (s.modLane l g).frzReq = s.frzReq := rfl
@[simp] theorem State.modLane_fuses (l : Nat) (g : LaneSt → LaneSt) : (s.modLane l g).fuses = s.fuses := rfl
@[simp] theorem State.modLane_fuseErr (l : Nat) (g : LaneSt → LaneSt) : (s.modLane l g).fuseErr = s.fuseErr := rfl
@[simp] theorem State.modLane_hbm (l : Nat) (g : LaneSt → LaneSt) : (s.modLane l g).hbm = s.hbm := rfl
@[simp] theorem State.modLane_chans (l : Nat) (g : LaneSt → LaneSt) : (s.modLane l g).chans = s.chans := rfl
@[simp] theorem State.modLane_movTurn (l : Nat) (g : LaneSt → LaneSt) : (s.modLane l g).movTurn = s.movTurn := rfl
@[simp] theorem State.modLane_lan (l : Nat) (g : LaneSt → LaneSt) : (s.modLane l g).lan = s.lan := rfl
@[simp] theorem State.modLane_hems (l : Nat) (g : LaneSt → LaneSt) : (s.modLane l g).hems = s.hems := rfl
@[simp] theorem State.modLane_mps (l : Nat) (g : LaneSt → LaneSt) : (s.modLane l g).mps = s.mps := rfl
@[simp] theorem State.modLane_pcieUp (l : Nat) (g : LaneSt → LaneSt) : (s.modLane l g).pcieUp = s.pcieUp := rfl
@[simp] theorem State.modLane_pciCfg (l : Nat) (g : LaneSt → LaneSt) : (s.modLane l g).pciCfg = s.pciCfg := rfl
@[simp] theorem State.modLane_atc (l : Nat) (g : LaneSt → LaneSt) : (s.modLane l g).atc = s.atc := rfl
@[simp] theorem State.modLane_priStopped (l : Nat) (g : LaneSt → LaneSt) : (s.modLane l g).priStopped = s.priStopped := rfl
@[simp] theorem State.modLane_invalidating (l : Nat) (g : LaneSt → LaneSt) : (s.modLane l g).invalidating = s.invalidating := rfl
@[simp] theorem State.modLane_msix (l : Nat) (g : LaneSt → LaneSt) : (s.modLane l g).msix = s.msix := rfl
@[simp] theorem State.modLane_pba (l : Nat) (g : LaneSt → LaneSt) : (s.modLane l g).pba = s.pba := rfl
@[simp] theorem State.modLane_msixEn (l : Nat) (g : LaneSt → LaneSt) : (s.modLane l g).msixEn = s.msixEn := rfl
@[simp] theorem State.modLane_msixMaskAll (l : Nat) (g : LaneSt → LaneSt) : (s.modLane l g).msixMaskAll = s.msixMaskAll := rfl
@[simp] theorem State.modLane_chunks (l : Nat) (g : LaneSt → LaneSt) : (s.modLane l g).chunks = s.chunks := rfl
@[simp] theorem State.modLane_bsnap (l : Nat) (g : LaneSt → LaneSt) : (s.modLane l g).bsnap = s.bsnap := rfl
@[simp] theorem State.modLane_frzFull (l : Nat) (g : LaneSt → LaneSt) : (s.modLane l g).frzFull = s.frzFull := rfl
@[simp] theorem State.modLane_frzHeld (l : Nat) (g : LaneSt → LaneSt) : (s.modLane l g).frzHeld = s.frzHeld := rfl
@[simp] theorem State.modLane_frzPin (l : Nat) (g : LaneSt → LaneSt) : (s.modLane l g).frzPin = s.frzPin := rfl
@[simp] theorem State.modLane_shutdown (l : Nat) (g : LaneSt → LaneSt) : (s.modLane l g).shutdown = s.shutdown := rfl
@[simp] theorem State.modLane_booted (l : Nat) (g : LaneSt → LaneSt) : (s.modLane l g).booted = s.booted := rfl
@[simp] theorem State.modLane_coldBoot (l : Nat) (g : LaneSt → LaneSt) : (s.modLane l g).coldBoot = s.coldBoot := rfl
@[simp] theorem State.modLane_boots (l : Nat) (g : LaneSt → LaneSt) : (s.modLane l g).boots = s.boots := rfl
@[simp] theorem State.modLane_perst (l : Nat) (g : LaneSt → LaneSt) : (s.modLane l g).perst = s.perst := rfl
@[simp] theorem State.modLane_warming (l : Nat) (g : LaneSt → LaneSt) : (s.modLane l g).warming = s.warming := rfl
@[simp] theorem State.modLane_bbox (l : Nat) (g : LaneSt → LaneSt) : (s.modLane l g).bbox = s.bbox := rfl
@[simp] theorem State.modLane_bbBreak (l : Nat) (g : LaneSt → LaneSt) : (s.modLane l g).bbBreak = s.bbBreak := rfl
@[simp] theorem State.modLane_sinceSum (l : Nat) (g : LaneSt → LaneSt) : (s.modLane l g).sinceSum = s.sinceSum := rfl
@[simp] theorem State.modLane_bbHost (l : Nat) (g : LaneSt → LaneSt) : (s.modLane l g).bbHost = s.bbHost := rfl
@[simp] theorem State.modLane_failed (l : Nat) (g : LaneSt → LaneSt) : (s.modLane l g).failed = s.failed := rfl
@[simp] theorem State.modLane_soft (l : Nat) (g : LaneSt → LaneSt) : (s.modLane l g).soft = s.soft := rfl
@[simp] theorem State.modLane_vfuse (l : Nat) (g : LaneSt → LaneSt) : (s.modLane l g).vfuse = s.vfuse := rfl
@[simp] theorem State.modLane_locked (l : Nat) (g : LaneSt → LaneSt) : (s.modLane l g).locked = s.locked := rfl
@[simp] theorem State.modLane_fwKey (l : Nat) (g : LaneSt → LaneSt) : (s.modLane l g).fwKey = s.fwKey := rfl
@[simp] theorem State.modLane_fwVer (l : Nat) (g : LaneSt → LaneSt) : (s.modLane l g).fwVer = s.fwVer := rfl
@[simp] theorem State.modLane_fwDigest (l : Nat) (g : LaneSt → LaneSt) : (s.modLane l g).fwDigest = s.fwDigest := rfl
@[simp] theorem State.modLane_aliasKey (l : Nat) (g : LaneSt → LaneSt) : (s.modLane l g).aliasKey = s.aliasKey := rfl
@[simp] theorem State.modLane_flash (l : Nat) (g : LaneSt → LaneSt) : (s.modLane l g).flash = s.flash := rfl
@[simp] theorem State.modLane_recov (l : Nat) (g : LaneSt → LaneSt) : (s.modLane l g).recov = s.recov := rfl
@[simp] theorem State.modLane_cfg (l : Nat) (g : LaneSt → LaneSt) : (s.modLane l g).cfg = s.cfg := rfl
@[simp] theorem State.modLane_fab (l : Nat) (g : LaneSt → LaneSt) : (s.modLane l g).fab = s.fab := rfl
@[simp] theorem State.modLane_vccio (l : Nat) (g : LaneSt → LaneSt) : (s.modLane l g).vccio = s.vccio := rfl
@[simp] theorem State.modLane_macRx (l : Nat) (g : LaneSt → LaneSt) : (s.modLane l g).macRx = s.macRx := rfl
@[simp] theorem State.modLane_macTx (l : Nat) (g : LaneSt → LaneSt) : (s.modLane l g).macTx = s.macTx := rfl
@[simp] theorem State.modLane_macTake (l : Nat) (g : LaneSt → LaneSt) : (s.modLane l g).macTake = s.macTake := rfl
@[simp] theorem State.modLane_droop (l : Nat) (g : LaneSt → LaneSt) : (s.modLane l g).droop = s.droop := rfl
@[simp] theorem State.modLane_capOver (l : Nat) (g : LaneSt → LaneSt) : (s.modLane l g).capOver = s.capOver := rfl
@[simp] theorem State.modLane_hotReads (l : Nat) (g : LaneSt → LaneSt) : (s.modLane l g).hotReads = s.hotReads := rfl
@[simp] theorem State.modLane_doeHeld (l : Nat) (g : LaneSt → LaneSt) : (s.modLane l g).doeHeld = s.doeHeld := rfl
@[simp] theorem State.modLane_svcHeld (l : Nat) (g : LaneSt → LaneSt) : (s.modLane l g).svcHeld = s.svcHeld := rfl
@[simp] theorem State.modLane_tapIr (l : Nat) (g : LaneSt → LaneSt) : (s.modLane l g).tapIr = s.tapIr := rfl
@[simp] theorem State.modLane_tapSel (l : Nat) (g : LaneSt → LaneSt) : (s.modLane l g).tapSel = s.tapSel := rfl
@[simp] theorem State.modLane_tapNext (l : Nat) (g : LaneSt → LaneSt) : (s.modLane l g).tapNext = s.tapNext := rfl
@[simp] theorem State.modLane_bscan (l : Nat) (g : LaneSt → LaneSt) : (s.modLane l g).bscan = s.bscan := rfl
@[simp] theorem State.modLane_getF_read (l : Nat) (g : LaneSt → LaneSt) (y : Fld) (q r : Nat) : getF (s.modLane l g) y q r = getF s y q r := rfl
@[simp] theorem State.modLane_tile_read (l : Nat) (g : LaneSt → LaneSt) (q : Nat) : State.tile (s.modLane l g) q = State.tile s q := rfl
@[simp] theorem State.modLane_panel_read (l : Nat) (g : LaneSt → LaneSt) (q : Nat) : State.panel (s.modLane l g) q = State.panel s q := rfl
@[simp] theorem State.modLane_stitch_read (l : Nat) (g : LaneSt → LaneSt) (q : Nat) : State.stitch (s.modLane l g) q = State.stitch s q := rfl
@[simp] theorem State.modLane_chan_read (l : Nat) (g : LaneSt → LaneSt) (q r : Nat) : State.chan (s.modLane l g) q r = State.chan s q r := rfl
@[simp] theorem State.modLane_ctr_read (l : Nat) (g : LaneSt → LaneSt) (q : Nat) : State.ctr (s.modLane l g) q = State.ctr s q := rfl
@[simp] theorem State.modLane_hem_read (l : Nat) (g : LaneSt → LaneSt) (q : Nat) : State.hem (s.modLane l g) q = State.hem s q := rfl
@[simp] theorem State.modLane_lnk_read (l : Nat) (g : LaneSt → LaneSt) (q : Nat) : State.lnk (s.modLane l g) q = State.lnk s q := rfl
@[simp] theorem State.modLane_mp_read (l : Nat) (g : LaneSt → LaneSt) (q : Nat) : State.mp (s.modLane l g) q = State.mp s q := rfl
@[simp] theorem State.modLane_link_read (l : Nat) (g : LaneSt → LaneSt) (q r : Nat) : State.link (s.modLane l g) q r = State.link s q r := rfl

/-! ### State.setHem -/

@[simp] theorem State.setHem_pending (h : Nat) (x : Hem) : (s.setHem h x).pending = s.pending := rfl
@[simp] theorem State.setHem_regs (h : Nat) (x : Hem) : (s.setHem h x).regs = s.regs := rfl
@[simp] theorem State.setHem_holdR (h : Nat) (x : Hem) : (s.setHem h x).holdR = s.holdR := rfl
@[simp] theorem State.setHem_heldW (h : Nat) (x : Hem) : (s.setHem h x).heldW = s.heldW := rfl
@[simp] theorem State.setHem_out (h : Nat) (x : Hem) : (s.setHem h x).out = s.out := rfl
@[simp] theorem State.setHem_draws (h : Nat) (x : Hem) : (s.setHem h x).draws = s.draws := rfl
@[simp] theorem State.setHem_tiles (h : Nat) (x : Hem) : (s.setHem h x).tiles = s.tiles := rfl
@[simp] theorem State.setHem_flights (h : Nat) (x : Hem) : (s.setHem h x).flights = s.flights := rfl
@[simp] theorem State.setHem_nextId (h : Nat) (x : Hem) : (s.setHem h x).nextId = s.nextId := rfl
@[simp] theorem State.setHem_stitches (h : Nat) (x : Hem) : (s.setHem h x).stitches = s.stitches := rfl
@[simp] theorem State.setHem_links (h : Nat) (x : Hem) : (s.setHem h x).links = s.links := rfl
@[simp] theorem State.setHem_torn (h : Nat) (x : Hem) : (s.setHem h x).torn = s.torn := rfl
@[simp] theorem State.setHem_takeover (h : Nat) (x : Hem) : (s.setHem h x).takeover = s.takeover := rfl
@[simp] theorem State.setHem_spent (h : Nat) (x : Hem) : (s.setHem h x).spent = s.spent := rfl
@[simp] theorem State.setHem_panels (h : Nat) (x : Hem) : (s.setHem h x).panels = s.panels := rfl
@[simp] theorem State.setHem_profileFresh (h : Nat) (x : Hem) : (s.setHem h x).profileFresh = s.profileFresh := rfl
@[simp] theorem State.setHem_ctrs (h : Nat) (x : Hem) : (s.setHem h x).ctrs = s.ctrs := rfl
@[simp] theorem State.setHem_faultQ (h : Nat) (x : Hem) : (s.setHem h x).faultQ = s.faultQ := rfl
@[simp] theorem State.setHem_faultPend (h : Nat) (x : Hem) : (s.setHem h x).faultPend = s.faultPend := rfl
@[simp] theorem State.setHem_lostPend (h : Nat) (x : Hem) : (s.setHem h x).lostPend = s.lostPend := rfl
@[simp] theorem State.setHem_errLog (h : Nat) (x : Hem) : (s.setHem h x).errLog = s.errLog := rfl
@[simp] theorem State.setHem_frzReq (h : Nat) (x : Hem) : (s.setHem h x).frzReq = s.frzReq := rfl
@[simp] theorem State.setHem_fuses (h : Nat) (x : Hem) : (s.setHem h x).fuses = s.fuses := rfl
@[simp] theorem State.setHem_fuseErr (h : Nat) (x : Hem) : (s.setHem h x).fuseErr = s.fuseErr := rfl
@[simp] theorem State.setHem_hbm (h : Nat) (x : Hem) : (s.setHem h x).hbm = s.hbm := rfl
@[simp] theorem State.setHem_chans (h : Nat) (x : Hem) : (s.setHem h x).chans = s.chans := rfl
@[simp] theorem State.setHem_movTurn (h : Nat) (x : Hem) : (s.setHem h x).movTurn = s.movTurn := rfl
@[simp] theorem State.setHem_lan (h : Nat) (x : Hem) : (s.setHem h x).lan = s.lan := rfl
@[simp] theorem State.setHem_lanes (h : Nat) (x : Hem) : (s.setHem h x).lanes = s.lanes := rfl
@[simp] theorem State.setHem_mps (h : Nat) (x : Hem) : (s.setHem h x).mps = s.mps := rfl
@[simp] theorem State.setHem_pcieUp (h : Nat) (x : Hem) : (s.setHem h x).pcieUp = s.pcieUp := rfl
@[simp] theorem State.setHem_pciCfg (h : Nat) (x : Hem) : (s.setHem h x).pciCfg = s.pciCfg := rfl
@[simp] theorem State.setHem_atc (h : Nat) (x : Hem) : (s.setHem h x).atc = s.atc := rfl
@[simp] theorem State.setHem_priStopped (h : Nat) (x : Hem) : (s.setHem h x).priStopped = s.priStopped := rfl
@[simp] theorem State.setHem_invalidating (h : Nat) (x : Hem) : (s.setHem h x).invalidating = s.invalidating := rfl
@[simp] theorem State.setHem_msix (h : Nat) (x : Hem) : (s.setHem h x).msix = s.msix := rfl
@[simp] theorem State.setHem_pba (h : Nat) (x : Hem) : (s.setHem h x).pba = s.pba := rfl
@[simp] theorem State.setHem_msixEn (h : Nat) (x : Hem) : (s.setHem h x).msixEn = s.msixEn := rfl
@[simp] theorem State.setHem_msixMaskAll (h : Nat) (x : Hem) : (s.setHem h x).msixMaskAll = s.msixMaskAll := rfl
@[simp] theorem State.setHem_chunks (h : Nat) (x : Hem) : (s.setHem h x).chunks = s.chunks := rfl
@[simp] theorem State.setHem_bsnap (h : Nat) (x : Hem) : (s.setHem h x).bsnap = s.bsnap := rfl
@[simp] theorem State.setHem_frzFull (h : Nat) (x : Hem) : (s.setHem h x).frzFull = s.frzFull := rfl
@[simp] theorem State.setHem_frzHeld (h : Nat) (x : Hem) : (s.setHem h x).frzHeld = s.frzHeld := rfl
@[simp] theorem State.setHem_frzPin (h : Nat) (x : Hem) : (s.setHem h x).frzPin = s.frzPin := rfl
@[simp] theorem State.setHem_shutdown (h : Nat) (x : Hem) : (s.setHem h x).shutdown = s.shutdown := rfl
@[simp] theorem State.setHem_booted (h : Nat) (x : Hem) : (s.setHem h x).booted = s.booted := rfl
@[simp] theorem State.setHem_coldBoot (h : Nat) (x : Hem) : (s.setHem h x).coldBoot = s.coldBoot := rfl
@[simp] theorem State.setHem_boots (h : Nat) (x : Hem) : (s.setHem h x).boots = s.boots := rfl
@[simp] theorem State.setHem_perst (h : Nat) (x : Hem) : (s.setHem h x).perst = s.perst := rfl
@[simp] theorem State.setHem_warming (h : Nat) (x : Hem) : (s.setHem h x).warming = s.warming := rfl
@[simp] theorem State.setHem_bbox (h : Nat) (x : Hem) : (s.setHem h x).bbox = s.bbox := rfl
@[simp] theorem State.setHem_bbBreak (h : Nat) (x : Hem) : (s.setHem h x).bbBreak = s.bbBreak := rfl
@[simp] theorem State.setHem_sinceSum (h : Nat) (x : Hem) : (s.setHem h x).sinceSum = s.sinceSum := rfl
@[simp] theorem State.setHem_bbHost (h : Nat) (x : Hem) : (s.setHem h x).bbHost = s.bbHost := rfl
@[simp] theorem State.setHem_failed (h : Nat) (x : Hem) : (s.setHem h x).failed = s.failed := rfl
@[simp] theorem State.setHem_soft (h : Nat) (x : Hem) : (s.setHem h x).soft = s.soft := rfl
@[simp] theorem State.setHem_vfuse (h : Nat) (x : Hem) : (s.setHem h x).vfuse = s.vfuse := rfl
@[simp] theorem State.setHem_locked (h : Nat) (x : Hem) : (s.setHem h x).locked = s.locked := rfl
@[simp] theorem State.setHem_fwKey (h : Nat) (x : Hem) : (s.setHem h x).fwKey = s.fwKey := rfl
@[simp] theorem State.setHem_fwVer (h : Nat) (x : Hem) : (s.setHem h x).fwVer = s.fwVer := rfl
@[simp] theorem State.setHem_fwDigest (h : Nat) (x : Hem) : (s.setHem h x).fwDigest = s.fwDigest := rfl
@[simp] theorem State.setHem_aliasKey (h : Nat) (x : Hem) : (s.setHem h x).aliasKey = s.aliasKey := rfl
@[simp] theorem State.setHem_flash (h : Nat) (x : Hem) : (s.setHem h x).flash = s.flash := rfl
@[simp] theorem State.setHem_recov (h : Nat) (x : Hem) : (s.setHem h x).recov = s.recov := rfl
@[simp] theorem State.setHem_cfg (h : Nat) (x : Hem) : (s.setHem h x).cfg = s.cfg := rfl
@[simp] theorem State.setHem_fab (h : Nat) (x : Hem) : (s.setHem h x).fab = s.fab := rfl
@[simp] theorem State.setHem_vccio (h : Nat) (x : Hem) : (s.setHem h x).vccio = s.vccio := rfl
@[simp] theorem State.setHem_macRx (h : Nat) (x : Hem) : (s.setHem h x).macRx = s.macRx := rfl
@[simp] theorem State.setHem_macTx (h : Nat) (x : Hem) : (s.setHem h x).macTx = s.macTx := rfl
@[simp] theorem State.setHem_macTake (h : Nat) (x : Hem) : (s.setHem h x).macTake = s.macTake := rfl
@[simp] theorem State.setHem_droop (h : Nat) (x : Hem) : (s.setHem h x).droop = s.droop := rfl
@[simp] theorem State.setHem_capOver (h : Nat) (x : Hem) : (s.setHem h x).capOver = s.capOver := rfl
@[simp] theorem State.setHem_hotReads (h : Nat) (x : Hem) : (s.setHem h x).hotReads = s.hotReads := rfl
@[simp] theorem State.setHem_doeHeld (h : Nat) (x : Hem) : (s.setHem h x).doeHeld = s.doeHeld := rfl
@[simp] theorem State.setHem_svcHeld (h : Nat) (x : Hem) : (s.setHem h x).svcHeld = s.svcHeld := rfl
@[simp] theorem State.setHem_tapIr (h : Nat) (x : Hem) : (s.setHem h x).tapIr = s.tapIr := rfl
@[simp] theorem State.setHem_tapSel (h : Nat) (x : Hem) : (s.setHem h x).tapSel = s.tapSel := rfl
@[simp] theorem State.setHem_tapNext (h : Nat) (x : Hem) : (s.setHem h x).tapNext = s.tapNext := rfl
@[simp] theorem State.setHem_bscan (h : Nat) (x : Hem) : (s.setHem h x).bscan = s.bscan := rfl
@[simp] theorem State.setHem_getF_read (h : Nat) (x : Hem) (y : Fld) (q r : Nat) : getF (s.setHem h x) y q r = getF s y q r := rfl
@[simp] theorem State.setHem_tile_read (h : Nat) (x : Hem) (q : Nat) : State.tile (s.setHem h x) q = State.tile s q := rfl
@[simp] theorem State.setHem_panel_read (h : Nat) (x : Hem) (q : Nat) : State.panel (s.setHem h x) q = State.panel s q := rfl
@[simp] theorem State.setHem_stitch_read (h : Nat) (x : Hem) (q : Nat) : State.stitch (s.setHem h x) q = State.stitch s q := rfl
@[simp] theorem State.setHem_chan_read (h : Nat) (x : Hem) (q r : Nat) : State.chan (s.setHem h x) q r = State.chan s q r := rfl
@[simp] theorem State.setHem_ctr_read (h : Nat) (x : Hem) (q : Nat) : State.ctr (s.setHem h x) q = State.ctr s q := rfl
@[simp] theorem State.setHem_lnk_read (h : Nat) (x : Hem) (q : Nat) : State.lnk (s.setHem h x) q = State.lnk s q := rfl
@[simp] theorem State.setHem_mp_read (h : Nat) (x : Hem) (q : Nat) : State.mp (s.setHem h x) q = State.mp s q := rfl
@[simp] theorem State.setHem_link_read (h : Nat) (x : Hem) (q r : Nat) : State.link (s.setHem h x) q r = State.link s q r := rfl

/-! ### State.setMp -/

@[simp] theorem State.setMp_pending (p : Nat) (x : MpSt) : (s.setMp p x).pending = s.pending := rfl
@[simp] theorem State.setMp_regs (p : Nat) (x : MpSt) : (s.setMp p x).regs = s.regs := rfl
@[simp] theorem State.setMp_holdR (p : Nat) (x : MpSt) : (s.setMp p x).holdR = s.holdR := rfl
@[simp] theorem State.setMp_heldW (p : Nat) (x : MpSt) : (s.setMp p x).heldW = s.heldW := rfl
@[simp] theorem State.setMp_out (p : Nat) (x : MpSt) : (s.setMp p x).out = s.out := rfl
@[simp] theorem State.setMp_draws (p : Nat) (x : MpSt) : (s.setMp p x).draws = s.draws := rfl
@[simp] theorem State.setMp_tiles (p : Nat) (x : MpSt) : (s.setMp p x).tiles = s.tiles := rfl
@[simp] theorem State.setMp_flights (p : Nat) (x : MpSt) : (s.setMp p x).flights = s.flights := rfl
@[simp] theorem State.setMp_nextId (p : Nat) (x : MpSt) : (s.setMp p x).nextId = s.nextId := rfl
@[simp] theorem State.setMp_stitches (p : Nat) (x : MpSt) : (s.setMp p x).stitches = s.stitches := rfl
@[simp] theorem State.setMp_links (p : Nat) (x : MpSt) : (s.setMp p x).links = s.links := rfl
@[simp] theorem State.setMp_torn (p : Nat) (x : MpSt) : (s.setMp p x).torn = s.torn := rfl
@[simp] theorem State.setMp_takeover (p : Nat) (x : MpSt) : (s.setMp p x).takeover = s.takeover := rfl
@[simp] theorem State.setMp_spent (p : Nat) (x : MpSt) : (s.setMp p x).spent = s.spent := rfl
@[simp] theorem State.setMp_panels (p : Nat) (x : MpSt) : (s.setMp p x).panels = s.panels := rfl
@[simp] theorem State.setMp_profileFresh (p : Nat) (x : MpSt) : (s.setMp p x).profileFresh = s.profileFresh := rfl
@[simp] theorem State.setMp_ctrs (p : Nat) (x : MpSt) : (s.setMp p x).ctrs = s.ctrs := rfl
@[simp] theorem State.setMp_faultQ (p : Nat) (x : MpSt) : (s.setMp p x).faultQ = s.faultQ := rfl
@[simp] theorem State.setMp_faultPend (p : Nat) (x : MpSt) : (s.setMp p x).faultPend = s.faultPend := rfl
@[simp] theorem State.setMp_lostPend (p : Nat) (x : MpSt) : (s.setMp p x).lostPend = s.lostPend := rfl
@[simp] theorem State.setMp_errLog (p : Nat) (x : MpSt) : (s.setMp p x).errLog = s.errLog := rfl
@[simp] theorem State.setMp_frzReq (p : Nat) (x : MpSt) : (s.setMp p x).frzReq = s.frzReq := rfl
@[simp] theorem State.setMp_fuses (p : Nat) (x : MpSt) : (s.setMp p x).fuses = s.fuses := rfl
@[simp] theorem State.setMp_fuseErr (p : Nat) (x : MpSt) : (s.setMp p x).fuseErr = s.fuseErr := rfl
@[simp] theorem State.setMp_hbm (p : Nat) (x : MpSt) : (s.setMp p x).hbm = s.hbm := rfl
@[simp] theorem State.setMp_chans (p : Nat) (x : MpSt) : (s.setMp p x).chans = s.chans := rfl
@[simp] theorem State.setMp_movTurn (p : Nat) (x : MpSt) : (s.setMp p x).movTurn = s.movTurn := rfl
@[simp] theorem State.setMp_lan (p : Nat) (x : MpSt) : (s.setMp p x).lan = s.lan := rfl
@[simp] theorem State.setMp_lanes (p : Nat) (x : MpSt) : (s.setMp p x).lanes = s.lanes := rfl
@[simp] theorem State.setMp_hems (p : Nat) (x : MpSt) : (s.setMp p x).hems = s.hems := rfl
@[simp] theorem State.setMp_pcieUp (p : Nat) (x : MpSt) : (s.setMp p x).pcieUp = s.pcieUp := rfl
@[simp] theorem State.setMp_pciCfg (p : Nat) (x : MpSt) : (s.setMp p x).pciCfg = s.pciCfg := rfl
@[simp] theorem State.setMp_atc (p : Nat) (x : MpSt) : (s.setMp p x).atc = s.atc := rfl
@[simp] theorem State.setMp_priStopped (p : Nat) (x : MpSt) : (s.setMp p x).priStopped = s.priStopped := rfl
@[simp] theorem State.setMp_invalidating (p : Nat) (x : MpSt) : (s.setMp p x).invalidating = s.invalidating := rfl
@[simp] theorem State.setMp_msix (p : Nat) (x : MpSt) : (s.setMp p x).msix = s.msix := rfl
@[simp] theorem State.setMp_pba (p : Nat) (x : MpSt) : (s.setMp p x).pba = s.pba := rfl
@[simp] theorem State.setMp_msixEn (p : Nat) (x : MpSt) : (s.setMp p x).msixEn = s.msixEn := rfl
@[simp] theorem State.setMp_msixMaskAll (p : Nat) (x : MpSt) : (s.setMp p x).msixMaskAll = s.msixMaskAll := rfl
@[simp] theorem State.setMp_chunks (p : Nat) (x : MpSt) : (s.setMp p x).chunks = s.chunks := rfl
@[simp] theorem State.setMp_bsnap (p : Nat) (x : MpSt) : (s.setMp p x).bsnap = s.bsnap := rfl
@[simp] theorem State.setMp_frzFull (p : Nat) (x : MpSt) : (s.setMp p x).frzFull = s.frzFull := rfl
@[simp] theorem State.setMp_frzHeld (p : Nat) (x : MpSt) : (s.setMp p x).frzHeld = s.frzHeld := rfl
@[simp] theorem State.setMp_frzPin (p : Nat) (x : MpSt) : (s.setMp p x).frzPin = s.frzPin := rfl
@[simp] theorem State.setMp_shutdown (p : Nat) (x : MpSt) : (s.setMp p x).shutdown = s.shutdown := rfl
@[simp] theorem State.setMp_booted (p : Nat) (x : MpSt) : (s.setMp p x).booted = s.booted := rfl
@[simp] theorem State.setMp_coldBoot (p : Nat) (x : MpSt) : (s.setMp p x).coldBoot = s.coldBoot := rfl
@[simp] theorem State.setMp_boots (p : Nat) (x : MpSt) : (s.setMp p x).boots = s.boots := rfl
@[simp] theorem State.setMp_perst (p : Nat) (x : MpSt) : (s.setMp p x).perst = s.perst := rfl
@[simp] theorem State.setMp_warming (p : Nat) (x : MpSt) : (s.setMp p x).warming = s.warming := rfl
@[simp] theorem State.setMp_bbox (p : Nat) (x : MpSt) : (s.setMp p x).bbox = s.bbox := rfl
@[simp] theorem State.setMp_bbBreak (p : Nat) (x : MpSt) : (s.setMp p x).bbBreak = s.bbBreak := rfl
@[simp] theorem State.setMp_sinceSum (p : Nat) (x : MpSt) : (s.setMp p x).sinceSum = s.sinceSum := rfl
@[simp] theorem State.setMp_bbHost (p : Nat) (x : MpSt) : (s.setMp p x).bbHost = s.bbHost := rfl
@[simp] theorem State.setMp_failed (p : Nat) (x : MpSt) : (s.setMp p x).failed = s.failed := rfl
@[simp] theorem State.setMp_soft (p : Nat) (x : MpSt) : (s.setMp p x).soft = s.soft := rfl
@[simp] theorem State.setMp_vfuse (p : Nat) (x : MpSt) : (s.setMp p x).vfuse = s.vfuse := rfl
@[simp] theorem State.setMp_locked (p : Nat) (x : MpSt) : (s.setMp p x).locked = s.locked := rfl
@[simp] theorem State.setMp_fwKey (p : Nat) (x : MpSt) : (s.setMp p x).fwKey = s.fwKey := rfl
@[simp] theorem State.setMp_fwVer (p : Nat) (x : MpSt) : (s.setMp p x).fwVer = s.fwVer := rfl
@[simp] theorem State.setMp_fwDigest (p : Nat) (x : MpSt) : (s.setMp p x).fwDigest = s.fwDigest := rfl
@[simp] theorem State.setMp_aliasKey (p : Nat) (x : MpSt) : (s.setMp p x).aliasKey = s.aliasKey := rfl
@[simp] theorem State.setMp_flash (p : Nat) (x : MpSt) : (s.setMp p x).flash = s.flash := rfl
@[simp] theorem State.setMp_recov (p : Nat) (x : MpSt) : (s.setMp p x).recov = s.recov := rfl
@[simp] theorem State.setMp_cfg (p : Nat) (x : MpSt) : (s.setMp p x).cfg = s.cfg := rfl
@[simp] theorem State.setMp_fab (p : Nat) (x : MpSt) : (s.setMp p x).fab = s.fab := rfl
@[simp] theorem State.setMp_vccio (p : Nat) (x : MpSt) : (s.setMp p x).vccio = s.vccio := rfl
@[simp] theorem State.setMp_macRx (p : Nat) (x : MpSt) : (s.setMp p x).macRx = s.macRx := rfl
@[simp] theorem State.setMp_macTx (p : Nat) (x : MpSt) : (s.setMp p x).macTx = s.macTx := rfl
@[simp] theorem State.setMp_macTake (p : Nat) (x : MpSt) : (s.setMp p x).macTake = s.macTake := rfl
@[simp] theorem State.setMp_droop (p : Nat) (x : MpSt) : (s.setMp p x).droop = s.droop := rfl
@[simp] theorem State.setMp_capOver (p : Nat) (x : MpSt) : (s.setMp p x).capOver = s.capOver := rfl
@[simp] theorem State.setMp_hotReads (p : Nat) (x : MpSt) : (s.setMp p x).hotReads = s.hotReads := rfl
@[simp] theorem State.setMp_doeHeld (p : Nat) (x : MpSt) : (s.setMp p x).doeHeld = s.doeHeld := rfl
@[simp] theorem State.setMp_svcHeld (p : Nat) (x : MpSt) : (s.setMp p x).svcHeld = s.svcHeld := rfl
@[simp] theorem State.setMp_tapIr (p : Nat) (x : MpSt) : (s.setMp p x).tapIr = s.tapIr := rfl
@[simp] theorem State.setMp_tapSel (p : Nat) (x : MpSt) : (s.setMp p x).tapSel = s.tapSel := rfl
@[simp] theorem State.setMp_tapNext (p : Nat) (x : MpSt) : (s.setMp p x).tapNext = s.tapNext := rfl
@[simp] theorem State.setMp_bscan (p : Nat) (x : MpSt) : (s.setMp p x).bscan = s.bscan := rfl
@[simp] theorem State.setMp_getF_read (p : Nat) (x : MpSt) (y : Fld) (q r : Nat) : getF (s.setMp p x) y q r = getF s y q r := rfl
@[simp] theorem State.setMp_tile_read (p : Nat) (x : MpSt) (q : Nat) : State.tile (s.setMp p x) q = State.tile s q := rfl
@[simp] theorem State.setMp_panel_read (p : Nat) (x : MpSt) (q : Nat) : State.panel (s.setMp p x) q = State.panel s q := rfl
@[simp] theorem State.setMp_stitch_read (p : Nat) (x : MpSt) (q : Nat) : State.stitch (s.setMp p x) q = State.stitch s q := rfl
@[simp] theorem State.setMp_chan_read (p : Nat) (x : MpSt) (q r : Nat) : State.chan (s.setMp p x) q r = State.chan s q r := rfl
@[simp] theorem State.setMp_ctr_read (p : Nat) (x : MpSt) (q : Nat) : State.ctr (s.setMp p x) q = State.ctr s q := rfl
@[simp] theorem State.setMp_hem_read (p : Nat) (x : MpSt) (q : Nat) : State.hem (s.setMp p x) q = State.hem s q := rfl
@[simp] theorem State.setMp_lnk_read (p : Nat) (x : MpSt) (q : Nat) : State.lnk (s.setMp p x) q = State.lnk s q := rfl
@[simp] theorem State.setMp_link_read (p : Nat) (x : MpSt) (q r : Nat) : State.link (s.setMp p x) q r = State.link s q r := rfl

/-! ### State.modCfg -/

@[simp] theorem State.modCfg_pending (g : CfgSt → CfgSt) : (s.modCfg g).pending = s.pending := rfl
@[simp] theorem State.modCfg_regs (g : CfgSt → CfgSt) : (s.modCfg g).regs = s.regs := rfl
@[simp] theorem State.modCfg_holdR (g : CfgSt → CfgSt) : (s.modCfg g).holdR = s.holdR := rfl
@[simp] theorem State.modCfg_heldW (g : CfgSt → CfgSt) : (s.modCfg g).heldW = s.heldW := rfl
@[simp] theorem State.modCfg_out (g : CfgSt → CfgSt) : (s.modCfg g).out = s.out := rfl
@[simp] theorem State.modCfg_draws (g : CfgSt → CfgSt) : (s.modCfg g).draws = s.draws := rfl
@[simp] theorem State.modCfg_tiles (g : CfgSt → CfgSt) : (s.modCfg g).tiles = s.tiles := rfl
@[simp] theorem State.modCfg_flights (g : CfgSt → CfgSt) : (s.modCfg g).flights = s.flights := rfl
@[simp] theorem State.modCfg_nextId (g : CfgSt → CfgSt) : (s.modCfg g).nextId = s.nextId := rfl
@[simp] theorem State.modCfg_stitches (g : CfgSt → CfgSt) : (s.modCfg g).stitches = s.stitches := rfl
@[simp] theorem State.modCfg_links (g : CfgSt → CfgSt) : (s.modCfg g).links = s.links := rfl
@[simp] theorem State.modCfg_torn (g : CfgSt → CfgSt) : (s.modCfg g).torn = s.torn := rfl
@[simp] theorem State.modCfg_takeover (g : CfgSt → CfgSt) : (s.modCfg g).takeover = s.takeover := rfl
@[simp] theorem State.modCfg_spent (g : CfgSt → CfgSt) : (s.modCfg g).spent = s.spent := rfl
@[simp] theorem State.modCfg_panels (g : CfgSt → CfgSt) : (s.modCfg g).panels = s.panels := rfl
@[simp] theorem State.modCfg_profileFresh (g : CfgSt → CfgSt) : (s.modCfg g).profileFresh = s.profileFresh := rfl
@[simp] theorem State.modCfg_ctrs (g : CfgSt → CfgSt) : (s.modCfg g).ctrs = s.ctrs := rfl
@[simp] theorem State.modCfg_faultQ (g : CfgSt → CfgSt) : (s.modCfg g).faultQ = s.faultQ := rfl
@[simp] theorem State.modCfg_faultPend (g : CfgSt → CfgSt) : (s.modCfg g).faultPend = s.faultPend := rfl
@[simp] theorem State.modCfg_lostPend (g : CfgSt → CfgSt) : (s.modCfg g).lostPend = s.lostPend := rfl
@[simp] theorem State.modCfg_errLog (g : CfgSt → CfgSt) : (s.modCfg g).errLog = s.errLog := rfl
@[simp] theorem State.modCfg_frzReq (g : CfgSt → CfgSt) : (s.modCfg g).frzReq = s.frzReq := rfl
@[simp] theorem State.modCfg_fuses (g : CfgSt → CfgSt) : (s.modCfg g).fuses = s.fuses := rfl
@[simp] theorem State.modCfg_fuseErr (g : CfgSt → CfgSt) : (s.modCfg g).fuseErr = s.fuseErr := rfl
@[simp] theorem State.modCfg_hbm (g : CfgSt → CfgSt) : (s.modCfg g).hbm = s.hbm := rfl
@[simp] theorem State.modCfg_chans (g : CfgSt → CfgSt) : (s.modCfg g).chans = s.chans := rfl
@[simp] theorem State.modCfg_movTurn (g : CfgSt → CfgSt) : (s.modCfg g).movTurn = s.movTurn := rfl
@[simp] theorem State.modCfg_lan (g : CfgSt → CfgSt) : (s.modCfg g).lan = s.lan := rfl
@[simp] theorem State.modCfg_lanes (g : CfgSt → CfgSt) : (s.modCfg g).lanes = s.lanes := rfl
@[simp] theorem State.modCfg_hems (g : CfgSt → CfgSt) : (s.modCfg g).hems = s.hems := rfl
@[simp] theorem State.modCfg_mps (g : CfgSt → CfgSt) : (s.modCfg g).mps = s.mps := rfl
@[simp] theorem State.modCfg_pcieUp (g : CfgSt → CfgSt) : (s.modCfg g).pcieUp = s.pcieUp := rfl
@[simp] theorem State.modCfg_pciCfg (g : CfgSt → CfgSt) : (s.modCfg g).pciCfg = s.pciCfg := rfl
@[simp] theorem State.modCfg_atc (g : CfgSt → CfgSt) : (s.modCfg g).atc = s.atc := rfl
@[simp] theorem State.modCfg_priStopped (g : CfgSt → CfgSt) : (s.modCfg g).priStopped = s.priStopped := rfl
@[simp] theorem State.modCfg_invalidating (g : CfgSt → CfgSt) : (s.modCfg g).invalidating = s.invalidating := rfl
@[simp] theorem State.modCfg_msix (g : CfgSt → CfgSt) : (s.modCfg g).msix = s.msix := rfl
@[simp] theorem State.modCfg_pba (g : CfgSt → CfgSt) : (s.modCfg g).pba = s.pba := rfl
@[simp] theorem State.modCfg_msixEn (g : CfgSt → CfgSt) : (s.modCfg g).msixEn = s.msixEn := rfl
@[simp] theorem State.modCfg_msixMaskAll (g : CfgSt → CfgSt) : (s.modCfg g).msixMaskAll = s.msixMaskAll := rfl
@[simp] theorem State.modCfg_chunks (g : CfgSt → CfgSt) : (s.modCfg g).chunks = s.chunks := rfl
@[simp] theorem State.modCfg_bsnap (g : CfgSt → CfgSt) : (s.modCfg g).bsnap = s.bsnap := rfl
@[simp] theorem State.modCfg_frzFull (g : CfgSt → CfgSt) : (s.modCfg g).frzFull = s.frzFull := rfl
@[simp] theorem State.modCfg_frzHeld (g : CfgSt → CfgSt) : (s.modCfg g).frzHeld = s.frzHeld := rfl
@[simp] theorem State.modCfg_frzPin (g : CfgSt → CfgSt) : (s.modCfg g).frzPin = s.frzPin := rfl
@[simp] theorem State.modCfg_shutdown (g : CfgSt → CfgSt) : (s.modCfg g).shutdown = s.shutdown := rfl
@[simp] theorem State.modCfg_booted (g : CfgSt → CfgSt) : (s.modCfg g).booted = s.booted := rfl
@[simp] theorem State.modCfg_coldBoot (g : CfgSt → CfgSt) : (s.modCfg g).coldBoot = s.coldBoot := rfl
@[simp] theorem State.modCfg_boots (g : CfgSt → CfgSt) : (s.modCfg g).boots = s.boots := rfl
@[simp] theorem State.modCfg_perst (g : CfgSt → CfgSt) : (s.modCfg g).perst = s.perst := rfl
@[simp] theorem State.modCfg_warming (g : CfgSt → CfgSt) : (s.modCfg g).warming = s.warming := rfl
@[simp] theorem State.modCfg_bbox (g : CfgSt → CfgSt) : (s.modCfg g).bbox = s.bbox := rfl
@[simp] theorem State.modCfg_bbBreak (g : CfgSt → CfgSt) : (s.modCfg g).bbBreak = s.bbBreak := rfl
@[simp] theorem State.modCfg_sinceSum (g : CfgSt → CfgSt) : (s.modCfg g).sinceSum = s.sinceSum := rfl
@[simp] theorem State.modCfg_bbHost (g : CfgSt → CfgSt) : (s.modCfg g).bbHost = s.bbHost := rfl
@[simp] theorem State.modCfg_failed (g : CfgSt → CfgSt) : (s.modCfg g).failed = s.failed := rfl
@[simp] theorem State.modCfg_soft (g : CfgSt → CfgSt) : (s.modCfg g).soft = s.soft := rfl
@[simp] theorem State.modCfg_vfuse (g : CfgSt → CfgSt) : (s.modCfg g).vfuse = s.vfuse := rfl
@[simp] theorem State.modCfg_locked (g : CfgSt → CfgSt) : (s.modCfg g).locked = s.locked := rfl
@[simp] theorem State.modCfg_fwKey (g : CfgSt → CfgSt) : (s.modCfg g).fwKey = s.fwKey := rfl
@[simp] theorem State.modCfg_fwVer (g : CfgSt → CfgSt) : (s.modCfg g).fwVer = s.fwVer := rfl
@[simp] theorem State.modCfg_fwDigest (g : CfgSt → CfgSt) : (s.modCfg g).fwDigest = s.fwDigest := rfl
@[simp] theorem State.modCfg_aliasKey (g : CfgSt → CfgSt) : (s.modCfg g).aliasKey = s.aliasKey := rfl
@[simp] theorem State.modCfg_flash (g : CfgSt → CfgSt) : (s.modCfg g).flash = s.flash := rfl
@[simp] theorem State.modCfg_recov (g : CfgSt → CfgSt) : (s.modCfg g).recov = s.recov := rfl
@[simp] theorem State.modCfg_fab (g : CfgSt → CfgSt) : (s.modCfg g).fab = s.fab := rfl
@[simp] theorem State.modCfg_vccio (g : CfgSt → CfgSt) : (s.modCfg g).vccio = s.vccio := rfl
@[simp] theorem State.modCfg_macRx (g : CfgSt → CfgSt) : (s.modCfg g).macRx = s.macRx := rfl
@[simp] theorem State.modCfg_macTx (g : CfgSt → CfgSt) : (s.modCfg g).macTx = s.macTx := rfl
@[simp] theorem State.modCfg_macTake (g : CfgSt → CfgSt) : (s.modCfg g).macTake = s.macTake := rfl
@[simp] theorem State.modCfg_droop (g : CfgSt → CfgSt) : (s.modCfg g).droop = s.droop := rfl
@[simp] theorem State.modCfg_capOver (g : CfgSt → CfgSt) : (s.modCfg g).capOver = s.capOver := rfl
@[simp] theorem State.modCfg_hotReads (g : CfgSt → CfgSt) : (s.modCfg g).hotReads = s.hotReads := rfl
@[simp] theorem State.modCfg_doeHeld (g : CfgSt → CfgSt) : (s.modCfg g).doeHeld = s.doeHeld := rfl
@[simp] theorem State.modCfg_svcHeld (g : CfgSt → CfgSt) : (s.modCfg g).svcHeld = s.svcHeld := rfl
@[simp] theorem State.modCfg_tapIr (g : CfgSt → CfgSt) : (s.modCfg g).tapIr = s.tapIr := rfl
@[simp] theorem State.modCfg_tapSel (g : CfgSt → CfgSt) : (s.modCfg g).tapSel = s.tapSel := rfl
@[simp] theorem State.modCfg_tapNext (g : CfgSt → CfgSt) : (s.modCfg g).tapNext = s.tapNext := rfl
@[simp] theorem State.modCfg_bscan (g : CfgSt → CfgSt) : (s.modCfg g).bscan = s.bscan := rfl
@[simp] theorem State.modCfg_getF_read (g : CfgSt → CfgSt) (y : Fld) (q r : Nat) : getF (s.modCfg g) y q r = getF s y q r := rfl
@[simp] theorem State.modCfg_tile_read (g : CfgSt → CfgSt) (q : Nat) : State.tile (s.modCfg g) q = State.tile s q := rfl
@[simp] theorem State.modCfg_panel_read (g : CfgSt → CfgSt) (q : Nat) : State.panel (s.modCfg g) q = State.panel s q := rfl
@[simp] theorem State.modCfg_stitch_read (g : CfgSt → CfgSt) (q : Nat) : State.stitch (s.modCfg g) q = State.stitch s q := rfl
@[simp] theorem State.modCfg_chan_read (g : CfgSt → CfgSt) (q r : Nat) : State.chan (s.modCfg g) q r = State.chan s q r := rfl
@[simp] theorem State.modCfg_ctr_read (g : CfgSt → CfgSt) (q : Nat) : State.ctr (s.modCfg g) q = State.ctr s q := rfl
@[simp] theorem State.modCfg_hem_read (g : CfgSt → CfgSt) (q : Nat) : State.hem (s.modCfg g) q = State.hem s q := rfl
@[simp] theorem State.modCfg_lnk_read (g : CfgSt → CfgSt) (q : Nat) : State.lnk (s.modCfg g) q = State.lnk s q := rfl
@[simp] theorem State.modCfg_mp_read (g : CfgSt → CfgSt) (q : Nat) : State.mp (s.modCfg g) q = State.mp s q := rfl
@[simp] theorem State.modCfg_link_read (g : CfgSt → CfgSt) (q r : Nat) : State.link (s.modCfg g) q r = State.link s q r := rfl

/-! ### A register read after a register write -/

/-- A field reads as the value written, cut to its width. -/
theorem getF_setF_self (f : Fld) (v i j : Nat) (h : SMap.rising none s.regs = true) : getF (setF s f v i j) f i j = v % 2 ^ f.width :=
  SMap.get_set_self _ _ _ _ h

/-- A field at another key reads as before. -/
theorem getF_setF_ne (f g : Fld) (v i j a b : Nat) (h : g.key a b ≠ f.key i j) : getF (setF s f v i j) g a b = getF s g a b := by
  simp only [getF, setF]
  generalize f.rst i = d
  generalize g.rst a = e
  generalize v % 2 ^ f.width = w
  generalize s.regs = m
  induction m with
  | nil =>
    by_cases hv : w = d
    · simp [SMap.set, hv]
    · simp [SMap.set, SMap.get, hv, Ne.symm h]
  | cons q r ih =>
    obtain ⟨k, x⟩ := q
    simp only [SMap.set]
    by_cases h1 : k = f.key i j
    · have h3 : k ≠ g.key a b := by rw [h1]; exact Ne.symm h
      by_cases hv : w = d
      · simp [h1, hv, SMap.get, Ne.symm h]
      · simp [h1, hv, SMap.get, Ne.symm h]
    · by_cases h2 : f.key i j < k
      · by_cases hv : w = d
        · simp [h1, h2, hv]
        · simp [h1, h2, hv, SMap.get, Ne.symm h]
      · simp only [h1, h2, if_false, SMap.get, ih]

/-- A register write keeps the register store rising. -/
theorem rising_setF (f : Fld) (v i j : Nat) (h : SMap.rising none s.regs = true) : SMap.rising none (setF s f v i j).regs = true :=
  SMap.rising_set _ _ _ _ h

/-! ### A tile read after a tile write -/

theorem State.tile_setTile_self (t : Nat) (x : Tile) (h : SMap.rising none s.tiles = true) : (s.setTile t x).tile t = x :=
  SMap.get_set_self _ _ _ _ h

theorem State.tile_setTile_ne (t n : Nat) (x : Tile) (h : n ≠ t) : (s.setTile t x).tile n = s.tile n := SMap.get_set_ne _ _ _ _ _ h

theorem State.tile_modTile_self (t : Nat) (g : Tile → Tile) (h : SMap.rising none s.tiles = true) : (s.modTile t g).tile t = g (s.tile t) :=
  SMap.get_set_self _ _ _ _ h

theorem State.tile_modTile_ne (t n : Nat) (g : Tile → Tile) (h : n ≠ t) : (s.modTile t g).tile n = s.tile n := SMap.get_set_ne _ _ _ _ _ h

theorem State.rising_setTile (t : Nat) (x : Tile) (h : SMap.rising none s.tiles = true) : SMap.rising none (s.setTile t x).tiles = true :=
  SMap.rising_set _ _ _ _ h

end Sys2Proof.Machine
end

