-- ==== Sys2Proof/Laws/Host.lean ====
section
/-! SUPPORT. What a host access to a register can do at meeting point 2: its effect where it is granted; where it is not, the effect is lost. -/

namespace Sys2Proof.Machine

variable {s : State}

/-- A granted access has its effect. -/
theorem State.hostAccess_ok {a len : Nat} {write expert : Bool} {f : State → State} (h : s.hostMay a write expert = true) :
    s.hostAccess a len write expert f = f s := by
  simp only [State.hostMay, Bool.and_eq_true, Bool.not_eq_true'] at h
  obtain ⟨⟨⟨⟨h1, h2⟩, h3⟩, h4⟩, h5⟩ := h
  simp only [State.hostAccess, h1, h2, h3, h4, h5, Bool.not_true, Bool.or_self, Bool.false_eq_true, if_false, if_true]

/-- A granted write of a field has its effect. -/
theorem State.hostWrite_ok {f : Fld} {i j : Nat} {k : State → State} (h : s.mayWrite f i j = true) : s.hostWrite f i j k = k s :=
  State.hostAccess_ok h

/-- A served, aligned and granted write of a register has its effect. -/
theorem State.hostStore_ok {a n v : Nat} {e : Bool} (he : e = (expertAt a || (decide (n = 8) && expertAt (a + 4))))
    (h : s.hostMay a true e = true) (ha : bar0Aligned a n = true) : s.hostStore a n v = s.bar0Write a n v := by
  have h' := h
  simp only [State.hostMay, Bool.and_eq_true, Bool.not_eq_true'] at h
  obtain ⟨⟨⟨⟨h1, h2⟩, h3⟩, _⟩, _⟩ := h
  subst he
  simp only [State.hostStore, h1, h2, h3, ha, Bool.not_true, Bool.or_self, Bool.false_eq_true, if_false]
  exact State.hostAccess_ok h'

/-- A served, aligned and granted read of a register completes with its value. -/
theorem State.hostRead_ok {a n : Nat} {e : Bool} (he : e = (expertAt a || (decide (n = 8) && expertAt (a + 4))))
    (h : s.hostMay a false e = true) (ha : bar0Aligned a n = true) :
    s.hostRead a n = (s.bar0Read a n).1.emit .completion [a, 0] (leBytes n (s.bar0Read a n).2) := by
  simp only [State.hostMay, Bool.and_eq_true, Bool.not_eq_true'] at h
  obtain ⟨⟨⟨⟨h1, h2⟩, h3⟩, h4⟩, h5⟩ := h
  subst he
  simp only [State.hostRead, h1, h2, h3, h4, h5, ha, Bool.not_true, Bool.or_self, Bool.false_eq_true, if_false, if_true]

/-- An access to an endpoint or block that is not served changes nothing. -/
theorem State.hostAccess_unserved {a len : Nat} {write expert : Bool} {f : State → State}
    (h : (s.hostServed && s.blockServed a && s.warmServed a) = false) : s.hostAccess a len write expert f = s := by
  cases h1 : s.hostServed <;> cases h2 : s.blockServed a <;> cases h3 : s.warmServed a <;> simp_all [State.hostAccess]

/-- A write by a frozen host is counted and lost (R405). -/
theorem State.hostAccess_frozen {a len : Nat} {write expert : Bool} {f : State → State}
    (h1 : s.hostServed = true) (h2 : s.blockServed a = true) (h3 : s.warmServed a = true) (h4 : classOf a ≠ 0) (h5 : s.frozenMaster idHost = true) :
    s.hostAccess a len write expert f = bumpF s Reg.MGT_VIOL_CNT_VALUE := by
  simp [State.hostAccess, h1, h2, h3, h4, h5]

/-- A refused access is a violation of the host (R405). -/
theorem State.hostAccess_refused {a len : Nat} {write expert : Bool} {f : State → State}
    (h1 : s.hostServed = true) (h2 : s.blockServed a = true) (h3 : s.warmServed a = true)
    (h4 : (decide (classOf a ≠ 0) && s.frozenMaster idHost) = false) (h5 : s.hostGranted a write expert = false) :
    s.hostAccess a len write expert f = s.violation { master := idHost, kind := bit write, reason := 2, addr := a, len := len } := by
  simp only [State.hostAccess, h1, h2, h3, h4, h5, Bool.not_true, Bool.or_self, Bool.false_eq_true, if_false]

end Sys2Proof.Machine
end

