-- ==== Sys2Proof/Laws/Issue.lean ====
section
/-! SUPPORT. What the issue of a tile instruction can do: one lemma per outcome of its body, which later proofs cite in place of the slot
machinery. -/

namespace Sys2Proof.Machine

variable {s : State} {t : TileNo} {i : Instr} {u : State → Use} {body : State → Issue}

/-- A word without an error mark is fetched as it stands. -/
theorem State.pmemFetch_clean (n a : Nat) (h : SMap.get 0 (s.tile n).pmemErr a = 0) :
    s.pmemFetch n a = (s, some (SMap.get 0 (s.tile n).pmem a)) := by
  simp [State.pmemFetch, State.eccRead, h]

/-- At its issue slot, an instruction is considered. -/
theorem State.issue_atWord (h : s.atWord t i = true) : s.issue t i u body = s.consider t.toNat i u body := by
  simp only [State.atWord, Bool.and_eq_true, Bool.not_eq_true', decide_eq_true_eq, Option.isNone_iff_eq_none] at h
  obtain ⟨⟨⟨⟨⟨⟨⟨⟨h1, h2⟩, h3⟩, hb⟩, h4⟩, h5⟩, h6⟩, h7⟩, h8⟩ := h
  simp [State.issue, State.atSlot, h1, h2, h3, hb, h4, h5, h6]

/-- Where nothing holds an instruction, nothing holds the slot. -/
theorem Tile.hold_none {x : Tile} {u : Use} (h : x.hold u = none) : x.hold {} = none := by
  unfold Tile.hold at h ⊢
  dsimp only at h ⊢
  split at h
  · cases h
  split at h
  · cases h
  split at h
  · cases h
  rename_i h1 h2 h3
  have e : (x.extTook.any fun p => decide (p.1 = x.ic) && x.landsOn p.2) = false := by
    refine List.any_eq_false.mpr fun p hm hp => h3 (List.any_eq_true.mpr ⟨p, hm, ?_⟩)
    simp only [Bool.and_eq_true] at hp
    simp only [hp.1, hp.2, Bool.true_or, Bool.and_self]
  simp only [Bool.or_eq_true, Bool.and_eq_true, not_or, not_and, Bool.not_eq_true] at h2
  simp only [h1, Option.isSome_none, Bool.false_and, Bool.and_false, Bool.false_or, Bool.or_false, Option.map_none, e]
  have hl := h2.1.2
  cases hp : x.linPlane
  · simp
  · simp [(hl hp).2]

/-- Nor does anything hold it once its own ports are left out. -/
theorem Tile.hold_uses {x : Tile} {u : Use} (b : Issue) (h : x.hold u = none) : x.hold (b.uses u) = none := by
  unfold Issue.uses
  split
  · split
    · exact Tile.hold_none h
    · exact h
  · exact h

/-- An instruction that is ready, and whose body lets it issue, issues. -/
theorem State.issue_go {e : Eff} (h : s.ready t i (u s) = true) (hb : body s = .go e) : s.issue t i u body = s.issueSlot t.toNat e := by
  simp only [State.ready, Bool.and_eq_true, Bool.not_eq_true', decide_eq_true_eq, Bool.or_eq_true] at h
  obtain ⟨⟨⟨⟨⟨⟨h1, h2⟩, h3⟩, h4⟩, h5⟩, h6⟩, h7⟩ := h
  rw [State.issue_atWord h1]
  simp only [State.atWord, Bool.and_eq_true, decide_eq_true_eq] at h1
  rw [State.consider, State.pmemFetch_clean _ _ h1.1.2]
  simp only [h1.2, ne_eq, not_true_eq_false, if_false, h2, Bool.not_true, Bool.false_or, h3, Bool.false_eq_true, h4, hb, Issue.uses, h5]
  rcases h6 with h6 | h6 <;> simp [h6, h7]

/-- A body that stops at a synchronous fault raises it. -/
theorem State.issue_fault {r : State} {c w : Nat} (h : s.ready t i (u s) = true) (hb : body s = .fault r c w) :
    s.issue t i u body = r.tileFault t.toNat c w := by
  simp only [State.ready, Bool.and_eq_true, Bool.not_eq_true', decide_eq_true_eq, Bool.or_eq_true] at h
  obtain ⟨⟨⟨⟨⟨⟨h1, h2⟩, h3⟩, h4⟩, h5⟩, h6⟩, h7⟩ := h
  rw [State.issue_atWord h1]
  simp only [State.atWord, Bool.and_eq_true, decide_eq_true_eq] at h1
  rw [State.consider, State.pmemFetch_clean _ _ h1.1.2]
  simp only [h1.2, ne_eq, not_true_eq_false, if_false, h2, Bool.not_true, Bool.false_or, h3, Bool.false_eq_true, h4, hb, Tile.hold_uses _ h5]

/-- A body that waits lets an empty slot pass and counts it (R135). -/
theorem State.issue_wait {c : Nat} (h : s.ready t i (u s) = true) (hq : (s.tile t.toNat).irqReady = false) (hb : body s = .wait c) :
    s.issue t i u body = (s.emptySlot t.toNat).countTile t.toNat c := by
  simp only [State.ready, Bool.and_eq_true, Bool.not_eq_true', decide_eq_true_eq, Bool.or_eq_true] at h
  obtain ⟨⟨⟨⟨⟨⟨h1, h2⟩, h3⟩, h4⟩, h5⟩, h6⟩, h7⟩ := h
  rw [State.issue_atWord h1]
  simp only [State.atWord, Bool.and_eq_true, decide_eq_true_eq] at h1
  rw [State.consider, State.pmemFetch_clean _ _ h1.1.2]
  simp only [h1.2, ne_eq, not_true_eq_false, if_false, h2, Bool.not_true, Bool.false_or, h3, Bool.false_eq_true, h4, hb, Issue.uses, h5, hq]

/-- A tile whose sequencer does not run ignores the instructions presented to it. -/
theorem State.issue_stopped (h : s.sequencing t.toNat = false) : s.issue t i u body = s := by
  simp [State.issue, State.atSlot, h]

end Sys2Proof.Machine
end

