-- ==== Sys2Proof/Laws/Tile.lean ====
section
/-! SUPPORT. What an ic and an issue slot do to a quiet tile, and what they leave alone. -/

namespace Sys2Proof.Machine

/-- Putting back what stands there changes nothing. -/
theorem SMap.set_get {α : Type} [DecidableEq α] (d : α) (m : SMap α) (k : Nat) (h : SMap.wf d m = true) : SMap.set d m k (SMap.get d m k) = m := by
  simp only [SMap.wf, Bool.and_eq_true] at h
  obtain ⟨h1, h2⟩ := h
  suffices H : ∀ b, SMap.rising b m = true → SMap.set d m k (SMap.get d m k) = m from H none h1
  clear h1
  induction m with
  | nil => intro _ _; simp [SMap.set, SMap.get]
  | cons e r ih =>
    obtain ⟨j, w⟩ := e
    intro b hb
    simp only [List.all_cons, Bool.and_eq_true, decide_eq_true_eq] at h2
    have hr : SMap.rising (some j) r = true := by
      cases b with
      | none => exact hb
      | some c => simp [SMap.rising] at hb; exact hb.2
    by_cases hj : j = k
    · subst hj; simp [SMap.set, SMap.get, h2.1]
    · simp only [SMap.get, hj, if_false, SMap.set]
      by_cases hk : k < j
      · have low : ∀ (l : SMap α) (c : Nat), SMap.rising (some c) l = true → k ≤ c → SMap.get d l k = d := by
          intro l
          induction l with
          | nil => intro _ _ _; rfl
          | cons e l ihl =>
            obtain ⟨i, x⟩ := e
            intro c h1 h2
            simp only [SMap.rising, Bool.and_eq_true, decide_eq_true_eq] at h1
            have : i ≠ k := by omega
            simp only [SMap.get, this, if_false]
            exact ihl i h1.2 (by omega)
        simp [hk, low r j hr (by omega)]
      · simp only [hk, if_false]
        rw [ih h2.2 (some j) hr]

variable {s : State} {t : Nat}

theorem State.memWf_tiles (h : s.memWf = true) : SMap.wf Tile.init s.tiles = true := by
  simp only [State.memWf, Bool.and_eq_true] at h; exact h.1.1.1.2

theorem State.memWf_regs (h : s.memWf = true) : SMap.rising none s.regs = true := by
  simp only [State.memWf, Bool.and_eq_true] at h; exact h.1.1.1.1

theorem State.memWf_hbm (h : s.memWf = true) : SMap.wf none s.hbm.mem = true := by
  simp only [State.memWf, Bool.and_eq_true] at h; exact h.1.2

theorem State.memWf_bbox (h : s.memWf = true) : SMap.wf [] s.bbox = true := by
  simp only [State.memWf, Bool.and_eq_true] at h; exact h.2

/-- The memories of each tile are canonical. -/
theorem State.memWf_tile (h : s.memWf = true) (t : Nat) : (s.tile t).memWf = true := by
  have hi : Tile.init.memWf = true := by decide
  simp only [State.memWf, Bool.and_eq_true] at h
  have h2 := h.1.1.2
  unfold State.tile
  generalize s.tiles = m at h2
  induction m with
  | nil => exact hi
  | cons e r ih =>
    obtain ⟨j, w⟩ := e
    simp only [List.all_cons, Bool.and_eq_true] at h2
    simp only [SMap.get]
    split
    · exact h2.1
    · exact ih h2.2

theorem State.setTile_tile (h : SMap.wf Tile.init s.tiles = true) : s.setTile t (s.tile t) = s := by
  unfold State.setTile State.tile
  rw [SMap.set_get _ _ _ h]

/-- Nothing but tile t and the counters changes, and the tiles keep their canonical form. -/
structure OnlyTile (t : Nat) (s u : State) : Prop where
  rest : u = { s with tiles := u.tiles, ctrs := u.ctrs }
  tiles : ∀ k, k ≠ t → u.tile k = s.tile k
  wf : SMap.wf Tile.init s.tiles = true → SMap.wf Tile.init u.tiles = true

theorem OnlyTile.refl : OnlyTile t s s := ⟨rfl, fun _ _ => rfl, id⟩

theorem OnlyTile.trans {u v : State} (h : OnlyTile t s u) (g : OnlyTile t u v) : OnlyTile t s v := by
  refine ⟨?_, fun k hk => (g.tiles k hk).trans (h.tiles k hk), fun x => g.wf (h.wf x)⟩
  rw [g.rest, h.rest]

theorem OnlyTile.setTile (x : Tile) : OnlyTile t s (s.setTile t x) := by
  refine ⟨rfl, fun k hk => ?_, fun h => SMap.wf_set _ _ _ _ h⟩
  simp only [State.tile, State.setTile]; exact SMap.get_set_ne _ _ _ _ _ hk

theorem OnlyTile.modTile (f : Tile → Tile) : OnlyTile t s (s.modTile t f) := OnlyTile.setTile _

theorem OnlyTile.countTile (c n : Nat) : OnlyTile t s (s.countTile t c n) := ⟨rfl, fun _ _ => rfl, id⟩

theorem State.setTile_tile_self (h : SMap.wf Tile.init s.tiles = true) (x : Tile) : (s.setTile t x).tile t = x := by
  simp only [State.tile, State.setTile]
  exact SMap.get_set_self _ _ _ _ (by simp only [SMap.wf, Bool.and_eq_true] at h; exact h.1)

theorem State.modTile_tile_self (h : SMap.wf Tile.init s.tiles = true) (f : Tile → Tile) : (s.modTile t f).tile t = f (s.tile t) :=
  State.setTile_tile_self h _

/-! ### One ic of a quiet tile -/

/-- No matrix work is in flight. -/
structure Tile.idleUnit (x : Tile) : Prop where
  streams : x.streams = []
  waiting : x.waiting = []
  bbRun : x.bbRun = none
  bbWait : x.bbWait = []
  tree : x.tree = []

theorem Tile.quiet_unit {x : Tile} (h : x.quiet = true) : x.idleUnit ∧ x.pipe = [] ∧ flagLM x.flags = false ∧ x.delay = none ∧ x.launching = false := by
  simp only [Tile.quiet, Bool.and_eq_true, List.isEmpty_iff, Option.isNone_iff_eq_none, Bool.not_eq_true'] at h
  obtain ⟨⟨⟨⟨⟨⟨⟨⟨h1, h2⟩, h3⟩, h4⟩, h5⟩, h6⟩, h7⟩, h8⟩, h9⟩ := h
  exact ⟨⟨h2, h3, h4, h5, h6⟩, h1, h7, h8, h9⟩

/-- The fault window after an ic (R121). -/
def Tile.sameUnit (x y : Tile) : Prop :=
  y = { x with ic := y.ic, restart := y.restart, extTook := y.extTook, fltWindow := y.fltWindow, fltLimit := y.fltLimit, fltStart := y.fltStart, fltCount := y.fltCount }

theorem State.treeTick_quiet (hw : SMap.wf Tile.init s.tiles = true) (h : (s.tile t).idleUnit) : s.treeTick t = s := by
  unfold State.treeTick
  rw [h.tree]
  show s.setTile t { s.tile t with tree := [] } = s
  have : ({ s.tile t with tree := [] } : Tile) = s.tile t := by rw [← h.tree]
  rw [this, State.setTile_tile hw]

theorem State.streamTick_quiet (h : (s.tile t).idleUnit) : s.streamTick t = s := by
  simp [State.streamTick, h.streams, h.waiting]

theorem State.bbTick_quiet (h : (s.tile t).idleUnit) : s.bbTick t (s.tile t) = s := by
  simp [State.bbTick, Tile.bbStepsNow, h.bbRun]

theorem State.heldSwap_quiet (h : (s.tile t).idleUnit) : s.heldSwap t s = s := by
  simp [State.heldSwap, Tile.swapDue, h.bbWait]

/-- An ic of a quiet tile changes only its counters, its local time and its fault window. -/
theorem State.tick_quiet (hw : SMap.wf Tile.init s.tiles = true) (h : (s.tile t).idleUnit) :
    OnlyTile t s (s.tick t) ∧ (s.tile t).sameUnit ((s.tick t).tile t)
      ∧ (∀ e, e ≠ ctrTile t → (s.tick t).ctr e = s.ctr e) := by
  have hc : ∀ u : State, (u.tile t).idleUnit → u.chainWaits t = false := by
    intro u hu; simp [State.chainWaits, hu.waiting]
  have hsplit : ∀ u : State, SMap.wf Tile.init u.tiles = true →
      OnlyTile t u ((u.fltWindow t).modTile t (fun y => { y with ic := y.ic + 1, restart := none, extTook := [] }))
      ∧ (u.tile t).sameUnit (((u.fltWindow t).modTile t (fun y => { y with ic := y.ic + 1, restart := none, extTook := [] })).tile t)
      ∧ ((u.fltWindow t).modTile t (fun y => { y with ic := y.ic + 1, restart := none, extTook := [] })).ctrs = u.ctrs := by
    intro u hu
    unfold State.fltWindow
    dsimp only
    split
    · refine ⟨(OnlyTile.setTile _).trans (OnlyTile.modTile _), ?_, rfl⟩
      rw [State.modTile_tile_self ((OnlyTile.setTile _).wf hu), State.setTile_tile_self hu]
      rfl
    · refine ⟨OnlyTile.modTile _, ?_, rfl⟩
      rw [State.modTile_tile_self hu]
      rfl
  unfold State.tick
  dsimp only
  rw [State.treeTick_quiet hw h, State.streamTick_quiet h, State.bbTick_quiet h, State.heldSwap_quiet h]
  split
  · have h' : ((s.countTile t 0).tile t).idleUnit := h
    rw [hc _ h']
    simp only [Bool.false_eq_true, if_false]
    obtain ⟨a, b, c⟩ := hsplit (s.countTile t 0) hw
    refine ⟨(OnlyTile.countTile 0 1).trans a, b, fun e he => ?_⟩
    show SMap.get 0 _ e = _
    rw [c]
    exact SMap.get_set_ne _ _ _ _ _ (by simpa [ctrTile] using he)
  · rw [hc _ h]
    simp only [Bool.false_eq_true, if_false]
    obtain ⟨a, b, c⟩ := hsplit s hw
    exact ⟨a, b, fun e _ => by show SMap.get 0 _ e = _; rw [c]; rfl⟩

/-! ### Registers that a slot may write -/

theorem Tile.sameBut_refl (x : Tile) (w : SlotWrites) : x.sameBut x w :=
  ⟨fun _ _ => rfl, fun _ _ _ => rfl, fun _ => rfl, fun _ => rfl, fun _ => rfl, fun _ => rfl, fun _ => rfl, rfl, rfl, rfl, fun _ => rfl, rfl⟩

theorem Tile.sameBut_trans {x y z : Tile} {w : SlotWrites} (h : x.sameBut y w) (g : y.sameBut z w) : x.sameBut z w := by
  obtain ⟨a1, a2, a3, a4, a5, a6, a7, a8, a9, a10, a11, a12⟩ := h
  obtain ⟨b1, b2, b3, b4, b5, b6, b7, b8, b9, b10, b11, b12⟩ := g
  exact ⟨fun c hc => (b1 c hc).trans (a1 c hc), fun c h1 h2 => (b2 c h1 h2).trans (a2 c h1 h2), fun h => (b3 h).trans (a3 h),
    fun n => (b4 n).trans (a4 n), fun n => (b5 n).trans (a5 n), fun n => (b6 n).trans (a6 n), fun n => (b7 n).trans (a7 n),
    b8.trans a8, b9.trans a9, b10.trans a10, fun n => (b11 n).trans (a11 n), b12.trans a12⟩

theorem Tile.sameBut_unit {x y : Tile} (h : x.sameUnit y) (w : SlotWrites) : x.sameBut y w := by
  rw [h]
  exact Tile.sameBut_refl x w

theorem Tile.sameBut_setGen (x : Tile) (w : SlotWrites) (c : Nat) (v : Word) (h : c ∈ w.gens) : x.sameBut (x.setGen c v) w := by
  refine ⟨fun q hq => ?_, fun _ _ _ => rfl, fun _ => rfl, fun _ => rfl, fun _ => rfl, fun _ => rfl, fun _ => rfl, rfl, rfl, rfl, fun _ => rfl, rfl⟩
  exact SMap.get_set_ne _ _ _ _ _ (fun e => hq (e ▸ h))

theorem Tile.sprv_setSprRaw_ne (x : Tile) (c q : Nat) (v : Word) (h : q ≠ c) : (x.setSprRaw c v).sprv q = x.sprv q :=
  SMap.get_set_ne _ _ _ _ _ h

/-- Every special register is read as it was written. -/
theorem Tile.sprv_setSprRaw_self (x : Tile) (c : Nat) (v : Word) (h : SMap.rising none x.spr = true) : (x.setSprRaw c v).sprv c = v :=
  SMap.get_set_self _ _ _ _ h

theorem Tile.sameBut_setSprRaw (x : Tile) (w : SlotWrites) (c : Nat) (v : Word) (h : c ∈ w.sprs) : x.sameBut (x.setSprRaw c v) w := by
  refine ⟨fun _ _ => rfl, fun q hq _ => ?_, fun hf => ?_, fun _ => rfl, fun _ => rfl, fun _ => rfl, fun _ => rfl, rfl, rfl, rfl, fun _ => rfl, rfl⟩
  · exact Tile.sprv_setSprRaw_ne _ _ _ _ (fun e => hq (e ▸ h))
  · show (x.setSprRaw c v).sprv sprFLAGS &&& _ = _
    rw [Tile.sprv_setSprRaw_ne _ _ _ _ (fun e => hf (by rw [e]; exact h))]
    rfl

theorem Tile.sameBut_setSpr (x : Tile) (w : SlotWrites) (c : Nat) (v : Word) (h : c ∈ w.sprs) (hl : sprLST ∈ w.sprs) :
    x.sameBut (x.setSpr c v) w :=
  Tile.sameBut_trans (Tile.sameBut_setSprRaw x w c _ h) (Tile.sameBut_setSprRaw _ w sprLST _ hl)

theorem Tile.memWf_spr {x : Tile} (h : x.memWf = true) : SMap.rising none x.spr = true := by
  simp only [Tile.memWf, SMap.wf, Bool.and_eq_true] at h; exact h.2.1

/-- A write of the flag bits `m` leaves the bits outside `w` as they were, where it writes to them what they hold. -/
theorem Tile.sameBut_flags (x : Tile) (w : SlotWrites) (m v : Word) (hs : SMap.rising none x.spr = true)
    (hm : sprFLAGS ∉ w.sprs → v &&& (m &&& (maskFlags &&& ~~~w.flags)) = x.flags &&& (m &&& (maskFlags &&& ~~~w.flags))) :
    x.sameBut (x.setSprRaw sprFLAGS (((x.flags &&& ~~~m) ||| (v &&& m)) &&& maskFlags)) w := by
  refine ⟨fun _ _ => rfl, fun q _ hq => Tile.sprv_setSprRaw_ne _ _ _ _ hq, fun h => ?_, fun _ => rfl, fun _ => rfl, fun _ => rfl, fun _ => rfl,
    rfl, rfl, rfl, fun _ => rfl, rfl⟩
  show (x.setSprRaw sprFLAGS _).sprv sprFLAGS &&& _ = _
  rw [Tile.sprv_setSprRaw_self _ _ _ hs]
  have e := hm h
  ext i hi
  have b := congrArg (fun z : Word => z[i]) e
  simp only [BitVec.getElem_and, BitVec.getElem_not] at b
  simp only [BitVec.getElem_and, BitVec.getElem_or, BitVec.getElem_not]
  revert b
  cases x.flags[i] <;> cases v[i] <;> cases m[i] <;> cases maskFlags[i] <;> cases w.flags[i] <;> simp

/-! ### The slot of a register instruction -/

/-- A write of a register that `w` names, by an instruction that finds tile x; a bit of `flags` outside `w` is written with what it holds. -/
def PWrite.regIn (w : SlotWrites) (x : Tile) : PWrite → Prop
  | .gen c _ => c ∈ w.gens
  | .flags m v => sprFLAGS ∉ w.sprs → v &&& (m &&& (maskFlags &&& ~~~w.flags)) = x.flags &&& (m &&& (maskFlags &&& ~~~w.flags))
  | .spr c _ => c ∈ w.sprs ∧ sprLST ∈ w.sprs
  | _ => False

/-- The other writes of the slot do not disturb it. -/
theorem PWrite.regIn_sameBut {w : SlotWrites} {x y : Tile} {p : PWrite} (h : x.sameBut y w) (hp : p.regIn w x) : p.regIn w y := by
  cases p <;> simp only [PWrite.regIn] at hp ⊢ <;> try exact hp
  intro hs
  rw [hp hs]
  have e := h.2.2.1 hs
  have f (z m k : Word) : z &&& (m &&& k) = m &&& (z &&& k) := by
    ext i hi; simp only [BitVec.getElem_and]; cases z[i] <;> cases m[i] <;> cases k[i] <;> rfl
  rw [f x.flags, f y.flags, e]

/-- A write of flag bits that `w` names. -/
theorem PWrite.regIn_flags {w : SlotWrites} (x : Tile) {m : Word} (v : Word) (h : w.flags = m) : (PWrite.flags m v).regIn w x := by
  intro _
  have e : m &&& (maskFlags &&& ~~~w.flags) = 0 := by
    rw [h]; ext i hi; simp only [BitVec.getElem_and, BitVec.getElem_not]; cases m[i] <;> cases maskFlags[i] <;> simp
  rw [e]; simp

/-- What holds between a state and a later one of the same slot. -/
structure SlotFrame (t : Nat) (w : SlotWrites) (s u : State) : Prop where
  only : OnlyTile t s u
  ctrs : ∀ e, e ≠ ctrTile t → e ≠ ctrTile t + 1 → u.ctr e = s.ctr e
  same : (s.tile t).sameBut (u.tile t) w
  spr : SMap.rising none (s.tile t).spr = true → SMap.rising none (u.tile t).spr = true
  launch : (u.tile t).launching = (s.tile t).launching

theorem SlotFrame.refl {w : SlotWrites} : SlotFrame t w s s := ⟨OnlyTile.refl, fun _ _ _ => rfl, Tile.sameBut_refl _ _, id, rfl⟩

theorem SlotFrame.trans {w : SlotWrites} {u v : State} (h : SlotFrame t w s u) (g : SlotFrame t w u v) : SlotFrame t w s v :=
  ⟨h.only.trans g.only, fun e h1 h2 => (g.ctrs e h1 h2).trans (h.ctrs e h1 h2), Tile.sameBut_trans h.same g.same, fun x => g.spr (h.spr x),
    g.launch.trans h.launch⟩

/-- A change of the tile that names only registers of `w`. -/
theorem SlotFrame.modTile {w : SlotWrites} {f : Tile → Tile} (hw : SMap.wf Tile.init s.tiles = true) (h : (s.tile t).sameBut (f (s.tile t)) w)
    (hs : SMap.rising none (s.tile t).spr = true → SMap.rising none (f (s.tile t)).spr = true)
    (hl : (f (s.tile t)).launching = (s.tile t).launching) : SlotFrame t w s (s.modTile t f) := by
  refine ⟨OnlyTile.modTile f, fun _ _ _ => rfl, ?_, ?_, ?_⟩ <;> rw [State.modTile_tile_self hw] <;> assumption

theorem SlotFrame.countTile {w : SlotWrites} (c n : Nat) (hc : c < 2) : SlotFrame t w s (s.countTile t c n) := by
  refine ⟨OnlyTile.countTile c n, fun e h1 h2 => ?_, Tile.sameBut_refl _ _, id, rfl⟩
  exact SMap.get_set_ne _ _ _ _ _ (by omega)

theorem SlotFrame.applyWrite {w : SlotWrites} (p : PWrite) (hp : p.regIn w (s.tile t)) (hw : SMap.wf Tile.init s.tiles = true)
    (hs : SMap.rising none (s.tile t).spr = true) : SlotFrame t w s (s.applyWrite t p).1 ∧ (s.applyWrite t p).2 = 0 := by
  cases p <;> simp only [PWrite.regIn] at hp <;> refine ⟨?_, rfl⟩ <;> simp only [State.applyWrite]
  · refine SlotFrame.modTile hw ?_ ?_ rfl
    · exact Tile.sameBut_setGen _ _ _ _ hp
    · exact fun h => h
  · refine SlotFrame.modTile hw ?_ ?_ rfl
    · exact Tile.sameBut_flags _ _ _ _ hs hp
    · exact fun h => SMap.rising_set _ _ _ _ h
  · refine SlotFrame.modTile hw ?_ ?_ rfl
    · exact Tile.sameBut_setSpr _ _ _ _ hp.1 hp.2
    · exact fun h => SMap.rising_set _ _ _ _ (SMap.rising_set _ _ _ _ h)

theorem SlotFrame.applyWrites {w : SlotWrites} (l : List PWrite) (hl : ∀ p ∈ l, p.regIn w (s.tile t)) (hw : SMap.wf Tile.init s.tiles = true)
    (hs : SMap.rising none (s.tile t).spr = true) : SlotFrame t w s (s.applyWrites t l).1 ∧ (s.applyWrites t l).2 = 0 := by
  suffices H : ∀ (l : List PWrite) (s : State), (∀ p ∈ l, p.regIn w (s.tile t)) → SMap.wf Tile.init s.tiles = true → SMap.rising none (s.tile t).spr = true →
      SlotFrame t w s (l.foldl (fun a w => let r := a.1.applyWrite t w; (r.1, a.2 ||| r.2)) (s, (0 : Word))).1
      ∧ (l.foldl (fun a w => let r := a.1.applyWrite t w; (r.1, a.2 ||| r.2)) (s, (0 : Word))).2 = 0 from H l s hl hw hs
  intro l
  induction l with
  | nil => intro s _ _ _; exact ⟨SlotFrame.refl, rfl⟩
  | cons p r ih =>
    intro s hl hw hs
    obtain ⟨h1, h2⟩ := SlotFrame.applyWrite (t := t) p (hl p (by simp)) hw hs
    obtain ⟨h3, h4⟩ := ih (s.applyWrite t p).1 (fun q hq => PWrite.regIn_sameBut h1.same (hl q (by simp [hq]))) (h1.only.wf hw) (h1.spr hs)
    simp only [List.foldl_cons, h2]
    exact ⟨h1.trans h3, h4⟩

theorem Tile.loopStep_unit {x y : Tile} (h : x.sameUnit y) (hf : flagLM x.flags = false) (pc : Nat) : y.loopStep pc = (y, none) := by
  have e : y.loopEnd pc = false := by
    have : y.flags = x.flags := by rw [h]; rfl
    simp [Tile.loopEnd, this, hf]
  simp [Tile.loopStep, e]

theorem Tile.loopDecide_unit {x y : Tile} {c : Ctl} (h : x.sameUnit y) (hf : flagLM x.flags = false) (pc : BitVec 12)
    (hc : c = .seq ∨ ∃ g, c = .branch g) : y.loopDecide pc c = (y, none) := by
  rcases hc with rfl | ⟨g, rfl⟩ <;> exact Tile.loopStep_unit h hf pc.toNat

/-- With nothing in flight, a slot ends with the instruction's own writes. -/
theorem SlotFrame.slotEnd {w : SlotWrites} (own : List PWrite) (hp : (s.tile t).pipe = []) (hown : ∀ p ∈ own, p.regIn w (s.tile t))
    (hw : SMap.wf Tile.init s.tiles = true) (hs : SMap.rising none (s.tile t).spr = true) : SlotFrame t w s (s.slotEnd t own) := by
  have f : SlotFrame t w s (s.modTile t (fun x => { x with pipe := [] })) := by
    refine SlotFrame.modTile hw ?_ ?_ rfl
    · exact Tile.sameBut_refl _ _
    · exact fun h => h
  obtain ⟨f', hz⟩ := SlotFrame.applyWrites own (fun p h => PWrite.regIn_sameBut f.same (hown p h)) (f.only.wf hw) (f.spr hs)
  unfold State.slotEnd
  simp only [hp, landingNow, stillFlying, List.filter_nil, List.map_nil, List.foldl_nil]
  have e : ∀ u : State, u.applyWrites t [] = (u, 0) := fun _ => rfl
  simp only [e, hz, State.stickies]
  exact f.trans f'

theorem Tile.advance_spr (x : Tile) (b : Option (BitVec 12)) : (x.advance b).spr = x.spr := by
  unfold Tile.advance; dsimp only; split <;> rfl

theorem Tile.advance_launching (x : Tile) (b : Option (BitVec 12)) : (x.advance b).launching = x.launching := by
  unfold Tile.advance; dsimp only; split <;> rfl

theorem Tile.sameBut_advance (x : Tile) (b : Option (BitVec 12)) (w : SlotWrites) : x.sameBut (x.advance b) w := by
  unfold Tile.advance; dsimp only; split <;> exact Tile.sameBut_refl _ _

theorem SlotFrame.control {w : SlotWrites} {c : Ctl} (l : Tile → List PEntry) (z : Tile) (pc : BitVec 12) (hc : c = .seq ∨ ∃ g, c = .branch g)
    (hw : SMap.wf Tile.init s.tiles = true) :
    SlotFrame t w s (s.modTile t (fun x =>
      let y : Tile := { (x.advance none) with pipe := x.pipe ++ l x, yHeld := false }
      y.control z pc c)) := by
  refine SlotFrame.modTile hw ?_ ?_ ?_
  · refine Tile.sameBut_trans (Tile.sameBut_advance _ none w) ?_
    rcases hc with rfl | ⟨g, rfl⟩ <;> exact Tile.sameBut_refl _ _
  · intro h
    rcases hc with rfl | ⟨g, rfl⟩ <;> simp only [Tile.control, Tile.advance_spr] <;> exact h
  · rcases hc with rfl | ⟨g, rfl⟩ <;> simp only [Tile.control, Tile.advance_launching]

/-- A tile that owes no launch: nothing completes with its slot. -/
theorem State.launchIssued_done (h : (s.tile t).launching = false) : s.launchIssued t = s := by
  simp [State.launchIssued, h]

/-- A register instruction's slot on a quiet tile: only the registers of `w`, and the counters of active and issued ic, change. -/
theorem SlotFrame.issueSlot {w : SlotWrites} (e : Eff) (hst : e.st = s) (hsw : e.swap = none) (hc : e.ctl = .seq ∨ ∃ g, e.ctl = .branch g)
    (hown : ∀ p ∈ e.own, p.regIn w (s.tile t)) (hw : SMap.wf Tile.init s.tiles = true) (hs : SMap.rising none (s.tile t).spr = true)
    (hq : (s.tile t).quiet = true) : SlotFrame t w s (s.issueSlot t e) := by
  obtain ⟨hu, hp, hlm, -, hl⟩ := Tile.quiet_unit hq
  obtain ⟨o1, u1, c1⟩ := State.tick_quiet hw hu
  have f1 : SlotFrame t w s (s.tick t) := ⟨o1, fun e h1 _ => c1 e h1, Tile.sameBut_unit u1 w, fun h => by rw [u1]; exact h, by rw [u1]⟩
  have hloop := Tile.loopDecide_unit u1 hlm (s.tile t).pc hc
  have hpipe : ((s.tick t).tile t).pipe = [] := by rw [u1]; exact hp
  unfold State.issueSlot
  simp only [hst, hsw, State.doSwap]
  generalize s.tick t = u at *
  have w1 := f1.only.wf hw
  have f2 := SlotFrame.slotEnd e.own hpipe (fun p h => PWrite.regIn_sameBut f1.same (hown p h)) w1 (f1.spr hs)
  simp only [hloop]
  rw [State.setTile_tile w1]
  have f := ((f1.trans f2).trans (SlotFrame.control 
    (fun x => e.later.map (fun p => { p with left := p.left - 1, word := SMap.get 0 x.pmem (s.tile t).pc.toNat })) (u.tile t) (s.tile t).pc hc (f2.only.wf w1))).trans (SlotFrame.countTile 1 1 (by omega))
  have g := State.launchIssued_done (f.launch.trans hl)
  exact (congrArg (SlotFrame t w s) g).mpr f

end Sys2Proof.Machine
end

