-- ==== Sys2Proof/Laws/Memory.lean ====
section
/-! SUPPORT. Every operation over a memory, a register field, a tile, the HBM contents or the black box keeps the canonical form. -/

namespace Sys2Proof.Machine

variable {s u : State}

/-! ### What the canonical form rests on -/

/-- A state with the same registers, tiles, HBM contents and black box is as canonical. -/
theorem State.memWf_congr (h : s.memWf = true) (hr : u.regs = s.regs) (ht : u.tiles = s.tiles) (hm : u.hbm.mem = s.hbm.mem)
    (hb : u.bbox = s.bbox) : u.memWf = true := by
  simp only [State.memWf, hr, ht, hm, hb] at h ⊢
  exact h

theorem State.memWf_withRegs (h : s.memWf = true) {m : SMap Nat} (hm : SMap.rising none m = true) : ({ s with regs := m } : State).memWf = true := by
  simp only [State.memWf, Bool.and_eq_true] at h ⊢
  exact ⟨⟨⟨⟨hm, h.1.1.1.2⟩, h.1.1.2⟩, h.1.2⟩, h.2⟩

theorem State.memWf_withTiles (h : s.memWf = true) {m : SMap Tile} (hm : SMap.wf Tile.init m = true) (ha : m.all (fun e => e.2.memWf) = true) :
    ({ s with tiles := m } : State).memWf = true := by
  simp only [State.memWf, Bool.and_eq_true] at h ⊢
  exact ⟨⟨⟨⟨h.1.1.1.1, hm⟩, ha⟩, h.1.2⟩, h.2⟩

theorem State.memWf_withMem (h : s.memWf = true) {m : HbmSt} (hm : SMap.wf none m.mem = true) : ({ s with hbm := m } : State).memWf = true := by
  simp only [State.memWf, Bool.and_eq_true] at h ⊢
  exact ⟨⟨h.1.1, hm⟩, h.2⟩

theorem State.memWf_withBbox (h : s.memWf = true) {m : SMap (List Byte)} (hm : SMap.wf [] m = true) : ({ s with bbox := m } : State).memWf = true := by
  simp only [State.memWf, Bool.and_eq_true] at h ⊢
  exact ⟨h.1, hm⟩

/-- A property that one step of a fold keeps, the fold keeps. -/
theorem foldl_keeps {α β : Type} {p : β → Prop} {f : β → α → β} (hf : ∀ b a, p b → p (f b a)) (l : List α) {b : β} (h : p b) : p (l.foldl f b) := by
  induction l generalizing b with
  | nil => exact h
  | cons a r ih => exact ih (hf b a h)

/-! ### Register fields, reports, counters -/

theorem State.memWf_setF (h : s.memWf = true) (f : Fld) (v i j : Nat) : (setF s f v i j).memWf = true :=
  State.memWf_withRegs h (SMap.rising_set _ _ _ _ (State.memWf_regs h))

theorem State.memWf_bumpF (h : s.memWf = true) (f : Fld) (n i j : Nat) : (bumpF s f n i j).memWf = true := State.memWf_setF h _ _ _ _

theorem State.memWf_setFbit (h : s.memWf = true) (f : Fld) (b : Nat) (v : Bool) (i j : Nat) : (setFbit s f b v i j).memWf = true :=
  State.memWf_setF h _ _ _ _

theorem State.memWf_drawn (h : s.memWf = true) : s.drawn.memWf = true := State.memWf_congr h rfl rfl rfl rfl
theorem State.memWf_emit (h : s.memWf = true) (k : OutKind) (l : List Nat) (b : List Byte) : (s.emit k l b).memWf = true :=
  State.memWf_congr h rfl rfl rfl rfl
theorem State.memWf_setCtr (h : s.memWf = true) (e v : Nat) : (s.setCtr e v).memWf = true := State.memWf_congr h rfl rfl rfl rfl
theorem State.memWf_count (h : s.memWf = true) (e n : Nat) : (s.count e n).memWf = true := State.memWf_setCtr h _ _
theorem State.memWf_countTile (h : s.memWf = true) (t c n : Nat) : (s.countTile t c n).memWf = true := State.memWf_count h _ _
theorem State.memWf_countRouter (h : s.memWf = true) (t c n : Nat) : (s.countRouter t c n).memWf = true := State.memWf_count h _ _

theorem State.memWf_sendVector (h : s.memWf = true) (v : Nat) : (s.sendVector v).memWf = true := by
  unfold State.sendVector
  split
  · split
    · exact State.memWf_congr h rfl rfl rfl rfl
    · exact State.memWf_emit h _ _ _
  · exact h

theorem State.memWf_raise (h : s.memWf = true) (v : Nat) : (s.raise v).memWf = true := by
  unfold State.raise
  split
  · exact h
  · exact State.memWf_sendVector (State.memWf_setFbit h _ _ _ _ _) _

theorem State.memWf_report (h : s.memWf = true) (ty n : Nat) (l : List Byte) : (s.report ty n l).memWf = true := by
  unfold State.report
  dsimp only
  split
  · exact State.memWf_congr h rfl rfl rfl rfl
  · exact State.memWf_bumpF (State.memWf_congr h rfl rfl rfl rfl) _ _ _ _

theorem State.memWf_logErr (h : s.memWf = true) (k m a v : Nat) : (s.logErr k m a v).memWf = true := by
  unfold State.logErr
  dsimp only
  generalize List.drop _ _ = l
  refine State.memWf_setF (?_ : ({ s with errLog := l } : State).memWf = true) _ _ _ _
  exact State.memWf_congr h rfl rfl rfl rfl

/-! ### Tiles -/

theorem State.memWf_setTile (h : s.memWf = true) (t : Nat) {x : Tile} (hx : x.memWf = true) : (s.setTile t x).memWf = true := by
  refine State.memWf_withTiles h (SMap.wf_set _ _ _ _ (State.memWf_tiles h)) ?_
  have ha : s.tiles.all (fun e => e.2.memWf) = true := by
    simp only [State.memWf, Bool.and_eq_true] at h
    exact h.1.1.2
  generalize s.tiles = m at ha
  induction m with
  | nil =>
    simp only [SMap.set]
    split <;> simp [hx]
  | cons e r ih =>
    simp only [List.all_cons, Bool.and_eq_true] at ha
    simp only [SMap.set]
    split
    · split <;> simp only [List.all_cons, ha.2, hx, Bool.and_self]
    · split
      · split <;> simp only [List.all_cons, ha.1, ha.2, hx, Bool.and_self]
      · simp only [List.all_cons, ha.1, ih ha.2, Bool.and_self]

theorem State.memWf_modTile (h : s.memWf = true) (t : Nat) {f : Tile → Tile} (hf : ∀ x : Tile, x.memWf = true → (f x).memWf = true) :
    (s.modTile t f).memWf = true := State.memWf_setTile h t (hf _ (State.memWf_tile h t))

/-- Tiles changed all together. -/
theorem State.memWf_mapTiles (h : s.memWf = true) {f : Nat → Tile → Tile} (hf : ∀ n (x : Tile), x.memWf = true → (f n x).memWf = true) :
    ({ s with tiles := SMap.mapAll Tile.init f s.tiles } : State).memWf = true := by
  refine State.memWf_withTiles h (SMap.wf_mapAll _ _ _ (State.memWf_tiles h)) ?_
  simp only [State.memWf, Bool.and_eq_true] at h
  have ha := h.1.1.2
  simp only [List.all_eq_true] at ha ⊢
  intro e he
  obtain ⟨e', he', rfl⟩ := List.mem_map.mp (List.mem_filter.mp he).1
  exact hf _ _ (ha e' he')

theorem Tile.memWf_parts {x : Tile} : x.memWf = true ↔ SMap.wf 0 x.pmem = true ∧ SMap.wf 0 x.os = true ∧ SMap.wf 0 x.lining = true
    ∧ SMap.wf 0 x.gpr = true ∧ SMap.wf 0 x.vreg = true ∧ SMap.wf 0 x.spr = true := by
  simp only [Tile.memWf, Bool.and_eq_true, and_assoc]

theorem Tile.memWf_congr {x y : Tile} (h : x.memWf = true) (hp : y.pmem = x.pmem) (ho : y.os = x.os) (hl : y.lining = x.lining)
    (hg : y.gpr = x.gpr) (hv : y.vreg = x.vreg) (hs : y.spr = x.spr) : y.memWf = true := by
  simp only [Tile.memWf, hp, ho, hl, hg, hv, hs] at h ⊢
  exact h

theorem Tile.memWf_setGen {x : Tile} (h : x.memWf = true) (c : Nat) (v : Word) : (x.setGen c v).memWf = true := by
  rw [Tile.memWf_parts] at h ⊢
  exact ⟨h.1, h.2.1, h.2.2.1, SMap.wf_set _ _ _ _ h.2.2.2.1, h.2.2.2.2.1, h.2.2.2.2.2⟩

theorem Tile.memWf_setVec {x : Tile} (h : x.memWf = true) (n : Nat) (v : Line) : (x.setVec n v).memWf = true := by
  rw [Tile.memWf_parts] at h ⊢
  exact ⟨h.1, h.2.1, h.2.2.1, h.2.2.2.1, SMap.wf_set _ _ _ _ h.2.2.2.2.1, h.2.2.2.2.2⟩

theorem Tile.memWf_setSprRaw {x : Tile} (h : x.memWf = true) (c : Nat) (v : Word) : (x.setSprRaw c v).memWf = true := by
  rw [Tile.memWf_parts] at h ⊢
  exact ⟨h.1, h.2.1, h.2.2.1, h.2.2.2.1, h.2.2.2.2.1, SMap.wf_set _ _ _ _ h.2.2.2.2.2⟩

/-! ### Operand store, program memory, lining -/

theorem Tile.memWf_withOs {x : Tile} (h : x.memWf = true) {m : Mem} (hm : SMap.wf 0 m = true) : ({ x with os := m } : Tile).memWf = true := by
  rw [Tile.memWf_parts] at h ⊢
  exact ⟨h.1, hm, h.2.2⟩

theorem Tile.memWf_withPmem {x : Tile} (h : x.memWf = true) {m : SMap DWord} (hm : SMap.wf 0 m = true) : ({ x with pmem := m } : Tile).memWf = true := by
  rw [Tile.memWf_parts] at h ⊢
  exact ⟨hm, h.2⟩

theorem Tile.memWf_withLining {x : Tile} (h : x.memWf = true) {m : Mem} (hm : SMap.wf 0 m = true) : ({ x with lining := m } : Tile).memWf = true := by
  rw [Tile.memWf_parts] at h ⊢
  exact ⟨h.1, h.2.1, hm, h.2.2.2⟩

theorem Tile.memWf_osStore {x : Tile} (h : x.memWf = true) (a : Nat) (l : List Byte) : (x.osStore a l).memWf = true :=
  Tile.memWf_congr (Tile.memWf_withOs h (Mem.wf_store 0 x.os a l (Tile.memWf_parts.mp h).2.1)) rfl rfl rfl rfl rfl rfl

theorem Tile.memWf_osStoreLine {x : Tile} (h : x.memWf = true) (a : Nat) (v : Line) : (x.osStoreLine a v).memWf = true := Tile.memWf_osStore h _ _

theorem Tile.memWf_checkLcv {x : Tile} (h : x.memWf = true) : x.checkLcv.memWf = true := Tile.memWf_setSprRaw h _ _

theorem Tile.memWf_pmemStore {x : Tile} (h : x.memWf = true) (a : Nat) (v : DWord) : (x.pmemStore a v).memWf = true :=
  Tile.memWf_checkLcv (Tile.memWf_congr (Tile.memWf_withPmem h (SMap.wf_set 0 x.pmem a v (Tile.memWf_parts.mp h).1)) rfl rfl rfl rfl rfl rfl)

theorem Tile.memWf_linStore {x : Tile} (h : x.memWf = true) (a : Nat) (v : Line) : (x.linStore a v).memWf = true :=
  Tile.memWf_congr (Tile.memWf_withLining h (Mem.wf_store 0 x.lining a (leBytes 128 v.toNat) (Tile.memWf_parts.mp h).2.2.1)) rfl rfl rfl rfl rfl rfl

theorem State.memWf_eccRead (h : s.memWf = true) (m : Nat) : (s.eccRead m).1.memWf = true := by
  unfold State.eccRead
  split <;> try exact h
  split <;> exact State.memWf_drawn h

theorem State.memWf_hwEvent (h : s.memWf = true) (t n : Nat) : (s.hwEvent t n).memWf = true := by
  unfold State.hwEvent
  refine State.memWf_modTile (State.memWf_countTile h _ _ _) t (fun x hx => ?_)
  exact Tile.memWf_congr hx rfl rfl rfl rfl rfl rfl

theorem State.memWf_armFreeze (h : s.memWf = true) (b m : Nat) : (s.armFreeze b m).memWf = true := by
  unfold State.armFreeze
  split
  · exact State.memWf_congr h rfl rfl rfl rfl
  · exact h

theorem State.memWf_reportHard (h : s.memWf = true) (n : Nat) (l : List Byte) : (s.reportHard n l).memWf = true :=
  State.memWf_armFreeze (State.memWf_report h _ _ _) _ _

theorem State.memWf_hwReport (h : s.memWf = true) (t m w : Nat) : (s.hwReport t m w).memWf = true := by
  unfold State.hwReport
  exact State.memWf_reportHard (State.memWf_countTile h _ _ _) _ _

theorem State.memWf_hwUncorr (h : s.memWf = true) (t m w : Nat) : (s.hwUncorr t m w).memWf = true := by
  unfold State.hwUncorr
  refine State.memWf_hwReport (State.memWf_modTile h t (fun x hx => ?_)) _ _ _
  exact Tile.memWf_congr hx rfl rfl rfl rfl rfl rfl

theorem State.memWf_osTouch (h : s.memWf = true) (t w : Nat) : (s.osTouch t w).1.memWf = true := by
  unfold State.osTouch
  have he := State.memWf_eccRead h (SMap.get 0 (s.tile t).osErr w)
  dsimp only
  split
  · refine State.memWf_hwEvent (State.memWf_bumpF (State.memWf_modTile he t ?_) _ _ _ _) _ _
    intro x hx
    have ho := (Tile.memWf_parts.mp hx).2.1
    generalize (s.eccRead (SMap.get 0 (s.tile t).osErr w)).2.2 = o
    cases o with
    | none => exact Tile.memWf_congr hx rfl rfl rfl rfl rfl rfl
    | some v => exact Tile.memWf_congr (Tile.memWf_withOs hx (Mem.wf_store 0 x.os (8 * w) (leBytes 8 v.toNat) ho)) rfl rfl rfl rfl rfl rfl
  · exact he
  · exact he

theorem State.memWf_osTouchN (h : s.memWf = true) (t w n : Nat) : (State.osTouchN t w n s).1.memWf = true := by
  induction n generalizing s with
  | zero => exact h
  | succ n ih => exact State.memWf_osTouch (ih h) _ _

theorem State.memWf_osWord (h : s.memWf = true) (t a : Nat) : (s.osWord t a).1.memWf = true := by
  unfold State.osWord
  dsimp only
  exact State.memWf_osTouch h _ _

theorem State.memWf_osPLine (h : s.memWf = true) (t a : Nat) : (s.osPLine t a).1.memWf = true := by
  unfold State.osPLine
  dsimp only
  exact State.memWf_osTouchN h _ _ _

theorem State.memWf_osLine (h : s.memWf = true) (t a : Nat) : (s.osLine t a).1.memWf = true := by
  unfold State.osLine
  dsimp only
  exact State.memWf_osPLine h _ _

theorem State.memWf_osStreamLine (h : s.memWf = true) (t a : Nat) : (s.osStreamLine t a).1.memWf = true := by
  unfold State.osStreamLine
  dsimp only
  have ho := State.memWf_osPLine h t a
  generalize (s.osPLine t a).1 = v at ho
  refine foldl_keeps (p := fun s : State => s.memWf = true) (fun u i hu => ?_) _ ho
  split
  · exact State.memWf_hwUncorr hu _ _ _
  · exact hu

theorem State.memWf_osStoreWord (h : s.memWf = true) (t a : Nat) (v : Word) : (s.osStoreWord t a v).memWf = true := by
  unfold State.osStoreWord
  dsimp only
  have hf (n : Nat) (x : Tile) (hx : x.memWf = true) :
      ({ x with os := Mem.store 0 x.os a (leBytes 4 v.toNat), osErr := SMap.set 0 x.osErr (a / 8) n } : Tile).memWf = true := by
    have hp := Tile.memWf_withOs hx (Mem.wf_store 0 x.os a (leBytes 4 v.toNat) (Tile.memWf_parts.mp hx).2.1)
    exact Tile.memWf_congr hp rfl rfl rfl rfl rfl rfl
  have ht := State.memWf_osTouch h t (a / 8)
  split
  · exact State.memWf_hwReport (State.memWf_modTile ht t (hf 2)) _ _ _
  · exact State.memWf_modTile ht t (hf 0)

theorem State.memWf_pmemFetch (h : s.memWf = true) (t a : Nat) : (s.pmemFetch t a).1.memWf = true := by
  unfold State.pmemFetch
  have he := State.memWf_eccRead h (SMap.get 0 (s.tile t).pmemErr a)
  dsimp only
  split
  · refine State.memWf_hwEvent (State.memWf_bumpF (State.memWf_modTile he t ?_) _ _ _ _) _ _
    intro x hx
    have ho := (Tile.memWf_parts.mp hx).1
    generalize (s.eccRead (SMap.get 0 (s.tile t).pmemErr a)).2.2 = o
    cases o with
    | none => exact Tile.memWf_congr hx rfl rfl rfl rfl rfl rfl
    | some v => exact Tile.memWf_congr (Tile.memWf_withPmem hx (SMap.wf_set 0 x.pmem a v ho)) rfl rfl rfl rfl rfl rfl
  · exact he
  · exact he

theorem State.memWf_linTouch (h : s.memWf = true) (t w : Nat) : (s.linTouch t w).1.memWf = true := by
  unfold State.linTouch
  have he := State.memWf_eccRead h (SMap.get 0 (s.tile t).liningErr w)
  dsimp only
  split
  · refine State.memWf_hwEvent (State.memWf_bumpF (State.memWf_setF (State.memWf_modTile he t ?_) _ _ _ _) _ _ _ _) _ _
    intro x hx
    have ho := (Tile.memWf_parts.mp hx).2.2.1
    generalize (s.eccRead (SMap.get 0 (s.tile t).liningErr w)).2.2 = o
    cases o with
    | none => exact Tile.memWf_congr hx rfl rfl rfl rfl rfl rfl
    | some v => exact Tile.memWf_congr (Tile.memWf_withLining hx (Mem.wf_store 0 x.lining (8 * w) (leBytes 8 v.toNat) ho)) rfl rfl rfl rfl rfl rfl
  · exact State.memWf_hwUncorr (State.memWf_bumpF (State.memWf_setF he _ _ _ _) _ _ _ _) _ _ _
  · exact he

theorem State.memWf_linTouchN (h : s.memWf = true) (t w n : Nat) : (State.linTouchN t w n s).1.memWf = true := by
  induction n generalizing s with
  | zero => exact h
  | succ n ih => exact State.memWf_linTouch (ih h) _ _

theorem State.memWf_linPLine (h : s.memWf = true) (t a : Nat) (d : Bool) : (s.linPLine t a d).1.memWf = true := by
  unfold State.linPLine
  dsimp only
  refine State.memWf_linTouchN ?_ _ _ _
  split
  · exact State.memWf_countTile h _ _ _
  · exact h

theorem State.memWf_linStoreLine (h : s.memWf = true) (t a : Nat) (v : Line) : (s.linStoreLine t a v).memWf = true :=
  State.memWf_modTile (State.memWf_countTile h _ _ _) t (fun _ hx => Tile.memWf_linStore hx _ _)

theorem State.memWf_traceDrop (h : s.memWf = true) (t n : Nat) : (s.traceDrop t n).memWf = true := by
  have hd := State.memWf_modTile (State.memWf_countTile h t 15 n) t (f := fun x => { x with traceLost := x.traceLost + n }) (by
    intro x hx
    exact Tile.memWf_congr hx rfl rfl rfl rfl rfl rfl)
  unfold State.traceDrop
  dsimp only
  split
  · exact hd
  · exact State.memWf_raise (State.memWf_setF hd _ _ _ _) _

theorem State.memWf_trace (h : s.memWf = true) (t k c : Nat) (d : Word) : (s.trace t k c d).memWf = true := by
  have hx (l : List (BitVec 128)) : ({ s.tile t with trace := l, traceLost := 0 } : Tile).memWf = true :=
    Tile.memWf_congr (State.memWf_tile h t) rfl rfl rfl rfl rfl rfl
  unfold State.trace
  dsimp only
  generalize (if (s.tile t).traceLost = 0 then ([] : List (BitVec 128)) else _) = lost
  repeat' split
  · exact State.memWf_traceDrop h _ _
  · exact State.memWf_traceDrop (State.memWf_setTile h t (hx _)) _ _
  · exact State.memWf_setTile h t (hx _)
  · exact h

/-! ### HBM -/

theorem storeOpt_wf (m : SMap (Option Byte)) (k : Nat) (l : List Byte) (h : SMap.wf none m = true) : SMap.wf none (storeOpt m k l) = true := by
  induction l generalizing m k with
  | nil => exact h
  | cons b r ih => exact ih _ _ (SMap.wf_set _ _ _ _ h)

/-- The HBM state changed beside its contents. -/
theorem State.memWf_sameMem (h : s.memWf = true) {m : HbmSt} (hm : m.mem = s.hbm.mem) : ({ s with hbm := m } : State).memWf = true :=
  State.memWf_congr h rfl rfl hm rfl

theorem State.memWf_bumpChF (h : s.memWf = true) (f : Fld) (c : Nat) : (s.bumpChF f c).memWf = true := State.memWf_bumpF h _ _ _ _

theorem State.memWf_sectDue (h : s.memWf = true) (l : List Nat) : (s.sectDue l).memWf = true := by
  unfold State.sectDue
  generalize List.filter _ l = new
  by_cases e : new = []
  · simp only [e, if_true]; exact h
  · simp only [e, if_false]
    have h' : ({ s with hbm := { s.hbm with due := s.hbm.due ++ new } } : State).memWf = true := State.memWf_sameMem h rfl
    exact State.memWf_raise (State.memWf_reportHard h' _ _) _

theorem State.memWf_hbmUncorr (h : s.memWf = true) (c : Nat) : (s.hbmUncorr c).memWf = true :=
  State.memWf_report (State.memWf_bumpChF (State.memWf_bumpChF h _ _) _ _) _ _ _

theorem State.memWf_setMark (h : s.memWf = true) (w m : Nat) : (s.setMark w m).memWf = true := State.memWf_sameMem h rfl

theorem State.memWf_hbmIssue (h : s.memWf = true) (c : Nat) : (s.hbmIssue c).1.memWf = true := by
  have h' : ∀ m n, ({ s with hbm := { s.hbm with caErr := m, parity := n } } : State).memWf = true := fun _ _ => State.memWf_sameMem h rfl
  unfold State.hbmIssue
  split
  · exact h
  · dsimp only
    split
    · exact h' _ _
    · exact State.memWf_sectDue (State.memWf_report (State.memWf_bumpChF (h' _ _) _ _) _ _ _) _

theorem State.memWf_hbmRequest (h : s.memWf = true) (a w : Nat) : (s.hbmRequest a w).1.memWf = true :=
  State.memWf_hbmIssue (State.memWf_count h _ _) _

theorem State.memWf_hbmWord (h : s.memWf = true) (w : Nat) : (s.hbmWord w).1.memWf = true := by
  have h2 : ∀ m n, ({ s with hbm := { s.hbm with err := m, events := n } } : State).memWf = true := fun _ _ => State.memWf_sameMem h rfl
  have h3 : ∀ l, ({ s with hbm := { s.hbm with mem := storeOpt s.hbm.mem (8 * w) l } } : State).memWf = true := fun _ =>
    State.memWf_withMem h (storeOpt_wf _ _ _ (State.memWf_hbm h))
  unfold State.hbmWord
  generalize 8 * w / 4096 / 49152 = g
  dsimp only
  generalize sectCtl g = c
  split
  · exact h
  · exact State.memWf_bumpChF (State.memWf_setMark h _ _) _ _
  · exact State.memWf_hbmUncorr (h2 _ _) _
  · split
    · exact State.memWf_sectDue (State.memWf_hbmUncorr (State.memWf_drawn h) _) _
    · exact State.memWf_drawn h
    · exact State.memWf_drawn (State.memWf_bumpChF (State.memWf_setMark (h3 _) _ _) _ _)
  · exact State.memWf_sectDue (State.memWf_hbmUncorr h _) _

theorem State.memWf_hbmWords (h : s.memWf = true) (a n : Nat) : (s.hbmWords a n).1.memWf = true := by
  unfold State.hbmWords
  split
  · exact h
  · refine foldl_keeps (p := fun q : State × Bool => q.1.memWf = true) ?_ _ ?_
    · exact fun _ _ hq => State.memWf_hbmWord hq _
    · exact h

theorem State.memWf_hbmRead (h : s.memWf = true) (a n : Nat) : (s.hbmRead a n).1.memWf = true := by
  unfold State.hbmRead
  refine foldl_keeps (p := fun q : State × Bool => q.1.memWf = true) ?_ _ ?_
  · exact fun _ _ hq => State.memWf_hbmWords (State.memWf_hbmRequest hq _ _) _ _
  · exact h

theorem State.memWf_freshWords (h : s.memWf = true) (a n : Nat) : (s.freshWords a n).memWf = true := by
  unfold State.freshWords
  dsimp only
  split
  · exact h
  · refine foldl_keeps (p := fun s : State => s.memWf = true) (fun u w hu => ?_) _ h
    split
    · split
      · split
        · exact State.memWf_drawn hu
        · exact State.memWf_drawn (State.memWf_setMark hu _ _)
      · exact State.memWf_setMark hu _ _
    · exact hu

theorem State.memWf_hbmStore (h : s.memWf = true) (a : Nat) (l : List Byte) : (s.hbmStore a l).memWf = true :=
  foldl_keeps (p := fun s : State => s.memWf = true)
    (fun _ _ hu => State.memWf_freshWords (State.memWf_withMem hu (storeOpt_wf _ _ _ (State.memWf_hbm hu))) _ _) _ h

theorem State.memWf_hbmAccept (h : s.memWf = true) (a n : Nat) : (s.hbmAccept a n).memWf = true :=
  foldl_keeps (p := fun s : State => s.memWf = true) (fun _ _ hu => State.memWf_hbmRequest hu _ _) _ h

theorem State.memWf_hbmWrite (h : s.memWf = true) (a : Nat) (l : List Byte) : (s.hbmWrite a l).memWf = true :=
  State.memWf_hbmStore (State.memWf_hbmAccept h _ _) _ _

theorem State.memWf_setTrk (h : s.memWf = true) (c : Nat) (l : List Trk) : (s.setTrk c l).memWf = true :=
  State.memWf_setF (State.memWf_congr h rfl rfl rfl rfl) _ _ _ _

theorem State.memWf_hbmLose (h : s.memWf = true) (p : Nat → Bool) : (s.hbmLose p).memWf = true := by
  unfold State.hbmLose
  exact State.memWf_withMem h (SMap.wf_keep none (fun k => !p k) s.hbm.mem (State.memWf_hbm h))

theorem State.memWf_hbmAnswer (h : s.memWf = true) (e : Trk) (p : Bool) : (s.hbmAnswer e p).memWf = true := by
  unfold State.hbmAnswer
  split
  · exact h
  · exact State.memWf_emit h _ _ _

theorem State.memWf_hbmDrain (h : s.memWf = true) : s.hbmDrain.memWf = true :=
  foldl_keeps (p := fun s : State => s.memWf = true) (fun _ _ hu => State.memWf_setTrk
    (foldl_keeps (p := fun s : State => s.memWf = true) (fun _ _ hv => State.memWf_hbmAnswer hv _ _) _ hu) _ _) _ h

theorem State.memWf_selfRefresh (h : s.memWf = true) (b : Bool) : (s.selfRefresh b).memWf = true := by
  refine foldl_keeps (p := fun s : State => s.memWf = true) (fun _ _ hu => State.memWf_setF hu _ _ _ _) _ ?_
  split
  · exact State.memWf_hbmDrain h
  · exact h

/-! ### The black box -/

theorem State.memWf_bbCommit (h : s.memWf = true) (ty n : Nat) (l : List Byte) : (s.bbCommit ty n l).memWf = true :=
  State.memWf_drawn (State.memWf_setF (State.memWf_setF (State.memWf_congr (State.memWf_withBbox h
    (SMap.wf_set _ _ _ _ (SMap.wf_set _ _ _ _ (State.memWf_bbox h)))) rfl rfl rfl rfl) _ _ _ _) _ _ _ _)

end Sys2Proof.Machine
end

