-- ==== Sys2Proof/Laws/Network.lean ====
section
/-! SUPPORT. What a turn of a network output does (R193, R195): the one contender is granted, and leaves. -/

namespace Sys2Proof.Machine
variable {s : State} {f : Flight}

/-- An output with one contender grants it (R193). -/
theorem State.granted_one {o : Nat} (h1 : 1 ≤ f.msg.h.cls) (h2 : f.msg.h.cls ≤ 3) (hv : f.via < 10) : s.granted f.pos o [f] = some f := by
  have hc : grantClass (s.link f.pos o) (fun c => decide (f.msg.h.cls = c)) = f.msg.h.cls := by
    have : f.msg.h.cls = 1 ∨ f.msg.h.cls = 2 ∨ f.msg.h.cls = 3 := by omega
    rcases this with e | e | e <;> simp [grantClass, e]
  have key (k : Nat) : (List.range 10).findSome? (fun i => [f].find? (fun g => decide (g.via = (k + 1 + i) % 10))) = some f := by
    have h : ∃ i, i ∈ List.range 10 ∧ f.via = (k + 1 + i) % 10 := ⟨(f.via + 10 - (k + 1) % 10) % 10, by simp; omega, by omega⟩
    obtain ⟨i, hi, e⟩ := h
    cases h : (List.range 10).findSome? (fun i => [f].find? (fun g => decide (g.via = (k + 1 + i) % 10))) with
    | none =>
      have := List.findSome?_eq_none_iff.mp h i hi
      simp [e] at this
    | some g =>
      obtain ⟨j, -, hj⟩ := List.exists_of_findSome?_eq_some h
      have := List.mem_of_find?_eq_some hj
      simp at this; rw [this]
  unfold State.granted
  dsimp only
  split
  · rename_i g hg
    obtain ⟨j, -, hj⟩ := List.exists_of_findSome?_eq_some hg
    have := List.mem_of_find?_eq_some hj
    simp at this; rw [this]
  · simp only [List.any_cons, List.any_nil, Bool.or_false, hc]
    simpa using key _

/-- The message that an output grants alone leaves by it: out of the network, or to the next router, where it goes on. -/
theorem State.carry_granted {n : Nat} {h : Hop} {ds : List Nat} (h1 : 1 ≤ f.msg.h.cls) (h2 : f.msg.h.cls ≤ 3) (hv : f.via < 10)
    (hi : s.inFront f = none) (hc : s.cull f = (s, f)) (hd : f.dsts ≠ []) (hw : s.wayOut f = some (h, ds)) (hb : s.branch f h.out = (some h, ds))
    (hl : s.contenders f.pos h.out = [f]) :
    State.carry (n + 1) s f = if h.out = 8 then s.eject f ds else State.carry n (s.cross f h ds).1 (s.cross f h ds).2 := by
  have g : s.grantTurn f.pos h.out = if h.out = 8 then (s.eject f ds, some (f, none)) else ((s.cross f h ds).1, some (f, some (s.cross f h ds).2)) := by
    simp [State.grantTurn, hl, State.granted_one h1 h2 hv, hb]
  rw [State.carry]
  simp only [hi, hc, hd, if_false, hw, g]
  by_cases e : h.out = 8 <;> simp [e]

/-- The hop of a way out is the hop of that output's branch. -/
theorem State.wayOut_branch {h : Hop} {ds : List Nat} (hw : s.wayOut f = some (h, ds)) : s.branch f h.out = (some h, ds) := by
  obtain ⟨o, -, ho⟩ := List.exists_of_findSome?_eq_some hw
  have e : s.branch f o = (some h, ds) := by
    split at ho
    · split at ho
      · cases ho; assumption
      · cases ho
    · cases ho
  have : h.out = o := by
    have e1 := congrArg (·.1) e
    simp only [State.branch] at e1
    obtain ⟨d, hd, hn⟩ := Option.bind_eq_some_iff.mp e1
    have := List.mem_of_mem_head? hd
    simp [hn] at this; exact this.2
  rw [this]; exact e

end Sys2Proof.Machine
end

