-- ==== Sys2Proof/WellFormed.lean ====
section
/-! DEFINITION. What a command's operands must satisfy beyond their types. The meanings are total and do not rest on it; it says which
commands the outside can form. -/

namespace Sys2Proof

open Machine

/-- A BAR0 access of 4 bytes stands at a multiple of 4, one of 8 bytes at a multiple of 8 (R7, R374). -/
def barAligned (addr : Bar0Addr) (wide : Bool) : Bool := decide (addr.toNat % (if wide then 8 else 4) = 0)

/-- A write to the intake aperture: words at their natural place inside BAR4 (R223, R377). -/
def intakeOk (off : BitVec 22) (words : List Word) : Bool :=
  decide (off.toNat % 4 = 0) && !words.isEmpty && decide (off.toNat + 4 * words.length ≤ 2 ^ 22)

/-- A request of 64 bytes at a multiple of 64, with 64 bytes of data if it is a write (R277). -/
def hbmReqOk (r : HbmReq) : Bool := decide (r.addr.toNat % 64 = 0) && decide (r.data.length = if r.write then 64 else 0)

/-- Well-formed commands. A tile instruction is one whose word is no reserved encoding (R128). -/
def Instr.wf (i : Instr) : Bool :=
  legalTile i && match i with
  | .registerWrite a w _ => barAligned a w
  | .rcRead a w => barAligned a w
  | .lowerHalfRead a => barAligned a false
  | .upperHalfRead a => barAligned a false
  | .lowerHalfWrite a _ => barAligned a false
  | .upperHalfWrite a _ => barAligned a false
  | .intakeWrite off words _ _ => intakeOk off words
  | .hbmRequestAccept r => hbmReqOk r
  | .mpWriteData _ bytes => decide (bytes.length = 64)
  | .configRequest _ off _ _ => decide (off.toNat % 4 = 0)
  | .doeRequest bytes => decide (bytes.length % 4 = 0) && !bytes.isEmpty
  | .challenge _ nonce => decide (nonce.length = 32)
  | .getMeasurements _ sign nonce => decide (nonce.length = if sign then 32 else 0)
  | .thermalSensorRead temps => decide (temps.length = 64)
  | .localDroop unit _ stretch => decide (unit < 2074) && decide (stretch ≤ 16)
  | .powerCapUpdate _ step => decide (1 ≤ step)
  | .supplyWarning rail _ => decide (rail ≤ 2)
  | .supplyFault rail _ => decide (rail ≤ 6)
  | _ => true

end Sys2Proof
end

