-- ==== Sys2Proof/Tests/Slice0.lean ====
section
/-! SUPPORT. Small tests of this model: an ill-formed command for every check, instruction words written out from the encodings of the spec, reset
values, and, for every statement with hypotheses, a state and operands that meet them. -/

namespace Sys2Proof.Tests

set_option Elab.async false

open Sys2Proof Sys2Proof.Machine

/-! ### Well-formedness: one ill-formed command for each check -/

theorem test_wf_legal : Instr.wf (.br 0 13 0) = false ∧ Instr.wf (.br 0 12 0) = true := by decide
theorem test_wf_bar0_word : Instr.wf (.registerWrite 2 false 0) = false ∧ Instr.wf (.registerWrite 4 true 0) = false := by decide
theorem test_wf_bar0_read : Instr.wf (.rcRead 2 false) = false ∧ Instr.wf (.rcRead 4 false) = true := by decide
theorem test_wf_halves : Instr.wf (.lowerHalfRead 1) = false ∧ Instr.wf (.upperHalfRead 2) = false
    ∧ Instr.wf (.lowerHalfWrite 3 0) = false ∧ Instr.wf (.upperHalfWrite 1 0) = false := by decide
theorem test_wf_intake : Instr.wf (.intakeWrite 2 [0] false false) = false ∧ Instr.wf (.intakeWrite 0 [] false false) = false
    ∧ Instr.wf (.intakeWrite 0x3FFFFC [0, 0] false false) = false ∧ Instr.wf (.intakeWrite 0x3FFFFC [0] false false) = true := by decide
theorem test_wf_hbm : Instr.wf (.hbmRequestAccept ⟨0, false, 1, []⟩) = false ∧ Instr.wf (.hbmRequestAccept ⟨0, true, 64, []⟩) = false
    ∧ Instr.wf (.hbmRequestAccept ⟨0, false, 64, []⟩) = true := by decide
theorem test_wf_mp : Instr.wf (.mpWriteData 0 []) = false := by decide
theorem test_wf_config : Instr.wf (.configRequest false 2 0 0) = false := by decide
theorem test_wf_doe : Instr.wf (.doeRequest []) = false ∧ Instr.wf (.doeRequest [1]) = false := by decide
theorem test_wf_challenge : Instr.wf (.challenge 0 []) = false := by decide
theorem test_wf_measurements : Instr.wf (.getMeasurements 1 true []) = false ∧ Instr.wf (.getMeasurements 1 false []) = true := by decide
theorem test_wf_sensors : Instr.wf (.thermalSensorRead [50]) = false := by decide
theorem test_wf_droop : Instr.wf (.localDroop 2074 0 1) = false ∧ Instr.wf (.localDroop 2073 0 17) = false ∧ Instr.wf (.localDroop 2073 0 16) = true := by
  decide
theorem test_wf_cap : Instr.wf (.powerCapUpdate 100 0) = false := by decide
theorem test_wf_rail : Instr.wf (.supplyWarning 3 700) = false ∧ Instr.wf (.supplyFault 7 630) = false := by decide

/-! ### Instruction words, bit by bit from the encodings of R128 to R161 -/

/-- `halt`: OPC 0x01. -/
theorem test_word_halt : decodeTile 5 0x0100000000000000 = some (.halt 5) := by decide
/-- `br` when not equal (COND 2) to 0x123: OPC 0x03, COND in 55..52, TARGET in 43..32. -/
theorem test_word_br : decodeTile 0 (0x03#8 ++ 2#4 ++ 0#8 ++ 0x123#12 ++ 0#32) = some (.br 0 2 0x123) := by decide
/-- `rep` with a count of 7 and END 0x0FF: OPC 0x06, CS bit 55, REG 54..51, END 43..32, IMM 31..0. -/
theorem test_word_rep : decodeTile 0 (0x06#8 ++ 0#1 ++ 0#4 ++ 0#7 ++ 0x0FF#12 ++ 7#32) = some (.rep 0 false 0 0x0FF 7) := by decide
/-- `add s3, s4, -1`: OPC 0x10, D 55..50, A 49..44, B 43..38, I 37. -/
theorem test_word_add : decodeTile 0 (0x10#8 ++ 3#6 ++ 4#6 ++ 0#6 ++ 1#1 ++ 0#5 ++ 0xFFFFFFFF#32)
    = some (.add 0 ⟨3, 4, 0, true, 0xFFFFFFFF⟩) := by decide
/-- `st m7` through p2 with post-modification by m3 (AM 2): OPC 0x21, R 55..50, AM 48..47, PTR 46..44, MOD 43..41. -/
theorem test_word_st : decodeTile 0 (0x21#8 ++ 0x1F#6 ++ 0#1 ++ 2#2 ++ 2#3 ++ 3#3 ++ 0#9 ++ 0#32) = some (.st 0 0x1F ⟨2, 2, 3, 0⟩) := by decide
/-- `vfma.f32 v1, v2, v3, v4`: OPC 0x35, D, A, B, C in 55..32, TYPE 31..28. -/
theorem test_word_vfma : decodeTile 0 (0x35#8 ++ 0x21#6 ++ 0x22#6 ++ 0x23#6 ++ 0x24#6 ++ 0#4 ++ 0#28)
    = some (.vfma 0 0 0x21 0x22 0x23 0x24) := by decide
/-- `mstream` of 32 by 32, K 64, with every later field 1: OPC 0x50, MM1 55..51, NM1 50..46, LEN 45..30, BFMT 29..27, BL 26, ASRC 25, AREG 24..21,
BSRC 20..19, BPTR 18..16, CONT 15. -/
theorem test_word_mstream : decodeTile 0 (0x50#8 ++ 31#5 ++ 31#5 ++ 64#16 ++ 1#3 ++ 1#1 ++ 0#1 ++ 1#4 ++ 1#2 ++ 1#3 ++ 1#1 ++ 0#15)
    = some (.mstream 0 ⟨31, 31, 64, 1, true, false, 1, 1, 1, true⟩) := by decide
/-- `nsend` of v5 on class 1 with route word s6: OPC 0x62, A 55..50, CLASS 49..48, SB 47..44. -/
theorem test_word_nsend : decodeTile 0 (0x62#8 ++ 0x25#6 ++ 1#2 ++ 6#4 ++ 0#44) = some (.nsend 0 0x25 1 6) := by decide
/-- `lnld v0` at a fixed address: OPC 0x60. -/
theorem test_word_lnld : decodeTile 0 (0x60#8 ++ 0x20#6 ++ 0#1 ++ 0#2 ++ 0#3 ++ 0#3 ++ 0#9 ++ 0x1FFF80#32)
    = some (.lnld 0 0x20 ⟨0, 0, 0, 0x1FFF80⟩) := by decide
/-- Reserved encodings: an unlisted OPC, a reserved bit set, a COND above 12 (R128, R140). -/
theorem test_word_reserved : decodeTile 0 0xFF00000000000000 = none ∧ decodeTile 0 0x0100000000000001 = none
    ∧ decodeTile 0 (0x03#8 ++ 13#4 ++ 0#52) = none := by decide

/-! ### Reset -/

/-- Some reset values of the register tables, and the queue. -/
theorem test_reset_registers : getF State.reset Reg.HBM_CAP_ROWS = 49152 ∧ getF State.reset Reg.OBS_FRZ_STATUS_STATE = 0
    ∧ State.reset.pending = [] ∧ (State.reset.tile 2047).run = .idle := by decide
theorem test_no_word : decodeTableWord 64 0 = none := rfl

/-! ### The worked examples of the spec -/

/-- The `mfold` word of the example under R158. -/
theorem test_example_mfold : decodeTile 0 0x51DFC02820430000 = some (.mfold 0 ⟨27, 31, 160, 4, false, false, 2, 0, 3, false⟩) := by decide
/-- The address map example under R281: slot 0x10F, row 9,320, and the next granule's slot 0x100. -/
theorem test_example_hbm_slot : State.reset.hbmSlot 0x1234567000 = 0x10F ∧ State.reset.hbmPlace 0x1234567000 = (0x10F, 9320)
    ∧ State.reset.hbmSlot 0x1234568000 = 0x100 := by decide
/-- The relocation example under R292: slot 5 retired, T 49,128; its granule moves to section 389, row 49,136, and the other address does not move. -/
theorem test_example_relocation : (setF (setFbit State.reset Reg.HBM_RETIRED_SECT 5 true 0) Reg.HBM_CAP_ROWS 49128).hbmPlace 0x123446D000 = (389, 49136)
    ∧ (setF (setFbit State.reset Reg.HBM_RETIRED_SECT 5 true 0) Reg.HBM_CAP_ROWS 49128).hbmPlace 0x1234567000 = (0x10F, 9320) := by
  decide +kernel
/-- The `vcvt` example under R147: i4 code -6 with SCL -3 gives -0.75. -/
theorem test_example_vcvt : (laneCvt 8 0 (-3) (Rnd.ofRD 0) false 0b1010).1 = 0xBF400000 := by decide
/-- Tile (5, 2) is tile 133 (chapter 0). -/
theorem test_example_tile : tileAt 5 2 = 133 ∧ tileX 133 = 5 ∧ tileY 133 = 2 := by decide
/-- Conversions from binary32 under R75: 7.0 to k4, 470.0 to k8a, 65,536.0 to k8b with OVF_SAT 0 and 1, 1 + 3 * 2^-8 to bf16, 7.5 to i4. -/
theorem test_example_converts : (laneCvt 0 6 0 (Rnd.ofRD 0) false 0x40E00000).1 = 0b0111 ∧ (laneCvt 0 4 0 (Rnd.ofRD 0) false 0x43EB0000).1 = 0x7E
    ∧ (laneCvt 0 5 0 (Rnd.ofRD 0) false 0x47800000).1 = 0x7C ∧ (laneCvt 0 5 0 (Rnd.ofRD 0) true 0x47800000).1 = 0x7B
    ∧ (laneCvt 0 2 0 (Rnd.ofRD 0) false 0x3F818000).1 = 0x3F82 ∧ (laneCvt 0 8 0 (Rnd.ofRD 0) false 0x40F00000).1 = 7 := by decide

/-! ### Witnesses: states that meet the hypotheses of the statements -/

/-- A device that has booted, with its link up. -/
def live : State := setF { State.reset with pcieUp := true } Reg.MGT_BOOT_STATUS_STATE 1

/-- Tile 0 of a live device, running, with the word of i at address 0. -/
def at0 (i : Instr) : State := live.modTile 0 (fun x => { x with run := .running, pmem := SMap.set 0 x.pmem 0 ((encodeTile i).getD 0) })

/-- The same, with a change of the tile. -/
def at0With (i : Instr) (f : Tile → Tile) : State := (at0 i).modTile 0 f

/-- The fixed address 0x80 of format M. -/
def ma : MAddr := ⟨0, 0, 0, 0x80⟩

theorem wit_RegisterInstructionsFrame : (at0 (.add 0 ⟨1, 2, 3, false, 0⟩)).memWf = true
    ∧ (at0 (.add 0 ⟨1, 2, 3, false, 0⟩)).ready 0 (.add 0 ⟨1, 2, 3, false, 0⟩) (slotUse (.add 0 ⟨1, 2, 3, false, 0⟩)) = true
    ∧ ((at0 (.add 0 ⟨1, 2, 3, false, 0⟩)).tile 0).quiet = true
    ∧ (slotWrites ((at0 (.add 0 ⟨1, 2, 3, false, 0⟩)).tile 0) (.add 0 ⟨1, 2, 3, false, 0⟩)).isSome = true
    ∧ (at0 (.vadd 0 0 0x20 0x2F 0x22)).ready 0 (.vadd 0 0 0x20 0x2F 0x22) (slotUse (.vadd 0 0 0x20 0x2F 0x22)) = true
    ∧ (at0 (.setsp 0 0x1D 0x20000)).ready 0 (.setsp 0 0x1D 0x20000) {} = true := by decide +kernel

/-- The state after one command. -/
def after (c : Instr) (s : State) : State := match exec c s with
  | .next u => u
  | _ => s

/-- A store at address 0 and a `nop` (word 0) after it. -/
theorem wit_StoresFrame : (∀ i ∈ [Instr.st 0 1 ma, .stsp 0 0x1D ma], (at0 i).memWf = true ∧ ((at0 i).tile 0).quiet = true
      ∧ (at0 i).ready 0 i { z := some 2, zStore := some 0x80 } = true ∧ (after i (at0 i)).ready 0 (.nop 0) {} = true)
    ∧ (at0 (.vst 0 0x20 ma)).ready 0 (.vst 0 0x20 ma) { z := some 2, zStore := some 0x80 } = true
    ∧ (after (.vst 0 0x20 ma) (at0 (.vst 0 0x20 ma))).ready 0 (.nop 0) {} = true
    ∧ (at0 (.lnst 0 0x20 ma)).ready 0 (.lnst 0 0x20 ma) {} = true ∧ (after (.lnst 0 0x20 ma) (at0 (.lnst 0 0x20 ma))).ready 0 (.nop 0) {} = true
    ∧ ((at0 (.st 0 1 ma)).tile 0).maddr ma = (0x80, []) ∧ checkRange osTop 4 0x80 4 = none ∧ checkRange osTop 128 0x80 128 = none
    ∧ checkRange liningTop 128 0x80 128 = none := by decide +kernel

/-- The last word of the operand store and the last line of the lining are the highest addresses that R103 admits. -/
theorem test_checkRange_top : checkRange osTop 4 0x1FFFC 4 = none ∧ checkRange osTop 4 0x20000 4 = some fltADDR ∧ checkRange osTop 4 0x1FFFE 4 = some fltALIGN
    ∧ checkRange liningTop 128 0x1FFF80 128 = none ∧ checkRange liningTop 128 0x200000 128 = some fltADDR := by decide +kernel

theorem wit_ControlInstructionsComplete : (∀ i ∈ [Instr.nop 0, .halt 0, .rti 0, .br 0 12 0xFFF, .bal 0 0xF 0xFFF, .jr 0 0xF, .rep 0 false 0 1 0,
      .rep 0 false 0 0xFFF 5, .rep 0 true 0xF 1 0, .setf 0 0x3FF0F, .clrf 0 0x3FF0F, .rep 0 false 0 0 1, .rbrk 0 1], (at0 i).ready 0 i {} = true)
    ∧ (at0With (.rbrk 0 4) (fun x => x.setSprRaw sprLST 4)).ready 0 (.rbrk 0 4) {} = true
    ∧ ((at0With (.rbrk 0 4) (fun x => x.setSprRaw sprLST 4)).tile 0).depth = 4 ∧ ((at0 (.nop 0)).tile 0).depth = 0
    ∧ ((at0 (.nop 0)).tile 0).pc + 1 = 1
    ∧ (at0With (.rep 0 false 0 1 1) (fun x => x.setSprRaw sprLST 4)).ready 0 (.rep 0 false 0 1 1) {} = true := by decide +kernel

theorem wit_ScalarInstructionsComplete : ∀ i ∈ [Instr.add 0 ⟨0x1F, 0, 0, true, 0xFFFFFFFF⟩, .sub 0 ⟨1, 2, 3, false, 0⟩, .and 0 ⟨1, 2, 3, false, 0⟩, .or 0 ⟨1, 2, 3, false, 0⟩,
      .xor 0 ⟨1, 2, 3, false, 0⟩, .shl 0 ⟨1, 2, 0, true, 32⟩, .shr 0 ⟨1, 2, 0, true, 31⟩, .sra 0 ⟨1, 2, 3, false, 0⟩, .min 0 ⟨1, 2, 3, false, 0⟩,
      .max 0 ⟨1, 2, 3, false, 0⟩, .mul 0 ⟨1, 2, 3, false, 0⟩, .mov 0 1 3 false 0, .cmp 0 2 3 false 0, .pmod 0 0x17 0x18 false 0],
    (at0 i).ready 0 i {} = true := by decide +kernel

theorem wit_SpecialAndWordAccessesComplete : (∀ i ∈ [Instr.mvs 0 false 1 0x20, .mvs 0 true 1 0x1C, .setsp 0 0x1C 5, .setsp 0 0x1C 4], (at0 i).ready 0 i {} = true)
    ∧ (∀ i ∈ [Instr.ld 0 1 ma, .ldsp 0 0x1C ma], (at0 i).ready 0 i { x := some 0x80 } = true
        ∧ ((at0 i).osWord 0 0x80).2 = some 0)
    ∧ (∀ i ∈ [Instr.st 0 1 ma, .stsp 0 0x22 ma], (at0 i).ready 0 i { z := some 2, zStore := some 0x80 } = true) := by decide +kernel

theorem wit_LineAccessesComplete : (at0 (.vld 0 0x20 true ma)).ready 0 (.vld 0 0x20 true ma) { y := some 0x80 } = true
    ∧ (at0 (.vld 0 0x20 false ma)).ready 0 (.vld 0 0x20 false ma) { x := some 0x80 } = true
    ∧ ((at0 (.vld 0 0x20 true ma)).osLine 0 0x80).2 = some 0
    ∧ (at0 (.vst 0 0x2F ma)).ready 0 (.vst 0 0x2F ma) { z := some 2, zStore := some 0x80 } = true
    ∧ (at0 (.lnld 0 0x20 ma)).ready 0 (.lnld 0 0x20 ma) { lin := true } = true ∧ (at0 (.lnst 0 0x20 ma)).ready 0 (.lnst 0 0x20 ma) {} = true := by decide +kernel

/-- Stitch 0 of one hop, reserved, with credits. -/
def stitch0 : Stitch := { dlv := 0, credits := 8, srcKind := 0, src := 0, dstKind := 0, dst := 1, rbase := 0, rlen := 0, hops := [(0, 1)], points := [1],
                          sent := 0, lastAdmit := none, flight := [], returning := 0, releasing := false }
def msg0 : Msg := ⟨0, 7, 0⟩
def stitched (i : Instr) : State := setF (setF ((at0 i).setStitch 0 (some stitch0)) Reg.NET_ST_STATUS_STATE 1 0) Reg.NET_ST_STATUS_CREDIT 8 0

theorem wit_PortInstructionsComplete : ((at0With (.nsend 0 0x20 2 1) (fun x => x.setGen 1 0xFFFFFFFF)).ready 0 (.nsend 0 0x20 2 1) {} = true
      ∧ ((at0With (.nsend 0 0x20 2 1) (fun x => x.setGen 1 0xFFFFFFFF)).tile 0).barPend + ((at0With (.nsend 0 0x20 2 1) (fun x => x.setGen 1 0xFFFFFFFF)).tile 0).arriving < 2)
    ∧ (∀ c ∈ [(1 : BitVec 2), 2, 3], (at0 (.nsend 0 0x20 c 1)).ready 0 (.nsend 0 0x20 c 1) {} = true
        ∧ ((at0 (.nsend 0 0x20 c 1)).tile 0).injecting = false ∧ (at0 (.nsend 0 0x20 c 1)).injectionFull 0 c.toNat = false)
    ∧ ((stitched (.nsend 0 0x20 0 1)).ready 0 (.nsend 0 0x20 0 1) {} = true ∧ ((stitched (.nsend 0 0x20 0 1)).tile 0).injecting = false
        ∧ (stitched (.nsend 0 0x20 0 1)).injectionFull 0 0 = false ∧ (stitched (.nsend 0 0x20 0 1)).admits 0 1 = true)
    ∧ ((at0With (.nrecv 0 0x20 0) (fun x => x.setQueue 0 [msg0])).ready 0 (.nrecv 0 0x20 0) {} = true
        ∧ ((at0With (.nrecv 0 0x20 0) (fun x => x.setQueue 0 [msg0])).tile 0).queue 0 = [msg0])
    ∧ (at0 (.trc 0 1 0xFFFF)).ready 0 (.trc 0 1 0xFFFF) {} = true ∧ (at0 (.rdctr 0 1 15 true)).ready 0 (.rdctr 0 1 15 true) {} = true
    ∧ (at0 (.rdsnap 0 1)).ready 0 (.rdsnap 0 1) {} = true := by decide +kernel

def fpOps : List Instr := [.vadd 0 2 0x20 0x21 0x22, .vsub 0 0 0x20 0x21 0x22, .vmul 0 0 0x20 0x21 0x22, .vfma 0 1 0x20 0x21 0x22 0x23]
theorem wit_VectorArithmeticCompletes : (∀ i ∈ fpOps, (at0 i).ready 0 i { z := some 4 } = true)
    ∧ (∀ i ∈ [Instr.vmin 0 3 0x20 0x21 0x22, .vmax 0 0 0x20 0x21 0x22, .vcmp 0 3 5 0x20 0x21 0x22], (at0 i).ready 0 i { z := some 2 } = true)
    ∧ (at0 (.vcvt 0 11 0 0x80 0x20 0x21)).ready 0 (.vcvt 0 11 0 0x80 0x20 0x21) { z := some 3 } = true
    ∧ (at0 (.vqb 0 0x20 0x21 ⟨7, true, true, 2, true, 3, true, true⟩)).ready 0 (.vqb 0 0x20 0x21 ⟨7, true, true, 2, true, 3, true, true⟩) { z := some 6 } = true
    ∧ (at0 (.vtack 0 0x20 0x21 0x22 0 0)).ready 0 (.vtack 0 0x20 0x21 0x22 0 0) { y := some 0, z := some 5 } = true
    ∧ ((at0 (.vtack 0 0x20 0x21 0x22 0 0)).osLine 0 0).2 = some 0
    ∧ (at0With (.vtap 0 0 0x20 0 0 1 1) (fun x => x.setGen 17 0x1FF80)).ready 0 (.vtap 0 0 0x20 0 0 1 1) { x := some 0, y := some 0x1FF80, z := some 4 } = true
    ∧ ((at0With (.vtap 0 0 0x20 0 0 1 1) (fun x => x.setGen 17 0x1FF80)).tile 0).wrapPtr 0 (((at0With (.vtap 0 0 0x20 0 0 1 1) (fun x => x.setGen 17 0x1FF80)).tile 0).ptr 0 + 128) = 128
    ∧ checkRange 0x20000 128 0x1FF80 128 = none := by decide +kernel

theorem wit_VectorMovesComplete : ∀ i ∈ [Instr.viadd 0 0x20 0x21 0x22, .visub 0 0x20 0x21 0x22, .vand 0 0x20 0x21 0x22, .vor 0 0x20 0x21 0x22,
      .vxor 0 0x20 0x21 0x22, .vshl 0 0x20 0x21 0x22, .vshr 0 false 0x20 0x21 0x22, .vshr 0 true 0x20 0x21 0x22, .vmov 0 0x2F 0x2F,
      .vsel 0 0x20 0x21 0x22 0x23, .vbcast 0 0x20 0xF, .vget 0 0xF 0x20 31, .vrot 0 0x20 0x21 0x3F 31, .vrot 0 0x20 0x21 0xF 0],
    (at0 i).ready 0 i { z := some 2 } = true := by decide +kernel

def sops : StreamOps := ⟨31, 31, 64, 1, false, false, 0, 0, 0, false⟩
theorem wit_MatrixInstructionsComplete : (∀ i ∈ [Instr.mstream 0 sops, .mfold 0 sops, .mswap 0, .mswapReduce 0 0 false 15, .mswapReduce 0 0 true 7,
      .mdrainConverted 0 31 0 true 0 false 0, .mdrainConverted 0 15 0 false 0 true 0, .mdrainRaw 0 31 true 0, .mdrainRaw 0 3 false 0, .mloadRow 0 31 15,
      .mloadBroadcast 0 15, .mloadRaw 0 0 31 true 0, .mloadRaw 0 31 0 false 12, .mclr 0, .mwait 0 true true true, .mwait 0 false false false],
      (at0 i).ready 0 i {} = true)
    ∧ ((at0 (.mclr 0)).tile 0).streamPlace = true ∧ ((at0 (.mclr 0)).tile 0).bbRun = none ∧ ((at0 (.mclr 0)).tile 0).bbWait = []
    ∧ streamFault ⟨false, sops, 0, 0, 0, none, 0, 0, [], [], none, [], 0⟩ = none ∧ streamFault ⟨true, sops, 0, 0, 0, none, 0, 0, [], [], none, [], 0⟩ = none
    ∧ lineDst ((at0 (.mclr 0)).tile 0) true 0 (128 * 32) = .inl 0 ∧ lineDst ((at0 (.mclr 0)).tile 0) false 15 128 = .inl 15
    ∧ lineDst ((at0 (.mclr 0)).tile 0) true 0 (512 * 32) = .inl 0 ∧ lineDst ((at0 (.mclr 0)).tile 0) true 7 128 = .inl 0
    ∧ mwaitReady ((at0 (.mclr 0)).tile 0) true true true = true
    ∧ (at0With (.mswap 0) (fun x => { x with bbRun := some (.clear, 0) })).ready 0 (.mswap 0) {} = true := by decide +kernel

def stream0 : StreamSt := ⟨false, sops, 0, 0, 0, none, 0, 0, [], [], none, [], 0⟩
def tree0 : TreeSt := { age := 6, rows := 1, off := 0, ofmt := 0, toStore := false, dst := 3, cols := [], ovf := false, parFail := [] }
def withTile (f : Tile → Tile) : State := live.modTile 0 f
theorem wit_MatrixEventsComplete : ((withTile (fun x => { x with ic := 5, waiting := [stream0] })).startDue 0 = true
      ∧ (withTile (fun x => { x with ic := 5, waiting := [stream0] })).tileFrozen 0 = false)
    ∧ ((withTile (fun x => { x with bbWait := [.clear] })).tile 0).bbWait = [.clear] ∧ ((withTile (fun x => { x with bbWait := [.clear] })).tile 0).bbRun = none
    ∧ ((withTile (fun x => { x with bbRun := some (.clear, 1) })).tile 0).bbDoneDue = true
    ∧ (((withTile (fun x => { x with tree := [tree0] })).tile 0).tree.find? (fun r => decide (6 ≤ r.age))).isSome = true
    ∧ live.mayWrite Reg.TIL_MAT_FORCE_COL_OFF 2047 0 = true ∧ live.mayWrite Reg.TIL_MAT_FORCE_ROW_OFF 0 0 = true := by decide +kernel

theorem wit_TileEventsComplete : ((withTile (fun x => { x with run := .halted })).tile 0).complete = true
    ∧ (withTile (fun x => { x with run := .halted })).tileFrozen 0 = false ∧ (withTile (fun x => { x with run := .halted })).eventDue 0 = false
    ∧ ((at0With (.nop 0) (fun x => (x.setSprRaw sprFLAGS 0x10000).setSprRaw sprIPEND 7)).sequencing 0 = true
        ∧ ((at0With (.nop 0) (fun x => (x.setSprRaw sprFLAGS 0x10000).setSprRaw sprIPEND 7)).tile 0).irqReady = true
        ∧ ((at0With (.nop 0) (fun x => (x.setSprRaw sprFLAGS 0x10000).setSprRaw sprIPEND 7)).tile 0).hold {} = none
        ∧ (at0With (.nop 0) (fun x => (x.setSprRaw sprFLAGS 0x10000).setSprRaw sprIPEND 7)).stopsAtWord 0 = false
        ∧ (at0With (.nop 0) (fun x => (x.setSprRaw sprFLAGS 0x10000).setSprRaw sprIPEND 7)).chainBehind 0 = false)
    ∧ ((at0With (.nop 0) (fun x => { x with pmem := [(0, 0xFF00000000000000)] })).sequencing 0 = true
        ∧ decodeTile 0 0xFF00000000000000 = none)
    ∧ ((withTile (fun x => { x with fltWindow := 1, fltLimit := 2, fltCount := 3 })).tile 0).fltWindow ≠ 0
    ∧ ((withTile (fun x => { x with replay := [(3, 16383)] })).tile 0).replay = (3, 16383) :: []
    ∧ flag (setF live Reg.TIL_LIN_SCRUB_EN 1 0) Reg.TIL_LIN_SCRUB_EN 0 = true ∧ (setF live Reg.TIL_LIN_SCRUB_EN 1 0).scaleFree 0 = true
    ∧ ((withTile (fun x => { x with wrBack := [(262143, 0)], ic := 1 })).tile 0).wrBackDue 262143 = true
    ∧ (withTile (fun x => { x with wrBack := [(262143, 0)], ic := 1 })).scaleFree 0 = true := by decide +kernel

/-- Tile 0 retired in the availability profile. -/
def spared : State := setF (withTile (fun x => { x with retired := true })) Reg.MGT_PROFILE_PROFILE 1
/-- Tiles 0 and 1 as a chain of two that waits. -/
def chained : State :=
  let s := (live.modTile 0 (fun x => { x with waiting := [stream0] })).modTile 1 (fun x => { x with
    waiting := [{ stream0 with ops := { sops with bsrc := 2 } }] })
  let s := setF (setF s Reg.TIL_CHAIN_ROLE 1 0) Reg.TIL_CHAIN_ROLE 2 1
  let s := setF (setF s Reg.TIL_CHAIN_LENM1 1 0) Reg.TIL_CHAIN_LENM1 1 1
  setF (setF (setF s Reg.TIL_CHAIN_OUT 2 0) Reg.TIL_CHAIN_IN 4 1) Reg.TIL_CHAIN_POS 1 1
/-- The same with a head whose stream has another length. -/
def clashing : State := chained.modTile 0 (fun x => { x with waiting := [{ stream0 with ops := { sops with len := 128 } }] })
theorem wit_TileControlEventsComplete : live.mayWrite Reg.TIL_CTRL_RESET 2047 0 = true ∧ live.tileAsleep 2047 = false
    ∧ getF spared Reg.MGT_PROFILE_PROFILE = 1 ∧ (spared.tile 0).retired = true ∧ spared.heldTile 0 = false ∧ (spared.chooseSpare 0).isSome = true
    ∧ (0 :: chained.chainAfter 63 0).length = 2 ∧ chained.readyAt (0 :: chained.chainAfter 63 0).reverse none = .inr true
    ∧ (0 :: clashing.chainAfter 63 0).length = 2 ∧ clashing.readyAt (0 :: clashing.chainAfter 63 0).reverse none = .inl 0 := by decide +kernel
/-- The bytes of a list of 32-bit words. -/
def wordsOf (l : List Nat) : List Byte := l.flatMap (leBytes 4)
/-- A command of a panel's queue: code, commit order, issued, and the words of its body. -/
def qcmd (op ord : Nat) (issued : Bool) (l : List Nat) : QCmd := ⟨op, 7, wordsOf l, 3, 4, ord, issued, false⟩
/-- Panel p, defined over columns x0 to x1 and rows y0 to y1. -/
def panelled (s : State) (p x0 x1 y0 y1 : Nat) : State :=
  setF (setF (setF (setF (setF s Reg.CMD_PANEL_RECT_X0 x0 p) Reg.CMD_PANEL_RECT_X1 x1 p) Reg.CMD_PANEL_RECT_Y0 y0 p) Reg.CMD_PANEL_RECT_Y1 y1 p)
    Reg.CMD_PANEL_STATUS_STATE 1 p
/-- Panel 0 over four tiles, with a queue in which one command stands. -/
def queued (q : Nat) (c : QCmd) : State := (panelled live 0 0 1 0 1).modPanel 0 (fun x => x.setQueue q [c])
/-- A launch of the four tiles with FALLBACK 1. -/
def launch1 : QCmd := qcmd 1 0 false [2 ^ 31, 1 * 2 ^ 6 + 1 * 2 ^ 17, 0x100, 1, 0, 1, 2, 3, 4, 0]
def signal0 : QCmd := qcmd 10 0 false [5, 40]
/-- The signalling device: MSI-X enabled, and vector 40 masked. -/
def signalling (m : Bool) : State := { queued 0 signal0 with msixEn := true, msix := if m then [] else [(4 * 40 + 3, 1)] }
def read64 : HbmReq := ⟨0, false, 0, []⟩
def write64 : HbmReq := ⟨0x10, true, 64, List.replicate 64 5⟩
/-- Contents kept in the stacks. -/
def hbmLive : State := setF live Reg.HBM_MAP_CTRL_EN 1

theorem wit_StepRunsTheFrontCommand :
    ({ live with pending := [Instr.hbmRefresh] } : State).pending = Instr.hbmRefresh :: []
    ∧ live.pending = [] := by
  decide +kernel

theorem wit_MemoryStaysCanonical :
    (at0 (.nop 0)).memWf = true
    ∧ (after (.nop 0) (at0 (.nop 0))).memWf = true := by
  decide +kernel

theorem wit_TileWordsReadBack :
    (encodeTile (.add 0 ⟨1, 2, 3, false, 0⟩)).isSome = true
    ∧ legalTile (.add 0 ⟨1, 2, 3, false, 0⟩) = true := by
  decide +kernel

theorem wit_LaunchClearsBanks :
    (queued 0 launch1).memWf = true
    ∧ (queued 0 launch1).head0 0 1 = some launch1
    ∧ launch1.issued = false
    ∧ launch1.targets = [0, 1, 64, 65]
    ∧ launch1.targets.all (fun t => !((queued 0 launch1).tile t).busyRun) = true
    ∧ ((queued 0 launch1).panel 0).snaps = []
    ∧ (queued 0 launch1).launchCause 0 launch1 = 0
    ∧ getF (queued 0 launch1) Reg.TIL_NUM_CTRL_FALLBACK 0 ≠ bits (launch1.word 12) 0 0 := by
  decide +kernel

theorem wit_SignalsSendOneMessage :
    (queued 0 signal0).memWf = true
    ∧ ((signalling true).memWf = true ∧ (signalling true).head0 0 10 = some signal0 ∧ (signalling true).msixEn = true ∧ (signalling true).endpointStopped = false ∧ (signalling true).masked (bits (signal0.word 4) 7 0) = true)
    ∧ ((signalling false).memWf = true ∧ (signalling false).head0 0 10 = some signal0 ∧ (signalling false).msixEn = true ∧ (signalling false).endpointStopped = false ∧ (signalling false).masked (bits (signal0.word 4) 7 0) = false) := by
  decide +kernel

theorem wit_RefusedAccesses :
    live.frozenMaster 0 = false
    ∧ live.frozenMaster 255 = false
    ∧ (setFbit live Reg.MGT_FROZEN_FROZEN 31 true 7).frozenMaster 255 = true
    ∧ hbmLive.hbmRuns = true
    ∧ (setF hbmLive Reg.MGT_CHN_MASTER_LO_RWIN 0 0).hbmGranted 0 false 0 63 = false := by
  decide +kernel

theorem wit_HbmWriteFrame :
    hbmLive.memWf = true
    ∧ hbmLive.hbmRuns = true
    ∧ write64.data.length = 64
    ∧ hbmLive.hbmGranted 0x10 true 64 127 = true
    ∧ hbmLive.hbmRefused 0x10 64 127 = false
    ∧ hbmLive.hbmWaits (sectCtl (hbmLive.hbmPlace 64).1) = false
    ∧ ((hbmLive.trk (sectCtl (hbmLive.hbmPlace 64).1)).length < 64 ∧ hbmLive.hbm.err = [] ∧ SMap.get 0 hbmLive.hbm.caErr (sectCtl (hbmLive.hbmPlace 64).1) = 0) := by
  decide +kernel

theorem wit_TileRegistersByNumber :
    allFlds.any (fun f => decide (f.cls = 11)) = true := by
  decide +kernel

def a20 (f : Fld) (i : Nat) : Bar0Addr := BitVec.ofNat 26 (f.addr i 0)
/-- A register access that nothing refuses: granted, aligned, outside the MSI-X structures. -/
def plainAt (s : State) (a : Bar0Addr) (w : Bool) : Bool :=
  decide (a.toNat % 4 = 0 ∧ a.toNat < 0x2000000) && !msixTable a.toNat && !msixPba a.toNat && s.hostMay a.toNat w (expertAt a.toNat)
def heldLow : State := { live with heldW := [((a20 Reg.CFG_LOAD_ADDR_LO_VALUE 0).toNat, some 9)] }

theorem wit_RegisterAccessesComplete :
    plainAt live (a20 Reg.OBS_CTR_CFG_PER_LAUNCH 0) true = true
    ∧ fieldsAt (a20 Reg.OBS_CTR_CFG_PER_LAUNCH 0).toNat ≠ []
    ∧ (fieldsAt (a20 Reg.OBS_CTR_CFG_PER_LAUNCH 0).toNat).all (fun y => decide (y.fld.wide = .none) && !live.writeBarred y 1) = true
    ∧ (Reg.OBS_CTR_CFG_PER_LAUNCH.own = false ∧ ownRegister ⟨Reg.OBS_CTR_CFG_PER_LAUNCH, 0, 0⟩ = false ∧ live.fieldBarred ⟨Reg.OBS_CTR_CFG_PER_LAUNCH, 0, 0⟩ 1 = 0)
    ∧ (Reg.PCI_EVT_PEND_PEND.own = false ∧ ownRegister ⟨Reg.PCI_EVT_PEND_PEND, 0, 0⟩ = false ∧ live.fieldBarred ⟨Reg.PCI_EVT_PEND_PEND, 0, 0⟩ 1 = 0)
    ∧ (({ Reg.OBS_CTR_CFG_PER_LAUNCH with acc := .w1s } : Fld).own = false ∧ ownRegister ⟨{ Reg.OBS_CTR_CFG_PER_LAUNCH with acc := .w1s }, 0, 0⟩ = false ∧ live.fieldBarred ⟨{ Reg.OBS_CTR_CFG_PER_LAUNCH with acc := .w1s }, 0, 0⟩ 1 = 0)
    ∧ (Reg.TIL_STATUS_STATE.own = false ∧ ownRegister ⟨Reg.TIL_STATUS_STATE, 0, 0⟩ = false ∧ live.fieldBarred ⟨Reg.TIL_STATUS_STATE, 0, 0⟩ 1 = 0)
    ∧ plainAt live (a20 Reg.NET_FENCE_DROP_COUNT 15) false = true
    ∧ fieldsAt (a20 Reg.NET_FENCE_DROP_COUNT 15).toNat = [⟨Reg.NET_FENCE_DROP_COUNT, 15, 0⟩]
    ∧ live.hostMay 0x2400000 false (expertAt 0x2400000) = true
    ∧ counterWindow 0x2400000 = true
    ∧ counterWindow 0x253FFFC = true
    ∧ live.hostMay 0x253FFFC false (expertAt 0x253FFFC) = true
    ∧ plainAt live (a20 Reg.CFG_LOAD_ADDR_LO_VALUE 0) true = true
    ∧ fieldsAt (a20 Reg.CFG_LOAD_ADDR_LO_VALUE 0).toNat = [⟨Reg.CFG_LOAD_ADDR_LO_VALUE, 0, 0⟩]
    ∧ live.writeBarred ⟨Reg.CFG_LOAD_ADDR_LO_VALUE, 0, 0⟩ 5 = false
    ∧ plainAt heldLow (a20 Reg.CFG_LOAD_ADDR_HI_VALUE 0) true = true
    ∧ fieldsAt (a20 Reg.CFG_LOAD_ADDR_HI_VALUE 0).toNat = [⟨Reg.CFG_LOAD_ADDR_HI_VALUE, 0, 0⟩]
    ∧ live.writeBarred ⟨Reg.CFG_LOAD_ADDR_HI_VALUE, 0, 0⟩ 5 = false
    ∧ (a20 Reg.CFG_LOAD_ADDR_HI_VALUE 0).toNat - 4 = (a20 Reg.CFG_LOAD_ADDR_LO_VALUE 0).toNat
    ∧ nothingAt 0x3FFFFFC = true
    ∧ (live.hostMay 0x3FFFFFC true (expertAt 0x3FFFFFC) = true ∧ live.hostMay 0x3FFFFFC false (expertAt 0x3FFFFFC) = true)
    ∧ live.mayWrite Reg.MGT_PROFILE_PROFILE 0 0 = true
    ∧ (List.range 16).all (fun p => decide (live.panelState p = 0)) = true
    ∧ (getF live Reg.MGT_PROFILE_PROFILE ≠ 1 ∧ getF live Reg.MGT_PROFILE_PROFILE = 0)
    ∧ (live.hostMay (Reg.CFG_LOAD_ADDR_LO_VALUE.addr 0 0) true (expertAt (Reg.CFG_LOAD_ADDR_LO_VALUE.addr 0 0) || expertAt (Reg.CFG_LOAD_ADDR_LO_VALUE.addr 0 0 + 4)) = true ∧ Reg.CFG_LOAD_ADDR_LO_VALUE.addr 0 0 % 8 = 0)
    ∧ live.hostMay 0x2400000 false (expertAt 0x2400000 || expertAt 0x2400004) = true := by
  decide +kernel

/-- A class 1 message from tile 0 to tile 1: at its entry, and at its last router, which it entered by the link from the west. -/
def leaving : Flight := ⟨0, .tile 0, 0, ⟨({ cls := 1, dst := 1 } : Hdr).toWord, 7, 0⟩, [1], 0, 8, 0⟩
def flight1 : Flight := { leaving with pos := 1, via := 3 }
def flying (f : Flight) : State := { live with flights := [f] }

/-- A message at the last point of stitch 0, with delivery to the tile's queue or (dlv 1) to a line. -/
def lineMsg : Msg := ⟨({ cls := 0, dlv := 1, line := 1023 } : Hdr).toWord, 7, 0⟩
def arriving (dlv : Nat) (m : Msg) : State :=
  setF (live.setStitch 0 (some { stitch0 with dlv := dlv, flight := [⟨0, m, [1], none⟩] })) Reg.NET_ST_STATUS_STATE 1 0
def returning (k : Nat) : State := setF (live.setStitch 0 (some { stitch0 with returning := 1, srcKind := k })) Reg.NET_ST_STATUS_STATE 1 0
def landing1 : State := withTile (fun x => { x with landing := [⟨1023, 7, 0⟩, ⟨1023, 8, 0⟩, ⟨0, 9, 0⟩] })

theorem wit_DeliveriesComplete :
    ((flying flight1).arrayFrozen = false ∧ (flying flight1).flights[0]? = some flight1 ∧ flight1.msg.h.ddev = (flying flight1).devId ∧ flight1.isAck = false)
    ∧ (flight1.pos = (flying flight1).posOf 1 ∧ (flying flight1).inFront flight1 = none ∧ (flying flight1).tileAsleep 1 = false ∧ ((flying flight1).tile 1).retired = false ∧ (flying flight1).contenders flight1.pos 8 = [flight1] ∧ flight1.msg.h.cls = 1)
    ∧ ((flying leaving).flights[0]? = some leaving ∧ (flying leaving).dropAway leaving = none ∧ (flying leaving).inFront leaving = none ∧ (flying leaving).cull leaving = ((flying leaving), leaving))
    ∧ (((flying leaving).wayOut leaving).any (fun e => decide (e.1.out = 1 ∧ e.2 = [1])) = true ∧ (flying leaving).contenders 0 1 = [leaving])
    ∧ (((flying flight1).wayOut flight1).any (fun e => decide (e.1.out = 8)) = true ∧ (flying flight1).cull flight1 = ((flying flight1), flight1))
    ∧ ((arriving 0 msg0).arrayFrozen = false ∧ ((arriving 0 msg0).stitch 0).bind (fun st => st.nextAt 1) = some (0, ⟨0, msg0, [1], none⟩) ∧ (arriving 0 msg0).pathFrozen (stitch0.hops.take 1) = false ∧ (arriving 0 msg0).tileFrozen stitch0.endTile = false ∧ (arriving 0 msg0).tileAsleep stitch0.endTile = false ∧ msg0.h.dlv = 0 ∧ ((arriving 0 msg0).voided msg0).h.dlv = 0)
    ∧ ((arriving 1 lineMsg).arrayFrozen = false ∧ ((arriving 1 lineMsg).stitch 0).bind (fun st => st.nextAt 1) = some (0, ⟨0, lineMsg, [1], none⟩) ∧ (arriving 1 lineMsg).pathFrozen (stitch0.hops.take 1) = false ∧ (arriving 1 lineMsg).tileFrozen stitch0.endTile = false ∧ (arriving 1 lineMsg).tileAsleep stitch0.endTile = false ∧ lineMsg.h.dlv ≠ 0 ∧ ((arriving 1 lineMsg).voided lineMsg).h.dlv ≠ 0 ∧ ((arriving 1 lineMsg).tile stitch0.endTile).landing.length < 16)
    ∧ stitch0.points.getLast? = some 1
    ∧ stitch0.points.filter (· < 1) = []
    ∧ (landing1.tileFrozen 0 = false ∧ landing1.landable 0 [] = some ⟨1023, 7, 0⟩ ∧ (landing1.land 0 ⟨1023, 7, 0⟩).landable 0 [osBank (128 * 1023)] = some ⟨0, 9, 0⟩ ∧ landing1.memWf = true)
    ∧ (((returning 0).stitch 0).isSome = true ∧ getF (returning 0) Reg.NET_ST_STATUS_CREDIT 0 < stitch0.credits ∧ (returning 0).arrayFrozen = false ∧ (returning 0).tileFrozen stitch0.startTile = false)
    ∧ (((returning 1).stitch 0).isSome = true ∧ getF (returning 1) Reg.NET_ST_STATUS_CREDIT 0 < stitch0.credits ∧ (returning 1).arrayFrozen = false ∧ (returning 1).tileFrozen stitch0.startTile = false)
    ∧ (((returning 2).stitch 0).isSome = true ∧ getF (returning 2) Reg.NET_ST_STATUS_CREDIT 0 < stitch0.credits ∧ (returning 2).arrayFrozen = false ∧ (returning 2).tileFrozen stitch0.startTile = false) := by
  decide +kernel

def eventful (n : Nat) : State := (setF live Reg.NET_LINK_LIMIT_WINDOW 1).modLink 0 1 (fun l => { l with inWindow := 70000, fails := n })

theorem wit_LinkFaultsComplete :
    ((arriving 0 msg0).stitch 0).isSome = true
    ∧ stitch0.hops[0]? = some (0, 1)
    ∧ [(⟨0, msg0, [1], none⟩ : CMsg)].findIdx? (fun m => m.lostAt.isNone && m.points.any (0 < ·)) = some 0
    ∧ (arriving 0 msg0).tileFrozen 0 = false
    ∧ ((eventful 2).linkUp 0 1 = true ∧ (eventful 2).tileFrozen 0 = false)
    ∧ 2 ≤ ((eventful 2).link 0 1).fails
    ∧ (((eventful 1).link 0 1).fails < 2 ∧ (eventful 1).linkUp 0 1 = true)
    ∧ getF (eventful 2) Reg.NET_LINK_LIMIT_WINDOW ≠ 0
    ∧ getF (eventful 2) Reg.NET_LINK_LIMIT_COUNT < ((eventful 2).link 0 1).inWindow
    ∧ (live.tile 2047).routerRetired = false
    ∧ live.mayWrite Reg.NET_LINK_FORCE_OFF 0 0 = true
    ∧ (bothWays (getF live Reg.NET_LINK_SEL_TILE) (getF live Reg.NET_LINK_SEL_PORT)).all (fun h => (live.link h.1 h.2).rsv.isNone) = true := by
  decide +kernel

/-- A multicast message of group 0 that waits at tile 0 for the tile east of it, behind two others of its class at that tile's input; and a torn
branch there. -/
def copy0 : Flight := ⟨3, .tile 0, 0, ⟨({ cls := 1, mc := true, dst := 0 } : Hdr).toWord, 7, 0⟩, [1], 0, 8, 0⟩
def torn0 : Torn := ⟨0, 1, 0, 1, copy0, [1]⟩
def held0 : State := setF { live with flights := [copy0, { flight1 with id := 4, dsts := [2] }, { flight1 with id := 5, dsts := [2] }] } Reg.NET_MCAST_HOLD_HOLD 1
def tornBranch : State := { live with torn := [torn0] }
def marker0 : Flight := ⟨0, .tile 0, 0, torn0.marker, [1], 0, 9, 0⟩
def rectWord (x0 x1 y0 y1 p v : Nat) : Word := BitVec.ofNat 32 (x0 + x1 * 2 ^ 6 + y0 * 2 ^ 12 + y1 * 2 ^ 17 + p * 2 ^ 22 + v * 2 ^ 26)

theorem wit_MulticastCommandsComplete :
    getF held0 Reg.NET_MCAST_HOLD_HOLD ≠ 0
    ∧ held0.arrayFrozen = false
    ∧ held0.panelState (getF held0 Reg.NET_MCG_PANEL 0) ≠ 2
    ∧ held0.heldBranch 0 0 1 = some (copy0, [1])
    ∧ ((held0.branch copy0 1).1.isSome = true ∧ (held0.branch copy0 1).1.any (fun h => held0.hasCredit copy0 h [1]) = false)
    ∧ (tornBranch.torn.find? (fun v => decide (v.router = 0 ∧ v.port = 1 ∧ v.group = 0)) = some torn0)
    ∧ (tornBranch.branch marker0 1).1.any (fun h => tornBranch.hasCredit marker0 h [1]) = true
    ∧ live.mayWrite Reg.NET_MCG_X0 255 0 = true
    ∧ (panelled live 0 0 63 0 31).groupValid 0 63 0 31 0 = true
    ∧ live.groupValid 0 1 0 1 0 = false
    ∧ bitAt (rectWord 0 63 0 31 0 1).toNat 26 = true
    ∧ bitAt (rectWord 0 63 0 31 0 0).toNat 26 = false := by
  decide +kernel

/-- Panel 3 free, over four tiles. -/
def undefd : State := setF (panelled live 3 0 1 0 1) Reg.CMD_PANEL_STATUS_STATE 0 3
def inState (n : Nat) : State := setF (panelled live 3 0 1 0 1) Reg.CMD_PANEL_STATUS_STATE n 3
/-- Panel 3 with a packet of 24 bytes whose last word has still to come. -/
def coming : State := (inState 1).modPanel 3 (fun x => { x with hdrHeld := true, words := SMap.set 0 x.words 0 (24 + 9 * 2 ^ 16) })
/-- A packet of panel 0 at offset 0: a tag of 24 bytes with its CRC. -/
def tagBytes (crc : Nat) : List Byte := wordsOf [24 + 9 * 2 ^ 16, 0, crc, 0, 0x00040003, 0]
def tagCrc : Nat := (crc32c (tagBytes 0)).toNat
def committed (crc : Nat) : State := (panelled live 0 0 1 0 1).modPanel 0 (fun x => { x with
  words := ([24 + 9 * 2 ^ 16, 0, crc, 0, 0x00040003, 0].zipIdx).foldl (fun m e => SMap.set 0 m e.2 (BitVec.ofNat 32 e.1)) x.words
  undecided := [⟨0, 24, none⟩]
  packets := if crc = tagCrc then [] else [⟨65512, 24, 0, qcmd 9 0 false [0, 0]⟩] })

theorem wit_PanelControlCompletes :
    live.mayWrite Reg.CMD_PANEL_CTRL_DEFINE 15 0 = true
    ∧ flag live Reg.CMD_PANEL_CTRL_DEFINE 15 = false
    ∧ undefd.defCause 3 = 0
    ∧ (setF live Reg.CMD_PANEL_RECT_X0 5 0).defCause 0 = 1
    ∧ ((undefd.modPanel 3 (fun x => { x with defining := true })).panel 3).defining = true
    ∧ undefd.arrayFrozen = false
    ∧ live.mayWrite Reg.CMD_PANEL_CTRL_UNDEFINE 3 0 = true
    ∧ (inState 1).panelState 3 = 1
    ∧ ((setF (inState 1) Reg.CMD_PANEL_CTRL_UNDEFINE 1 3).modPanel 3 (fun x => { x with undefining := true })).panelState 3 ≠ 3
    ∧ (inState 2).mayWrite Reg.CMD_PANEL_CTRL_RESET 3 0 = true
    ∧ (inState 2).frozenMaster (idCmd 3) = false
    ∧ (inState 2).panelState 3 = 2
    ∧ (inState 3).panelState 3 = 3
    ∧ (inState 3).arrayFrozen = false
    ∧ ((inState 3).boundChans 3).all (fun c => decide ((inState 3).chanState c.1 c.2 ≠ 3)) = true
    ∧ (inState 2).mayWrite Reg.CMD_PANEL_CTRL_THAW 3 0 = true
    ∧ (inState 2).arrayFrozen = false := by
  decide +kernel

theorem wit_PanelHostCommandsComplete :
    live.mayWrite Reg.CMD_PANEL_CTRL_RESUME 0 0 = true
    ∧ flag live Reg.CMD_PANEL_STATUS_SLEEP 0 = false
    ∧ live.mayWrite Reg.PWR_PSLEEP_SLEEP 0 0 = true
    ∧ fbit live Reg.PWR_PSLEEP_SLEEP 15 = false
    ∧ (inState 1).maySleep 3 = true
    ∧ live.maySleep 15 = false
    ∧ live.mayWrite Reg.PWR_PWAKE_WAKE 0 0 = true
    ∧ flag (setF (inState 1) Reg.CMD_PANEL_STATUS_SLEEP 1 3) Reg.CMD_PANEL_STATUS_SLEEP 3 = true
    ∧ live.mayWrite Reg.CMD_POST_GO 15 0 = true
    ∧ flag live Reg.CMD_POST_BUSY 15 = false := by
  decide +kernel

theorem wit_IntakeCommandsComplete :
    live.hostServed = true
    ∧ live.warming = none
    ∧ live.intakeRefused = false
    ∧ (inState 1).panelState 3 = 1
    ∧ flag (inState 1) Reg.CMD_INTAKE_STATUS_STOPPED 3 = false
    ∧ (inState 1).protectedAt 3 65532 = false
    ∧ ((65532 : Nat) ≠ ((inState 1).panel 3).fill ∧ (inState 1).intakeWaits 3 = false ∧ ((inState 1).panel 3).hdrHeld = false)
    ∧ (lenOk (({ ((inState 1).panel 3).commitNow with words := SMap.set 0 ((inState 1).panel 3).commitNow.words 0 7, hdrHeld := true }).lenAt ((inState 1).panel 3).commitNow.fill) = false ∧ ((inState 1).panel 3).commitNow.fill = 0)
    ∧ ((coming.panel 3).commitNow.hdrHeld = true ∧ coming.protectedAt 3 20 = false ∧ coming.panelState 3 = 1 ∧ (coming.panel 3).commitNow.lenAt 0 = 24 ∧ (20 : Nat) = (0 + 24 - 4) % 65536 ∧ lenOk 24 = true)
    ∧ live.mayWrite Reg.CMD_INTAKE_CTRL_RESYNC 15 0 = true
    ∧ ((committed tagCrc).panel 0).undecided = [⟨0, 24, none⟩]
    ∧ (committed tagCrc).intakeWaits 0 = false
    ∧ (committed tagCrc).packetCause 0 ⟨((committed tagCrc).panel 0).bytes 0 24⟩ = 0
    ∧ (committed 1).packetCause 0 ⟨((committed 1).panel 0).bytes 0 24⟩ = 1
    ∧ ((committed 1).panel 0).packets ≠ []
    ∧ (committed 1).intakeWaits 0 = false
    ∧ (((committed 1).panel 0).queue 0).length < queueSize 0 := by
  decide +kernel

def tag0 : QCmd := qcmd 9 0 false [0x00040003, 0]
def snap0 : QCmd := qcmd 8 0 false [1, 1]
def barrier0 (b : Bool) : QCmd := qcmd 6 0 b []
/-- A load of 128 bytes for the operand store (k = 1) or of 128 bytes of program (k = 0) of tile 0. -/
def load0 (k : Nat) : QCmd := qcmd 2 0 false ([k * 2 ^ 12, 0, 128, 0] ++ List.replicate 32 1)
def move0 (b : Bool) : QCmd := qcmd 3 0 b ([0, 0, 0, 0] ++ List.replicate 16 0)
def mark0 (b : Bool) : QCmd := qcmd 4 0 b [1, 0]
def wait0 (b : Bool) : QCmd := qcmd 5 0 b [0, 0]
/-- A stitch from tile 0 to the tile east of it: one leg. -/
def stitchCmd (op leg : Nat) : QCmd := qcmd 7 0 false [op * 2 ^ 10 + 1 * 2 ^ 14 + 2 ^ 24, 1 * 2 ^ 11, 0, 0, leg, 0, 0, 0]
/-- The release of stitch 0. -/
def releaseCmd : QCmd := qcmd 7 0 false [2 ^ 10, 0, 0, 0, 0, 0, 0, 0]
def bound (s : State) : State := setF (setF s Reg.MOV_CH_CFG_BOUND 1 0 0) Reg.MOV_CH_CFG_PANEL 0 0 0

theorem wit_QueueZeroCommandsComplete :
    (queued 0 launch1).head0 0 1 = some launch1
    ∧ (launch1.issued = false ∧ (launch1.targets.all (fun t => !((queued 0 launch1).tile t).busyRun)) = true ∧ ((queued 0 launch1).panel 0).snaps = [])
    ∧ (queued 0 launch1).launchCause 0 launch1 = 0
    ∧ (queued 0 (load0 0)).head0 0 2 = some (load0 0)
    ∧ (queued 0 (load0 0)).loadCause 0 (load0 0) = 0
    ∧ bits ((load0 0).word 0) 13 12 = 0
    ∧ (queued 0 (load0 1)).head0 0 2 = some (load0 1)
    ∧ (queued 0 (load0 1)).loadCause 0 (load0 1) = 0
    ∧ bits ((load0 1).word 0) 13 12 ≠ 0
    ∧ ((load0 1).issued = false ∧ (load0 0).issued = false)
    ∧ (queued 0 tag0).head0 0 9 = some tag0
    ∧ (queued 0 signal0).head0 0 10 = some signal0
    ∧ (queued 0 snap0).head0 0 8 = some snap0
    ∧ (queued 0 (barrier0 false)).head0 0 6 = some (barrier0 false)
    ∧ (queued 0 (barrier0 true)).head0 0 6 = some (barrier0 true)
    ∧ (barrier0 true).issued = true
    ∧ ((List.range 8).all (fun q => (((queued 0 (barrier0 true)).panel 0).queue q).all (fun e => !decide (e.op = 3 ∧ e.ord < (barrier0 true).ord))) = true)
    ∧ ((queued 0 (barrier0 true)).panelTiles 0).all (fun t => ((queued 0 (barrier0 true)).tile t).arrived) = true := by
  decide +kernel

theorem wit_MoverQueueCommandsComplete :
    ((((queued 7 (move0 false)).panel 0).queue 7).find? (fun c => decide (c.op = 3 ∧ ¬ c.issued)) = some (move0 false))
    ∧ (queued 7 (move0 false)).queueRuns 0 7 = true
    ∧ outstanding (((queued 7 (move0 false)).panel 0).queue 7) < (queued 7 (move0 false)).qLimit 0 7
    ∧ waitBefore (((queued 7 (move0 false)).panel 0).queue 7) 0 = false
    ∧ (queued 7 (move0 false)).moveRoom 0 (move0 false) = true
    ∧ (((queued 1 (move0 true)).panel 0).queue 1).find? (fun c => decide (c.op = 3) && c.issued && !c.sent) = some (move0 true)
    ∧ ((queued 1 (move0 true)).cmdStopped 0 = false ∧ SMap.get false ((queued 1 (move0 true)).panel 0).held 1 = false ∧ ((queued 1 (move0 true)).panel 0).marksBefore 0 = false ∧ (queued 1 (move0 true)).boundTo 0 0 0 = false)
    ∧ (bound (queued 1 (move0 true))).boundTo 0 0 0 = true
    ∧ ((bound (queued 1 (move0 true))).cmdStopped 0 = false ∧ SMap.get false ((bound (queued 1 (move0 true))).panel 0).held 1 = false ∧ ((bound (queued 1 (move0 true))).panel 0).marksBefore 0 = false ∧ (((bound (queued 1 (move0 true))).panel 0).queue 1).find? (fun c => decide (c.op = 3) && c.issued && !c.sent) = some (move0 true))
    ∧ ((bound (queued 1 (move0 true))).chan 0 0).waiting.length < 16
    ∧ (queued 1 (mark0 false)).unbegun 0 1 4 = some (mark0 false)
    ∧ (queued 1 (mark0 false)).queueRuns 0 1 = true
    ∧ (((queued 0 (mark0 true)).panel 0).queue 0).head? = some (mark0 true)
    ∧ (queued 0 (mark0 true)).cmdStopped 0 = false
    ∧ (queued 1 (wait0 false)).unbegun 0 1 5 = some (wait0 false)
    ∧ (queued 1 (wait0 false)).queueRuns 0 1 = true
    ∧ (((queued 7 (wait0 true)).panel 0).queue 7).find? (fun c => decide (c.op = 5)) = some (wait0 true)
    ∧ (queued 7 (wait0 true)).cmdStopped 0 = false
    ∧ (getF (queued 7 (wait0 true)) Reg.CMD_QMARK_REACHED 0 (bits ((wait0 true).word 0) 18 16) + 65536 - bits ((wait0 true).word 0) 15 0) % 65536 < 32768 := by
  decide +kernel

def releasing0 (b : Bool) : State := setF ((queued 0 { releaseCmd with issued := b }).setStitch 0 (some { stitch0 with releasing := b })) Reg.NET_ST_STATUS_STATE 1 0

theorem wit_StitchCommandsComplete :
    (queued 0 (stitchCmd 0 17)).head0 0 7 = some (stitchCmd 0 17)
    ∧ (stitchCmd 0 17).stOp ≠ 1
    ∧ (queued 0 (stitchCmd 0 17)).stitchCause 0 (stitchCmd 0 17) = 0
    ∧ ((queued 0 (stitchCmd 2 1)).stitchCause 0 (stitchCmd 2 1) = 2 ∧ (queued 0 (stitchCmd 2 1)).head0 0 7 = some (stitchCmd 2 1))
    ∧ ((live.stPath (stitchCmd 0 17)).isSome = true ∧ (stitchCmd 0 17).stNum = 0)
    ∧ (releasing0 false).head0 0 7 = some releaseCmd
    ∧ (releaseCmd.relFields = true ∧ releaseCmd.issued = false ∧ releaseCmd.stOp = 1)
    ∧ (releasing0 false).stitch 0 = some { stitch0 with releasing := false }
    ∧ getF (releasing0 false) Reg.NET_ST_STATUS_PANEL 0 = 0
    ∧ (releasing0 true).stitch 0 = some { stitch0 with releasing := true }
    ∧ stitch0.flight = []
    ∧ (releasing0 true).panelFrozen 0 = false
    ∧ ((((releasing0 true).freeStitch 0).panel 0).queue 0).head? = some { releaseCmd with issued := true }
    ∧ releaseCmd.stNum = 0 := by
  decide +kernel

/-- A descriptor of 64 bytes in one dimension, from mover address a to mover address b. -/
def desc (a b len ctrl : Nat) : Desc := ⟨wordsOf ([a % 2 ^ 32, a / 2 ^ 32, b % 2 ^ 32, b / 2 ^ 32, len, 0, 0, ctrl] ++ List.replicate 8 0), 9, 1, 2, none⟩
def toHbm : Desc := desc 0 4096 64 1
def fromHost : Desc := desc (3 * 2 ^ 60) 0 64 1
def waits (s : State) (k n : Nat) (d : Desc) : State := s.modChan k n (fun x => { x with waiting := [d] })
/-- Channel n of cluster k with the current descriptor d in state st. -/
def moving (k n st : Nat) (d : Desc) : State := (hbmLive.modChan k n (fun x => { x with cur := some d })).setChanState k n st
/-- The state in which a descriptor that has just become current is looked at. -/
def opened (s : State) (k n : Nat) (d : Desc) : State :=
  let u := s.modChan k n (fun x => { x with waiting := [], cur := some d, done := 0, errSeen := false }.rewind)
  setF (setF (setF u Reg.MOV_CH_STATUS_BLOCKS 0 k n) Reg.MOV_CH_STATUS_DERR 0 k n) Reg.MOV_CH_STATUS_ERR_SEEN 0 k n
/-- Channel 0 of cluster 0, all of whose block is written. -/
def written : State := (moving 0 0 1 toHbm).modChan 0 0 (fun x => { x with rd := 64, wr := 64 })
def writtenOut : State := State.engines 0 0 toHbm 16384 (written.farData 0 0)
/-- A stop of channel n of cluster 8 with status st at host address 0. -/
def stopping (st : Nat) : State := (moving 8 63 1 fromHost).modChan 8 63 (fun c => { c with stop := c.stop.or (some (st, 3 * 2 ^ 60)) })
/-- A host read of 64 bytes is outstanding on channel 63. -/
def asked : State := (moving 8 63 1 fromHost).modChan 8 63 (fun c => { c with rd := 64, buf := [⟨3 * 2 ^ 60, 64, [], [], []⟩] })
def ats (pri : Bool) : State := { setF asked Reg.MOV_HOST_CFG_PRI_EN (bit pri) with
  pciCfg := SMap.set 0 [((capPRI + 4) / 4, 1)] ((capATS + 4) / 4) (2 ^ 31) }
/-- Channel 63 of cluster 8 waits for a page response. -/
def paged : State := moving 8 63 4 fromHost
def aborting (d : Option Desc) : State := (moving 8 63 3 fromHost).modChan 8 63 (fun c => { c with cur := d })
def posting : State := setF live Reg.MOV_CH_CFG_DIRECT 1 8 63

theorem wit_MoverRunsComplete :
    ((waits hbmLive 8 63 toHbm).chanState 8 63 = 0 ∧ (waits hbmLive 8 63 toHbm).chanHeld 8 63 = false)
    ∧ ((waits hbmLive 8 63 toHbm).chan 8 63).waiting = [toHbm]
    ∧ (opened hbmLive 8 63 (desc 1 4096 64 1)).derr 8 (desc 1 4096 64 1) ≠ 0
    ∧ ((opened hbmLive 8 63 (desc 0 4096 0 1)).derr 8 (desc 0 4096 0 1) = 0 ∧ (desc 0 4096 0 1).total = 0)
    ∧ ((opened hbmLive 8 63 toHbm).derr 8 toHbm = 0 ∧ toHbm.total ≠ 0)
    ∧ (((opened hbmLive 8 63 toHbm).setCursor 8 63 toHbm 0).descRefused 8 toHbm).1 = 0
    ∧ ((written.chan 0 0).cur = some toHbm ∧ writtenOut.chanGoes 0 0 = true ∧ writtenOut.blockHere 0 0 toHbm = true ∧ (writtenOut.chan 0 0).far = false)
    ∧ (hbmLive.accessBad 0 4096 64 = false ∧ spaceOf 4096 = 0)
    ∧ (hbmLive.accessBad 8 (3 * 2 ^ 60) 64 = false ∧ spaceOf (3 * 2 ^ 60) = 3) := by
  decide +kernel

theorem wit_MoverErrorsComplete :
    asked.chanState 8 63 = 1
    ∧ (((stopping 3).chan 8 63).cur = some fromHost ∧ ((stopping 3).chan 8 63).stop = some (3, 3 * 2 ^ 60) ∧ (stopping 3).inFlight 8 63 = false ∧ (stopping 3).blockHere 8 63 fromHost = false)
    ∧ (((stopping 4).chan 8 63).stop = some (4, 3 * 2 ^ 60) ∧ (stopping 4).inFlight 8 63 = false ∧ (stopping 4).blockHere 8 63 fromHost = false)
    ∧ (((ats true).chan 8 63).cur = some fromHost ∧ (ats true).chanState 8 63 = 1 ∧ (ats true).arrayFrozen = false ∧ (ats true).atsEn = true)
    ∧ ((ats true).chan 8 63).needs fromHost (3 * 2 ^ 60 % 2 ^ 57 / 4096) = true
    ∧ (flag (ats true) Reg.MOV_HOST_CFG_PRI_EN && (ats true).priEn && !(ats true).priStopped) = true
    ∧ (flag (ats false) Reg.MOV_HOST_CFG_PRI_EN && (ats false).priEn && !(ats false).priStopped) = false
    ∧ (paged.chanState 8 63 = 4 ∧ paged.chanHeld 8 63 = false)
    ∧ ((asked.chan 8 63).hostWait = some (0, ⟨3 * 2 ^ 60, 64, [], [], []⟩) ∧ asked.pcieUp = true) := by
  decide +kernel

theorem wit_MoverControlCompletes :
    ((moving 8 63 1 fromHost).mayWrite Reg.MOV_CH_CTRL_ABORT 8 63 = true ∧ ((moving 8 63 1 fromHost).chan 8 63).cur.isSome = true)
    ∧ ((aborting (some fromHost)).arrayFrozen = false ∧ (aborting (some fromHost)).chanState 8 63 = 3 ∧ (aborting (some fromHost)).inFlight 8 63 = false ∧ ((aborting (some fromHost)).chan 8 63).cur = some fromHost ∧ (aborting (some fromHost)).blockHere 8 63 fromHost = false)
    ∧ ((aborting none).arrayFrozen = false ∧ (aborting none).chanState 8 63 = 3 ∧ (aborting none).inFlight 8 63 = false ∧ ((aborting none).chan 8 63).cur = none)
    ∧ ((moving 0 0 2 toHbm).mayWrite Reg.MOV_CH_CTRL_RETRY 0 0 = true ∧ (moving 0 0 2 toHbm).mayWrite Reg.MOV_CH_CTRL_SKIP 0 0 = true)
    ∧ ((moving 0 0 2 toHbm).chanState 0 0 = 2 ∧ (moving 0 0 2 toHbm).chanHeld 0 0 = false)
    ∧ (posting.mayWrite Reg.MOV_CH_POST_DESC 8 (16 * 63 + 15) = true ∧ flag posting Reg.MOV_CH_CFG_DIRECT 8 63 = true ∧ flag posting Reg.MOV_CH_CFG_BOUND 8 63 = false ∧ (posting.chan 8 63).waiting.length < 16) := by
  decide +kernel

def patchCmd0 (op : Nat) : QCmd := qcmd 11 0 false [op + 47 * 4, 0, 0, 0, 0, 0]
def request (op buf len : Nat) : EngReq := ⟨op, 47, buf, 0, len, none⟩
def engine (ph op buf len : Nat) : State := hbmLive.modCfg (fun c => { c with cur := some (request op buf len), phase := ph, tapBytes := List.replicate 64 0 })
/-- HBM of which the word at address 0 is uncorrectable, also where it is read again. -/
def markedAt0 (s : State) : State := s.setMark (s.hbmKey 0 / 8) 4
def repairing : State := setF (setF live Reg.MGT_PROFILE_PROFILE 1) Reg.CFG_PATCH_STATUS_STATE 3 47

theorem wit_PatchRequestsComplete :
    ((queued 0 (patchCmd0 0)).head0 0 11 = some (patchCmd0 0) ∧ ((queued 0 (patchCmd0 0)).patchRefusal 0 0 47 ((patchCmd0 0).num 8 8) ((patchCmd0 0).word 16)).isNone = true ∧ bits ((patchCmd0 0).word 0) 1 0 = 0)
    ∧ ((queued 0 (patchCmd0 1)).head0 0 11 = some (patchCmd0 1) ∧ ((queued 0 (patchCmd0 1)).patchRefusal 0 1 47 ((patchCmd0 1).num 8 8) ((patchCmd0 1).word 16)).isNone = true ∧ bits ((patchCmd0 1).word 0) 1 0 = 1)
    ∧ ((queued 0 (patchCmd0 2)).head0 0 11 = some (patchCmd0 2) ∧ ((queued 0 (patchCmd0 2)).patchRefusal 0 2 47 ((patchCmd0 2).num 8 8) ((patchCmd0 2).word 16)).isNone = true ∧ bits ((patchCmd0 2).word 0) 1 0 = 2)
    ∧ ((queued 0 (patchCmd0 3)).head0 0 11 = some (patchCmd0 3) ∧ ((queued 0 (patchCmd0 3)).patchRefusal 0 3 47 ((patchCmd0 3).num 8 8) ((patchCmd0 3).word 16)).isNone = true ∧ bits ((patchCmd0 3).word 0) 1 0 = 3)
    ∧ (live.cfg.cur = none ∧ live.arrayFrozen = false)
    ∧ ((live.modCfg (fun c => { c with queue := [request 0 1 64] })).cfg.queue = [request 0 1 64] ∧ (request 0 1 64).op = 0)
    ∧ ((live.modCfg (fun c => { c with queue := [request 1 1 64] })).cfg.queue = [request 1 1 64] ∧ (request 1 1 64).op = 1)
    ∧ ((live.modCfg (fun c => { c with queue := [request 2 1 64] })).cfg.queue = [request 2 1 64] ∧ (request 2 1 64).op = 2)
    ∧ ((live.modCfg (fun c => { c with queue := [request 3 1 64] })).cfg.queue = [request 3 1 64] ∧ (request 3 1 64).op = 3)
    ∧ ((live.modCfg (fun c => { c with queue := [request 4 1 64] })).cfg.queue = [request 4 1 64] ∧ (request 4 1 64).op = 4)
    ∧ ((live.modCfg (fun c => { c with queue := [request 5 1 64] })).cfg.queue = [request 5 1 64] ∧ (request 5 1 64).op = 5)
    ∧ ((engine 1 0 0 64).cfg.cur = some (request 0 0 64) ∧ (engine 1 0 0 64).cfg.phase = 1)
    ∧ (engine 1 0 0 64).hbmRefused idHost 0 63 = false
    ∧ ((engine 1 0 0 64).hbmBusy 0 64 = false ∧ (engine 1 0 0 64).arrayFrozen = false ∧ (request 0 0 64).len ≤ 2 * 2 ^ 20)
    ∧ ((engine 1 0 0 64).hbmRead 0 64).2.2 = false
    ∧ (((markedAt0 (engine 1 0 0 64)).hbmRead 0 64).2.2 = true ∧ (markedAt0 (engine 1 0 0 64)).hbmRefused idHost 0 63 = false ∧ (markedAt0 (engine 1 0 0 64)).hbmBusy 0 64 = false)
    ∧ ((engine 2 1 1 0).patchQuiet 47 = true ∧ (engine 2 1 1 0).cfg.phase = 2 ∧ (engine 2 1 1 0).arrayFrozen = false)
    ∧ ((engine 3 1 1 0).cfg.phase = 3 ∧ (engine 3 1 1 0).arrayFrozen = false) := by
  decide +kernel

theorem wit_FabricLoadsComplete :
    live.mayWrite Reg.CFG_LOAD_CTRL_GO 0 0 = true
    ∧ (flag live Reg.CFG_LOAD_CTRL_GO = false ∧ bits (2 : Word).toNat 1 0 < 3)
    ∧ ((engine 4 4 4 0).cfg.phase = 4 ∧ (engine 4 4 4 0).arrayFrozen = false)
    ∧ (List.range 48).all (engine 4 4 4 0).patchQuiet = true
    ∧ ((engine 4 4 4 0).fullImage (request 4 4 0)).any (fun e => match e.2 with | .ok _ => true | _ => false) = true
    ∧ repairing.availability = true
    ∧ repairing.firmware = true
    ∧ (List.range 48).find? repairing.toRepair = some 47
    ∧ (getF live Reg.OBS_FRZ_STATUS_STATE ≠ 3 ∧ live.shutdown = false)
    ∧ live.fullLoading = false
    ∧ faRegion (getF live Reg.CFG_SCRUB_STATUS_FRAME) = some 0
    ∧ flag ((setF live Reg.CFG_SCRUB_CFG_EN 1).setFrame 0 ((live.frame 0).upset [])) Reg.CFG_SCRUB_CFG_EN = true
    ∧ ((setF live Reg.CFG_SCRUB_CFG_EN 1).setFrame 0 ((live.frame 0).upset [])).engaged 0 = false
    ∧ live.firmware = true
    ∧ ((live.cfg.queue ++ live.cfg.cur.toList).all (fun r => !decide (r.op = 4 ∧ r.buf = 4)) = true)
    ∧ ({ live with tapIr := 0x2C } : State).tapIr = 0x2C := by
  decide +kernel

def trk0 (w : Bool) : Trk := ⟨0xFF, w, 0, 0, List.replicate 64 7, false, false⟩
def held64 (w : Bool) : State := hbmLive.setTrk 255 [trk0 w]
def due0 : State := { hbmLive with hbm := { hbmLive.hbm with due := [2047, 5] } }
/-- 512 sections retired, one more due. -/
def fullRet : State := { hbmLive with regs := (List.range 16).foldl (fun m k => (setF { State.reset with regs := m } Reg.HBM_RETIRED_SECT 0xFFFFFFFF k).regs) hbmLive.regs
                                      hbm := { hbmLive.hbm with due := [2047] } }
/-- The controller of address 0, of which all 64 entries are in use. -/
def fullCtl : State := hbmLive.setTrk (sectCtl (hbmLive.hbmPlace 0).1) (List.replicate 64 (trk0 false))
def noneLeft : State := setF hbmLive Reg.HBM_CH_STATUS_STATE 2 (sectCtl (hbmLive.hbmPlace 0).1 / 32) (sectCtl (hbmLive.hbmPlace 0).1 % 32)
/-- A device in the availability profile whose channel 0 is trained. -/
def serviced : State := setF (setF live Reg.MGT_PROFILE_PROFILE 1) Reg.HBM_CH_STATUS_STATE 1 0 0
def owned : State := setF hbmLive Reg.HBM_TRN_CTRL_OWN 1 7

theorem wit_HbmRequestsComplete :
    hbmLive.hbmRuns = true
    ∧ hbmLive.hbmGranted 0 false 0 63 = true
    ∧ hbmLive.hbmRefused 0 0 63 = false
    ∧ hbmLive.hbmWaits (sectCtl (hbmLive.hbmPlace 0).1) = false
    ∧ (hbmLive.trk (sectCtl (hbmLive.hbmPlace 0).1)).length < 64
    ∧ (read64.write = false ∧ write64.write = true)
    ∧ (fullCtl.hbmRuns = true ∧ fullCtl.hbmGranted 0 false 0 63 = true ∧ fullCtl.hbmRefused 0 0 63 = false ∧ 64 ≤ (fullCtl.trk (sectCtl (fullCtl.hbmPlace 0).1)).length)
    ∧ (noneLeft.hbmRuns = true ∧ noneLeft.hbmGranted 0x10 true 64 127 = true ∧ noneLeft.hbmRefused 0x10 64 127 = false)
    ∧ noneLeft.hbmWaits (sectCtl (noneLeft.hbmPlace 0).1) = true
    ∧ (SMap.get 0 hbmLive.hbm.caErr (sectCtl (hbmLive.hbmPlace 0).1) = 0 ∧ (held64 false).hbm.err = [])
    ∧ ((held64 false).trk 255)[0]? = some (trk0 false)
    ∧ ((held64 true).trk 255)[0]? = some (trk0 true)
    ∧ (held64 false).hbmRuns = true
    ∧ hbmLive.mayWrite Reg.HBM_MAP_CTRL_EN 0 0 = true := by
  decide +kernel

theorem wit_HbmRetirementCompletes :
    getF (setF hbmLive Reg.HBM_CH_LIMIT_WINDOW 1) Reg.HBM_CH_LIMIT_WINDOW ≠ 0
    ∧ (¬ (bitAt 255 8 = true ∧ getF hbmLive Reg.HBM_CH_LIMIT_COUNT < SMap.get 0 hbmLive.hbm.parity 255))
    ∧ due0.hbmRuns = true
    ∧ (due0.hbm.retiring = [] ∧ due0.hbm.due ≠ [])
    ∧ due0.retiredSects.length + 1 ≤ 512
    ∧ (ctlSects (sectCtl 5)).all due0.hbm.due.contains = false
    ∧ 512 < fullRet.retiredSects.length + 1
    ∧ (fullRet.hbm.due ≠ [] ∧ fullRet.hbmRuns = true)
    ∧ ({ hbmLive with hbm := { hbmLive.hbm with retiring := [5] } } : State).hbm.retiring ≠ []
    ∧ ({ hbmLive with hbm := { hbmLive.hbm with retiring := [5] } } : State).hbmRuns = true := by
  decide +kernel

theorem wit_HbmTrainingCompletes :
    (serviced.availability = true ∧ serviced.firmware = true ∧ serviced.hbmRuns = true)
    ∧ serviced.chF Reg.HBM_CH_STATUS_STATE (32 * (serviced.hbm.nextRetrain % 8) + serviced.hbm.nextRetrain / 8) = 1
    ∧ (serviced.hbm.retiring = [] ∧ serviced.hbm.retraining = none)
    ∧ hbmLive.mayWrite Reg.HBM_TRN_CTRL_OWN 7 0 = true
    ∧ flag hbmLive Reg.HBM_TRN_CTRL_OWN 7 = false
    ∧ (bitAt (0x7FF : Nat) 6 = true ∧ bits 0x7FF 11 10 ≠ 0)
    ∧ owned.mayWrite Reg.HBM_TRN_CTRL_GO 7 0 = true
    ∧ flag owned Reg.HBM_TRN_CTRL_OWN 7 = true
    ∧ flag owned Reg.HBM_TRN_CTRL_GO 7 = false
    ∧ (flag (setF owned Reg.HBM_TRN_CTRL_GO 1 7) Reg.HBM_TRN_CTRL_GO 7 = true ∧ owned.hbmRuns = true) := by
  decide +kernel

/-- Link d with protocol p and state st; lane l with state a and step b. -/
def link (d p st : Nat) : State := setF (setF live Reg.LAN_LINK_CFG_PROTO p d) Reg.LAN_LINK_STATUS_STATE st d
def lane (d p st l a b : Nat) : State := setF (setF (link d p st) Reg.LAN_LANE_STATUS_STATE a l) Reg.LAN_LANE_STATUS_STEP b l
def lmsg0 (dst : Nat) : LMsg := ⟨1, 0, 0, ⟨BitVec.ofNat 64 (1 + 2 ^ 7 + dst * 2 ^ 8), 7, 0⟩, none⟩
def flit0 : LFlit := ⟨4095, true, lmsg0 1⟩
def loaded (p : Nat) : State := (link 3 p 2).setLnk 3 { LaneLink.init with retry := [flit0], ackDue := true, arrived := [lmsg0 1], nextMask := some (3, 5), nextSeq := 0 }
/-- A message for tile 1 of device `v`. -/
def lmsgTo (v : Nat) : LMsg := ⟨1, 0, 0, ⟨({ cls := 1, dlv := 1, nt := true, dst := 1, ddev := v } : Hdr).toWord, 7, 0⟩, none⟩
/-- A suit of two devices in x; a message for device 1 has arrived on link 3; link 0 is in state st. -/
def suited (st : Nat) : State :=
  (setF (setF (setF (setF (link 3 1 2) Reg.LAN_SUIT_SX 2) Reg.LAN_SUIT_SY 1) Reg.LAN_LINK_CFG_PROTO 1 0) Reg.LAN_LINK_STATUS_STATE st 0).setLnk 3
    { LaneLink.init with arrived := [lmsgTo 1] }
/-- Seven words of a round of parameter blocks have come on link 3. -/
def sevenWords : State := (lane 3 1 1 31 1 5).modLnk 3 (fun x => { x with words := [1, 2, 3, 4, 5, 6, 7] })
def slipping (a b : Nat) : State := setF (setF (lane 3 1 2 31 a b) Reg.LAN_BITSLIP_LANE 31) Reg.LAN_BITSLIP_GO 1
def retraining : State := setF (slipping 1 5) Reg.LAN_BITSLIP_OP 1

theorem wit_LaneBringUpCompletes :
    (link 3 1 0).mayWrite Reg.LAN_LINK_CFG_UP 3 0 = true
    ∧ ((link 3 1 0).proto 3 ≠ 0 ∧ (link 3 1 0).lnkState 3 = 0)
    ∧ ((link 3 1 4).lnkState 3 = 4 ∧ (link 3 1 4).mayWrite Reg.LAN_LINK_CFG_UP 3 0 = true)
    ∧ ((link 3 2 3).proto 3 = 2 ∧ (link 3 2 3).lnkUp 3 = true ∧ (link 3 2 3).mayWrite Reg.LAN_LINK_CFG_UP 3 0 = true)
    ∧ ((link 3 1 2).mayWrite Reg.LAN_LINK_CFG_DOWN 3 0 = true ∧ (link 3 1 2).lnkState 3 ≠ 0 ∧ (link 3 1 2).proto 3 ≠ 0)
    ∧ ((lane 3 1 1 31 1 0).lanesRun = true ∧ (lane 3 1 1 31 1 0).laneState 31 = 1 ∧ (lane 3 1 1 31 1 0).lnkState 3 = 1 ∧ (lane 3 1 1 31 1 0).proto 3 ≠ 2 ∧ (lane 3 1 1 31 1 0).laneStep 31 = 0)
    ∧ ((lane 3 1 1 31 1 1).lanesRun = true ∧ (lane 3 1 1 31 1 1).laneState 31 = 1 ∧ (lane 3 1 1 31 1 1).lnkState 3 = 1 ∧ (lane 3 1 1 31 1 1).proto 3 ≠ 2 ∧ (lane 3 1 1 31 1 1).laneStep 31 = 1)
    ∧ ((lane 3 1 1 31 1 3).lanesRun = true ∧ (lane 3 1 1 31 1 3).laneState 31 = 1 ∧ (lane 3 1 1 31 1 3).lnkState 3 = 1 ∧ (lane 3 1 1 31 1 3).proto 3 ≠ 2 ∧ (lane 3 1 1 31 1 3).laneStep 31 = 3)
    ∧ ((lane 3 1 1 31 1 4).lanesRun = true ∧ (lane 3 1 1 31 1 4).laneState 31 = 1 ∧ (lane 3 1 1 31 1 4).lnkState 3 = 1 ∧ (lane 3 1 1 31 1 4).proto 3 ≠ 2 ∧ (lane 3 1 1 31 1 4).laneStep 31 = 4)
    ∧ ((lane 3 1 1 31 1 5).lanesRun = true ∧ (lane 3 1 1 31 1 5).laneState 31 = 1 ∧ (lane 3 1 1 31 1 5).lnkState 3 = 1 ∧ (lane 3 1 1 31 1 5).proto 3 ≠ 2 ∧ (lane 3 1 1 31 1 5).laneStep 31 = 5)
    ∧ ((lane 3 2 1 31 1 0).proto 3 = 2 ∧ (lane 3 2 1 31 1 0).lnkState 3 = 1 ∧ (lane 3 2 1 31 1 0).laneState 31 = 1 ∧ (lane 3 2 1 31 1 0).lanesRun = true)
    ∧ ((lane 3 1 1 31 1 5).training 3).any (fun l => decide (5 ≤ (lane 3 1 1 31 1 5).laneStep l)) = true
    ∧ ((lane 3 1 1 31 1 5).lnk 3).words.length = 0
    ∧ ((lane 3 1 1 31 1 2).lanesRun = true ∧ (lane 3 1 1 31 1 2).laneState 31 = 1 ∧ 2 ≤ (lane 3 1 1 31 1 2).laneStep 31)
    ∧ ((sevenWords.lnk 3).words.length = 7 ∧ sevenWords.lanesRun = true ∧ sevenWords.lnkState 3 = 1 ∧ (sevenWords.training 3).any (fun l => decide (5 ≤ sevenWords.laneStep l)) = true) := by
  decide +kernel

theorem wit_LaneTrafficCompletes :
    ((lane 3 1 2 31 2 0).carries 3 = true ∧ (lane 3 1 2 31 2 0).laneState 31 = 2)
    ∧ ((link 3 3 2).carries 3 = true ∧ (link 3 3 2).proto 3 ≠ 1 ∧ bits 0x11E 9 8 ≠ 0)
    ∧ ((link 3 1 2).carries 3 = true ∧ (link 3 1 2).proto 3 = 1 ∧ bits 0x01E 9 8 = 0)
    ∧ (bits 0x11E 7 0 = 0x1E ∧ bits 0x11E 27 16 = ((link 3 1 2).lnk 3).expect)
    ∧ (bits 0xFFF011E 27 16 ≠ ((link 3 1 2).lnk 3).expect ∧ ((link 3 1 2).lnk 3).waitReplay = false)
    ∧ (loaded 1).carries 3 = true
    ∧ ((loaded 1).lnk 3).retry.findIdx? (fun f => decide (f.seq = 4095)) = some 0
    ∧ ((loaded 1).lnk 3).ackDue = true ∨ ((loaded 1).lnk 3).freed ≠ []
    ∧ ((loaded 1).lnk 3).replays = 0
    ∧ (((loaded 3).lnk 3).arrived.find? (fun m => !(loaded 3).arrivalWaits 3 m) = some (lmsg0 1) ∧ (loaded 3).lanesRun = true ∧ (loaded 3).proto 3 = 3)
    ∧ (((loaded 1).lnk 3).arrived.find? (fun m => !(loaded 1).arrivalWaits 3 m) = some (lmsg0 1) ∧ (loaded 1).proto 3 ≠ 3 ∧ (loaded 1).lanesRun = true)
    ∧ (lmsg0 1).msg.h.ddev = (loaded 1).devId
    ∧ (loaded 1).portUp 24 = true
    ∧ (loaded 1).laneAdmits (laneRouter 24) (lmsg0 1).msg.h = true
    ∧ (((suited 2).lnk 3).arrived.find? (fun m => !(suited 2).arrivalWaits 3 m) = some (lmsgTo 1) ∧ (suited 2).lanesRun = true ∧ (suited 2).proto 3 ≠ 3 ∧ (lmsgTo 1).msg.h.ddev ≠ (suited 2).devId ∧ ((suited 2).takeArrived 3 (lmsgTo 1)).suitLink (lmsgTo 1).msg.h.ddev = .inl 0)
    ∧ (((suited 0).lnk 3).arrived.find? (fun m => !(suited 0).arrivalWaits 3 m) = some (lmsgTo 1) ∧ (suited 0).lanesRun = true ∧ (suited 0).proto 3 ≠ 3 ∧ (lmsgTo 1).msg.h.ddev ≠ (suited 0).devId ∧ ((suited 0).takeArrived 3 (lmsgTo 1)).suitLink (lmsgTo 1).msg.h.ddev = .inr 0) := by
  decide +kernel

theorem wit_LaneMaintenanceCompletes :
    (link 3 1 2).carries 3 = true
    ∧ (((loaded 1).lnk 3).nextMask = some (3, 5) ∧ (loaded 1).carries 3 = true)
    ∧ ((link 3 1 5).lanesRun = true ∧ (link 3 1 5).lnkState 3 = 5)
    ∧ ((lane 3 1 3 31 2 0).carries 3 = true ∧ (lane 3 1 3 31 2 0).laneState 31 = 2)
    ∧ ((lane 3 1 2 31 3 0).mayWrite Reg.LAN_BITSLIP_GO 0 0 = true ∧ flag (lane 3 1 2 31 3 0) Reg.LAN_BITSLIP_GO = false ∧ (lane 3 1 2 31 3 0).laneState 31 = 3)
    ∧ (setF (setF (setF (lane 3 1 2 31 3 0) Reg.LAN_BITSLIP_LANE 31) Reg.LAN_BITSLIP_OP 1) Reg.LAN_BITSLIP_COUNT 63).laneState 31 = 3
    ∧ ((slipping 3 0).lanesRun = true ∧ flag (slipping 3 0) Reg.LAN_BITSLIP_GO = true ∧ getF (slipping 3 0) Reg.LAN_BITSLIP_LANE = 31 ∧ flag (slipping 3 0) Reg.LAN_BITSLIP_OP = false ∧ (slipping 3 0).laneState 31 = 3 ∧ ((slipping 3 0).laneSt 31).looped = false ∧ ((slipping 3 0).laneSt 31).ofs.getD 0 = 0)
    ∧ (retraining.lanesRun = true ∧ flag retraining Reg.LAN_BITSLIP_GO = true ∧ getF retraining Reg.LAN_BITSLIP_LANE = 31 ∧ flag retraining Reg.LAN_BITSLIP_OP = true ∧ retraining.laneState 31 = 1 ∧ 5 ≤ retraining.laneStep 31 ∧ getF retraining Reg.LAN_LOOP_MODE 31 = 0)
    ∧ (slipping 3 0).laneState (getF (slipping 3 0) Reg.LAN_BITSLIP_LANE) ≠ 1
    ∧ getF (setF live Reg.LAN_LANE_LIMIT_WINDOW 1) Reg.LAN_LANE_LIMIT_WINDOW ≠ 0
    ∧ getF live Reg.LAN_LANE_LIMIT_COUNT < ((live.modLane 31 (fun x => { x with events := 1000 })).laneSt 31).events
    ∧ (setF (slipping 3 0) Reg.LAN_BITSLIP_OP 1).laneState (getF (slipping 3 0) Reg.LAN_BITSLIP_LANE) ≠ 1
    ∧ ((lane 3 1 2 31 2 0).mayWrite Reg.LAN_LOOP_MODE 31 0 = true ∧ (lane 3 1 2 31 2 0).laneState 31 = 2 ∧ (3 : BitVec 2) ≠ 0)
    ∧ ((setF live Reg.LAN_LOOP_MODE 3 31).mayWrite Reg.LAN_LOOP_GO 31 0 = true ∧ getF (setF live Reg.LAN_LOOP_MODE 3 31) Reg.LAN_LOOP_MODE 31 ≠ 0 ∧ flag (setF live Reg.LAN_LOOP_MODE 3 31) Reg.LAN_LOOP_GO 31 = false)
    ∧ (flag (setF live Reg.LAN_LOOP_GO 1 31) Reg.LAN_LOOP_GO 31 = true ∧ live.lanesRun = true) := by
  decide +kernel

/-- Panel 0 over the whole array, with every gate open; hem port 191 enabled. -/
def gated : State := setF (setF (setF (panelled live 0 0 63 0 31) Reg.CMD_GATE_E_GATE 0xFFFFFFFF 0) Reg.FAB_HEM_CFG_EN 1 191) Reg.FAB_HEM_CFG_EN 1 0
def hhead : HemHead := ⟨1, 0, 0, 5, true, true⟩
/-- Stitch 0 from hem port 191, of delivery dlv, with `credit` credits. -/
def hemStitched (dlv credit : Nat) : State :=
  setF (setF (gated.setStitch 0 (some { stitch0 with srcKind := 1, src := 191, dlv := dlv })) Reg.NET_ST_STATUS_STATE 1 0) Reg.NET_ST_STATUS_CREDIT credit 0
/-- The port has left service with a head held. -/
def hemOut : State := setF (gated.modHem 191 (fun x => { x with head := some hhead })) Reg.MGT_CHN_HEM_MASK 0 23
def hemHolds : State := gated.modHem 191 (fun x => { x with head := some hhead })
def hemGets : State := gated.modHem 191 (fun x => { x with rx1 := [msg0] })
/-- MAC 7 of link 3 runs. -/
def mac7 : State := (List.range 4).foldl (fun s i => setF s Reg.LAN_LANE_STATUS_STATE 2 (28 + i)) (link 3 2 2)
/-- MAC 7 of a link that is up holds all but 36 bytes of what it can. -/
def filled : State := mac7.setMacQueue 7 [(false, false, List.replicate 65500 0)]
def mport (r : List MpReq) : State := (setF hbmLive Reg.FAB_MP_CFG_EN 1 7).setMp 7 ⟨r⟩

theorem wit_MacAndBridgeComplete :
    ((link 3 2 2).fabricStopped = false ∧ (SMap.get [] (link 3 2 2).macTx 7).length < 2)
    ∧ ((64 : Nat) ≤ 60 + 4 ∧ (9212 : Nat) + 4 ≤ 9216)
    ∧ (¬ (64 ≤ (59 : Nat) + 4 ∧ (59 : Nat) + 4 ≤ 9216))
    ∧ mac7.macUp 7 = true
    ∧ ((filled.macQueue 7).foldl (fun a x => a + x.2.2.length) 0 = 65500 ∧ filled.macUp 7 = true ∧ getF filled Reg.OBS_FRZ_STATUS_STATE ≠ 3 ∧ 65536 < 65500 + 60)
    ∧ (getF mac7 Reg.OBS_FRZ_STATUS_STATE ≠ 3 ∧ mac7.macQueue 7 = [])
    ∧ ((link 3 3 2).fabricStopped = false ∧ (link 3 3 2).proto 3 = 3 ∧ (link 3 3 2).lnkUp 3 = true) := by
  decide +kernel

theorem wit_HemPortsComplete :
    (gated.fabricStopped = false ∧ gated.frozenMaster (idHem 191) = false ∧ gated.engaged (hemPatch 191) = false ∧ gated.tileFrozen (hemRouter 191) = false)
    ∧ gated.hemAttached 191 = true
    ∧ (gated.fuseFault = false ∧ gated.hemRight 191 0 = true ∧ (gated.hem 191).head = none)
    ∧ gated.hemFull 191 1 = false
    ∧ gated.hemRouteOk 191 1 0 = true
    ∧ gated.hemRight 191 1 = true
    ∧ (∀ q ∈ [(hemStitched 0 0, false), (hemStitched 0 1, true), (hemStitched 1 0, true)], q.1.fabricStopped = false ∧ q.1.frozenMaster (idHem 191) = false ∧ q.1.engaged (hemPatch 191) = false ∧ q.1.tileFrozen (hemRouter 191) = false ∧ q.1.hemAttached 191 = true ∧ q.1.fuseFault = false ∧ q.1.hemRight 191 0 = true ∧ (q.1.hem 191).head = none ∧ q.1.hemFull 191 0 = false ∧ q.1.stitchFrom 0 1 191 = true ∧ (q.1.stitch 0).isSome = true ∧ q.1.hemRight 191 1 = true ∧ q.1.admits 0 (q.1.tile (hemRouter 191)).ic = q.2)
    ∧ ((hemHolds.hem 191).head = some hhead ∧ hemHolds.frozenMaster (idHem 191) = false ∧ hhead.good = true ∧ hemHolds.fabricStopped = false ∧ hemHolds.hemUp 191 = true)
    ∧ ((hemOut.hem 191).head = some hhead ∧ hemOut.frozenMaster (idHem 191) = false ∧ hemOut.fabricStopped = false ∧ hemOut.hemUp 191 = false)
    ∧ ((hemHolds.engage 47).patchHeld (hemPatch 191) = true ∧ ((hemHolds.engage 47).hem 191).head.isSome = true ∧ (hemHolds.engage 47).arrayFrozen = false)
    ∧ hemGets.hemUp 191 = true
    ∧ (hemGets.hem 191).turn.isSome = true
    ∧ (hemGets.engaged (hemPatch 191) = false ∧ hemGets.tileFrozen (hemRouter 191) = false)
    ∧ (gated.mayWrite Reg.FAB_HEM_CFG_EN 191 0 = true ∧ (gated.hem 191).tx = []) := by
  decide +kernel

theorem wit_MemoryPortsAndPinsComplete :
    (mport []).mpReady 7 255 = true
    ∧ (0 : Nat) / 4096 = 4095 / 4096
    ∧ ((mport []).hbmGranted (idPort 7) true 0 4095 = true ∧ (mport []).hbmRefused (idPort 7) 0 4095 = false)
    ∧ ((mport [⟨true, 0, 63, 1, 0, 64⟩]).mp 7).first (fun r => r.write && decide (r.left ≠ 0)) = some (0, ⟨true, 0, 63, 1, 0, 64⟩)
    ∧ (mport []).arrayFrozen = false
    ∧ ((mport []).hbmRefused (idPort 7) (⟨true, 0, 63, 1, 0, 64⟩ : MpReq).at_ ((⟨true, 0, 63, 1, 0, 64⟩ : MpReq).at_ + 63) = false ∧ (mport []).hbmBusy (⟨true, 0, 63, 1, 0, 64⟩ : MpReq).at_ 64 = false)
    ∧ ((mport [⟨false, 0, 0, 1, 0, 1⟩]).mp 7).first (fun r => !r.write) = some (0, ⟨false, 0, 0, 1, 0, 1⟩)
    ∧ ((mport []).hbmRefused (idPort 7) (⟨false, 0, 0, 1, 0, 1⟩ : MpReq).at_ ((⟨false, 0, 0, 1, 0, 1⟩ : MpReq).at_ + 63) = false ∧ (mport []).hbmBusy (⟨false, 0, 0, 1, 0, 1⟩ : MpReq).at_ 64 = false)
    ∧ ((mport [⟨true, 0, 0, 1, 0, 0⟩]).mp 7).first (fun r => r.write && decide (r.left = 0)) = some (0, ⟨true, 0, 0, 1, 0, 0⟩)
    ∧ live.mayWrite Reg.FAB_RST_ASSERT 0 0 = true
    ∧ live.mayWrite Reg.FAB_PROBE_EN 7 3 = true
    ∧ bitAt (0 : Nat) 18 = false := by
  decide +kernel

def booted0 : State := { live with booted := true, pciCfg := [(4, 4)] }
def vect : State := { booted0 with msixEn := true, pba := [(255, true)] }
def flushing : State := { booted0 with invalidating := [(0x1000, 1)] }
def inD3 : State := live.setCfgBits (capPM + 4) 3

theorem wit_HostRequestsComplete :
    live.cfgServed = true
    ∧ (live.hostServed = true ∧ live.blockServed 0 = true ∧ live.warmServed 0 = true)
    ∧ (setF booted0 Reg.HBM_MAP_CTRL_EN 1).bar2Served 0 64 = true
    ∧ (booted0.warming = none ∧ booted0.frozenMaster idHost = false)
    ∧ ((setF booted0 Reg.HBM_MAP_CTRL_EN 1).hbmGranted idHost false ((setF booted0 Reg.HBM_MAP_CTRL_EN 1).bar2Addr 0) ((setF booted0 Reg.HBM_MAP_CTRL_EN 1).bar2Addr 0 + 63) = true ∧ (setF booted0 Reg.HBM_MAP_CTRL_EN 1).hbmRefused idHost ((setF booted0 Reg.HBM_MAP_CTRL_EN 1).bar2Addr 0) ((setF booted0 Reg.HBM_MAP_CTRL_EN 1).bar2Addr 0 + 63) = false ∧ (setF booted0 Reg.HBM_MAP_CTRL_EN 1).hbmBusy ((setF booted0 Reg.HBM_MAP_CTRL_EN 1).bar2Addr 0) 64 = false)
    ∧ (setF booted0 Reg.HBM_MAP_CTRL_EN 1).hbmGranted idHost true ((setF booted0 Reg.HBM_MAP_CTRL_EN 1).bar2Addr 0) ((setF booted0 Reg.HBM_MAP_CTRL_EN 1).bar2Addr 0 + 63) = true
    ∧ vect.hostMay (0x15000C + 16 * 255) true false = true
    ∧ (vect.msixEn = true ∧ vect.msixMaskAll = false ∧ SMap.get false vect.pba 255 = true) := by
  decide +kernel

theorem wit_EndpointEventsComplete :
    (flushing.invalidating = [(0x1000, 1)] ∧ flushing.cfgServed = true)
    ∧ flushing.readsRange 0x1000 1 = false
    ∧ (({ live with pcieUp := false } : State).pcieUp = false ∧ ({ live with pcieUp := false } : State).perst = false ∧ ({ live with pcieUp := false } : State).endpointStopped = false)
    ∧ (live.pcieUp = true ∧ live.deadlocked = false)
    ∧ ((setF live Reg.PWR_STBY_D3_AUTO 0).cfgServed = true ∧ (setF live Reg.PWR_STBY_D3_AUTO 0).powerState ≠ 3 ∧ flag (setF live Reg.PWR_STBY_D3_AUTO 0) Reg.PWR_STBY_D3_AUTO = false)
    ∧ (inD3.cfgServed = true ∧ inD3.powerState ≠ 0) := by
  decide +kernel

theorem wit_SpdmRequestsComplete :
    (live.cfgServed = true ∧ live.doeHeld = none ∧ live.firmware = true) := by
  decide +kernel

def standing (n : Nat) : State := setF live Reg.PWR_STBY_STATE n
/-- A core supply that has been below its warning level. -/
def browned : State := (setF live Reg.PWR_SUPPLY_CORE_WARN 1).startEpisode
def capped : State := setF live Reg.PWR_CAP_STATUS_STRETCH 63

theorem wit_ResetsComplete :
    (live.perst = false ∧ live.shutdown = false)
    ∧ ({ live with perst := true } : State).perst = true
    ∧ (live.warming = none ∧ live.mayWrite Reg.PWR_RST_WARM 0 0 = true ∧ flag live Reg.PWR_RST_WARM = false)
    ∧ (live.firmware = true ∧ live.deadlocked = false)
    ∧ ({ live with warming := some 4 } : State).pending = [] := by
  decide +kernel

theorem wit_StandbyCompletes :
    (live.mayWrite Reg.PWR_STBY_ENTER 0 0 = true ∧ live.warming = none ∧ getF live Reg.PWR_STBY_STATE = 0 ∧ getF live Reg.OBS_FRZ_STATUS_STATE = 0 ∧ live.cfg.cur = none)
    ∧ ((standing 2).mayWrite Reg.PWR_STBY_EXIT 0 0 = true ∧ getF (standing 2) Reg.PWR_STBY_STATE = 2)
    ∧ (getF (standing 3) Reg.PWR_STBY_STATE = 3 ∧ (standing 3).shutdown = false ∧ (standing 3).deadlocked = false) := by
  decide +kernel

theorem wit_SupplyEventsComplete :
    (live.railMasked 0 = false ∧ live.railMasked 1 = false ∧ live.railMasked 2 = false ∧ live.perst = false)
    ∧ (warnLevel 1 + 10 ≤ 2000 ∧ 1 < warnLevel 0)
    ∧ flag live (warnFlag 2) = false
    ∧ live.deadlocked = false
    ∧ live.railMasked 5 = false
    ∧ browned.brownout = true
    ∧ (capped.firmware = true ∧ capped.shutdown = false)
    ∧ flag (setF live Reg.PWR_CAP_EN 0) Reg.PWR_CAP_EN = false
    ∧ (flag capped Reg.PWR_CAP_EN = true ∧ (setF capped Reg.PWR_CAP_STATUS_POWER 2047).capLimit < 5000 ∧ 0 < getF capped Reg.PWR_CAP_STATUS_STRETCH ∧ getF capped Reg.PWR_CAP_STATUS_STRETCH < 64) := by
  decide +kernel

theorem wit_TemperatureReadingsComplete :
    live.shutdown = false
    ∧ 105 ≤ getF (setF live Reg.HBM_STK_STATUS_TEMP 105 7) Reg.HBM_STK_STATUS_TEMP 7 := by
  decide +kernel

def atBoot : State := setF { live with fuses := [] } Reg.MGT_BOOT_STATUS_STATE 0
def recovering : State := setF live Reg.MGT_BOOT_STATUS_STATE 2
def reporting : State := { live with faultQ := [⟨2, 0, []⟩] }

theorem wit_BootCommandsComplete :
    ((setF State.reset Reg.MGT_BOOT_STATUS_STATE 0).atRom = true ∧ State.reset.fusesBad = false)
    ∧ (({ State.reset with fuseErr := [(6, 2)] } : State).atRom = true ∧ ({ State.reset with fuseErr := [(6, 2)] } : State).fusesBad = true)
    ∧ live.mayWrite Reg.MGT_CTRL_MRESET 0 0 = true
    ∧ live.firmware = true
    ∧ (recovering.mayWrite Reg.MGT_CTRL_RECOVER 0 0 = true ∧ recovering.mgmtState = 2) := by
  decide +kernel

theorem wit_ServicesComplete :
    (live.mayWrite Reg.MGT_SVC_CTRL_GO 0 0 = true ∧ flag live Reg.MGT_SVC_CTRL_GO = false ∧ live.firmware = true) := by
  decide +kernel

theorem wit_ManagementRecordsComplete :
    (fieldsAt (Reg.MGT_CHN_MASTER_LO_RWIN.addr 39 0)).any (fun x => narrowFlds.contains x.fld && decide (x.fld ≠ Reg.MGT_FROZEN_FROZEN)) = true
    ∧ live.hostMay (Reg.MGT_CHN_MASTER_LO_RWIN.addr 39 0) true (expertAt (Reg.MGT_CHN_MASTER_LO_RWIN.addr 39 0)) = true
    ∧ (fieldsAt (Reg.MGT_CHN_HEM_MASK.addr 23 0) = [⟨Reg.MGT_CHN_HEM_MASK, 23, 0⟩] ∧ narrowBit Reg.MGT_CHN_HEM_MASK = true)
    ∧ live.mayWrite Reg.MGT_BB_HOST_DATA 6 0 = true
    ∧ (reporting.firmware = true ∧ reporting.lostPend = 0)
    ∧ reporting.faultQ = [⟨2, 0, []⟩]
    ∧ ({ live with sinceSum := 4096 } : State).firmware = true := by
  decide +kernel

def snap1 : SnapSt := ⟨9, 1, 2, 3, [], [2047], [(8, 63)]⟩
def marked : State := (panelled live 15 63 63 31 31).modPanel 15 (fun x => { x with snaps := [snap1] })
def chMark : ChanMark := ⟨15, 3, 9, 1, 2, 0⟩
def chMarked : State := marked.modChan 8 63 (fun c => { c with marks := [chMark] })
def traced : State := withTile (fun x => { x with trace := List.replicate 128 5 })
def ringed : State := { setF (setF (setF hbmLive Reg.OBS_TRACE_LEN_LEN 1 0) Reg.OBS_TRACE_LEN_EN 1 0) Reg.OBS_TRACE_CFG_STOP 0 with chunks := [(0, 128, false)] }
def pinned : State := setF { live with booted := true } Reg.OBS_FRZ_CFG_PIN_EN 1
def frozen (n src : Nat) (f : Bool) : State := { setF (setF live Reg.OBS_FRZ_STATUS_STATE n) Reg.OBS_FRZ_STATUS_SOURCE src with frzFull := f }
def capt : State := { frozen 3 2 true with tapIr := 0x2F }

theorem wit_SnapshotCommandsComplete :
    (marked.tileFrozen 2047 = false ∧ marked.panelOf 2047 = some 15 ∧ marked.tileMark 15 2047 = some snap1)
    ∧ ((chMarked.chan 8 63).marks = [chMark] ∧ chMark.ahead = 0 ∧ chMarked.chanHeld 8 63 = false)
    ∧ (live.mayWrite Reg.OBS_BSNAP_GO 0 0 = true ∧ flag live Reg.OBS_BSNAP_GO = false)
    ∧ (({ live with bsnap := [0] } : State).bsnap.contains 0 = true ∧ ({ live with bsnap := [0] } : State).unitStopped 0 = false)
    ∧ (live.mayWrite Reg.OBS_CTR_CLR_ALL 0 0 = true ∧ live.arrayFrozen = false) := by
  decide +kernel

theorem wit_TraceCommandsComplete :
    (traced.tileFrozen 0 = false ∧ 128 ≤ traced.unsent 0)
    ∧ (ringed.nextChunk 0).isSome = true
    ∧ (ringed.arrayFrozen = false ∧ flag ringed Reg.OBS_TRACE_LEN_EN 0 = true ∧ flag ringed Reg.OBS_TRACE_CFG_STOP = false)
    ∧ ringed.hbmRefused (idMover 0) (ringed.ringBase 0 + 2048 * (getF ringed Reg.OBS_TRACE_WP_VALUE 0 % ringed.ringLen 0)) (ringed.ringBase 0 + 2048 * (getF ringed Reg.OBS_TRACE_WP_VALUE 0 % ringed.ringLen 0) + 2047) = false
    ∧ (live.mayWrite Reg.OBS_TRACE_CTRL_FLUSH 0 0 = true ∧ flag live Reg.OBS_TRACE_CTRL_FLUSH = false)
    ∧ (live.mayWrite Reg.OBS_TRACE_LEN_EN 7 0 = true ∧ flag live Reg.OBS_TRACE_LEN_EN 7 = false)
    ∧ (bitAt 0x80000001 31 = true ∧ bits 0x80000001 23 0 = 1 ∧ live.ringGranted 7 1 = true) := by
  decide +kernel

theorem wit_FreezeCommandsComplete :
    (getF pinned Reg.PWR_STBY_STATE = 0 ∧ pinned.warming = none ∧ pinned.frzPin = false ∧ pinned.booted = true ∧ flag pinned Reg.OBS_FRZ_CFG_PIN_EN = true ∧ pinned.drivesPin = false)
    ∧ (live.mayWrite Reg.OBS_FRZ_CTRL_PARTIAL 0 0 = true ∧ flag live Reg.OBS_FRZ_CTRL_PARTIAL = false ∧ getF (setF live Reg.OBS_FRZ_CTRL_PARTIAL 1) Reg.PWR_STBY_STATE = 0)
    ∧ (live.mayWrite Reg.OBS_FRZ_CTRL_FULL 0 0 = true ∧ flag live Reg.OBS_FRZ_CTRL_FULL = false ∧ getF (setF live Reg.OBS_FRZ_CTRL_FULL 1) Reg.PWR_STBY_STATE = 0)
    ∧ (({ live with frzReq := [(2, true, 0)] } : State).frzReq = [(2, true, 0)] ∧ getF live Reg.OBS_FRZ_STATUS_STATE = 0 ∧ live.shutdown = false)
    ∧ (getF (frozen 1 2 false) Reg.OBS_FRZ_STATUS_STATE = 1 ∧ (frozen 1 2 false).frzFull = false ∧ (frozen 1 2 true).frzFull = true)
    ∧ ((frozen 2 2 false).mayWrite Reg.OBS_FRZ_CTRL_THAW 0 0 = true ∧ getF (frozen 2 2 false) Reg.OBS_FRZ_STATUS_STATE = 2 ∧ getF (frozen 2 2 false) Reg.OBS_FRZ_STATUS_SOURCE ≠ 1) := by
  decide +kernel

theorem wit_TestPortCommandsComplete :
    irListed 0x55 = false
    ∧ (capt.capBytes capt.tapUnit capt.tapOffset 8).isSome = true
    ∧ (getF capt Reg.OBS_FRZ_STATUS_STATE = 3 ∧ capt.shutdown = false ∧ capt.warming = none) := by
  decide +kernel

end Sys2Proof.Tests
end

section
/-! PROOFS. The host's register accesses at meeting point 2 (R7 to R10, R36, R37): what a read or a write of a register and of a window is once
the access is granted and aligned, and from it the obligation on register accesses. -/

namespace Sys2Proof.Machine

section Accesses

variable {s : State} {a v : Nat}

/-! ### Aligned and granted accesses reach the register or the window (R7) -/

theorem bar0Aligned_word (h : a % 4 = 0) : bar0Aligned a 4 = true := by simp [bar0Aligned, h]

theorem bar0Aligned_doubleWord (h : a % 8 = 0) : bar0Aligned a 8 = true := by simp [bar0Aligned, h]

theorem State.hostStore_word (h4 : a % 4 = 0) (h : s.hostMay a true (expertAt a) = true) : s.hostStore a 4 v = s.bar0Write a 4 v :=
  State.hostStore_ok (by simp) h (bar0Aligned_word h4)

theorem State.hostRead_word (h4 : a % 4 = 0) (h : s.hostMay a false (expertAt a) = true) :
    s.hostRead a 4 = (s.bar0Read a 4).1.emit .completion [a, 0] (leBytes 4 (s.bar0Read a 4).2) :=
  State.hostRead_ok (by simp) h (bar0Aligned_word h4)

theorem State.bar0Write_register (h : a < 0x2000000) : s.bar0Write a 4 v = s.regWrite a (v % 2 ^ 32) := by
  simp [State.bar0Write, Nat.not_le.mpr h]

theorem State.bar0Write_register_doubleWord (h : a < 0x2000000) :
    s.bar0Write a 8 v = (s.regWrite a (v % 2 ^ 32)).regWrite (a + 4) (v / 2 ^ 32) := by
  simp [State.bar0Write, Nat.not_le.mpr h]

theorem State.bar0Write_window (n : Nat) (h : 0x2000000 ≤ a) : s.bar0Write a n v = s.windowWrite a n v := if_pos h

theorem State.bar0Read_register (h : a < 0x2000000) : s.bar0Read a 4 = s.regRead a := by
  simp [State.bar0Read, Nat.not_le.mpr h]

theorem State.bar0Read_window (n : Nat) (h : 0x2000000 ≤ a) : s.bar0Read a n = s.windowRead a n := if_pos h

/-- A granted write of a register is the write of its 32 bits. -/
theorem State.hostStore_register (h4 : a % 4 = 0) (hr : a < 0x2000000) (h : s.hostMay a true (expertAt a) = true) :
    s.hostStore a 4 v = s.regWrite a (v % 2 ^ 32) := by
  rw [State.hostStore_word h4 h, State.bar0Write_register hr]

/-! ### A register outside the MSI-X structures (R8 to R10) -/

section Register

variable (ht : msixTable a = false) (hp : msixPba a = false)
include ht hp

theorem State.regWrite_of_fieldsAt_nil (hl : fieldsAt a = []) : s.regWrite a v = s.unassigned a true v := by
  simp [State.regWrite, ht, hp, hl]

theorem State.regRead_of_fieldsAt_nil (hl : fieldsAt a = []) : s.regRead a = (s.unassigned a false 0, 0) := by
  simp [State.regRead, ht, hp, hl]

/-- A register of fields of up to 32 bits takes each of them. -/
theorem State.regWrite_of_narrow {x : FldAt} {l : List FldAt} (hl : fieldsAt a = x :: l)
    (hw : ∀ y ∈ x :: l, y.fld.wide = .none) (hb : (x :: l).any (fun y => s.writeBarred y v) = false) :
    s.regWrite a v = (x :: l).foldl (fun (s : State) y => s.writeOne a v y) s := by
  have hnot (w : Wide) (hn : w ≠ .none) :
      (x :: l).any (fun y => decide (y.fld.wide = w) && decide (y.fld.acc = .rw)) = false := by
    rw [List.any_eq_false]
    intro y hy
    simp [hw y hy, hn.symm]
  simp only [State.regWrite, ht, hp, hl, hb, hnot .low (by decide), hnot .high (by decide), Bool.false_eq_true, if_false]

/-- The write of a lower half is held (R8). -/
theorem State.regWrite_of_lowerHalf {x : FldAt} (hl : fieldsAt a = [x]) (hw : x.fld.wide = .low) (hrw : x.fld.acc = .rw)
    (hb : s.writeBarred x v = false) : s.regWrite a v = { s with heldW := SMap.set none s.heldW a (some v) } := by
  simp [State.regWrite, ht, hp, hl, hb, hw, hrw]

/-- The write of an upper half puts both: its own field, and then the held lower half (R8). -/
theorem State.regWrite_of_upperHalf {x y : FldAt} {low : Nat} (hl : fieldsAt a = [x]) (hw : x.fld.wide = .high) (hrw : x.fld.acc = .rw)
    (hb : s.writeBarred x v = false) (hlow : fieldsAt (a - 4) = [y]) (hheld : (s.writeOne a v x).heldLow (a - 4) = some low) :
    s.regWrite a v = ({ s.writeOne a v x with heldW := SMap.set none (s.writeOne a v x).heldW (a - 4) none } : State).writeOne (a - 4) low y := by
  simp [State.regWrite, ht, hp, hl, hb, hw, hrw, hlow, hheld]

/-- A read of a register of one field of up to 32 bits shows it in place, and clears it where its code is RC. -/
theorem State.regRead_of_narrow {x : FldAt} (hl : fieldsAt a = [x]) (hw : x.fld.wide = .none) (hwo : x.fld.acc ≠ .wo)
    (he : x.fld ≠ Reg.NET_LINK_STATE_EVENTS) :
    s.regRead a = (if x.fld.acc = .rc then setF s x.fld 0 x.i x.j else s, s.shown x * 2 ^ x.fld.lo) := by
  simp [State.regRead, State.clearRead, State.regValue, ht, hp, hl, hw, hwo, he]

end Register

/-- A field that nothing refuses takes the effect of its access code, and then what else its write does. -/
theorem State.writeOne_of_accepted {x : FldAt} (ho : x.fld.own = false) (hr : ownRegister x = false)
    (hb : s.fieldBarred x (bits v (x.fld.lo + x.fld.width - 1) x.fld.lo) = 0) (hc : x.fld ≠ Reg.MGT_SVC_CTRL_CODE) :
    s.writeOne a v x = (s.fieldWrite x (bits v (x.fld.lo + x.fld.width - 1) x.fld.lo)).afterWrite x
      (bits v (x.fld.lo + x.fld.width - 1) x.fld.lo) := by
  simp [State.writeOne, ho, hr, hb, hc]

/-! ### The windows (R8, R9, R430) -/

theorem counterWindow_bounds (h : counterWindow a = true) : 0x2400000 ≤ a ∧ a < 0x2540000 := of_decide_eq_true h

/-- A read in the counter window: 8 bytes are the whole entry, the lower half holds a copy of the upper one, and the upper half takes it. -/
theorem State.windowRead_counter (n : Nat) (h : counterWindow a = true) :
    s.windowRead a n =
      if n = 8 then ({ s with holdR := SMap.set none s.holdR a none }, s.ctrEntry ((a - 0x2400000) / 8))
      else if a % 8 = 0 then
        (s.holdUpper a (s.ctrEntry ((a - 0x2400000) / 8) / 2 ^ 32), s.ctrEntry ((a - 0x2400000) / 8) % 2 ^ 32)
      else s.takeUpper (a - 4) (s.ctrEntry ((a - 0x2400000) / 8) / 2 ^ 32) := by
  obtain ⟨hlo, hhi⟩ := counterWindow_bounds h
  have hbyte : byteWindow a = false := decide_eq_false (by omega)
  have hcap : captureWindow a = false := decide_eq_false (by omega)
  simp [State.windowRead, hbyte, hcap, h]

theorem State.takeUpper_of_held {now : Nat} (h : SMap.get none s.holdR a = some v) :
    s.takeUpper a now = ({ s with holdR := SMap.set none s.holdR a none }, v) := by
  simp [State.takeUpper, h]

/-- An offset where nothing is assigned is one outside the windows, or one without a register outside the MSI-X structures (R9, R37). -/
theorem nothingAt_cases (h : nothingAt a = true) :
    (0x2000000 ≤ a ∧ byteWindow a = false ∧ counterWindow a = false ∧ captureWindow a = false)
      ∨ (a < 0x2000000 ∧ msixTable a = false ∧ msixPba a = false ∧ fieldsAt a = []) := by
  by_cases hw : 0x2000000 ≤ a
  · left
    simpa [nothingAt, hw, and_assoc] using h
  · right
    exact ⟨Nat.not_le.mp hw, by simpa [nothingAt, hw, and_assoc] using h⟩

theorem not_byteWindow_not_recovery (h : byteWindow a = false) : ¬ (0x2100000 ≤ a ∧ a < 0x2300000) := fun hr =>
  of_decide_eq_false h (.inr (.inr hr))

theorem State.bar0Write_of_nothingAt (h : nothingAt a = true) (hv : v < 2 ^ 32) : s.bar0Write a 4 v = s.unassigned a true v := by
  obtain ⟨hw, hbyte, hctr, hcap⟩ | ⟨hr, ht, hp, hl⟩ := nothingAt_cases h
  · rw [State.bar0Write_window 4 hw]
    simp [State.windowWrite, not_byteWindow_not_recovery hbyte, hbyte, hctr, hcap]
  · rw [State.bar0Write_register hr, Nat.mod_eq_of_lt hv, State.regWrite_of_fieldsAt_nil ht hp hl]

theorem State.bar0Read_of_nothingAt (h : nothingAt a = true) : s.bar0Read a 4 = (s.unassigned a false 0, 0) := by
  obtain ⟨hw, hbyte, hctr, hcap⟩ | ⟨hr, ht, hp, hl⟩ := nothingAt_cases h
  · rw [State.bar0Read_window 4 hw]
    simp [State.windowRead, hbyte, hctr, hcap]
  · rw [State.bar0Read_register hr, State.regRead_of_fieldsAt_nil ht hp hl]

/-! ### The rows -/

theorem exec_registerWrite_word (b : Bar0Addr) (w : DWord) :
    exec (.registerWrite b false w) s = .next (s.hostStore b.toNat 4 (w.toNat % 2 ^ 32)) := rfl

theorem exec_registerWrite_doubleWord (b : Bar0Addr) (w : DWord) : exec (.registerWrite b true w) s = .next (s.hostStore b.toNat 8 w.toNat) :=
  rfl

theorem exec_rcRead_word (b : Bar0Addr) : exec (.rcRead b false) s = .next (s.hostRead b.toNat 4) := rfl

theorem exec_rcRead_doubleWord (b : Bar0Addr) : exec (.rcRead b true) s = .next (s.hostRead b.toNat 8) := rfl

/-- A granted read of 4 bytes in the counter window. -/
theorem State.hostRead_counterWord (hc : counterWindow a = true) (h4 : a % 4 = 0) (h : s.hostMay a false (expertAt a) = true) :
    s.hostRead a 4 = (s.windowRead a 4).1.emit .completion [a, 0] (leBytes 4 (s.windowRead a 4).2) := by
  have hlo := (counterWindow_bounds hc).1
  rw [State.hostRead_word h4 h, State.bar0Read_window 4 (by omega)]

/-- Accesses of 8 bytes: a register's lower and then its upper half, and a counter's whole entry (R7). -/
theorem State.hostStore_register_doubleWord (h8 : a % 8 = 0) (hr : a < 0x2000000)
    (h : s.hostMay a true (expertAt a || expertAt (a + 4)) = true) :
    s.hostStore a 8 v = (s.regWrite a (v % 2 ^ 32)).regWrite (a + 4) (v / 2 ^ 32) := by
  rw [State.hostStore_ok (by simp) h (bar0Aligned_doubleWord h8), State.bar0Write_register_doubleWord hr]

theorem State.hostRead_counterEntry (hc : counterWindow a = true) (h8 : a % 8 = 0)
    (h : s.hostMay a false (expertAt a || expertAt (a + 4)) = true) :
    s.hostRead a 8 = ({ s with holdR := SMap.set none s.holdR a none } : State).emit .completion [a, 0]
      (leBytes 8 (s.ctrEntry ((a - 0x2400000) / 8))) := by
  have hlo := (counterWindow_bounds hc).1
  rw [State.hostRead_ok (by simp) h (bar0Aligned_doubleWord h8), State.bar0Read_window 8 (by omega), State.windowRead_counter 8 hc]
  rfl

/-- A profile write is taken while no panel is defined (R32, R33). -/
theorem exec_profileWrite_of_no_panel (w : Word) (h : s.mayWrite Reg.MGT_PROFILE_PROFILE 0 0 = true) (hv : w.toNat % 4 < 2)
    (hp : (List.range 16).all (fun p => decide (s.panelState p = 0)) = true) :
    exec (.profileWrite w) s = .next (if getF s Reg.MGT_PROFILE_PROFILE = w.toNat % 4 then { s with profileFresh := true }
      else { setF (setF s Reg.MGT_PROFILE_PROFILE (w.toNat % 4)) Reg.MGT_PROFILE_SPARES_LEFT
        (if w.toNat % 4 = 1 then 48 else 0) with profileFresh := true }) := by
  have hfree : ¬ (2 ≤ w.toNat % 4 ∨ (List.range 16).any (fun p => decide (s.panelState p ≠ 0)) = true) := by
    rw [List.all_eq_true] at hp
    rw [List.any_eq_true]
    rintro (h2 | ⟨p, hmem, hne⟩)
    · omega
    · exact of_decide_eq_true hne (of_decide_eq_true (hp p hmem))
  rw [exec_profileWrite, execProfileWrite, State.hostWrite_ok h]
  simp only [hfree, if_false]

theorem exec_unassignedAccess_of_nothingAt (b : Bar0Addr) (w : Bool) (val : Word) (hn : nothingAt b.toNat = true) (h4 : b.toNat % 4 = 0)
    (h : s.hostMay b.toNat w (expertAt b.toNat) = true) :
    exec (.unassignedAccess b w val) s = .next (
      if w then s.logErr 2 idHost b.toNat val.toNat
      else (s.logErr 1 idHost b.toNat 0).emit .completion [b.toNat, 0] (leBytes 4 0)) := by
  rw [exec_unassignedAccess, execUnassignedAccess]
  cases w with
  | true =>
    simp only [hn, not_true_eq_false, if_false, if_true]
    rw [State.hostStore_word h4 h, State.bar0Write_of_nothingAt hn val.isLt]
    rfl
  | false =>
    simp only [hn, not_true_eq_false, Bool.false_eq_true, if_false]
    rw [State.hostRead_word h4 h, State.bar0Read_of_nothingAt hn]
    rfl

theorem lowerHalf_of_counterWindow (h : counterWindow a = true) (h8 : a % 8 = 0) : lowerHalf a = true := by simp [lowerHalf, h, h8]

theorem upperHalf_of_counterWindow (h : counterWindow a = true) (h8 : a % 8 = 4) : upperHalf a = true := by simp [upperHalf, h, h8]

theorem lowerHalf_of_field {x : FldAt} (h : fieldsAt a = [x]) (hw : x.fld.wide = .low) : lowerHalf a = true := by simp [lowerHalf, h, hw]

theorem upperHalf_of_field {x : FldAt} (h : fieldsAt a = [x]) (hw : x.fld.wide = .high) : upperHalf a = true := by simp [upperHalf, h, hw]

end Accesses

/-- Settles O23: each row is a granted, aligned access; what it does is the rule of the register or window it reaches. -/
theorem registerAccessesComplete : Obligations.RegisterAccessesComplete := by
  unfold Obligations.RegisterAccessesComplete
  refine ⟨?write, ?field, ?read, ?counterLower, ?counterUpper, ?lowerWrite, ?upperWrite,
    fun _ => exec_unassignedAccess_of_nothingAt, fun _ => exec_profileWrite_of_no_panel, ?wideWrite, ?wideRead⟩
  case write =>
    intro s a v x l h4 hr ht hp hl hw h hb
    have hnarrow : ∀ y ∈ x :: l, y.fld.wide = .none := fun y hy => of_decide_eq_true (List.all_eq_true.mp hw y hy)
    rw [exec_registerWrite_word, State.hostStore_register h4 hr h, Nat.mod_mod, State.regWrite_of_narrow ht hp hl hnarrow hb]
  case field =>
    intro s a v f i j ho hr hb hc
    exact State.writeOne_of_accepted ho hr hb hc
  case read =>
    intro s a f i j h4 hr ht hp hl hw hwo he h
    rw [exec_rcRead_word, State.hostRead_word h4 h, State.bar0Read_register hr, State.regRead_of_narrow ht hp hl hw hwo he]
  case counterLower =>
    intro s a hc h8 h
    rw [exec_lowerHalfRead, execLowerHalfRead, if_pos (lowerHalf_of_counterWindow hc h8), State.hostRead_counterWord hc (by omega) h,
      State.windowRead_counter 4 hc, if_neg (by decide), if_pos h8]
    rfl
  case counterUpper =>
    intro s a v hc h8 h hheld
    rw [exec_upperHalfRead, execUpperHalfRead, if_pos (upperHalf_of_counterWindow hc h8), State.hostRead_counterWord hc (by omega) h,
      State.windowRead_counter 4 hc, if_neg (by decide), if_neg (by omega), State.takeUpper_of_held hheld]
  case lowerWrite =>
    intro s a v f i j h4 hr ht hp hl hw hrw h hb
    rw [exec_lowerHalfWrite, execLowerHalfWrite, if_pos (lowerHalf_of_field hl hw), State.hostStore_register h4 hr h,
      Nat.mod_eq_of_lt v.isLt, State.regWrite_of_lowerHalf ht hp hl hw hrw hb]
  case upperWrite =>
    intro s a v f g i j i' j' low h4 hr ht hp hl hw hrw hlow h hb hheld
    rw [exec_upperHalfWrite, execUpperHalfWrite, if_pos (upperHalf_of_field hl hw), State.hostStore_register h4 hr h,
      Nat.mod_eq_of_lt v.isLt, State.regWrite_of_upperHalf ht hp hl hw hrw hb hlow hheld]
  case wideWrite =>
    intro s a v h8 hr h
    rw [exec_registerWrite_doubleWord, State.hostStore_register_doubleWord h8 hr h]
  case wideRead =>
    intro s a hc h8 h
    rw [exec_rcRead_doubleWord, State.hostRead_counterEntry hc h8 h]

end Sys2Proof.Machine
end

section
/-! PROOFS. Where the registers of a logical tile stand (R36). -/

namespace Sys2Proof.Machine

/-- A field of the register block of a tile (R36): a copy for each of the 2,048 logical tiles, 0x2000 bytes apart, the first of them in the block of
tile 0. -/
def Fld.inTileBlock (f : Fld) : Bool :=
  f.n1 == 2048 && f.s1 == 0x2000 && f.n2 == 1 && decide (0x1000000 ≤ f.base) && decide (f.base < 0x1002000)

theorem Fld.inTileBlock_iff {f : Fld} :
    f.inTileBlock = true ↔ f.n1 = 2048 ∧ f.s1 = 0x2000 ∧ f.n2 = 1 ∧ 0x1000000 ≤ f.base ∧ f.base < 0x1002000 := by
  simp [Fld.inTileBlock, and_assoc]

/-- The register tables, decided over all of them: what they class with the tiles (class 11) has the layout of R36. -/
theorem tileFlds_all_inTileBlock : tileFlds.all Fld.inTileBlock = true := by decide +kernel

theorem inTileBlock_of_cls {f : Fld} (hf : f ∈ allFlds) (hcls : f.cls = 11) : f.inTileBlock = true :=
  List.all_eq_true.mp tileFlds_all_inTileBlock f (List.mem_filter.mpr ⟨hf, decide_eq_true hcls⟩)

/-- Copy n of such a field stands in the 0x2000 bytes of tile n. -/
theorem Fld.addr_mem_tileBlock {f : Fld} (h : f.inTileBlock = true) (n : Nat) {j : Nat} (hj : j < f.n2) :
    0x1000000 + n * 0x2000 ≤ f.addr n j ∧ f.addr n j < 0x1000000 + (n + 1) * 0x2000 := by
  obtain ⟨-, hstride, hone, hlo, hhi⟩ := Fld.inTileBlock_iff.mp h
  obtain rfl : j = 0 := by omega
  rw [Fld.addr, hstride]
  omega

/-- TIL_CTRL stands at the base of its tile's block. -/
theorem addr_TIL_CTRL_RESET (n : Nat) : Reg.TIL_CTRL_RESET.addr n 0 = 0x1000000 + n * 0x2000 := by
  simp [Fld.addr, Reg.TIL_CTRL_RESET, Nat.mul_comm]

theorem TIL_CTRL_RESET_mem_allFlds : Reg.TIL_CTRL_RESET ∈ allFlds := by simp [allFlds, fldsTIL0]

/-- Settles O11: TIL_CTRL stands at the base of tile n, and copy n of every field of class 11 in the block of tile n. -/
theorem tileRegistersByNumber : Obligations.TileRegistersByNumber := by
  unfold Obligations.TileRegistersByNumber
  intro n _
  refine ⟨⟨Reg.TIL_CTRL_RESET, TIL_CTRL_RESET_mem_allFlds, addr_TIL_CTRL_RESET n⟩, fun f hf hcls => ?_⟩
  have hblock : f.inTileBlock = true := inTileBlock_of_cls hf hcls
  exact ⟨(Fld.inTileBlock_iff.mp hblock).1, fun _ hj => Fld.addr_mem_tileBlock hblock n hj⟩

end Sys2Proof.Machine
end

section
/-! PROOFS. The matrix unit's own events (R44, R47, R55, R58, R65): what each of the five commands does once its event is due and its tile runs. -/

namespace Sys2Proof.Machine

section MatrixEvents

variable {s : State} {t : TileNo}

/-- A due stream leaves the waiting streams for the executing ones, with the ic of its first plane (R44, R55). -/
theorem exec_streamStart_of_startDue {st : StreamSt} {r : List StreamSt} (hw : (s.tile t.toNat).waiting = st :: r)
    (hdue : s.startDue t.toNat = true) (hrun : s.tileFrozen t.toNat = false) :
    let x := s.tile t.toNat
    let f := max (x.computedFirst st) (x.ic + 1)
    exec (.streamStart t) s = .next (s.setTile t.toNat
      { x with waiting := r, lastDone := if r.isEmpty then some (f + st.span) else none,
               streams := x.streams.filter (fun e => e.busyAt x.ic) ++ [{ st with first := some f, swaps := 0 }] }) := by
  have hgo : s.startDue t.toNat = true ∧ ¬ s.tileFrozen t.toNat = true := ⟨hdue, by simp [hrun]⟩
  simp only [exec_streamStart, execStreamStart, hw, if_pos hgo]

/-- The oldest waiting operation, where it is no swap, takes a free port (R47). -/
theorem exec_backBankOpStart_of_portFree {op : BBOp} {r : List BBOp} (hfree : (s.tile t.toNat).bbRun = none)
    (hw : (s.tile t.toNat).bbWait = op :: r) (hop : op.isSwap = false) (hrun : s.tileFrozen t.toNat = false) :
    exec (.backBankOpStart t) s = .next (s.setTile t.toNat { (s.tile t.toNat) with bbRun := some (op, 0), bbWait := r }) := by
  simp only [exec_backBankOpStart, execBackBankOpStart, hfree, hw, hop, hrun, Bool.or_self, Bool.false_eq_true, if_false]

/-- An operation that has done its last row leaves the port (R47). -/
theorem exec_backBankOpComplete_of_bbDoneDue (hdone : (s.tile t.toNat).bbDoneDue = true) (hrun : s.tileFrozen t.toNat = false) :
    exec (.backBankOpComplete t) s =
      .next (s.setTile t.toNat { (s.tile t.toNat) with bbRun := none, bbWords := (s.tile t.toNat).bbWords.tail }) := by
  have hgo : (s.tile t.toNat).bbDoneDue = true ∧ ¬ s.tileFrozen t.toNat = true := ⟨hdone, by simp [hrun]⟩
  simp only [exec_backBankOpComplete, execBackBankOpComplete, if_pos hgo]

/-- The first tree result of age 6 is converted, with its parity failures marked, and written; it leaves the tree (R58). -/
theorem exec_treeResultWrite_of_due {r : TreeSt} (hdue : (s.tile t.toNat).tree.find? (fun r => decide (6 ≤ r.age)) = some r)
    (hrun : s.tileFrozen t.toNat = false) :
    let recs := (List.range 32).map (fun j =>
      if r.parFail.getD j false then { r.cols.getD j emptyRec with parFail := true } else r.cols.getD j emptyRec)
    let c := (s.matFlag t.toNat Reg.TIL_MAT_STATUS_OVF_OUT r.ovf).convertRow t.toNat r.ofmt recs
    exec (.treeResultWrite t) s =
      .next (c.1.modTile t.toNat (fun y => { (y.putLine r.toStore r.dst c.2) with tree := y.tree.erase r })) := by
  simp only [exec_treeResultWrite, execTreeResultWrite, hdue, hrun, Bool.false_eq_true, if_false]

/-- A granted write puts its value in the rows or columns forced off (R65). -/
theorem exec_matForceWrite_of_mayWrite {col : Bool} {v : Word}
    (h : s.mayWrite (if col then Reg.TIL_MAT_FORCE_COL_OFF else Reg.TIL_MAT_FORCE_ROW_OFF) t.toNat 0 = true) :
    exec (.matForceWrite t col v) s =
      .next (setF s (if col then Reg.TIL_MAT_FORCE_COL_OFF else Reg.TIL_MAT_FORCE_ROW_OFF) v.toNat t.toNat) := by
  rw [exec_matForceWrite, execMatForceWrite, State.hostWrite_ok h]

end MatrixEvents

/-- Settles O20: each clause is the rule of one event. -/
theorem matrixEventsComplete : Obligations.MatrixEventsComplete := by
  unfold Obligations.MatrixEventsComplete
  refine ⟨?streamStart, ?opStart, ?opComplete, ?treeWrite, ?forceWrite⟩
  case streamStart => exact fun _ _ _ _ hw hdue hrun => exec_streamStart_of_startDue hw hdue hrun
  case opStart => exact fun _ _ _ _ hfree hw hop hrun => exec_backBankOpStart_of_portFree hfree hw hop hrun
  case opComplete => exact fun _ _ hdone hrun => exec_backBankOpComplete_of_bbDoneDue hdone hrun
  case treeWrite => exact fun _ _ _ hdue hrun => exec_treeResultWrite_of_due hdue hrun
  case forceWrite => exact fun _ _ _ _ h => exec_matForceWrite_of_mayWrite h

end Sys2Proof.Machine
end

section
/-! PROOFS. A launch over its targets (R98, R118, R234): the parts of a tile's launch, what each leaves of another tile, and what the banks hold once the
FALLBACK of a target has changed. -/

namespace Sys2Proof.Machine

/-! ### What leaves a tile and its registers alone -/

/-- Tile q and the registers of its block (R36) are the same in both states. -/
structure State.SparesTile (q : Nat) (s u : State) : Prop where
  tile : u.tile q = s.tile q
  reg : ∀ f : Fld, f.inTileBlock = true → f.lo < 32 → getF u f q = getF s f q

/-- Copy (i, j) of a field stands outside the register block of tile q. -/
def Fld.outsideBlock (f : Fld) (i j q : Nat) : Prop := f.addr i j < 0x1000000 + q * 0x2000 ∨ 0x1000000 + (q + 1) * 0x2000 ≤ f.addr i j

theorem Fld.outsideBlock_of_inTileBlock {f : Fld} {t q : Nat} (hf : f.inTileBlock = true) (h : q ≠ t) : f.outsideBlock t 0 q := by
  obtain ⟨-, -, hone, -, -⟩ := Fld.inTileBlock_iff.mp hf
  have hblock := Fld.addr_mem_tileBlock hf t (j := 0) (by omega)
  unfold Fld.outsideBlock
  omega

section Spares

variable {s u v : State} {q t : Nat}

theorem State.SparesTile.refl : s.SparesTile q s := ⟨rfl, fun _ _ _ => rfl⟩

theorem State.SparesTile.trans (h : State.SparesTile q s u) (g : State.SparesTile q u v) : State.SparesTile q s v :=
  ⟨g.tile.trans h.tile, fun f hf hlo => (g.reg f hf hlo).trans (h.reg f hf hlo)⟩

theorem State.sparesTile_setTile (h : q ≠ t) (x : Tile) : State.SparesTile q s (s.setTile t x) :=
  ⟨State.tile_setTile_ne s t q x h, fun _ _ _ => rfl⟩

theorem State.sparesTile_modTile (h : q ≠ t) (g : Tile → Tile) : State.SparesTile q s (s.modTile t g) := State.sparesTile_setTile h _

theorem State.sparesTile_setCtr (e n : Nat) : State.SparesTile q s (s.setCtr e n) := ⟨rfl, fun _ _ _ => rfl⟩

theorem State.sparesTile_setF {f : Fld} {i j : Nat} (hlo : f.lo < 32) (hf : f.outsideBlock i j q) (n : Nat) :
    State.SparesTile q s (setF s f n i j) := by
  refine ⟨rfl, fun g hg hglo => getF_setF_ne s f g n i j q 0 ?_⟩
  obtain ⟨-, -, hone, -, -⟩ := Fld.inTileBlock_iff.mp hg
  have hblock := Fld.addr_mem_tileBlock hg q (j := 0) (by omega)
  unfold Fld.outsideBlock at hf
  unfold Fld.key
  omega

theorem State.sendVector_tiles (n : Nat) : (s.sendVector n).tiles = s.tiles := by
  unfold State.sendVector
  split
  · split <;> rfl
  · rfl

theorem State.sendVector_regs (n : Nat) : (s.sendVector n).regs = s.regs := by
  unfold State.sendVector
  split
  · split <;> rfl
  · rfl

theorem State.raise_tiles (n : Nat) : (s.raise n).tiles = s.tiles := by
  unfold State.raise
  split
  · rfl
  · exact State.sendVector_tiles n

theorem State.sparesTile_sendVector (n : Nat) : State.SparesTile q s (s.sendVector n) :=
  ⟨by rw [State.tile, State.sendVector_tiles, State.tile], fun _ _ _ => by rw [getF, State.sendVector_regs, getF]⟩

/-- The pending bits of R381 stand outside every tile's block. -/
theorem State.sparesTile_raise (n : Nat) : State.SparesTile q s (s.raise n) := by
  have hpend : Reg.PCI_EVT_PEND_PEND.outsideBlock 0 0 q := by
    simp only [Fld.outsideBlock, Fld.addr, Reg.PCI_EVT_PEND_PEND]
    omega
  unfold State.raise
  split
  · exact .refl
  · exact (State.sparesTile_setF (by decide) hpend _).trans (State.sparesTile_sendVector n)

/-! ### A trace record -/

/-- A dropped record changes nothing of its tile but the count of those lost. -/
theorem State.traceDrop_tile (h : s.memWf = true) (n : Nat) :
    (s.traceDrop t n).tile t = { s.tile t with traceLost := (s.tile t).traceLost + n } := by
  have hmod := State.modTile_tile_self (t := t) (State.memWf_tiles (State.memWf_countTile h t 15 n)) (fun x => { x with traceLost := x.traceLost + n })
  unfold State.traceDrop
  dsimp only
  split
  · exact hmod
  · rw [State.tile, State.raise_tiles]
    exact hmod

/-- What a trace record can do: nothing, a dropped record, a note of earlier lost records with a dropped record, or the record appended (R433). -/
theorem State.trace_cases (s : State) (t k c : Nat) (d : Word) :
    s.trace t k c d = s ∨ s.trace t k c d = s.traceDrop t 1
      ∨ (∃ l, s.trace t k c d = (s.setTile t { s.tile t with trace := l, traceLost := 0 }).traceDrop t 1)
      ∨ ∃ l, s.trace t k c d = s.setTile t { s.tile t with trace := l, traceLost := 0 } := by
  unfold State.trace
  dsimp only
  generalize (if (s.tile t).traceLost = 0 then ([] : List (BitVec 128)) else _) = lost
  split
  case isFalse => exact .inl rfl
  case isTrue =>
    split
    case isTrue => exact .inr (.inl rfl)
    case isFalse =>
      split
      case isTrue => exact .inr (.inr (.inl ⟨_, rfl⟩))
      case isFalse => exact .inr (.inr (.inr ⟨_, rfl⟩))

/-- A trace record changes nothing of its tile but the trace buffer and the count of records lost. -/
theorem State.trace_tile (h : s.memWf = true) (k c : Nat) (d : Word) :
    ∃ l n, (s.trace t k c d).tile t = { s.tile t with trace := l, traceLost := n } := by
  obtain hs | hs | ⟨l, hs⟩ | ⟨l, hs⟩ := s.trace_cases t k c d <;> rw [hs]
  · exact ⟨(s.tile t).trace, (s.tile t).traceLost, rfl⟩
  · exact ⟨_, _, State.traceDrop_tile h 1⟩
  · have hkeep : ({ s.tile t with trace := l, traceLost := 0 } : Tile).memWf = true :=
      Tile.memWf_congr (State.memWf_tile h t) rfl rfl rfl rfl rfl rfl
    rw [State.traceDrop_tile (State.memWf_setTile h t hkeep), State.setTile_tile_self (State.memWf_tiles h)]
    exact ⟨_, _, rfl⟩
  · rw [State.setTile_tile_self (State.memWf_tiles h)]
    exact ⟨_, _, rfl⟩

theorem State.sparesTile_traceDrop (h : q ≠ t) (n : Nat) : State.SparesTile q s (s.traceDrop t n) := by
  have hovf : Reg.OBS_TRACE_CTRL_OVF.outsideBlock 0 0 q := by
    simp only [Fld.outsideBlock, Fld.addr, Reg.OBS_TRACE_CTRL_OVF]
    omega
  have hcount : State.SparesTile q s ((s.countTile t 15 n).modTile t (fun x => { x with traceLost := x.traceLost + n })) :=
    (State.sparesTile_setCtr _ _).trans (State.sparesTile_modTile h _)
  unfold State.traceDrop
  dsimp only
  split
  · exact hcount
  · exact hcount.trans ((State.sparesTile_setF (by decide) hovf _).trans (State.sparesTile_raise 31))

theorem State.sparesTile_trace (h : q ≠ t) (k c : Nat) (d : Word) : State.SparesTile q s (s.trace t k c d) := by
  obtain hs | hs | ⟨l, hs⟩ | ⟨l, hs⟩ := s.trace_cases t k c d <;> rw [hs]
  · exact .refl
  · exact State.sparesTile_traceDrop h 1
  · exact (State.sparesTile_setTile h _).trans (State.sparesTile_traceDrop h 1)
  · exact State.sparesTile_setTile h _

end Spares

/-! ### The parts of a tile's launch -/

/-- Both banks become EMPTY where FALLBACK changes (R98). -/
def State.launchBanks (s : State) (c : QCmd) (t : Nat) : State :=
  if getF s Reg.TIL_NUM_CTRL_FALLBACK t = bits (c.word 12) 0 0 then s else s.modTile t (fun x => { x with bank0 := [], bank1 := [] })

/-- The fields of TIL_NUM_CTRL and TIL_CHAIN that a launch writes, with their values. -/
def QCmd.launchFlds (c : QCmd) : List (Fld × Nat) :=
  [(Reg.TIL_NUM_CTRL_FALLBACK, bits (c.word 12) 0 0), (Reg.TIL_NUM_CTRL_OVF_SAT, bits (c.word 12) 1 1),
   (Reg.TIL_NUM_CTRL_PROMOTE_VANISH, bits (c.word 12) 7 3), (Reg.TIL_NUM_CTRL_POCKET_GAP, bits (c.word 12) 10 8),
   (Reg.TIL_CHAIN_ROLE, bits (c.word 16) 1 0), (Reg.TIL_CHAIN_IN, bits (c.word 16) 4 2), (Reg.TIL_CHAIN_OUT, bits (c.word 16) 7 5),
   (Reg.TIL_CHAIN_POS, bits (c.word 16) 13 8), (Reg.TIL_CHAIN_LENM1, bits (c.word 16) 19 14)]

def State.launchRegs (s : State) (c : QCmd) (t : Nat) : State := c.launchFlds.foldl (fun u e => setF u e.1 e.2 t) s

/-- The 16 counters of the tile start from 0 where they count per launch (R425). -/
def State.launchCtrs (s : State) (t : Nat) : State :=
  if flag s Reg.OBS_CTR_CFG_PER_LAUNCH then (List.range 16).foldl (fun u i => u.setCtr (ctrTile t + i) 0) s else s

/-- The sequencer of a launched tile, with r as its counters' values of before (R118, R425). -/
def Tile.launched (x : Tile) (c : QCmd) (r : Option (List Nat)) : Tile :=
  let y := (List.range 4).foldl (fun (y : Tile) i => y.setGen i (BitVec.ofNat 32 (c.word (20 + 4 * i)))) x
  let y := ((y.setSprRaw sprIVEC (BitVec.ofNat 32 (bits (c.word 8) 27 16))).setSprRaw sprFLAGS (maskIE ||| maskLM)).setSprRaw sprLST 0
  { (y.setSprRaw sprIPEND 0) with
    pc := BitVec.ofNat 12 (bits (c.word 8) 11 0), run := .running, launching := true, inHandler := false, delay := none, fetchWait := 0, gap := 0,
    rtiPend := false, entering := none, yHeld := false, haltAck := false, barPend := 0, lcTag := none, lcDone := false, restart := r }

section Launch

variable {s : State} {c : QCmd} {q t : Nat}

/-- A tile's launch in its parts: banks, registers, counters, sequencer and the record of R432. -/
theorem State.launchTile_parts (s : State) (c : QCmd) (t : Nat) : ∃ r,
    s.launchTile c t = ((((s.launchBanks c t).launchRegs c t).launchCtrs t).modTile t (fun x => x.launched c r)).trace t 2 (bits (c.word 8) 11 0)
      (BitVec.ofNat 32 c.seq) := ⟨_, rfl⟩

theorem QCmd.launchFlds_inTileBlock {e : Fld × Nat} (he : e ∈ c.launchFlds) : e.1.inTileBlock = true ∧ e.1.lo < 32 := by
  have hall : ∀ f ∈ c.launchFlds.map Prod.fst, f.inTileBlock = true ∧ f.lo < 32 := by
    simp only [QCmd.launchFlds, List.map_cons, List.map_nil]
    decide
  exact hall e.1 (List.mem_map_of_mem he)

theorem State.launchRegs_tiles (s : State) (c : QCmd) (t : Nat) : (s.launchRegs c t).tiles = s.tiles := by
  unfold State.launchRegs
  exact foldl_keeps (p := fun u : State => u.tiles = s.tiles) (fun u _ hu => (setF_tiles u _ _ _ _).trans hu) _ rfl

theorem State.launchCtrs_tiles (s : State) (t : Nat) : (s.launchCtrs t).tiles = s.tiles := by
  unfold State.launchCtrs
  split
  · exact foldl_keeps (p := fun u : State => u.tiles = s.tiles) (fun u i hu => (State.setCtr_tiles u (ctrTile t + i) 0).trans hu) _ rfl
  · rfl

theorem Tile.launched_run (x : Tile) (r : Option (List Nat)) : (x.launched c r).run = .running := rfl
theorem Tile.launched_bank0 (x : Tile) (r : Option (List Nat)) : (x.launched c r).bank0 = x.bank0 := rfl
theorem Tile.launched_bank1 (x : Tile) (r : Option (List Nat)) : (x.launched c r).bank1 = x.bank1 := rfl

/-! ### A launch keeps the canonical form -/

theorem State.memWf_launchBanks (h : s.memWf = true) (c : QCmd) (t : Nat) : (s.launchBanks c t).memWf = true := by
  unfold State.launchBanks
  split
  · exact h
  · exact State.memWf_modTile h t (fun x hx => Tile.memWf_congr hx rfl rfl rfl rfl rfl rfl)

theorem State.memWf_launchRegs (h : s.memWf = true) (c : QCmd) (t : Nat) : (s.launchRegs c t).memWf = true :=
  foldl_keeps (p := fun u : State => u.memWf = true) (fun _ _ hu => State.memWf_setF hu _ _ _ _) _ h

theorem State.memWf_launchCtrs (h : s.memWf = true) (t : Nat) : (s.launchCtrs t).memWf = true := by
  unfold State.launchCtrs
  split
  · exact foldl_keeps (p := fun u : State => u.memWf = true) (fun _ _ hu => State.memWf_setCtr hu _ _) _ h
  · exact h

theorem Tile.memWf_launched {x : Tile} (h : x.memWf = true) (c : QCmd) (r : Option (List Nat)) : (x.launched c r).memWf = true := by
  have hgen : ((List.range 4).foldl (fun (y : Tile) i => y.setGen i (BitVec.ofNat 32 (c.word (20 + 4 * i)))) x).memWf = true :=
    foldl_keeps (p := fun y : Tile => y.memWf = true) (fun _ _ hy => Tile.memWf_setGen hy _ _) _ h
  have hspr := Tile.memWf_setSprRaw (Tile.memWf_setSprRaw (Tile.memWf_setSprRaw (Tile.memWf_setSprRaw hgen sprIVEC
    (BitVec.ofNat 32 (bits (c.word 8) 27 16))) sprFLAGS (maskIE ||| maskLM)) sprLST 0) sprIPEND 0
  exact Tile.memWf_congr hspr rfl rfl rfl rfl rfl rfl

theorem State.memWf_launchReady (h : s.memWf = true) (c : QCmd) (t : Nat) : (((s.launchBanks c t).launchRegs c t).launchCtrs t).memWf = true :=
  State.memWf_launchCtrs (State.memWf_launchRegs (State.memWf_launchBanks h c t) c t) t

theorem State.memWf_launchTile (h : s.memWf = true) (c : QCmd) (t : Nat) : (s.launchTile c t).memWf = true := by
  obtain ⟨r, hparts⟩ := s.launchTile_parts c t
  rw [hparts]
  exact State.memWf_trace (State.memWf_modTile (State.memWf_launchReady h c t) t (fun _ hx => Tile.memWf_launched hx c r)) _ _ _ _

/-! ### The launch of another tile -/

theorem State.sparesTile_launchRegs (h : q ≠ t) (c : QCmd) : State.SparesTile q s (s.launchRegs c t) := by
  unfold State.launchRegs
  have hflds : ∀ e ∈ c.launchFlds, e.1.inTileBlock = true ∧ e.1.lo < 32 := fun _ he => QCmd.launchFlds_inTileBlock he
  generalize c.launchFlds = l at hflds
  induction l generalizing s with
  | nil => exact .refl
  | cons e l ih =>
    obtain ⟨hblock, hlo⟩ := hflds e (List.mem_cons_self ..)
    exact (State.sparesTile_setF hlo (Fld.outsideBlock_of_inTileBlock hblock h) e.2).trans (ih (fun x hx => hflds x (List.mem_cons_of_mem _ hx)))

theorem State.sparesTile_launchTile (h : q ≠ t) (c : QCmd) : State.SparesTile q s (s.launchTile c t) := by
  have hbanks : State.SparesTile q s (s.launchBanks c t) := by
    unfold State.launchBanks
    split
    · exact .refl
    · exact State.sparesTile_modTile h _
  have hctrs (u : State) : State.SparesTile q u (u.launchCtrs t) := by
    unfold State.launchCtrs
    split
    · exact foldl_keeps (p := State.SparesTile q u) (fun _ _ hv => hv.trans (State.sparesTile_setCtr _ _)) _ .refl
    · exact .refl
  obtain ⟨r, hparts⟩ := s.launchTile_parts c t
  rw [hparts]
  exact (((hbanks.trans (State.sparesTile_launchRegs h c)).trans (hctrs _)).trans (State.sparesTile_modTile h _)).trans (State.sparesTile_trace h _ _ _)

/-! ### The banks of a launched tile -/

/-- The tile runs and both its banks are EMPTY. -/
structure Tile.RunsEmpty (x : Tile) : Prop where
  run : x.run = .running
  bank0 : x.bank0 = []
  bank1 : x.bank1 = []

/-- After its launch a tile runs, with its banks as the first part of the launch leaves them. -/
theorem State.launchTile_banks (h : s.memWf = true) (c : QCmd) (t : Nat) :
    ((s.launchTile c t).tile t).run = .running ∧ ((s.launchTile c t).tile t).bank0 = ((s.launchBanks c t).tile t).bank0
      ∧ ((s.launchTile c t).tile t).bank1 = ((s.launchBanks c t).tile t).bank1 := by
  obtain ⟨r, hparts⟩ := s.launchTile_parts c t
  have hready := State.memWf_launchReady h c t
  have htile : (((s.launchBanks c t).launchRegs c t).launchCtrs t).tile t = (s.launchBanks c t).tile t := by
    rw [State.tile, State.launchCtrs_tiles, State.launchRegs_tiles, State.tile]
  obtain ⟨l, n, htrace⟩ := State.trace_tile (t := t) (State.memWf_modTile hready t (fun _ hx => Tile.memWf_launched hx c r)) 2 (bits (c.word 8) 11 0)
    (BitVec.ofNat 32 c.seq)
  rw [hparts, htrace, State.modTile_tile_self (State.memWf_tiles hready), htile]
  dsimp only
  exact ⟨Tile.launched_run _ r, Tile.launched_bank0 _ r, Tile.launched_bank1 _ r⟩

/-- R98 for one tile: a launch with another FALLBACK empties both banks. -/
theorem State.launchTile_runsEmpty_of_fallback_ne (h : s.memWf = true) (hne : getF s Reg.TIL_NUM_CTRL_FALLBACK t ≠ bits (c.word 12) 0 0) :
    ((s.launchTile c t).tile t).RunsEmpty := by
  obtain ⟨hrun, hbank0, hbank1⟩ := State.launchTile_banks h c t
  have hempty : (s.launchBanks c t).tile t = { s.tile t with bank0 := [], bank1 := [] } := by
    rw [State.launchBanks, if_neg hne, State.modTile_tile_self (State.memWf_tiles h)]
  rw [hempty] at hbank0 hbank1
  exact ⟨hrun, hbank0, hbank1⟩

/-- A launch fills no bank: a tile that runs with EMPTY banks still does after any tile's launch. -/
theorem State.launchTile_keeps_runsEmpty (h : s.memWf = true) (hq : (s.tile q).RunsEmpty) (c : QCmd) (t : Nat) : ((s.launchTile c t).tile q).RunsEmpty := by
  by_cases hqt : q = t
  · subst hqt
    by_cases hfb : getF s Reg.TIL_NUM_CTRL_FALLBACK q = bits (c.word 12) 0 0
    · obtain ⟨hrun, hbank0, hbank1⟩ := State.launchTile_banks h c q
      rw [State.launchBanks, if_pos hfb] at hbank0 hbank1
      exact ⟨hrun, hbank0.trans hq.bank0, hbank1.trans hq.bank1⟩
    · exact State.launchTile_runsEmpty_of_fallback_ne h hfb
  · rw [(State.sparesTile_launchTile hqt c).tile]
    exact hq

/-- R98 over the targets of a command. -/
theorem State.launchTiles_runsEmpty {l : List Nat} (hmem : q ∈ l) (h : s.memWf = true)
    (hne : getF s Reg.TIL_NUM_CTRL_FALLBACK q ≠ bits (c.word 12) 0 0) : ((l.foldl (fun u t => u.launchTile c t) s).tile q).RunsEmpty := by
  induction l generalizing s with
  | nil => cases hmem
  | cons t l ih =>
    have hwf := State.memWf_launchTile h c t
    by_cases hqt : q = t
    · subst hqt
      have hkept := foldl_keeps (p := fun u : State => u.memWf = true ∧ (u.tile q).RunsEmpty)
        (fun u t hu => ⟨State.memWf_launchTile hu.1 c t, State.launchTile_keeps_runsEmpty hu.1 hu.2 c t⟩) l
        ⟨hwf, State.launchTile_runsEmpty_of_fallback_ne h hne⟩
      exact hkept.2
    · have hreg := (State.sparesTile_launchTile (s := s) hqt c).reg Reg.TIL_NUM_CTRL_FALLBACK (by decide) (by decide)
      exact ih ((List.mem_cons.mp hmem).resolve_left hqt) hwf (by rwa [hreg])

/-- A launch that nothing holds and nothing refuses launches its targets one after another (R234). -/
theorem exec_launch_of_runs {p : PanelNo} (hhead : s.head0 p.toNat 1 = some c) (hiss : c.issued = false)
    (hidle : c.targets.all (fun t => !(s.tile t).busyRun) = true) (hsnaps : (s.panel p.toNat).snaps.any (fun m => c.targets.any m.tiles.contains) = false)
    (hcause : s.launchCause p.toNat c = 0) :
    exec (.launch p) s = .next (c.targets.foldl (fun u t => u.launchTile c t) (s.markIssued p.toNat 0 c.ord)) := by
  have hbusy : c.targets.any (fun t => (s.tile t).busyRun) = false := by simpa using hidle
  simp only [exec_launch, execLaunch, hhead, hiss, hbusy, hsnaps, hcause, Bool.or_self, Bool.false_eq_true, if_false]

end Launch

/-- Settles O8: marking the command as issued spares every tile, and the launches of the targets empty the banks of each whose FALLBACK changes. -/
theorem launchClearsBanks : Obligations.LaunchClearsBanks := by
  unfold Obligations.LaunchClearsBanks
  intro s p c hwf hhead hiss hidle hsnaps hcause
  refine ⟨_, exec_launch_of_runs hhead hiss hidle (by rw [hsnaps]; rfl) hcause, fun t hmem hne => ?_⟩
  have hissued : (s.markIssued p.toNat 0 c.ord).memWf = true := State.memWf_congr hwf rfl rfl rfl rfl
  have hlaunched := State.launchTiles_runsEmpty hmem hissued hne
  exact ⟨hlaunched.run, hlaunched.bank0, hlaunched.bank1⟩

end Sys2Proof.Machine
end

section
/-! PROOFS. The slot of a register instruction (R107, R132, R141, R142, R145): what each one hands to the issue, and the frame that follows. -/

namespace Sys2Proof.Machine

section RegisterSlot

variable {s : State} {t : TileNo} {i : Instr} {w : SlotWrites}

/-- The effect of a register instruction: it issues at the state as it stands, swaps no bank, goes on or branches, and writes in its own slot registers
that `w` names. -/
structure Eff.WritesOnly (e : Eff) (s : State) (t : TileNo) (w : SlotWrites) : Prop where
  st : e.st = s
  swap : e.swap = none
  ctl : e.ctl = .seq ∨ ∃ g, e.ctl = .branch g
  own : ∀ p ∈ e.own, p.regIn w (s.tile t.toNat)

/-- Nothing is written before a later slot. -/
theorem Eff.writesOnly_later (l : List PEntry) : Eff.WritesOnly { st := s, later := l } s t w := ⟨rfl, rfl, .inl rfl, by simp⟩

theorem Eff.writesOnly_branch (g : Option (BitVec 12)) : Eff.WritesOnly { st := s, ctl := .branch g } s t w := ⟨rfl, rfl, .inr ⟨g, rfl⟩, by simp⟩

theorem Eff.writesOnly_one {p : PWrite} (h : p.regIn w (s.tile t.toNat)) : Eff.WritesOnly { st := s, own := [p] } s t w :=
  ⟨rfl, rfl, .inl rfl, by simpa using h⟩

/-- A scalar result with the flags Z and N and those of `m`. -/
theorem Eff.writesOnly_alu {d : Nat} {r m v : Word} (h : w.flags = m) (hd : d ∈ w.gens) :
    Eff.WritesOnly { st := s, own := [.gen d r, .flags m v] } s t w :=
  ⟨rfl, rfl, .inl rfl, by simpa using ⟨hd, PWrite.regIn_flags _ v h⟩⟩

theorem or_and_not_self (f m : Word) : (f ||| m) &&& ~~~m = f &&& ~~~m := by
  ext j hj
  cases hm : m[j] <;> simp [hm]

theorem and_not_and_not_self (f m : Word) : f &&& ~~~m &&& ~~~m = f &&& ~~~m := by rw [BitVec.and_assoc, BitVec.and_self]

/-- `setf` and `clrf` write every flag bit, those outside the mask with what they hold. -/
theorem PWrite.regIn_flags_of_kept {x : Tile} {k v : Word} (hk : w.flags = k) (hv : v &&& ~~~k = x.flags &&& ~~~k) :
    (PWrite.flags maskFlags v).regIn w x := by
  intro _
  have hbits (z : Word) : z &&& (maskFlags &&& (maskFlags &&& ~~~w.flags)) = (z &&& ~~~k) &&& maskFlags := by
    rw [hk, ← BitVec.and_assoc maskFlags, BitVec.and_self, BitVec.and_comm maskFlags, BitVec.and_assoc]
  rw [hbits, hbits, hv]

/-- A special register that no loop error bars is written (R114, R142). -/
theorem sprOut_of_not_badDepth {r : Reg6} {v : Word} (h : ¬ badDepth r.toNat v = true) : sprOut s r v = .go { st := s, own := [.spr r.toNat v] } :=
  if_neg h

theorem Eff.writesOnly_spr {c : Nat} {v : Word} (h : w.sprs = [c, sprLST]) : Eff.WritesOnly { st := s, own := [.spr c v] } s t w :=
  Eff.writesOnly_one (p := .spr c v) ⟨by simp [h], by simp [h]⟩

/-- Instruction i issues with the effect of a register instruction. -/
def State.IssuesWriting (s : State) (i : Instr) (w : SlotWrites) : Prop :=
  ∃ (u : State → Use) (body : State → Issue) (e : Eff), exec i s = .next (s.issue (slotTile i) i u body) ∧ u s = slotUse i ∧ body s = .go e
    ∧ e.WritesOnly s (slotTile i) w

/-- Every instruction that `slotWrites` names; for any other command it names nothing. -/
theorem State.issuesWriting_of_slotWrites (h : slotWrites (s.tile (slotTile i).toNat) i = some w) : s.IssuesWriting i w := by
  cases i
  all_goals try (cases h; done)
  case nop | mul | vadd | vsub | vmul | vfma | vmin | vmax | viadd | visub | vand | vor | vxor | vshl | vshr | vcmp | vmov | vsel | vbcast | vget | vrot
      | vcvt | rdctr | rdsnap =>
    exact ⟨_, _, _, rfl, rfl, rfl, Eff.writesOnly_later _⟩
  case br | jr => exact ⟨_, _, _, rfl, rfl, rfl, Eff.writesOnly_branch _⟩
  case bal t d _ =>
    cases h
    exact ⟨_, _, _, rfl, rfl, rfl, ⟨rfl, rfl, .inr ⟨_, rfl⟩, by simp [PWrite.regIn]⟩⟩
  case setf t m =>
    cases h
    refine ⟨_, _, _, rfl, rfl, rfl, Eff.writesOnly_one (PWrite.regIn_flags_of_kept rfl ?_)⟩
    exact or_and_not_self _ _
  case clrf t m =>
    cases h
    refine ⟨_, _, _, rfl, rfl, rfl, Eff.writesOnly_one (PWrite.regIn_flags_of_kept rfl ?_)⟩
    exact and_not_and_not_self _ _
  case add | sub | and | or | xor | shl | shr | sra | min | max | mov =>
    cases h
    exact ⟨_, _, _, rfl, rfl, rfl, Eff.writesOnly_alu rfl (List.mem_singleton_self _)⟩
  case cmp =>
    cases h
    exact ⟨_, _, _, rfl, rfl, rfl, Eff.writesOnly_one (PWrite.regIn_flags _ _ rfl)⟩
  case pmod =>
    cases h
    exact ⟨_, _, _, rfl, rfl, rfl, Eff.writesOnly_one (List.mem_singleton_self _)⟩
  case setsp t r v =>
    obtain ⟨hgood, hw⟩ := Option.ite_none_left_eq_some.mp h
    cases hw
    exact ⟨_, _, _, rfl, rfl, sprOut_of_not_badDepth hgood, Eff.writesOnly_spr rfl⟩
  case mvs t dir g r =>
    cases dir with
    | false =>
      cases h
      exact ⟨_, _, _, rfl, rfl, rfl, Eff.writesOnly_one (List.mem_singleton_self _)⟩
    | true =>
      obtain ⟨hgood, hw⟩ := Option.ite_none_left_eq_some.mp h
      cases hw
      exact ⟨_, _, _, rfl, rfl, sprOut_of_not_badDepth hgood, Eff.writesOnly_spr rfl⟩

end RegisterSlot

/-- Settles O5: a register instruction issues with writes of `w` alone, and the slot of such an instruction changes nothing else. -/
theorem registerInstructionsFrame : Obligations.RegisterInstructionsFrame := by
  unfold Obligations.RegisterInstructionsFrame
  intro s i w t hw hwf hready hquiet
  obtain ⟨use, body, e, hexec, huse, hbody, hst, hswap, hctl, hown⟩ := State.issuesWriting_of_slotWrites hw
  have hframe : SlotFrame t.toNat w s (s.issueSlot t.toNat e) :=
    SlotFrame.issueSlot e hst hswap hctl hown (State.memWf_tiles hwf) (Tile.memWf_spr (State.memWf_tile hwf _)) hquiet
  rw [← huse] at hready
  refine ⟨_, hexec.trans (congrArg _ (State.issue_go hready hbody)), hframe.only.rest, hframe.only.tiles, hframe.ctrs, hframe.same⟩

end Sys2Proof.Machine
end

section
/-! PROOFS. A store over two slots (R103, R106, R107, R132, R143, R159): what its own slot leaves in flight, and what the slot after it lands. -/

namespace Sys2Proof.Machine

/-! ### What a read of a memory finds after a store -/

/-- The bytes stored stand from the address on; every other byte reads as before. -/
theorem Mem.get_store {m : Mem} (h : SMap.wf 0 m = true) (a : Nat) (l : List Byte) (b : Nat) :
    SMap.get 0 (Mem.store 0 m a l) b = if a ≤ b ∧ b < a + l.length then l.getD (b - a) 0 else SMap.get 0 m b := by
  by_cases hb : a ≤ b ∧ b < a + l.length
  · have hlt : b - a < l.length := by omega
    have hin := Mem.get_store_in 0 m a (b - a) l (Bool.and_eq_true_iff.mp h).1 hlt
    rw [Nat.add_sub_cancel' hb.1] at hin
    rw [hin, if_pos hb, List.getD_eq_getElem?_getD, List.getElem?_eq_getElem hlt, Option.getD_some]
  · rw [if_neg hb, Mem.get_store_out 0 m a b l (by omega)]

/-! ### What an issue slot leaves of the rest of its tile -/

/-- Tile y is tile x but for its sequencer, its pipeline, its local time and its fault window. -/
def Tile.SameMachine (x y : Tile) : Prop :=
  y = { x with pc := y.pc, delay := y.delay, pipe := y.pipe, yHeld := y.yHeld, ic := y.ic, restart := y.restart, extTook := y.extTook,
               fltWindow := y.fltWindow, fltLimit := y.fltLimit, fltStart := y.fltStart, fltCount := y.fltCount }

/-- The tile with other instructions in flight. -/
def Tile.withPipe (x : Tile) (l : List PEntry) : Tile := { x with pipe := l }

section SameMachine

variable {x y z : Tile}

theorem Tile.SameMachine.trans (h : x.SameMachine y) (g : y.SameMachine z) : x.SameMachine z := by
  unfold Tile.SameMachine at h g ⊢
  rw [g, h]

theorem Tile.SameMachine.of_sameUnit (h : x.sameUnit y) : x.SameMachine y := by
  unfold Tile.SameMachine
  rw [h]

theorem Tile.pipe_of_sameUnit (h : x.sameUnit y) : y.pipe = x.pipe := by rw [h]

theorem Tile.sameMachine_advance (x : Tile) (b : Option (BitVec 12)) : x.SameMachine (x.advance b) := by
  unfold Tile.advance
  dsimp only
  split <;> rfl

theorem Tile.sameMachine_withPipe (x : Tile) (l : List PEntry) : x.SameMachine (x.withPipe l) := rfl

theorem Tile.sameMachine_withIssue (x : Tile) (l : List PEntry) (b : Bool) : x.SameMachine { x with pipe := l, yHeld := b } := rfl

theorem Tile.SameMachine.osStore (h : x.SameMachine y) (a : Nat) (l : List Byte) : (x.osStore a l).SameMachine (y.osStore a l) := by
  unfold Tile.osStore
  rw [h]
  rfl

theorem Tile.SameMachine.linStore (h : x.SameMachine y) (a : Nat) (v : Line) : (x.linStore a v).SameMachine (y.linStore a v) := by
  unfold Tile.linStore
  generalize leBytes 128 v.toNat = l
  rw [h]
  rfl

theorem Tile.SameMachine.idleUnit (h : x.SameMachine y) (hx : x.idleUnit) : y.idleUnit := by
  rw [h]
  exact ⟨hx.streams, hx.waiting, hx.bbRun, hx.bbWait, hx.tree⟩

theorem Tile.SameMachine.withGpr (h : x.SameMachine y) (g : SMap Word) : ({ x with gpr := g } : Tile).SameMachine { y with gpr := g } := by
  rw [h]
  rfl

theorem Tile.SameMachine.gpr (h : x.SameMachine y) : y.gpr = x.gpr := by rw [h]
theorem Tile.SameMachine.vreg (h : x.SameMachine y) : y.vreg = x.vreg := by rw [h]
theorem Tile.SameMachine.spr (h : x.SameMachine y) : y.spr = x.spr := by rw [h]
theorem Tile.SameMachine.pmem (h : x.SameMachine y) : y.pmem = x.pmem := by rw [h]
theorem Tile.SameMachine.os (h : x.SameMachine y) : y.os = x.os := by rw [h]
theorem Tile.SameMachine.osErr (h : x.SameMachine y) : y.osErr = x.osErr := by rw [h]
theorem Tile.SameMachine.lining (h : x.SameMachine y) : y.lining = x.lining := by rw [h]
theorem Tile.SameMachine.launching (h : x.SameMachine y) : y.launching = x.launching := by rw [h]
theorem Tile.SameMachine.flags (h : x.SameMachine y) : y.flags = x.flags := by rw [h]; rfl

end SameMachine

/-! ### The writes of a store -/

/-- What a store's write does to its tile. -/
def PWrite.onTile : PWrite → Tile → Tile
  | .word a v, x => { x with os := Mem.store 0 x.os a (leBytes 4 v.toNat), osErr := SMap.set 0 x.osErr (a / 8) 0 }
  | .line a v, x => x.osStoreLine a v
  | .lining a v, x => x.linStore a v
  | _, x => x

/-- A store's write at tile x; one of 4 bytes meets no word in error (R106). -/
def PWrite.IsStore (x : Tile) : PWrite → Prop
  | .word a _ => SMap.get 0 x.osErr (a / 8) = 0
  | .line _ _ => True
  | .lining _ _ => True
  | _ => False

theorem PWrite.onTile_sameMachine {x y : Tile} (p : PWrite) (h : x.SameMachine y) : (p.onTile x).SameMachine (p.onTile y) := by
  cases p with
  | word a v => unfold PWrite.onTile; rw [h]; rfl
  | line a v => exact Tile.SameMachine.osStore h a _
  | lining a v => exact Tile.SameMachine.linStore h a v
  | _ => exact h

theorem PWrite.onTile_launching (p : PWrite) (x : Tile) : (p.onTile x).launching = x.launching := by
  cases p with
  | line a v => simp only [PWrite.onTile, Tile.osStoreLine, Tile.osStore]
  | lining a v => simp only [PWrite.onTile, Tile.linStore]
  | _ => rfl

theorem PWrite.IsStore.sameMachine {x y : Tile} {p : PWrite} (hp : p.IsStore x) (h : x.SameMachine y) : p.IsStore y := by
  cases p with
  | word a v => exact (congrArg (SMap.get 0 · (a / 8)) h.osErr).trans hp
  | line | lining => trivial
  | _ => exact hp.elim

theorem PWrite.isStore_withGpr {x : Tile} {p : PWrite} (hp : p.IsStore x) (g : SMap Word) : p.IsStore { x with gpr := g } := by
  cases p <;> exact hp

section Slot

variable {s u v : State} {t : Nat} {x : Tile} {p : PWrite} {m : MAddr} {z : Bool}

/-- Nothing but tile t and the counters changes between the states, and tile t becomes x. -/
structure State.BecomesAt (t : Nat) (s u : State) (x : Tile) : Prop where
  only : OnlyTile t s u
  tile : u.tile t = x

theorem State.becomesAt_modTile (hw : SMap.wf Tile.init s.tiles = true) (f : Tile → Tile) : State.BecomesAt t s (s.modTile t f) (f (s.tile t)) :=
  ⟨OnlyTile.modTile f, State.modTile_tile_self hw f⟩

theorem State.BecomesAt.after (g : State.BecomesAt t u v x) (h : OnlyTile t s u) : State.BecomesAt t s v x := ⟨h.trans g.only, g.tile⟩

theorem State.BecomesAt.countTile (h : State.BecomesAt t s u x) (c n : Nat) : State.BecomesAt t s (u.countTile t c n) x :=
  ⟨h.only.trans (OnlyTile.countTile c n), h.tile⟩

/-- A tile that owes no launch completes none. -/
theorem State.BecomesAt.launchIssued (h : State.BecomesAt t s u x) (hl : x.launching = false) : State.BecomesAt t s (u.launchIssued t) x := by
  rw [State.launchIssued_done ((congrArg Tile.launching h.tile).trans hl)]
  exact h

/-- A 4-byte store into a word without an error mark (R106). -/
theorem State.osStoreWord_of_clean {a : Nat} {w : Word} (h : SMap.get 0 (s.tile t).osErr (a / 8) = 0) :
    s.osStoreWord t a w = s.modTile t (PWrite.word a w).onTile := by
  simp only [State.osStoreWord, State.osTouch, State.eccRead, h, Bool.false_eq_true, if_false]
  rfl

/-- A store's write takes effect on its tile alone. -/
theorem State.applyWrite_isStore (hw : SMap.wf Tile.init s.tiles = true) (hp : p.IsStore (s.tile t)) :
    State.BecomesAt t s (s.applyWrite t p).1 (p.onTile (s.tile t)) := by
  cases p with
  | word a w =>
    rw [State.applyWrite, State.osStoreWord_of_clean hp]
    exact State.becomesAt_modTile hw _
  | line a w => exact State.becomesAt_modTile hw (PWrite.line a w).onTile
  | lining a w =>
    exact (State.becomesAt_modTile (s := s.countTile t 3) hw (PWrite.lining a w).onTile).after (OnlyTile.countTile 3 1)
  | _ => exact hp.elim

/-- A store's write raises no sticky bit. -/
theorem State.applyWrite_isStore_mask (hp : p.IsStore x) : (s.applyWrite t p).2 = 0 := by
  cases p with
  | word | line | lining => rfl
  | _ => exact hp.elim

/-! ### The registers that format M post-modifies (R107, R137) -/

/-- The pointer that AM post-modifies. -/
def pointersOf (m : MAddr) : List Nat := if 2 ≤ m.am.toNat then [16 + m.ptr.toNat] else []

theorem Tile.maddr_writes (x : Tile) (m : MAddr) : (x.maddr m).2 = [] ∨ ∃ c ∈ pointersOf m, ∃ w, (x.maddr m).2 = [.gen c w] := by
  unfold Tile.maddr pointersOf
  dsimp only
  split
  · exact .inl rfl
  · exact .inl rfl
  case h_3 h => exact .inr ⟨_, by simp [h], _, rfl⟩
  case h_4 h0 h1 _ =>
    have hne0 : m.am.toNat ≠ 0 := h0
    have hne1 : m.am.toNat ≠ 1 := h1
    rw [if_pos (by omega)]
    exact .inr ⟨_, List.mem_singleton_self _, _, rfl⟩

/-! ### The slots of a store -/

theorem State.applyWrites_nil : s.applyWrites t [] = (s, 0) := rfl

theorem State.applyWrites_one (p : PWrite) : s.applyWrites t [p] = s.applyWrite t p :=
  Prod.ext rfl (BitVec.zero_or)

theorem State.stickies_zero : s.stickies t 0 = s := if_pos rfl

/-- A slot without a write. -/
theorem State.slotEnd_idle (hp : (s.tile t).pipe = []) : s.slotEnd t [] = s.modTile t (·.withPipe []) := by
  simp only [State.slotEnd, hp, landingNow, stillFlying, List.filter_nil, List.map_nil, List.foldl_nil, State.applyWrites_nil, BitVec.or_self,
    State.stickies_zero]
  rfl

/-- A slot whose one write is the instruction's own and raises no sticky bit. -/
theorem State.slotEnd_own (hp : (s.tile t).pipe = []) (hmask : ((s.modTile t (·.withPipe [])).applyWrite t p).2 = 0) :
    s.slotEnd t [p] = ((s.modTile t (·.withPipe [])).applyWrite t p).1 := by
  unfold Tile.withPipe at hmask ⊢
  simp only [State.slotEnd, hp, landingNow, stillFlying, List.filter_nil, List.map_nil, List.foldl_nil, State.applyWrites_nil, State.applyWrites_one, hmask,
    BitVec.or_self, State.stickies_zero]

/-- A slot whose one write is that of the instruction before it and raises no sticky bit. -/
theorem State.slotEnd_landed {e : PEntry} (hp : (s.tile t).pipe = [e]) (hleft : e.left = 1) (hsticky : e.sticky = 0)
    (hmask : ((s.modTile t (·.withPipe [])).applyWrite t e.write).2 = 0) :
    s.slotEnd t [] = ((s.modTile t (·.withPipe [])).applyWrite t e.write).1 := by
  have hland : landingNow [e] = [e] := by simp [landingNow, hleft]
  have hrest : stillFlying [e] = [] := by simp [stillFlying, hleft]
  unfold Tile.withPipe at hmask ⊢
  simp only [State.slotEnd, hp, hland, hrest, List.map_cons, List.map_nil, List.foldl_cons, List.foldl_nil, State.applyWrites_nil, State.applyWrites_one,
    hmask, hsticky, BitVec.or_self, State.stickies_zero]

/-- With nothing in flight, a slot whose own writes are those of format M ends with the post-modified pointer. -/
theorem State.slotEnd_pointer (hw : SMap.wf Tile.init s.tiles = true) (hp : (s.tile t).pipe = []) (x : Tile) (m : MAddr) :
    ∃ g y, State.BecomesAt t s (s.slotEnd t (x.maddr m).2) y ∧ ({ s.tile t with gpr := g } : Tile).SameMachine y ∧ y.pipe = []
      ∧ ∀ c, c ∉ pointersOf m → SMap.get 0 g c = (s.tile t).gen c := by
  have hpipe := State.becomesAt_modTile (t := t) hw (·.withPipe [])
  obtain h | ⟨c, hc, w, h⟩ := x.maddr_writes m <;> rw [h]
  · rw [State.slotEnd_idle hp]
    exact ⟨(s.tile t).gpr, _, hpipe, rfl, rfl, fun _ _ => rfl⟩
  · rw [State.slotEnd_own hp rfl]
    have hgen := State.becomesAt_modTile (t := t) (hpipe.only.wf hw) (fun y => y.setGen c w)
    rw [hpipe.tile] at hgen
    exact ⟨SMap.set 0 (s.tile t).gpr c w, _, hgen.after hpipe.only, rfl, rfl, fun q hq => SMap.get_set_ne _ _ _ _ _ fun e => hq (e ▸ hc)⟩

/-- Write p alone is in flight and lands at the end of the next slot, without a sticky bit. -/
def Tile.LandsNext (x : Tile) (p : PWrite) : Prop := ∃ e, x.pipe = [e] ∧ e.left = 1 ∧ e.sticky = 0 ∧ e.write = p

theorem Tile.LandsNext.of_pipe {y : Tile} (h : x.LandsNext p) (hy : y.pipe = x.pipe) : y.LandsNext p := by
  obtain ⟨e, hpipe, he⟩ := h
  exact ⟨e, hy.trans hpipe, he⟩

/-- A store's write in flight, in the slot after its own, lands at the end of that slot. -/
theorem State.slotEnd_landing (hw : SMap.wf Tile.init s.tiles = true) (hp : (s.tile t).LandsNext p) (hstore : p.IsStore (s.tile t)) :
    ∃ y, State.BecomesAt t s (s.slotEnd t []) y ∧ (p.onTile (s.tile t)).SameMachine y := by
  obtain ⟨e, hpipe, hleft, hsticky, rfl⟩ := hp
  have hsame := Tile.sameMachine_withPipe (s.tile t) []
  have hempty := State.becomesAt_modTile (t := t) hw (·.withPipe [])
  have hwrite := State.applyWrite_isStore (t := t) (p := e.write) (hempty.only.wf hw) (by rw [hempty.tile]; exact hstore.sameMachine hsame)
  rw [hempty.tile] at hwrite
  rw [State.slotEnd_landed hpipe hleft hsticky (State.applyWrite_isStore_mask (hstore.sameMachine hsame))]
  exact ⟨_, hwrite.after hempty.only, PWrite.onTile_sameMachine e.write hsame⟩

/-- What an instruction that goes on, issued at `pc`, leaves of the tile that ends its slot. -/
def Tile.afterSeq (x : Tile) (later : List PEntry) (pc : BitVec 12) : Tile :=
  { x.advance none with pipe := x.pipe ++ later.map (fun p => { p with left := p.left - 1, word := SMap.get 0 x.pmem pc.toNat }), yHeld := false }

theorem Tile.sameMachine_afterSeq (x : Tile) (later : List PEntry) (pc : BitVec 12) : x.SameMachine (x.afterSeq later pc) :=
  (Tile.sameMachine_advance x none).trans (Tile.sameMachine_withIssue _ _ _)

theorem Tile.afterSeq_pipe (x : Tile) (later : List PEntry) (pc : BitVec 12) :
    (x.afterSeq later pc).pipe = x.pipe ++ later.map (fun p => { p with left := p.left - 1, word := SMap.get 0 x.pmem pc.toNat }) := rfl

/-- The slot of an instruction that goes on, on a tile without matrix work: the slot ends, and the sequencer advances. -/
theorem State.issueSlot_seq {e : Eff} (hw : SMap.wf Tile.init s.tiles = true) (hu : (s.tile t).idleUnit) (hlm : flagLM (s.tile t).flags = false)
    (hst : e.st = s) (hswap : e.swap = none) (hctl : e.ctl = .seq) (hend : State.BecomesAt t (s.tick t) ((s.tick t).slotEnd t e.own) x)
    (hl : x.launching = false) : State.BecomesAt t s (s.issueSlot t e) (x.afterSeq e.later (s.tile t).pc) := by
  obtain ⟨htick, hunit, -⟩ := State.tick_quiet hw hu
  have hloop : ((s.tick t).tile t).loopDecide (s.tile t).pc .seq = ((s.tick t).tile t, none) := Tile.loopDecide_unit hunit hlm _ (.inl rfl)
  have hadv := State.becomesAt_modTile (t := t) (hend.only.wf (htick.wf hw)) (fun y => y.afterSeq e.later (s.tile t).pc)
  rw [hend.tile] at hadv
  have hslot : s.issueSlot t e = ((((s.tick t).slotEnd t e.own).modTile t (fun y => y.afterSeq e.later (s.tile t).pc)).countTile t 1).launchIssued t := by
    unfold State.issueSlot
    simp only [hst, hswap, hctl, hloop, State.setTile_tile (htick.wf hw), State.doSwap]
    rfl
  have hlaunch : (x.afterSeq e.later (s.tile t).pc).launching = false := (Tile.sameMachine_afterSeq _ _ _).launching.trans hl
  rw [hslot]
  exact (((hadv.after hend.only).after htick).countTile 1 1).launchIssued hlaunch

theorem Tile.landsNext_afterSeq (hx : x.pipe = []) (z : Bool) (p : PWrite) (pc : BitVec 12) : (x.afterSeq [later 2 z p] pc).LandsNext p :=
  ⟨⟨1, z, p, 0, SMap.get 0 x.pmem pc.toNat⟩, by rw [Tile.afterSeq_pipe, hx]; rfl, rfl, rfl, rfl⟩

/-- The effect of a store at its issue: the pointer that AM post-modifies is written at once, write p in the slot after. -/
def State.storeEff (s : State) (t : Nat) (m : MAddr) (z : Bool) (p : PWrite) : Eff :=
  { st := s, own := ((s.tile t).maddr m).2, later := [later 2 z p] }

/-- The slot of a store on a quiet tile: the pointer is post-modified, and the store's write is in flight. -/
theorem State.issueSlot_store (hw : SMap.wf Tile.init s.tiles = true) (hq : (s.tile t).quiet = true) (m : MAddr) (z : Bool) (p : PWrite) :
    ∃ g y, State.BecomesAt t s (s.issueSlot t (s.storeEff t m z p)) y
      ∧ ({ s.tile t with gpr := g } : Tile).SameMachine y ∧ y.LandsNext p ∧ ∀ c, c ∉ pointersOf m → SMap.get 0 g c = (s.tile t).gen c := by
  obtain ⟨hunit, hpipe, hlm, -, hlaunch⟩ := Tile.quiet_unit hq
  obtain ⟨htick, htile, -⟩ := State.tick_quiet hw hunit
  have hsame := Tile.SameMachine.of_sameUnit htile
  have hpipe' : ((s.tick t).tile t).pipe = [] := (Tile.pipe_of_sameUnit htile).trans hpipe
  obtain ⟨g, y, hend, hy, hypipe, hg⟩ := State.slotEnd_pointer (htick.wf hw) hpipe' (s.tile t) m
  have hsame' := (hsame.withGpr g).trans hy
  refine ⟨g, _, State.issueSlot_seq hw hunit hlm rfl rfl rfl hend (hsame'.launching.trans hlaunch), hsame'.trans (Tile.sameMachine_afterSeq _ _ _),
    Tile.landsNext_afterSeq hypipe z p _, fun c hc => ?_⟩
  rw [hg c hc, Tile.gen, hsame.gpr, Tile.gen]

/-- The slot after a store's own: the store's write lands. -/
theorem State.issueSlot_landing (hw : SMap.wf Tile.init s.tiles = true) (hu : (s.tile t).idleUnit) (hlm : flagLM (s.tile t).flags = false)
    (hl : (s.tile t).launching = false) (hp : (s.tile t).LandsNext p) (hstore : p.IsStore (s.tile t)) :
    ∃ y, State.BecomesAt t s (s.issueSlot t { st := s }) y ∧ (p.onTile (s.tile t)).SameMachine y := by
  obtain ⟨htick, htile, -⟩ := State.tick_quiet hw hu
  have hsame := Tile.SameMachine.of_sameUnit htile
  obtain ⟨y, hend, hy⟩ := State.slotEnd_landing (htick.wf hw) (hp.of_pipe (Tile.pipe_of_sameUnit htile)) (hstore.sameMachine hsame)
  have hsame' := (PWrite.onTile_sameMachine p hsame).trans hy
  exact ⟨_, State.issueSlot_seq hw hu hlm rfl rfl rfl hend (hsame'.launching.trans ((PWrite.onTile_launching p _).trans hl)),
    hsame'.trans (Tile.sameMachine_afterSeq _ _ _)⟩

/-- A store and a `nop` in the next slot: nothing but the pointer that AM post-modifies and the bytes stored changes of the registers and memories. -/
theorem State.store_then_nop (hwf : s.memWf = true) (hq : (s.tile t).quiet = true) (hp : p.IsStore (s.tile t))
    (hu : u = s.issueSlot t (s.storeEff t m z p)) (hv : v = u.issueSlot t { st := u }) :
    OnlyTile t s v ∧ ∃ g, (∀ c, c ∉ pointersOf m → SMap.get 0 g c = (s.tile t).gen c)
      ∧ (p.onTile { s.tile t with gpr := g }).SameMachine (v.tile t) := by
  obtain ⟨hunit, -, hlm, -, hlaunch⟩ := Tile.quiet_unit hq
  obtain ⟨g, y, hstore, hy, hlands, hg⟩ := State.issueSlot_store (State.memWf_tiles hwf) hq m z p
  rw [← hu] at hstore
  obtain ⟨hsu, rfl⟩ := hstore
  have hunit' := hy.idleUnit ⟨hunit.streams, hunit.waiting, hunit.bbRun, hunit.bbWait, hunit.tree⟩
  obtain ⟨w, hland, hw⟩ := State.issueSlot_landing (hsu.wf (State.memWf_tiles hwf)) hunit' (by rw [hy.flags]; exact hlm)
    (hy.launching.trans hlaunch) hlands (PWrite.IsStore.sameMachine (PWrite.isStore_withGpr hp g) hy)
  rw [← hv] at hland
  obtain ⟨huv, rfl⟩ := hland
  exact ⟨hsu.trans huv, g, hg, (PWrite.onTile_sameMachine p hy).trans hw⟩

theorem PWrite.onTile_registers (p : PWrite) (x : Tile) :
    (p.onTile x).gpr = x.gpr ∧ (p.onTile x).vreg = x.vreg ∧ (p.onTile x).spr = x.spr ∧ (p.onTile x).pmem = x.pmem := by
  cases p with
  | line a v => simp only [PWrite.onTile, Tile.osStoreLine, Tile.osStore, and_self]
  | lining a v => simp only [PWrite.onTile, Tile.linStore, and_self]
  | _ => exact ⟨rfl, rfl, rfl, rfl⟩

theorem PWrite.onTile_word (a : Nat) (w : Word) (x : Tile) :
    ((PWrite.word a w).onTile x).os = Mem.store 0 x.os a (leBytes 4 w.toNat) ∧ ((PWrite.word a w).onTile x).lining = x.lining := ⟨rfl, rfl⟩

theorem PWrite.onTile_line (a : Nat) (w : Line) (x : Tile) :
    ((PWrite.line a w).onTile x).os = Mem.store 0 x.os a (leBytes 128 w.toNat) ∧ ((PWrite.line a w).onTile x).lining = x.lining := by
  simp only [PWrite.onTile, Tile.osStoreLine, Tile.osStore, and_self]

theorem PWrite.onTile_lining (a : Nat) (w : Line) (x : Tile) :
    ((PWrite.lining a w).onTile x).lining = Mem.store 0 x.lining a (leBytes 128 w.toNat) ∧ ((PWrite.lining a w).onTile x).os = x.os := by
  simp only [PWrite.onTile, Tile.linStore, and_self]

/-- What a store and the slot after it leave as they were: other tiles, every register but the pointer that AM post-modifies, program memory. -/
def State.RestKept (s v : State) (t : Nat) (m : MAddr) : Prop :=
  (∀ k, k ≠ t → v.tile k = s.tile k) ∧ (∀ c, c ∉ pointersOf m → (v.tile t).gen c = (s.tile t).gen c)
    ∧ (∀ n, (v.tile t).vec n = (s.tile t).vec n) ∧ (v.tile t).spr = (s.tile t).spr ∧ ∀ b, SMap.get 0 (v.tile t).pmem b = SMap.get 0 (s.tile t).pmem b

/-- Memory `new` is memory `old` with the bytes at address a. -/
def Mem.StoredAt (old new : Mem) (a : Nat) (bs : List Byte) : Prop :=
  ∀ b, SMap.get 0 new b = if a ≤ b ∧ b < a + bs.length then bs.getD (b - a) 0 else SMap.get 0 old b

/-- A store and a `nop` in the next slot: beside the rest, operand store and lining become what the store's write makes of them. -/
theorem State.store_then_nop_kept (hwf : s.memWf = true) (hq : (s.tile t).quiet = true) (hp : p.IsStore (s.tile t))
    (hu : u = s.issueSlot t (s.storeEff t m z p)) (hv : v = u.issueSlot t { st := u }) :
    State.RestKept s v t m
      ∧ ∃ g, (v.tile t).os = (p.onTile { s.tile t with gpr := g }).os ∧ (v.tile t).lining = (p.onTile { s.tile t with gpr := g }).lining := by
  obtain ⟨honly, g, hg, hsame⟩ := State.store_then_nop hwf hq hp hu hv
  obtain ⟨hgpr, hvreg, hspr, hpmem⟩ := PWrite.onTile_registers p { s.tile t with gpr := g }
  refine ⟨⟨honly.tiles, fun c hc => ?_, fun n => ?_, hsame.spr.trans hspr, fun b => ?_⟩, g, hsame.os, hsame.lining⟩
  · rw [← hg c hc, Tile.gen, hsame.gpr, hgpr]
  · rw [Tile.vec, hsame.vreg, hvreg, Tile.vec]
  · rw [hsame.pmem, hpmem]

theorem State.wordStore_then_nop {a : Nat} {w : Word} (hwf : s.memWf = true) (hq : (s.tile t).quiet = true)
    (herr : SMap.get 0 (s.tile t).osErr (a / 8) = 0) (hu : u = s.issueSlot t (s.storeEff t m z (.word a w))) (hv : v = u.issueSlot t { st := u }) :
    Mem.StoredAt (s.tile t).os (v.tile t).os a (leBytes 4 w.toNat) ∧ (v.tile t).lining = (s.tile t).lining ∧ State.RestKept s v t m := by
  obtain ⟨hrest, g, hos, hlining⟩ := State.store_then_nop_kept hwf hq (p := .word a w) herr hu hv
  obtain ⟨hstored, hkept⟩ := PWrite.onTile_word a w { s.tile t with gpr := g }
  refine ⟨?_, hlining.trans hkept, hrest⟩
  rw [hos, hstored]
  exact Mem.get_store (Tile.memWf_parts.mp (State.memWf_tile hwf t)).2.1 a _

theorem State.lineStore_then_nop {a : Nat} {w : Line} (hwf : s.memWf = true) (hq : (s.tile t).quiet = true)
    (hu : u = s.issueSlot t (s.storeEff t m z (.line a w))) (hv : v = u.issueSlot t { st := u }) :
    Mem.StoredAt (s.tile t).os (v.tile t).os a (leBytes 128 w.toNat) ∧ (v.tile t).lining = (s.tile t).lining ∧ State.RestKept s v t m := by
  obtain ⟨hrest, g, hos, hlining⟩ := State.store_then_nop_kept hwf hq (p := .line a w) trivial hu hv
  obtain ⟨hstored, hkept⟩ := PWrite.onTile_line a w { s.tile t with gpr := g }
  refine ⟨?_, hlining.trans hkept, hrest⟩
  rw [hos, hstored]
  exact Mem.get_store (Tile.memWf_parts.mp (State.memWf_tile hwf t)).2.1 a _

theorem State.liningStore_then_nop {a : Nat} {w : Line} (hwf : s.memWf = true) (hq : (s.tile t).quiet = true)
    (hu : u = s.issueSlot t (s.storeEff t m z (.lining a w))) (hv : v = u.issueSlot t { st := u }) :
    Mem.StoredAt (s.tile t).lining (v.tile t).lining a (leBytes 128 w.toNat) ∧ (v.tile t).os = (s.tile t).os ∧ State.RestKept s v t m := by
  obtain ⟨hrest, g, hos, hlining⟩ := State.store_then_nop_kept hwf hq (p := .lining a w) trivial hu hv
  obtain ⟨hstored, hkept⟩ := PWrite.onTile_lining a w { s.tile t with gpr := g }
  refine ⟨?_, hos.trans hkept, hrest⟩
  rw [hlining, hstored]
  exact Mem.get_store (Tile.memWf_parts.mp (State.memWf_tile hwf t)).2.2.1 a _

end Slot

/-! ### The rows -/

section Rows

variable {s u : State} {t : TileNo} {r : Reg6} {m : MAddr}

/-- The next state of an instruction that is ready and that its body lets issue. -/
theorem issued_state {i : Instr} {use : State → Use} {body : State → Issue} {e : Eff} (hexec : exec i s = .next (s.issue t i use body))
    (hready : s.ready t i (use s) = true) (hbody : body s = .go e) (h : exec i s = .next u) : u = s.issueSlot t.toNat e := by
  rw [hexec, State.issue_go hready hbody] at h
  exact (Host.Outcome.next.inj h).symm

theorem nop_state (hready : s.ready t (.nop t) {} = true) (h : exec (.nop t) s = .next u) : u = s.issueSlot t.toNat { st := s } :=
  issued_state (use := noUse) rfl hready rfl h

theorem storeWord_of_legal {w : Word} (hlegal : checkRange osTop 4 ((s.tile t.toNat).maddr m).1 4 = none) :
    storeWord s t m w = .go (s.storeEff t.toNat m true (.word ((s.tile t.toNat).maddr m).1 w)) := by
  simp only [storeWord, hlegal, State.storeEff]

theorem st_state (hready : s.ready t (.st t r m) { z := some 2, zStore := some ((s.tile t.toNat).maddr m).1 } = true)
    (hlegal : checkRange osTop 4 ((s.tile t.toNat).maddr m).1 4 = none) (h : exec (.st t r m) s = .next u) :
    u = s.issueSlot t.toNat (s.storeEff t.toNat m true (.word ((s.tile t.toNat).maddr m).1 ((s.tile t.toNat).gen r.toNat))) :=
  issued_state (use := useStore t m) rfl hready (storeWord_of_legal hlegal) h

theorem stsp_state (hready : s.ready t (.stsp t r m) { z := some 2, zStore := some ((s.tile t.toNat).maddr m).1 } = true)
    (hlegal : checkRange osTop 4 ((s.tile t.toNat).maddr m).1 4 = none) (h : exec (.stsp t r m) s = .next u) :
    u = s.issueSlot t.toNat (s.storeEff t.toNat m true (.word ((s.tile t.toNat).maddr m).1 ((s.tile t.toNat).sprv r.toNat))) :=
  issued_state (use := useStore t m) rfl hready (storeWord_of_legal hlegal) h

theorem vst_state (hready : s.ready t (.vst t r m) { z := some 2, zStore := some ((s.tile t.toNat).maddr m).1 } = true)
    (hlegal : checkRange osTop 128 ((s.tile t.toNat).maddr m).1 128 = none) (h : exec (.vst t r m) s = .next u) :
    u = s.issueSlot t.toNat (s.storeEff t.toNat m true (.line ((s.tile t.toNat).maddr m).1 ((s.tile t.toNat).vec (vnum r)))) :=
  issued_state (use := useStore t m) rfl hready (by simp only [hlegal, State.storeEff]) h

theorem lnst_state (hready : s.ready t (.lnst t r m) {} = true)
    (hlegal : checkRange liningTop 128 ((s.tile t.toNat).maddr m).1 128 = none) (h : exec (.lnst t r m) s = .next u) :
    u = s.issueSlot t.toNat (s.storeEff t.toNat m false (.lining ((s.tile t.toNat).maddr m).1 ((s.tile t.toNat).vec (vnum r)))) :=
  issued_state (use := noUse) rfl hready (by simp only [hlegal, State.storeEff]) h

end Rows

/-- Settles O6: each store puts one write in flight, which the slot of the `nop` lands. -/
theorem storesFrame : Obligations.StoresFrame := by
  unfold Obligations.StoresFrame
  intro s u v t r m x a ptr rest at_ hwf hquiet hready hnop y
  have hv := nop_state hready hnop
  refine ⟨?st, ?stsp, ?vst, ?lnst⟩
  case st => exact fun hr hlegal herr hx => State.wordStore_then_nop hwf hquiet herr (st_state hr hlegal hx) hv
  case stsp => exact fun hr hlegal herr hx => State.wordStore_then_nop hwf hquiet herr (stsp_state hr hlegal hx) hv
  case vst => exact fun hr hlegal hx => State.lineStore_then_nop hwf hquiet (vst_state hr hlegal hx) hv
  case lnst => exact fun hr hlegal hx => State.liningStore_then_nop hwf hquiet (lnst_state hr hlegal hx) hv

end Sys2Proof.Machine
end

section
/-! PROOFS. Events of a tile (R119, R121, R123, R125, R128, R163, R167): what each command does once its event is due and nothing stands before it. -/

namespace Sys2Proof.Machine

section TileEvents

variable {s : State} {t : TileNo}

/-- A halted tile whose work has drained completes (R119, R125). -/
theorem exec_tileCompletion_of_complete (hdone : (s.tile t.toNat).complete = true) (hrun : s.tileFrozen t.toNat = false)
    (hdue : s.eventDue t.toNat = false) : exec (.tileCompletion t) s = .next (s.completeTile t.toNat) := by
  have hhalted : (s.tile t.toNat).run = .halted := by
    simp only [Tile.complete, Bool.and_eq_true, decide_eq_true_eq] at hdone
    exact hdone.1.1
  simp only [exec_tileCompletion, execTileCompletion, hhalted, hrun, hdue, hdone, ne_eq, not_true_eq_false, Bool.false_eq_true, or_self, if_false, if_true]

/-- An acknowledged preempt counts at the panel of the tile, where it has one (R125). -/
theorem State.countAck_eq (ack : Bool) (u : State) (n : Nat) :
    (if ack then match u.panelOf n with
      | some p => bumpF u Reg.CMD_POST_ACKS 1 p
      | none => u
    else u) = match ack, u.panelOf n with
      | true, some p => bumpF u Reg.CMD_POST_ACKS 1 p
      | _, _ => u := by
  cases ack with
  | false => rfl
  | true => cases u.panelOf n <;> rfl

/-- The completion's trace record, its tile, and the count of an acknowledged preempt (R119, R125). -/
theorem State.completeTile_eq (n : Nat) :
    let x := s.tile n
    let u := (s.trace n 3 x.haltPc.toNat (BitVec.ofNat 32 (bit x.haltAck))).modTile n
      (fun y => { (y.setSprRaw 0x22 0) with run := .idle, inHandler := false, haltAck := false })
    s.completeTile n = match x.haltAck, u.panelOf n with
      | true, some p => bumpF u Reg.CMD_POST_ACKS 1 p
      | _, _ => u := by
  exact State.countAck_eq _ _ n

/-- A pending interrupt is entered from an issue slot whose word stops nothing, with nothing in flight (R122, R123). -/
theorem exec_interruptEntry_of_ready (hseq : s.sequencing t.toNat = true) (hdue : s.eventDue t.toNat = false) (hchain : s.chainBehind t.toNat = false)
    (hgap : (s.tile t.toNat).gap = 0) (hrti : (s.tile t.toNat).rtiPend = false) (hent : (s.tile t.toNat).entering = none)
    (hirq : (s.tile t.toNat).irqReady = true) (hhold : (s.tile t.toNat).hold {} = none) (hpipe : (s.tile t.toNat).pipe = [])
    (hword : s.stopsAtWord t.toNat = false) :
    exec (.interruptEntry t) s = .next (s.enterHandler t.toNat (irqCause ((s.tile t.toNat).sprv sprIPEND))) := by
  simp only [exec_interruptEntry, execInterruptEntry, hseq, hdue, hchain, hgap, hrti, hent, hirq, hhold, hpipe, hword, Nat.lt_irrefl, decide_false,
    Bool.not_true, Bool.or_self, Bool.false_eq_true, if_false, List.isEmpty_nil, if_true]

/-- An issue slot that nothing takes: what is asked of it happens. -/
theorem State.atSlot_of_free {k : State → State} {n : Nat} (hseq : s.sequencing n = true) (hdue : s.eventDue n = false) (hchain : s.chainBehind n = false)
    (hent : (s.tile n).entering = none) (hgap : (s.tile n).gap = 0) (hrti : (s.tile n).rtiPend = false) (hfetch : (s.tile n).fetchWait = 0) :
    s.atSlot n k = k s := by
  simp [State.atSlot, hseq, hdue, hchain, hent, hgap, hrti, hfetch]

/-- A reserved word at the program counter, fetched without an error, raises ILLEGAL (R128). -/
theorem exec_reservedEncoding_of_free {w : DWord} (hseq : s.sequencing t.toNat = true) (hdue : s.eventDue t.toNat = false)
    (hchain : s.chainBehind t.toNat = false) (hent : (s.tile t.toNat).entering = none) (hgap : (s.tile t.toNat).gap = 0)
    (hrti : (s.tile t.toNat).rtiPend = false) (hfetch : (s.tile t.toNat).fetchWait = 0)
    (herr : SMap.get 0 (s.tile t.toNat).pmemErr (s.tile t.toNat).pc.toNat = 0) (hw : SMap.get 0 (s.tile t.toNat).pmem (s.tile t.toNat).pc.toNat = w)
    (hres : decodeTile t w = none) : exec (.reservedEncoding t w) s = .next (s.tileFault t.toNat fltILLEGAL 0) := by
  rw [exec_reservedEncoding, execReservedEncoding, State.atSlot_of_free hseq hdue hchain hent hgap hrti hfetch]
  simp only [State.pmemFetch_clean _ _ herr, hw, ne_eq, not_true_eq_false, if_false, hres]

/-- More transient events than the window in force allows retire the tile (R121). -/
theorem exec_faultLimitExceeded_of_exceeded (hwin : (s.tile t.toNat).fltWindow ≠ 0) (hlim : (s.tile t.toNat).fltLimit < (s.tile t.toNat).fltCount) :
    exec (.faultLimitExceeded t) s = .next (s.retireTile t.toNat) :=
  congrArg _ (if_pos ⟨hwin, hlim⟩)

/-- The oldest word of the operand store that awaits its replay, where it does not fail again, holds the test pattern (R121). -/
theorem exec_uncorrectableReplay_osWord {w : Nat} {r : List (Nat × Nat)} (h : (s.tile t.toNat).replay = (3, w) :: r) :
    exec (.uncorrectableReplay t false) s = .next (s.setTile t.toNat { (s.tile t.toNat) with
      replay := r
      os := Mem.store 0 (s.tile t.toNat).os (8 * w) (leBytes 8 (Config.testPattern s.draws).toNat)
      osErr := SMap.set 0 (s.tile t.toNat).osErr w 0 }).drawn := by
  simp only [exec_uncorrectableReplay, execUncorrectableReplay, h, Bool.false_eq_true, if_false]

/-- A word that fails again at its replay retires the tile (R121). -/
theorem exec_uncorrectableReplay_recurring {e : Nat × Nat} {r : List (Nat × Nat)} (h : (s.tile t.toNat).replay = e :: r) :
    exec (.uncorrectableReplay t true) s = .next ((s.setTile t.toNat { (s.tile t.toNat) with replay := r }).retireTile t.toNat) := by
  simp only [exec_uncorrectableReplay, execUncorrectableReplay, h, if_true]

/-- The patrol scrub reads its line and moves to the next (R167). -/
theorem exec_patrolScrubRead_of_free (hen : flag s Reg.TIL_LIN_SCRUB_EN t.toNat = true) (hfree : s.scaleFree t.toNat = true) :
    exec (.patrolScrubRead t) s = .next ((s.linPLine t.toNat (128 * (s.tile t.toNat).scrubPos) false).1.modTile t.toNat
      (fun x => { x with scrubPos := (x.scrubPos + 1) % 16384 })) := by
  simp only [exec_patrolScrubRead, execPatrolScrubRead, hen, hfree, and_self, if_true]

/-- A corrected word is written back and no longer waits (R163). -/
theorem exec_correctedWriteBack_of_due {w : BitVec 18} (hdue : (s.tile t.toNat).wrBackDue w.toNat = true) (hfree : s.scaleFree t.toNat = true) :
    exec (.correctedWriteBack t w) s = .next (s.modTile t.toNat
      (fun x => { x with liningErr := SMap.set 0 x.liningErr w.toNat 0, wrBack := x.wrBack.filter (fun e => e.1 ≠ w.toNat) })) :=
  congrArg _ (if_pos ⟨hdue, hfree⟩)

end TileEvents

/-- Settles O21: each clause is the rule of one event. -/
theorem tileEventsComplete : Obligations.TileEventsComplete := by
  unfold Obligations.TileEventsComplete
  refine ⟨?completion, ?entry, ?reserved, ?limit, ?replay, ?recurring, ?scrub, ?writeBack⟩
  case completion =>
    intro s t hdone hrun hdue
    exact (exec_tileCompletion_of_complete hdone hrun hdue).trans (congrArg _ (State.completeTile_eq t.toNat))
  case entry => exact fun _ _ hseq hdue hchain hgap hrti hent hirq hhold hpipe hword =>
    exec_interruptEntry_of_ready hseq hdue hchain hgap hrti hent hirq hhold hpipe hword
  case reserved => exact fun _ _ _ hseq hdue hchain hent hgap hrti hfetch herr hw hres =>
    exec_reservedEncoding_of_free hseq hdue hchain hent hgap hrti hfetch herr hw hres
  case limit => exact fun _ _ hwin hlim => exec_faultLimitExceeded_of_exceeded hwin hlim
  case replay => exact fun _ _ _ _ h => exec_uncorrectableReplay_osWord h
  case recurring => exact fun _ _ _ _ h => exec_uncorrectableReplay_recurring h
  case scrub => exact fun _ _ hen hfree => exec_patrolScrubRead_of_free hen hfree
  case writeBack => exact fun _ _ _ hdue hfree => exec_correctedWriteBack_of_due hdue hfree

end Sys2Proof.Machine
end

section
/-! PROOFS. The takeover map of R189: nothing that a thaw, a broken stitch or a reset starts changes which site stands for a logical tile. One lemma per
operation, in the order of the definitions. -/

namespace Sys2Proof.Machine

section Takeover

variable {s : State}

/-! ### Folds -/

theorem foldl_takeover {α : Type} {f : State → α → State} (hf : ∀ u a, (f u a).takeover = u.takeover) (l : List α) (s : State) :
    (l.foldl f s).takeover = s.takeover :=
  foldl_keeps (p := fun u : State => u.takeover = s.takeover) (fun u a h => (hf u a).trans h) l rfl

/-- A fold that carries a value beside the state. -/
theorem foldl_fst_takeover {α β : Type} {f : State × β → α → State × β} (hf : ∀ q a, (f q a).1.takeover = q.1.takeover) (l : List α)
    (q : State × β) : (l.foldl f q).1.takeover = q.1.takeover :=
  foldl_keeps (p := fun r : State × β => r.1.takeover = q.1.takeover) (fun r a h => (hf r a).trans h) l rfl

/-! ### Reports, vectors, freezes -/

@[simp] theorem State.sendVector_takeover (n : Nat) : (s.sendVector n).takeover = s.takeover := by
  unfold State.sendVector
  split
  · split <;> rfl
  · rfl

@[simp] theorem State.raise_takeover (n : Nat) : (s.raise n).takeover = s.takeover := by
  unfold State.raise
  split
  · rfl
  · rw [State.sendVector_takeover, setFbit_takeover]

@[simp] theorem State.report_takeover (ty n : Nat) (l : List Byte) : (s.report ty n l).takeover = s.takeover := by
  unfold State.report
  dsimp only
  split <;> rfl

@[simp] theorem State.armFreeze_takeover (b m : Nat) : (s.armFreeze b m).takeover = s.takeover := by
  unfold State.armFreeze
  split <;> rfl

@[simp] theorem State.reportHard_takeover (n : Nat) (l : List Byte) : (s.reportHard n l).takeover = s.takeover := by
  rw [State.reportHard, State.armFreeze_takeover, State.report_takeover]

/-! ### Tiles: interrupts, launches, memories, resets -/

@[simp] theorem State.launchIssued_takeover (t : Nat) : (s.launchIssued t).takeover = s.takeover := by
  unfold State.launchIssued
  dsimp only
  split
  · rfl
  · split
    · rfl
    · split
      · rfl
      · split <;> rfl

@[simp] theorem State.hwEvent_takeover (t n : Nat) : (s.hwEvent t n).takeover = s.takeover := rfl

@[simp] theorem State.hwUncorr_takeover (t m w : Nat) : (s.hwUncorr t m w).takeover = s.takeover := by
  rw [State.hwUncorr, State.hwReport, State.reportHard_takeover, State.countTile_takeover, State.modTile_takeover]

@[simp] theorem State.eccRead_takeover (m : Nat) : (s.eccRead m).1.takeover = s.takeover := by
  unfold State.eccRead
  split
  · rfl
  · rfl
  · rfl
  · split <;> rfl

@[simp] theorem State.osTouch_takeover (t w : Nat) : (s.osTouch t w).1.takeover = s.takeover := by
  unfold State.osTouch
  dsimp only
  split
  · rw [State.hwEvent_takeover, bumpF_takeover, State.modTile_takeover, State.eccRead_takeover]
  · exact State.eccRead_takeover _
  · exact State.eccRead_takeover _

@[simp] theorem State.osTouchN_takeover (t w n : Nat) : (State.osTouchN t w n s).1.takeover = s.takeover := by
  induction n with
  | zero => rfl
  | succ n ih => exact (State.osTouch_takeover _ _).trans ih

@[simp] theorem State.osPLine_takeover (t a : Nat) : (s.osPLine t a).1.takeover = s.takeover := by
  unfold State.osPLine
  dsimp only
  rw [State.osTouchN_takeover]

@[simp] theorem State.linTouch_takeover (t w : Nat) : (s.linTouch t w).1.takeover = s.takeover := by
  unfold State.linTouch
  dsimp only
  split
  · rw [State.hwEvent_takeover, bumpF_takeover, setF_takeover, State.modTile_takeover, State.eccRead_takeover]
  · rw [State.hwUncorr_takeover, bumpF_takeover, setF_takeover, State.eccRead_takeover]
  · exact State.eccRead_takeover _

@[simp] theorem State.linTouchN_takeover (t w n : Nat) : (State.linTouchN t w n s).1.takeover = s.takeover := by
  induction n with
  | zero => rfl
  | succ n ih => exact (State.linTouch_takeover _ _).trans ih

@[simp] theorem State.linPLine_takeover (t a : Nat) (d : Bool) : (s.linPLine t a d).1.takeover = s.takeover := by
  unfold State.linPLine
  dsimp only
  rw [State.linTouchN_takeover]
  split <;> rfl

@[simp] theorem State.resetFlds_takeover (l : List Fld) (i : Nat) : (s.resetFlds l i).takeover = s.takeover := by
  unfold State.resetFlds
  refine foldl_takeover (fun _ _ => ?_) l s
  rfl

@[simp] theorem State.tearChain_takeover (t : Nat) : (s.tearChain t).takeover = s.takeover := by
  unfold State.tearChain
  dsimp only
  split
  · rfl
  · refine foldl_takeover (fun u q => ?_) _ s
    split <;> rfl

@[simp] theorem State.refillCredits_takeover (t : Nat) : (s.refillCredits t).takeover = s.takeover := by
  refine foldl_takeover (fun u e => ?_) s.stitches s
  split
  · split <;> rfl
  · rfl

@[simp] theorem State.tileReset_takeover (t : Nat) : (s.tileReset t).takeover = s.takeover := by
  rw [State.tileReset, State.refillCredits_takeover, State.resetFlds_takeover, State.modTile_takeover, State.launchIssued_takeover,
    State.tearChain_takeover]

/-! ### Panel faults and broken stitches (R213, R245 to R247) -/

@[simp] theorem State.markBroken_takeover (n h : Nat) : (s.markBroken n h).takeover = s.takeover := by
  unfold State.markBroken
  split <;> rfl

theorem State.freezePanelWith_takeover {fault : State → Nat → State} (hf : ∀ u p, (fault u p).takeover = u.takeover) (p : Nat) :
    (State.freezePanelWith fault s p).takeover = s.takeover :=
  (foldl_takeover (fun _ n => (hf _ _).trans (State.markBroken_takeover n _)) _ _).trans rfl

@[simp] theorem State.panelFaultN_takeover (n : Nat) (s : State) (p : Nat) : (State.panelFaultN n s p).takeover = s.takeover := by
  induction n generalizing s p with
  | zero => rfl
  | succ n ih =>
    have hnoted : ((((setF s Reg.CMD_PANEL_STATUS_FAULT 1 p).report 0 (unitNo blkCMD p) []).raise p).armFreeze 1).takeover = s.takeover := by simp
    unfold State.panelFaultN
    dsimp only
    split
    · rfl
    · split
      · exact hnoted
      · split
        · exact hnoted
        · split
          · exact hnoted
          · exact hnoted
          · exact (State.freezePanelWith_takeover ih p).trans hnoted

@[simp] theorem State.panelFault_takeover (p : Nat) : (s.panelFault p).takeover = s.takeover := State.panelFaultN_takeover 17 s p

@[simp] theorem State.freezePanel_takeover (p : Nat) : (s.freezePanel p).takeover = s.takeover := by
  unfold State.freezePanel
  split
  · exact State.freezePanelWith_takeover (fun _ p => State.panelFault_takeover p) p
  · rfl

@[simp] theorem State.faultAction_takeover (p : Nat) : (s.faultAction p).takeover = s.takeover := by
  unfold State.faultAction
  split
  · rfl
  · rfl
  · exact State.freezePanel_takeover p

@[simp] theorem State.breakStitch_takeover (n h : Nat) : (s.breakStitch n h).takeover = s.takeover := by
  unfold State.breakStitch
  split
  · rw [State.panelFault_takeover, State.markBroken_takeover]
  · rfl

/-! ### HBM reads (R279 to R283) -/

@[simp] theorem State.bumpChF_takeover (f : Fld) (c : Nat) : (s.bumpChF f c).takeover = s.takeover := rfl

@[simp] theorem State.hbmUncorr_takeover (c : Nat) : (s.hbmUncorr c).takeover = s.takeover := by
  rw [State.hbmUncorr, State.report_takeover, State.bumpChF_takeover, State.bumpChF_takeover]

@[simp] theorem State.sectDue_takeover (l : List Nat) : (s.sectDue l).takeover = s.takeover := by
  unfold State.sectDue
  dsimp only
  split
  · rfl
  · rw [State.raise_takeover, State.reportHard_takeover]

@[simp] theorem State.hbmTaken_takeover (i a : Nat) : (s.hbmTaken i a).takeover = s.takeover := by
  unfold State.hbmTaken
  split <;> rfl

@[simp] theorem State.hbmIssue_takeover (c : Nat) : (s.hbmIssue c).1.takeover = s.takeover := by
  unfold State.hbmIssue
  split
  · rfl
  · dsimp only
    split
    · rfl
    · rw [State.sectDue_takeover, State.report_takeover, State.bumpChF_takeover]

@[simp] theorem State.hbmRequest_takeover (a w : Nat) : (s.hbmRequest a w).1.takeover = s.takeover :=
  (State.hbmIssue_takeover _).trans rfl

@[simp] theorem State.hbmWord_takeover (w : Nat) : (s.hbmWord w).1.takeover = s.takeover := by
  unfold State.hbmWord
  dsimp only
  split
  · rfl
  · rfl
  · exact State.hbmUncorr_takeover _
  · split
    · rw [State.sectDue_takeover, State.hbmUncorr_takeover, State.drawn_takeover]
    · rfl
    · rfl
  · rw [State.sectDue_takeover, State.hbmUncorr_takeover]

@[simp] theorem State.hbmWords_takeover (a n : Nat) : (s.hbmWords a n).1.takeover = s.takeover := by
  unfold State.hbmWords
  split
  · rfl
  · dsimp only
    refine foldl_fst_takeover (fun _ _ => ?_) _ (s, false)
    exact State.hbmWord_takeover _

@[simp] theorem State.hbmRead_takeover (a n : Nat) : (s.hbmRead a n).1.takeover = s.takeover := by
  unfold State.hbmRead
  dsimp only
  refine foldl_fst_takeover (fun _ _ => ?_) _ (s, false)
  exact (State.hbmWords_takeover _ _).trans (State.hbmRequest_takeover _ _)

/-! ### The network's sends (R191, R200, R204) -/

@[simp] theorem State.countPath_takeover (c : Nat) (l : List (Nat × Nat)) : (s.countPath c l).takeover = s.takeover := by
  unfold State.countPath
  refine foldl_takeover (fun _ _ => ?_) l s
  rfl

@[simp] theorem State.stitchSend_takeover (n : Nat) (src : Nat × Nat) (ic : Nat) (v : Line) (w : DWord) :
    (s.stitchSend n src ic v w).takeover = s.takeover := by
  unfold State.stitchSend
  split
  · rfl
  · dsimp only
    split <;> rfl

@[simp] theorem State.giveBack_takeover (n : Nat) : (s.giveBack n).takeover = s.takeover := by
  unfold State.giveBack
  split
  · split <;> rfl
  · rfl

@[simp] theorem State.hemInject_takeover (h : Nat) (m : Bool × Msg) : (s.hemInject h m).takeover = s.takeover := by
  unfold State.hemInject
  dsimp only
  split
  · split
    · rw [State.stitchSend_takeover]
      split
      · exact State.giveBack_takeover _
      · rfl
    · rfl
  · rfl

@[simp] theorem State.pumpHem_takeover (h : Nat) : (s.pumpHem h).takeover = s.takeover := by
  unfold State.pumpHem
  split
  · rfl
  · refine (foldl_takeover (fun u m => ?_) _ _).trans rfl
    split
    · rfl
    · exact State.hemInject_takeover _ _

@[simp] theorem State.pumpHems_takeover : s.pumpHems.takeover = s.takeover := by
  unfold State.pumpHems
  exact foldl_takeover (fun _ _ => State.pumpHem_takeover _) _ s

@[simp] theorem State.enter0_takeover (k : Nat) (st : Stitch) (m : Msg) (b : Bool) : (s.enter0 k st m b).takeover = s.takeover := by
  unfold State.enter0
  dsimp only
  split
  · rw [State.setStitch_takeover, State.stitchSend_takeover]
  · exact State.stitchSend_takeover _ _ _ _ _

@[simp] theorem State.drainN_takeover (d n : Nat) (s : State) : (State.drainN d n s).takeover = s.takeover := by
  induction n generalizing s with
  | zero => rfl
  | succ n ih =>
    unfold State.drainN
    dsimp only
    split
    · rfl
    · split
      · exact (ih _).trans rfl
      · split
        · rfl
        · exact (ih _).trans (State.enter0_takeover _ _ _ _)

@[simp] theorem State.drainAll0_takeover : s.drainAll0.takeover = s.takeover := by
  unfold State.drainAll0
  exact foldl_takeover (fun _ _ => State.drainN_takeover _ _ _) _ s

/-! ### Descriptors (R262 to R274) -/

@[simp] theorem State.setChanState_takeover (k n v : Nat) : (s.setChanState k n v).takeover = s.takeover := rfl

@[simp] theorem State.chanDone_takeover (k n : Nat) : (s.chanDone k n).takeover = s.takeover := State.raise_takeover _

@[simp] theorem State.chanErr_takeover (k n : Nat) : (s.chanErr k n).takeover = s.takeover := State.raise_takeover _

@[simp] theorem State.moveDone_takeover (m : Option MoveRef) : (s.moveDone m).takeover = s.takeover := by cases m <;> rfl

@[simp] theorem State.setCursor_takeover (k n : Nat) (d : Desc) (i : Nat) : (s.setCursor k n d i).takeover = s.takeover := by
  unfold State.setCursor
  simp only [setF_takeover]
  split <;> rfl

@[simp] theorem State.countEnd_takeover (k n : Nat) : (s.countEnd k n).takeover = s.takeover := rfl

@[simp] theorem State.endDesc_takeover (k n v : Nat) : (s.endDesc k n v).takeover = s.takeover := by
  unfold State.endDesc
  split
  · rfl
  · dsimp only
    have hended (u : State) (c : Chan → Chan) (m : Option MoveRef) :
        ((((u.modChan k n c).countEnd k n).moveDone m).setChanState k n 0).takeover = u.takeover := by simp
    split
    · split
      · rw [State.chanDone_takeover, hended, setF_takeover]
      · rw [hended, setF_takeover]
    · rw [State.chanErr_takeover, hended]
      rfl

@[simp] theorem State.failDesc_takeover (k n v a : Nat) : (s.failDesc k n v a).takeover = s.takeover := by
  unfold State.failDesc
  split
  · rfl
  · dsimp only
    generalize hu : State.modChan _ k n Chan.rewind = u
    have hfailed : u.takeover = s.takeover := by
      rw [← hu, State.modChan_takeover]
      split
      · refine (foldl_takeover (fun _ _ => ?_) _ _).trans (by simp)
        rfl
      · simp
    split
    · rw [State.chanErr_takeover, State.setChanState_takeover, State.modChan_takeover, hfailed]
    · rw [State.endDesc_takeover, hfailed]

@[simp] theorem State.announce_takeover (k n : Nat) (d : Desc) : (s.announce k n d).takeover = s.takeover := by
  unfold State.announce
  simp

@[simp] theorem State.announceIf_takeover (k n : Nat) (d : Desc) : (s.announceIf k n d).1.takeover = s.takeover := by
  unfold State.announceIf
  split
  · rfl
  · split
    · split
      · rw [State.announce_takeover, State.drawn_takeover]
      · rfl
    · exact State.announce_takeover _ _ _

@[simp] theorem State.needPage_takeover (k n : Nat) (d : Desc) (a : Nat) : (s.needPage k n d a).takeover = s.takeover := by
  unfold State.needPage
  split
  · simp
  · exact State.failDesc_takeover _ _ _ _

@[simp] theorem State.settleChan_takeover (k n : Nat) : (s.settleChan k n).takeover = s.takeover := by
  unfold State.settleChan
  split
  · split
    · rfl
    · dsimp only
      split
      · rw [State.needPage_takeover, State.announceIf_takeover]
      · rw [State.failDesc_takeover, State.announceIf_takeover]
  · rfl

@[simp] theorem State.stopDesc_takeover (k n v a : Nat) : (s.stopDesc k n v a).takeover = s.takeover := by
  unfold State.stopDesc
  split
  · rfl
  · rw [State.settleChan_takeover, State.modChan_takeover]

@[simp] theorem State.chanBusError_takeover (k n a : Nat) : (s.chanBusError k n a).takeover = s.takeover := by
  unfold State.chanBusError
  split
  · rw [State.stopDesc_takeover, State.modChan_takeover]
  · rfl

/-! ### Reads of a mover (R253, R270) -/

@[simp] theorem State.addBurst_takeover (k n : Nat) (b : Burst) : (s.addBurst k n b).takeover = s.takeover := rfl

@[simp] theorem State.countMover_takeover (k t n : Nat) : (s.countMover k t n).takeover = s.takeover := by
  have hpaths (u : State) (l : List Nat) (p : List (Nat × Nat)) : (l.foldl (fun (s : State) _ => s.countPath 1 p) u).takeover = u.takeover :=
    foldl_takeover (fun _ _ => State.countPath_takeover _ _) l u
  unfold State.countMover
  split
  · rfl
  · dsimp only
    split
    · rw [hpaths, hpaths]
    · exact hpaths _ _ _

@[simp] theorem State.readTileLine_takeover (sp t a : Nat) : (s.readTileLine sp t a).1.takeover = s.takeover := by
  unfold State.readTileLine
  dsimp only
  split
  · exact State.osPLine_takeover _ _
  · exact State.linPLine_takeover _ _ _

@[simp] theorem State.readTile_takeover (sp t n a : Nat) (s : State) : (State.readTile sp t n a s).1.takeover = s.takeover := by
  induction n generalizing a s with
  | zero => rfl
  | succ n ih =>
    unfold State.readTile
    dsimp only
    split
    · exact State.readTileLine_takeover _ _ _
    · exact (ih _ _).trans (State.readTileLine_takeover _ _ _)

@[simp] theorem State.extWrite_takeover (t : Nat) (port : Option Nat) : (s.extWrite t port).takeover = s.takeover := by
  unfold State.extWrite State.takePort
  split <;> rfl

theorem State.readTile_extWrite_takeover (sp t n a : Nat) :
    (State.readTile sp t n a (if sp = 2 then s.extWrite t none else s)).1.takeover = s.takeover := by
  rw [State.readTile_takeover]
  split
  · exact State.extWrite_takeover _ _
  · rfl

@[simp] theorem State.readBurst_takeover (k n : Nat) (d : Desc) (a len : Nat) : (s.readBurst k n d a len).takeover = s.takeover := by
  unfold State.readBurst
  split
  · exact State.chanBusError_takeover _ _ _
  · dsimp only
    split
    case h_1 =>
      split
      · rw [State.chanBusError_takeover, State.hbmRead_takeover, State.hbmTaken_takeover, State.count_takeover]
      · rw [State.addBurst_takeover, State.hbmRead_takeover, State.hbmTaken_takeover, State.count_takeover]
    case h_2 =>
      refine (foldl_takeover (fun _ _ => ?_) _ _).trans rfl
      rfl
    case h_3 =>
      split
      · split
        · rw [State.addBurst_takeover, State.readTile_extWrite_takeover, State.countMover_takeover, State.count_takeover]
        · rw [State.chanBusError_takeover, State.readTile_extWrite_takeover, State.countMover_takeover, State.count_takeover]
      · refine (foldl_takeover (fun _ _ => ?_) _ _).trans rfl
        rfl

theorem State.readStep_takeover {k : Nat} {u : State} (h : s.readStep k = some u) : u.takeover = s.takeover := by
  unfold State.readStep at h
  split at h
  · cases h
  · split at h
    · cases h
    · cases h
      exact (State.readBurst_takeover _ _ _ _ _).trans rfl

@[simp] theorem State.readAll_takeover (k n : Nat) (s : State) : (State.readAll k n s).takeover = s.takeover := by
  induction n generalizing s with
  | zero => rfl
  | succ n ih =>
    unfold State.readAll
    split
    · rfl
    case h_2 u hu => exact (ih u).trans (State.readStep_takeover hu)

@[simp] theorem State.askHost_takeover (k n : Nat) : (s.askHost k n).takeover = s.takeover := by
  unfold State.askHost
  split
  · rfl
  · split
    · exact State.readAll_takeover _ _ s
    · rfl

@[simp] theorem State.pageRespond_takeover (k n c : Nat) : (s.pageRespond k n c).takeover = s.takeover := by
  unfold State.pageRespond
  split
  · rfl
  · split
    · rw [State.askHost_takeover, State.setChanState_takeover]
    · split
      · exact State.failDesc_takeover _ _ _ _
      · rfl

/-! ### Wake and thaw of a panel (R248, R249, R454) -/

@[simp] theorem State.wakePanel_takeover (p : Nat) : (s.wakePanel p).takeover = s.takeover := by
  have hwake : ((s.panelTiles p).foldl (fun (s : State) t => s.wakeTile t) s).takeover = s.takeover :=
    foldl_takeover (fun _ t => (State.modTile_takeover _ _ _).trans (State.tileReset_takeover t)) _ s
  unfold State.wakePanel
  dsimp only
  split
  · simp only [State.faultAction_takeover, State.modPanel_takeover, setFbit_takeover, setF_takeover, hwake]
  · simp only [State.modPanel_takeover, setFbit_takeover, setF_takeover, hwake]

@[simp] theorem State.lateResets_takeover (l : List Nat) : (s.lateResets l).takeover = s.takeover := by
  unfold State.lateResets
  refine foldl_takeover (fun u t => ?_) l s
  split
  · exact State.tileReset_takeover t
  · rfl

theorem State.lateResponse_takeover (c : Nat × Nat) : (State.lateResponse State.pageRespond s c).takeover = s.takeover := by
  unfold State.lateResponse
  split
  · rw [State.pageRespond_takeover, State.modChan_takeover]
  · rfl

@[simp] theorem State.thawPanel_takeover (p : Nat) : (s.thawPanel p).takeover = s.takeover := by
  have hresponses (l : List (Nat × Nat)) (u : State) : (l.foldl (State.lateResponse State.pageRespond) u).takeover = u.takeover :=
    foldl_takeover (fun _ c => State.lateResponse_takeover c) l u
  unfold State.thawPanel
  dsimp only
  split
  · rw [State.wakePanel_takeover, hresponses]
    simp
  · rw [hresponses]
    simp

end Takeover
end Sys2Proof.Machine
end

section
/-! PROOFS. Reset, takeover and chains (R127, R174, R175, R189): what each command does once nothing bars it. -/

namespace Sys2Proof.Machine

section TileControl

variable {s : State} {t : TileNo}

/-- A granted reset of a tile that is awake takes effect, or waits for the thaw of a frozen one (R127). -/
theorem exec_tileReset_of_awake (h : s.mayWrite Reg.TIL_CTRL_RESET t.toNat 0 = true) (hawake : s.tileAsleep t.toNat = false) :
    exec (.tileReset t) s = .next (if s.tileFrozen t.toNat then setF s Reg.TIL_CTRL_RESET 1 t.toNat else s.tileReset t.toNat) := by
  simp only [exec_tileReset, execTileReset, State.hostWrite_ok h, hawake, Bool.false_eq_true, if_false]

/-- A spare that is free takes over a retired tile: its site stands for the tile from then on (R189). -/
theorem exec_tileTakeover_of_spare {r : Nat} (hprofile : getF s Reg.MGT_PROFILE_PROFILE = 1) (hretired : (s.tile t.toNat).retired = true)
    (hheld : s.heldTile t.toNat = false) (hspare : s.chooseSpare t.toNat = some r) :
    ∃ u, exec (.tileTakeover t) s = .next u ∧ u.takeover = SMap.set 0 s.takeover t.toNat (r + 1) := by
  have hgo : ¬ (getF s Reg.MGT_PROFILE_PROFILE ≠ 1 ∨ ¬ (s.tile t.toNat).retired = true ∨ s.heldTile t.toNat = true) := by
    simp [hprofile, hretired, hheld]
  have hstitches (l : List Nat) (u : State) : (l.foldl (fun s k => s.breakStitch k 0) u).takeover = u.takeover :=
    foldl_takeover (fun _ k => State.breakStitch_takeover k 0) l u
  have hgroups (u : State) : ((List.range 256).foldl (fun s g =>
      if flag s Reg.NET_MCG_VALID g ∧ t.toNat ∈ s.groupTiles g then setF s Reg.NET_MCG_VALID 0 g else s) u).takeover = u.takeover := by
    refine foldl_takeover (fun _ _ => ?_) _ u
    split <;> rfl
  refine ⟨_, rfl, ?_⟩
  rw [if_neg hgo]
  simp only [hspare]
  generalize hu : State.report _ 4 _ _ = u
  have htaken : u.takeover = SMap.set 0 s.takeover t.toNat (r + 1) := by
    rw [← hu, State.report_takeover, hgroups, hstitches, setF_takeover, State.setTile_takeover, State.resetFlds_takeover]
  split
  · split
    · rw [State.thawPanel_takeover, htaken]
    · exact htaken
  · exact htaken

/-- Ready that reaches the head starts every stream of its chain, each POS ic after the head (R174). -/
theorem exec_chainReady_of_ready {st : StreamSt} {r : List StreamSt} (hw : (s.tile t.toNat).waiting = st :: r)
    (hrole : getF s Reg.TIL_CHAIN_ROLE t.toNat = 1)
    (hlen : (t.toNat :: s.chainAfter 63 t.toNat).length = getF s Reg.TIL_CHAIN_LENM1 t.toNat + 1)
    (hready : s.readyAt (t.toNat :: s.chainAfter 63 t.toNat).reverse none = .inr true) :
    let h := t.toNat
    let lead := max (st.issued + 2) ((s.tile h).ic + 1) - (s.tile h).ic
    exec (.chainReady t) s = .next ((h :: s.chainAfter 63 h).foldl (fun s m => s.chainStart m lead (getF s Reg.TIL_CHAIN_POS m)) s) := by
  simp only [exec_chainReady, execChainReady, hrole, hlen, hready, hw, ne_eq, not_true_eq_false, or_self, if_false]

/-- Ready that meets a member whose parameters differ discards the streams of the whole chain (R175). -/
theorem exec_chainReady_of_mismatch {q : Nat} (hrole : getF s Reg.TIL_CHAIN_ROLE t.toNat = 1)
    (hlen : (t.toNat :: s.chainAfter 63 t.toNat).length = getF s Reg.TIL_CHAIN_LENM1 t.toNat + 1)
    (hready : s.readyAt (t.toNat :: s.chainAfter 63 t.toNat).reverse none = .inl q) :
    exec (.chainReady t) s = .next ((t.toNat :: s.chainAfter 63 t.toNat).foldl State.chainDrop (setF s Reg.TIL_FLOW_STATUS_CHAIN_MISMATCH 1 q)) := by
  simp only [exec_chainReady, execChainReady, hrole, hlen, hready, ne_eq, not_true_eq_false, or_self, if_false]

end TileControl

/-- Settles O22: each clause is the rule of one command; nothing that a takeover starts changes the takeover map again. -/
theorem tileControlEventsComplete : Obligations.TileControlEventsComplete := by
  unfold Obligations.TileControlEventsComplete
  refine ⟨?reset, ?takeover, ?start, ?mismatch⟩
  case reset => exact fun _ _ h hawake => exec_tileReset_of_awake h hawake
  case takeover => exact fun _ _ _ hprofile hretired hheld hspare => exec_tileTakeover_of_spare hprofile hretired hheld hspare
  case start => exact fun _ _ _ _ hw hrole hlen hready => exec_chainReady_of_ready hw hrole hlen hready
  case mismatch => exact fun _ _ _ hrole hlen hready => exec_chainReady_of_mismatch hrole hlen hready

end Sys2Proof.Machine
end

section
/-! PROOFS. Resume, sleep, wake and interrupts of panels from the host (R125, R233, R243, R249, R454): each is a granted write; what it does follows from
the panel's state. -/

namespace Sys2Proof.Machine

section PanelHost

variable {s : State} {p : PanelNo}

/-- A resume of a panel that does not sleep releases every held queue (R233). -/
theorem exec_queueResume_of_awake (h : s.mayWrite Reg.CMD_PANEL_CTRL_RESUME p.toNat 0 = true)
    (hawake : flag s Reg.CMD_PANEL_STATUS_SLEEP p.toNat = false) :
    exec (.queueResume p) s = .next (setF (s.modPanel p.toNat (fun x => { x with held := [] })) Reg.CMD_PANEL_STATUS_HELD 0 p.toNat) := by
  simp only [exec_queueResume, execQueueResume, State.hostWrite_ok h, hawake, Bool.false_eq_true, if_false]

/-- A panel whose sleep bit is clear sleeps where R454 allows it; else the refusal is recorded. -/
theorem exec_panelSleep_of_awake (h : s.mayWrite Reg.PWR_PSLEEP_SLEEP 0 0 = true) (hawake : fbit s Reg.PWR_PSLEEP_SLEEP p.toNat = false) :
    exec (.panelSleep p) s = .next (if s.maySleep p.toNat
      then setF (setFbit s Reg.PWR_PSLEEP_SLEEP p.toNat true) Reg.CMD_PANEL_STATUS_SLEEP 1 p.toNat
      else (setFbit s Reg.PWR_PSLEEP_REFUSED p.toNat true).logErr 3 idHost (Reg.PWR_PSLEEP_SLEEP.addr 0 0) (2 ^ p.toNat)) := by
  simp only [exec_panelSleep, execPanelSleep, State.hostWrite_ok h, hawake, Bool.false_eq_true, if_false, State.discard]

/-- A sleeping panel wakes, a frozen one at its thaw (R249, R454). -/
theorem exec_panelWake_of_asleep (h : s.mayWrite Reg.PWR_PWAKE_WAKE 0 0 = true) (hasleep : flag s Reg.CMD_PANEL_STATUS_SLEEP p.toNat = true) :
    exec (.panelWake p) s = .next (if s.panelFrozen p.toNat
      then (setFbit s Reg.PWR_PWAKE_WAKE p.toNat true).modPanel p.toNat (fun x => { x with wakeAtThaw := true })
      else s.wakePanel p.toNat) := by
  simp only [exec_panelWake, execPanelWake, State.hostWrite_ok h, hasleep, not_true_eq_false, if_false]

/-- A post of KIND k to a panel that does not sleep, with no post under way, reaches each tile that it names (R243). -/
theorem State.post_of_ready {n k v : Nat} (h : s.mayWrite Reg.CMD_POST_GO n 0 = true) (hawake : flag s Reg.CMD_PANEL_STATUS_SLEEP n = false)
    (hbusy : flag s Reg.CMD_POST_BUSY n = false) :
    let u := setF (setF (setF s Reg.CMD_POST_TILE (bits v 10 0) n) Reg.CMD_POST_ALL (bits v 11 11) n) Reg.CMD_POST_KIND k n
    s.post n k v = (u.postTargets n v).foldl (fun s t => s.hostPost n t k) u := by
  simp only [State.post, State.hostWrite_ok h, hawake, hbusy, Bool.false_eq_true, or_self, if_false]

end PanelHost

/-- Settles O28: each clause is the rule of one command. -/
theorem panelHostCommandsComplete : Obligations.PanelHostCommandsComplete := by
  unfold Obligations.PanelHostCommandsComplete
  refine ⟨?resume, ?sleep, ?wake, ?post⟩
  case resume => exact fun _ _ h hawake => exec_queueResume_of_awake h hawake
  case sleep => exact fun _ _ h hawake => exec_panelSleep_of_awake h hawake
  case wake => exact fun _ _ h hasleep => exec_panelWake_of_asleep h hasleep
  case post =>
    intro s p v h hawake hbusy
    exact ⟨congrArg _ (State.post_of_ready h hawake hbusy), congrArg _ (State.post_of_ready h hawake hbusy)⟩

end Sys2Proof.Machine
end

section
/-! PROOFS. The words of tile instructions (R128 to R161): what a field of a word reads back, the fields of each format, and the decoding of every
legal instruction's word. -/

namespace Sys2Proof.Machine

/-! ### The fields of a sum of fields -/

/-- The number has no bit below bit k. -/
def BitsFrom (k a : Nat) : Prop := 2 ^ k ∣ a

section Fields

variable {k l m n a b lo : Nat}

@[simp] theorem bitsFrom_at (v : Nat) (h : k ≤ l) : BitsFrom k (at_ l v) := Nat.dvd_trans (Nat.pow_dvd_pow 2 h) (Nat.dvd_mul_left _ _)

@[simp] theorem bitsFrom_opc (o : Nat) (h : k ≤ 56) : BitsFrom k (opc o) := bitsFrom_at o h

@[simp] theorem bitsFrom_add_at (v : Nat) (h : k ≤ l) : BitsFrom k (a + at_ l v) ↔ BitsFrom k a := Nat.dvd_add_left (bitsFrom_at v h)

theorem bit_eq_toNat (c : Bool) : bit c = (BitVec.ofBool c).toNat := by cases c <;> rfl

theorem fieldOf_ofNat (h : lo + n ≤ 64) : fieldOf (BitVec.ofNat 64 a) lo n = BitVec.ofNat n (a / 2 ^ lo) := by
  ext j hj
  have hlt : lo + j < 64 := by omega
  rw [fieldOf, BitVec.getElem_extractLsb', BitVec.getLsbD_ofNat, decide_eq_true hlt, Bool.true_and, BitVec.getElem_eq_testBit_toNat, BitVec.toNat_ofNat,
    Nat.testBit_mod_two_pow, decide_eq_true hj, Bool.true_and, Nat.testBit_div_two_pow, Nat.add_comm]

/-- What stands below the field, and below all that it is added to, is not read. -/
theorem fieldOf_add_below (h : lo + n ≤ 64) (hk : k ≤ lo) (ha : BitsFrom k a) (hb : b < 2 ^ k) :
    fieldOf (BitVec.ofNat 64 (a + b)) lo n = fieldOf (BitVec.ofNat 64 a) lo n := by
  obtain ⟨c, rfl⟩ := Nat.exists_eq_add_of_le hk
  obtain ⟨q, rfl⟩ := ha
  rw [fieldOf_ofNat h, fieldOf_ofNat h, Nat.pow_add, ← Nat.div_div_eq_div_mul, ← Nat.div_div_eq_div_mul, Nat.mul_add_div (Nat.two_pow_pos k),
    Nat.div_eq_of_lt hb, Nat.add_zero, Nat.mul_div_cancel_left _ (Nat.two_pow_pos k)]

@[simp] theorem fieldOf_add_at_below (v : BitVec m) (h : lo + n ≤ 64) (hl : l + m ≤ lo) (ha : BitsFrom (l + m) a) :
    fieldOf (BitVec.ofNat 64 (a + at_ l v.toNat)) lo n = fieldOf (BitVec.ofNat 64 a) lo n := by
  refine fieldOf_add_below h hl ha ?_
  rw [at_, Nat.add_comm, Nat.pow_add]
  exact Nat.mul_lt_mul_of_pos_right v.isLt (Nat.two_pow_pos l)

@[simp] theorem fieldOf_add_bit_below (c : Bool) (h : lo + n ≤ 64) (hl : l + 1 ≤ lo) (ha : BitsFrom (l + 1) a) :
    fieldOf (BitVec.ofNat 64 (a + at_ l (bit c))) lo n = fieldOf (BitVec.ofNat 64 a) lo n := by
  rw [bit_eq_toNat, fieldOf_add_at_below _ h hl ha]

@[simp] theorem fieldOf_add_toNat_below (v : BitVec m) (h : lo + n ≤ 64) (hm : m ≤ lo) (ha : BitsFrom m a) :
    fieldOf (BitVec.ofNat 64 (a + v.toNat)) lo n = fieldOf (BitVec.ofNat 64 a) lo n := fieldOf_add_below h hm ha v.isLt

/-- What has no bit below the end of the field is not read. -/
@[simp] theorem fieldOf_add_above (h : lo + n ≤ 64) (ha : BitsFrom (lo + n) a) :
    fieldOf (BitVec.ofNat 64 (a + b)) lo n = fieldOf (BitVec.ofNat 64 b) lo n := by
  obtain ⟨q, rfl⟩ := ha
  have hsplit : 2 ^ (lo + n) * q + b = b + 2 ^ lo * (2 ^ n * q) := by rw [Nat.pow_add, Nat.mul_assoc, Nat.add_comm]
  rw [fieldOf_ofNat h, fieldOf_ofNat h, hsplit, Nat.add_mul_div_left _ _ (Nat.two_pow_pos lo)]
  apply BitVec.eq_of_toNat_eq
  rw [BitVec.toNat_ofNat, BitVec.toNat_ofNat, Nat.add_mul_mod_self_left]

@[simp] theorem fieldOf_above (h : lo + n ≤ 64) (ha : BitsFrom (lo + n) a) : fieldOf (BitVec.ofNat 64 a) lo n = 0 := by
  have hzero : fieldOf (BitVec.ofNat 64 (a + 0)) lo n = _ := fieldOf_add_above h ha
  rw [Nat.add_zero] at hzero
  rw [hzero, fieldOf_ofNat h, Nat.zero_div]
  rfl

@[simp] theorem fieldOf_at (v : BitVec n) (h : lo + n ≤ 64) : fieldOf (BitVec.ofNat 64 (at_ lo v.toNat)) lo n = v := by
  rw [fieldOf_ofNat h, at_, Nat.mul_div_cancel _ (Nat.two_pow_pos lo), BitVec.ofNat_toNat, BitVec.setWidth_eq]

/-- What stands below the field leaves it 0. -/
@[simp] theorem fieldOf_at_below (v : BitVec m) (h : lo + n ≤ 64) (hl : l + m ≤ lo) : fieldOf (BitVec.ofNat 64 (at_ l v.toNat)) lo n = 0 := by
  have hdrop := fieldOf_add_at_below (a := 0) v h hl (Nat.dvd_zero _)
  rw [Nat.zero_add] at hdrop
  rw [hdrop, fieldOf_ofNat h, Nat.zero_div]
  rfl

@[simp] theorem fieldOf_setWidth (v : BitVec n) (h : n ≤ 64) : fieldOf (v.setWidth 64) 0 n = v := by
  rw [← BitVec.ofNat_toNat, fieldOf_ofNat (by omega), Nat.pow_zero, Nat.div_one, BitVec.ofNat_toNat, BitVec.setWidth_eq]

@[simp] theorem fieldOf_opc (o : Nat) : fieldOf (BitVec.ofNat 64 (opc o)) 56 8 = BitVec.ofNat 8 o := by
  rw [fieldOf_ofNat (by decide), opc, Nat.mul_div_cancel _ (Nat.two_pow_pos 56)]

/-- A flag is a field of one bit. -/
theorem flagOf_eq_fieldOf (w : DWord) (k : Nat) : flagOf w k = (fieldOf w k 1).getLsbD 0 := by simp [flagOf, fieldOf]

@[simp] theorem fieldOf_at_bit (c : Bool) (h : lo + 1 ≤ 64) : fieldOf (BitVec.ofNat 64 (at_ lo (bit c))) lo 1 = BitVec.ofBool c := by
  rw [bit_eq_toNat, fieldOf_at _ h]

end Fields

@[simp] theorem at_zero (l : Nat) : at_ l 0 = 0 := Nat.zero_mul _

/-! ### The fields of each format -/

section Formats

variable {o low lo n : Nat} {d a b c r : Reg6} {i bus : Bool} {imm : Word} {m : MAddr} {w : StreamOps}

@[simp] theorem encS_fields :
    let x := BitVec.ofNat 64 (encS o d a b i imm)
    fieldOf x 56 8 = BitVec.ofNat 8 o ∧ fieldOf x 50 6 = d ∧ fieldOf x 44 6 = a ∧ fieldOf x 38 6 = b ∧ flagOf x 37 = i ∧ fieldOf x 0 32 = imm := by
  simp [encS, flagOf_eq_fieldOf]

@[simp] theorem scalarOf_encS : scalarOf (BitVec.ofNat 64 (encS o d a b i imm)) = ⟨d, a, b, i, imm⟩ := by simp [scalarOf]

@[simp] theorem encM_fields :
    let x := BitVec.ofNat 64 (encM o r bus m)
    fieldOf x 56 8 = BitVec.ofNat 8 o ∧ fieldOf x 50 6 = r ∧ flagOf x 49 = bus ∧ maddrOf x = m := by
  simp [encM, maddrOf, flagOf_eq_fieldOf]

@[simp] theorem encStream_fields :
    let x := BitVec.ofNat 64 (encStream o w)
    fieldOf x 56 8 = BitVec.ofNat 8 o ∧ streamOf x = w := by
  simp [encStream, streamOf, flagOf_eq_fieldOf]

/-- The fields of format V above its low word. -/
theorem encV_fields (hlow : low < 2 ^ 32) :
    let x := BitVec.ofNat 64 (encV o d a b c low)
    fieldOf x 56 8 = BitVec.ofNat 8 o ∧ fieldOf x 50 6 = d ∧ fieldOf x 44 6 = a ∧ fieldOf x 38 6 = b ∧ fieldOf x 32 6 = c := by
  have hbelow {lo n : Nat} (h : lo + n ≤ 64) (hlo : 32 ≤ lo) := fieldOf_add_below
    (a := opc o + at_ 50 d.toNat + at_ 44 a.toNat + at_ 38 b.toNat + at_ 32 c.toNat) h hlo (by simp) hlow
  simp [encV, hbelow]

/-- TYPE of format V. -/
theorem typeField_lt (ty : BitVec 4) : at_ 28 ty.toNat < 2 ^ 32 := by
  unfold at_
  omega

theorem fieldOf_encV_low (h : lo + n ≤ 32) : fieldOf (BitVec.ofNat 64 (encV o d a b c low)) lo n = fieldOf (BitVec.ofNat 64 low) lo n := by
  have hfrom : BitsFrom 32 (opc o + at_ 50 d.toNat + at_ 44 a.toNat + at_ 38 b.toNat + at_ 32 c.toNat) := by simp
  exact fieldOf_add_above (by omega) (Nat.dvd_trans (Nat.pow_dvd_pow 2 h) hfrom)

end Formats

/-! ### Unused fields -/

section Unused

variable {w : DWord}

theorem usedBits_of_plain (hform : fieldOf w 54 10 ≠ 0x14D) (hraw : ¬ (fieldOf w 56 8 = 0x55 ∧ flagOf w 50 = true)) : usedBits w = w := by
  rw [usedBits, unusedBits, if_neg hform, if_neg hraw]
  exact BitVec.and_allOnes

/-- Bits [63:54] of the broadcast `mload` hold the OPC of `mload`. -/
theorem mloadForm_ne_of_opcode (hop : fieldOf w 56 8 ≠ 0x53) : fieldOf w 54 10 ≠ 0x14D := by
  intro h
  have hsub : fieldOf w 56 8 = (fieldOf w 54 10).extractLsb' 2 8 := by
    ext j hj
    simp [fieldOf, show 2 + j < 10 by omega, ← Nat.add_assoc]
  rw [h] at hsub
  exact hop hsub

theorem usedBits_of_opcode {o : BitVec 8} (hop : fieldOf w 56 8 = o) (ho : o ≠ 0x53 ∧ o ≠ 0x55) : usedBits w = w :=
  usedBits_of_plain (mloadForm_ne_of_opcode (hop ▸ ho.1)) (fun h => ho.2 (hop ▸ h.1))

/-- Clearing the bits of a field that holds 0 changes nothing. -/
theorem and_not_ones_of_field_eq_zero {lo n : Nat} (h : fieldOf w lo n = 0) :
    w &&& ~~~(BitVec.setWidth 64 (BitVec.allOnes n) <<< lo) = w := by
  ext j hj
  have hbit : lo ≤ j → j - lo < n → w[j] = false := by
    intro hle hlt
    have hfield := congrArg (fun f => f.getLsbD (j - lo)) h
    simpa [fieldOf, hlt, Nat.add_sub_cancel' hle, hj] using hfield
  simp only [BitVec.getElem_and, BitVec.getElem_not, BitVec.getElem_shiftLeft, BitVec.getElem_setWidth, BitVec.getLsbD_allOnes]
  by_cases hle : lo ≤ j
  · by_cases hlt : j - lo < n
    · simp [hbit hle hlt]
    · simp [hlt]
  · simp [Nat.lt_of_not_le hle]

/-- ROW of the broadcast `mload` (R157). -/
theorem usedBits_broadcast (hform : fieldOf w 54 10 = 0x14D) (hrow : fieldOf w 49 5 = 0) : usedBits w = w := by
  rw [usedBits, unusedBits, if_pos hform]
  exact and_not_ones_of_field_eq_zero hrow

/-- BREG of the raw `mdrain` (R156). -/
theorem usedBits_rawDrain (hop : fieldOf w 56 8 = 0x55) (hraw : flagOf w 50 = true) (hreg : fieldOf w 38 4 = 0) : usedBits w = w := by
  have hform : fieldOf w 54 10 ≠ 0x14D := mloadForm_ne_of_opcode (by rw [hop]; decide)
  rw [usedBits, unusedBits, if_neg hform, if_pos ⟨hop, hraw⟩]
  exact and_not_ones_of_field_eq_zero hreg

end Unused

/-! ### Each instruction's word -/

/-- The word of instruction i, if it has one, names it and leaves no unused bit set. -/
def ReadsBack (i : Instr) : Prop :=
  ∀ n, encodeNat i = some n → ∃ t, readWord t (BitVec.ofNat 64 n) = some i ∧ usedBits (BitVec.ofNat 64 n) = BitVec.ofNat 64 n

section Words

variable {i : Instr} {n : Nat} {t : TileNo} {d a b : Reg6}

theorem ReadsBack.intro (hn : encodeNat i = some n) (hread : readWord t (BitVec.ofNat 64 n) = some i)
    (hused : usedBits (BitVec.ofNat 64 n) = BitVec.ofNat 64 n) : ReadsBack i := fun _ h => Option.some.inj (hn.symm.trans h) ▸ ⟨t, hread, hused⟩

/-- Only `mload` and `mdrain` have forms with an unused field. -/
theorem ReadsBack.of_opcode {o : Nat} (hn : encodeNat i = some n) (hop : fieldOf (BitVec.ofNat 64 n) 56 8 = BitVec.ofNat 8 o)
    (ho : BitVec.ofNat 8 o ≠ 0x53 ∧ BitVec.ofNat 8 o ≠ 0x55) (hread : readWord t (BitVec.ofNat 64 n) = some i) : ReadsBack i :=
  ReadsBack.intro hn hread (usedBits_of_opcode hop ho)

theorem readsBack_br (c : BitVec 4) (g : BitVec 12) : ReadsBack (.br t c g) :=
  .of_opcode (t := t) (o := 0x03) rfl (by simp) (by decide) (by simp [readWord])

theorem readsBack_bal (g : BitVec 12) : ReadsBack (.bal t d g) :=
  .of_opcode (t := t) (o := 0x04) rfl (by simp) (by decide) (by simp [readWord])

theorem readsBack_jr : ReadsBack (.jr t a) :=
  .of_opcode (t := t) (o := 0x05) rfl (by simp) (by decide) (by simp [readWord])

theorem readsBack_rep (cs : Bool) (r : BitVec 4) (stop : BitVec 12) (imm : Word) : ReadsBack (.rep t cs r stop imm) :=
  .of_opcode (t := t) (o := 0x06) rfl (by simp) (by decide) (by simp [readWord, flagOf_eq_fieldOf])

theorem readsBack_rbrk (k : BitVec 3) : ReadsBack (.rbrk t k) :=
  .of_opcode (t := t) (o := 0x07) rfl (by simp) (by decide) (by simp [readWord])

theorem readsBack_setf (m : BitVec 18) : ReadsBack (.setf t m) :=
  .of_opcode (t := t) (o := 0x08) rfl (by simp) (by decide) (by simp [readWord])

theorem readsBack_clrf (m : BitVec 18) : ReadsBack (.clrf t m) :=
  .of_opcode (t := t) (o := 0x09) rfl (by simp) (by decide) (by simp [readWord])

theorem readsBack_mvs (dir : Bool) (g r : Reg6) : ReadsBack (.mvs t dir g r) :=
  .of_opcode (t := t) (o := 0x0A) rfl (by simp) (by decide) (by simp [readWord, flagOf_eq_fieldOf])

theorem readsBack_setsp (r : Reg6) (imm : Word) : ReadsBack (.setsp t r imm) :=
  .of_opcode (t := t) (o := 0x0B) rfl (by simp) (by decide) (by simp [readWord])

theorem readsBack_mov (imm : Word) (c : Bool) : ReadsBack (.mov t d b c imm) :=
  .of_opcode (t := t) rfl encS_fields.1 (by decide) (by simp [readWord])

theorem readsBack_cmp (imm : Word) (c : Bool) : ReadsBack (.cmp t a b c imm) :=
  .of_opcode (t := t) rfl encS_fields.1 (by decide) (by simp [readWord])

theorem readsBack_pmod (imm : Word) (c : Bool) : ReadsBack (.pmod t d b c imm) :=
  .of_opcode (t := t) rfl encS_fields.1 (by decide) (by simp [readWord])

theorem readsBack_vld (bus : Bool) (m : MAddr) : ReadsBack (.vld t d bus m) :=
  .of_opcode (t := t) rfl encM_fields.1 (by decide) (by simp [readWord])

theorem readsBack_vtack (py my : BitVec 3) : ReadsBack (.vtack t d a b py my) :=
  .of_opcode (t := t) (o := 0x4A) rfl (by simp) (by decide) (by simp [readWord])

theorem readsBack_vtap (ty : BitVec 4) (px mx py my : BitVec 3) : ReadsBack (.vtap t ty d px mx py my) :=
  .of_opcode (t := t) (o := 0x4B) rfl (by simp) (by decide) (by simp [readWord])

theorem readsBack_mwait (bb tr st : Bool) : ReadsBack (.mwait t bb tr st) :=
  .of_opcode (t := t) (o := 0x56) rfl (by simp) (by decide) (by simp [readWord, flagOf_eq_fieldOf])

theorem readsBack_nsend (c : BitVec 2) (r : BitVec 4) : ReadsBack (.nsend t a c r) :=
  .of_opcode (t := t) (o := 0x62) rfl (by simp) (by decide) (by simp [readWord])

theorem readsBack_nrecv (c : BitVec 2) : ReadsBack (.nrecv t d c) :=
  .of_opcode (t := t) (o := 0x63) rfl (by simp) (by decide) (by simp [readWord])

theorem readsBack_trc (c : Half) : ReadsBack (.trc t a c) :=
  .of_opcode (t := t) (o := 0x70) rfl (by simp) (by decide) (by simp [readWord])

theorem readsBack_rdctr (k : BitVec 4) (hi : Bool) : ReadsBack (.rdctr t d k hi) :=
  .of_opcode (t := t) (o := 0x71) rfl (by simp) (by decide) (by simp [readWord, flagOf_eq_fieldOf])

theorem readsBack_rdsnap : ReadsBack (.rdsnap t d) :=
  .of_opcode (t := t) (o := 0x72) rfl (by simp) (by decide) (by simp [readWord])

/-! ### The forms that one OPC tells apart by a bit (R155 to R157) -/

theorem readsBack_mswap : ReadsBack (.mswap t) :=
  .of_opcode (t := t) (o := 0x52) rfl (by simp) (by decide) (by simp [readWord, flagOf_eq_fieldOf])

theorem readsBack_mswapReduce (f : BitVec 2) (o : Bool) (r : BitVec 4) : ReadsBack (.mswapReduce t f o r) := by
  have hred : at_ 55 1 = at_ 55 (bit true) := rfl
  refine .of_opcode (t := t) (o := 0x52) rfl ?_ (by decide) ?_
  · simp [hred]
  · simp [readWord, flagOf_eq_fieldOf, hred]

/-- Bits [63:54] of an `mload` without its operands: the OPC and the form. -/
theorem mload_forms :
    fieldOf (BitVec.ofNat 64 (opc 0x53)) 54 10 = 0x14C ∧ fieldOf (BitVec.ofNat 64 (opc 0x53 + at_ 54 1)) 54 10 = 0x14D
      ∧ fieldOf (BitVec.ofNat 64 (opc 0x53 + at_ 54 2)) 54 10 = 0x14E := by decide

theorem mload_opcodes :
    fieldOf (BitVec.ofNat 64 (opc 0x53 + at_ 54 1)) 56 8 = 0x53 ∧ fieldOf (BitVec.ofNat 64 (at_ 54 1)) 54 2 = 1
      ∧ fieldOf (BitVec.ofNat 64 (opc 0x53 + at_ 54 2)) 56 8 = 0x53 ∧ fieldOf (BitVec.ofNat 64 (at_ 54 2)) 54 2 = 2 := by decide

theorem readsBack_mloadRow (row : BitVec 5) (r : BitVec 4) : ReadsBack (.mloadRow t row r) := by
  refine .intro (t := t) rfl ?_ (usedBits_of_plain ?_ ?_)
  · simp [readWord]
  · simp [mload_forms]
  · simp

theorem readsBack_mloadBroadcast (r : BitVec 4) : ReadsBack (.mloadBroadcast t r) := by
  refine .intro (t := t) rfl ?_ (usedBits_broadcast ?_ ?_)
  · simp [readWord, mload_opcodes]
  · simp [mload_forms]
  · simp

theorem readsBack_mloadRaw (row n : BitVec 5) (src : Bool) (r : BitVec 4) : ReadsBack (.mloadRaw t row n src r) := by
  refine .intro (t := t) rfl ?_ (usedBits_of_plain ?_ ?_)
  · simp [readWord, mload_opcodes, flagOf_eq_fieldOf]
  · simp [mload_forms]
  · simp [mload_opcodes]

theorem readsBack_mdrainConverted (n : BitVec 5) (f : BitVec 2) (o : Bool) (r : BitVec 4) (bias : Bool) (br : BitVec 4) :
    ReadsBack (.mdrainConverted t n f o r bias br) := by
  refine .intro (t := t) rfl ?_ (usedBits_of_plain (mloadForm_ne_of_opcode ?_) ?_)
  · simp [readWord, flagOf_eq_fieldOf]
  · simp
  · simp [flagOf_eq_fieldOf]

theorem readsBack_mdrainRaw (n : BitVec 5) (o : Bool) (r : BitVec 4) : ReadsBack (.mdrainRaw t n o r) := by
  have hraw : at_ 50 1 = at_ 50 (bit true) := rfl
  refine .intro (t := t) rfl ?_ (usedBits_rawDrain ?_ ?_ ?_)
  · simp [readWord, flagOf_eq_fieldOf, hraw]
  · simp [hraw]
  · simp [flagOf_eq_fieldOf, hraw]
  · simp [hraw]

/-! ### Format V -/

/-- A format V word reads back with its OPC, whatever its low word holds (R131, R145). -/
theorem ReadsBack.of_encV {o low : Nat} {c : Reg6} (hn : encodeNat i = some (encV o d a b c low)) (hlow : low < 2 ^ 32)
    (ho : BitVec.ofNat 8 o ≠ 0x53 ∧ BitVec.ofNat 8 o ≠ 0x55) (hread : readWord t (BitVec.ofNat 64 (encV o d a b c low)) = some i) : ReadsBack i :=
  .of_opcode hn (encV_fields hlow).1 ho hread

theorem readsBack_vfma (ty : BitVec 4) (c : Reg6) : ReadsBack (.vfma t ty d a b c) := by
  have hlow := typeField_lt ty
  exact .of_encV (t := t) rfl hlow (by decide) (by simp [readWord, encV_fields hlow, fieldOf_encV_low])

theorem readsBack_vsel (c : Reg6) : ReadsBack (.vsel t d a b c) := by
  have hlow : 0 < 2 ^ 32 := by decide
  exact .of_encV (t := t) rfl hlow (by decide) (by simp [readWord, encV_fields hlow])

theorem readsBack_vshr (arith : Bool) : ReadsBack (.vshr t arith d a b) := by
  have hlow : at_ 28 3 + at_ 24 (bit arith) < 2 ^ 32 := by cases arith <;> decide
  have harith : fieldOf (BitVec.ofNat 64 (at_ 28 3 + at_ 24 (bit arith))) 24 1 = BitVec.ofBool arith := by cases arith <;> rfl
  exact .of_encV (t := t) rfl hlow (by decide) (by simp [readWord, encV_fields hlow, flagOf_eq_fieldOf, fieldOf_encV_low, harith])

theorem readsBack_vcmp (ty rel : BitVec 4) : ReadsBack (.vcmp t ty rel d a b) := by
  have hlow : at_ 28 ty.toNat + at_ 24 rel.toNat < 2 ^ 32 := by unfold at_; omega
  exact .of_encV (t := t) rfl hlow (by decide) (by simp [readWord, encV_fields hlow, fieldOf_encV_low])

theorem readsBack_vget (k : BitVec 5) : ReadsBack (.vget t d a k) := by
  have hlow : k.toNat < 2 ^ 32 := by omega
  exact .of_encV (t := t) rfl hlow (by decide) (by simp [readWord, encV_fields hlow, fieldOf_encV_low])

theorem readsBack_vrot (k : BitVec 5) : ReadsBack (.vrot t d a b k) := by
  have hlow : k.toNat < 2 ^ 32 := by omega
  exact .of_encV (t := t) rfl hlow (by decide) (by simp [readWord, encV_fields hlow, fieldOf_encV_low])

theorem readsBack_vcvt (f g : BitVec 4) (scl : BitVec 8) : ReadsBack (.vcvt t f g scl d a) := by
  have hlow : at_ 28 f.toNat + at_ 24 g.toNat + at_ 16 scl.toNat < 2 ^ 32 := by unfold at_; omega
  exact .of_encV (t := t) rfl hlow (by decide) (by simp [readWord, encV_fields hlow, fieldOf_encV_low])

theorem readsBack_vqb (q : QbOps) : ReadsBack (.vqb t d a q) := by
  have hlow : at_ 28 q.tgt.toNat + at_ 27 (bit q.af) + at_ 26 (bit q.pl) + at_ 24 q.pn.toNat + at_ 23 (bit q.pf) + at_ 21 q.co.toNat
      + at_ 20 (bit q.half) + at_ 19 (bit q.b16) < 2 ^ 32 := by
    simp only [bit_eq_toNat]
    unfold at_
    omega
  exact .of_encV (t := t) rfl hlow (by decide) (by simp [readWord, encV_fields hlow, fieldOf_encV_low, flagOf_eq_fieldOf])

/-! ### Formats that several instructions share: OPC tells the instruction, and the format its operands -/

section SharedFormat

variable {o : Nat} (ho : BitVec.ofNat 8 o ≠ 0x53 ∧ BitVec.ofNat 8 o ≠ 0x55)
include ho

theorem ReadsBack.of_formatS {mk : ScalarOps → Instr} {ops : ScalarOps} (hn : encodeNat (mk ops) = some (encS o ops.d ops.a ops.b ops.i ops.imm))
    (hread : ∀ w, fieldOf w 56 8 = BitVec.ofNat 8 o → readWord t w = some (mk (scalarOf w))) : ReadsBack (mk ops) :=
  .of_opcode hn encS_fields.1 ho (by rw [hread _ encS_fields.1, scalarOf_encS])

theorem ReadsBack.of_formatM {mk : Reg6 → MAddr → Instr} {r : Reg6} {m : MAddr} (hn : encodeNat (mk r m) = some (encM o r false m))
    (hread : ∀ w, fieldOf w 56 8 = BitVec.ofNat 8 o → readWord t w = some (mk (fieldOf w 50 6) (maddrOf w))) : ReadsBack (mk r m) := by
  obtain ⟨hop, hr, -, hm⟩ := encM_fields (o := o) (r := r) (bus := false) (m := m)
  exact .of_opcode hn hop ho (by rw [hread _ hop, hr, hm])

theorem ReadsBack.of_formatStream {mk : StreamOps → Instr} {ops : StreamOps} (hn : encodeNat (mk ops) = some (encStream o ops))
    (hread : ∀ w, fieldOf w 56 8 = BitVec.ofNat 8 o → readWord t w = some (mk (streamOf w))) : ReadsBack (mk ops) :=
  .of_opcode hn encStream_fields.1 ho (by rw [hread _ encStream_fields.1, encStream_fields.2])

/-- Lane operations on a floating-point TYPE. -/
theorem ReadsBack.of_formatV_typed {mk : BitVec 4 → Reg6 → Reg6 → Reg6 → Instr} {ty : BitVec 4}
    (hn : encodeNat (mk ty d a b) = some (encV o d a b 0 (at_ 28 ty.toNat)))
    (hread : ∀ w, fieldOf w 56 8 = BitVec.ofNat 8 o → readWord t w = some (mk (fieldOf w 28 4) (fieldOf w 50 6) (fieldOf w 44 6) (fieldOf w 38 6))) :
    ReadsBack (mk ty d a b) := by
  obtain ⟨hop, hd, ha, hb, -⟩ := encV_fields (o := o) (d := d) (a := a) (b := b) (c := 0) (typeField_lt ty)
  exact .of_opcode hn hop ho (by rw [hread _ hop, hd, ha, hb, fieldOf_encV_low (by decide), fieldOf_at _ (by decide)])

/-- Lane operations on integers, of the fixed TYPE 3. -/
theorem ReadsBack.of_formatV_integer {mk : Reg6 → Reg6 → Reg6 → Instr} (hn : encodeNat (mk d a b) = some (encV o d a b 0 (at_ 28 3)))
    (hread : ∀ w, fieldOf w 56 8 = BitVec.ofNat 8 o → readWord t w = some (mk (fieldOf w 50 6) (fieldOf w 44 6) (fieldOf w 38 6))) :
    ReadsBack (mk d a b) := by
  obtain ⟨hop, hd, ha, hb, -⟩ := encV_fields (o := o) (d := d) (a := a) (b := b) (c := 0) (low := at_ 28 3) (typeField_lt 3)
  exact .of_opcode hn hop ho (by rw [hread _ hop, hd, ha, hb])

theorem ReadsBack.of_formatV_unary {mk : Reg6 → Reg6 → Instr} (hn : encodeNat (mk d a) = some (encV o d a 0 0 0))
    (hread : ∀ w, fieldOf w 56 8 = BitVec.ofNat 8 o → readWord t w = some (mk (fieldOf w 50 6) (fieldOf w 44 6))) : ReadsBack (mk d a) := by
  obtain ⟨hop, hd, ha, -⟩ := encV_fields (o := o) (d := d) (a := a) (b := 0) (c := 0) (Nat.two_pow_pos 32)
  exact .of_opcode hn hop ho (by rw [hread _ hop, hd, ha])

end SharedFormat

end Words

/-! ### Every instruction -/

theorem readsBack (i : Instr) : ReadsBack i := by
  cases i
  all_goals try exact fun n h => absurd h.symm (Option.some_ne_none n)
  case nop t | halt t | rti t | mclr t => exact .of_opcode (t := t) rfl (fieldOf_opc _) (by decide) (by rw [readWord, fieldOf_opc]; rfl)
  case add t _ | sub t _ | and t _ | or t _ | xor t _ | shl t _ | shr t _ | sra t _ | min t _ | max t _ | mul t _ =>
    exact .of_formatS (t := t) (by decide) rfl (fun w h => by rw [readWord, h]; rfl)
  case ldsp t _ _ | stsp t _ _ | ld t _ _ | st t _ _ | vst t _ _ | lnld t _ _ | lnst t _ _ =>
    exact .of_formatM (t := t) (by decide) rfl (fun w h => by rw [readWord, h]; rfl)
  case mstream t _ | mfold t _ =>
    exact .of_formatStream (t := t) (by decide) rfl (fun w h => by rw [readWord, h]; rfl)
  case vadd t _ _ _ _ | vsub t _ _ _ _ | vmul t _ _ _ _ | vmin t _ _ _ _ | vmax t _ _ _ _ =>
    exact .of_formatV_typed (t := t) (by decide) rfl (fun w h => by rw [readWord, h]; rfl)
  case viadd t _ _ _ | visub t _ _ _ | vand t _ _ _ | vor t _ _ _ | vxor t _ _ _ | vshl t _ _ _ =>
    exact .of_formatV_integer (t := t) (by decide) rfl (fun w h => by rw [readWord, h]; rfl)
  case vmov t _ _ | vbcast t _ _ =>
    exact .of_formatV_unary (t := t) (by decide) rfl (fun w h => by rw [readWord, h]; rfl)
  case br => exact readsBack_br _ _
  case bal => exact readsBack_bal _
  case jr => exact readsBack_jr
  case rep => exact readsBack_rep _ _ _ _
  case rbrk => exact readsBack_rbrk _
  case setf => exact readsBack_setf _
  case clrf => exact readsBack_clrf _
  case mvs => exact readsBack_mvs _ _ _
  case setsp => exact readsBack_setsp _ _
  case mov => exact readsBack_mov _ _
  case cmp => exact readsBack_cmp _ _
  case pmod => exact readsBack_pmod _ _
  case vld => exact readsBack_vld _ _
  case vfma => exact readsBack_vfma _ _
  case vsel => exact readsBack_vsel _
  case vshr => exact readsBack_vshr _
  case vcmp => exact readsBack_vcmp _ _
  case vget => exact readsBack_vget _
  case vrot => exact readsBack_vrot _
  case vcvt => exact readsBack_vcvt _ _ _
  case vqb => exact readsBack_vqb _
  case vtack => exact readsBack_vtack _ _
  case vtap => exact readsBack_vtap _ _ _ _ _
  case mswap => exact readsBack_mswap
  case mswapReduce => exact readsBack_mswapReduce _ _ _
  case mloadRow => exact readsBack_mloadRow _ _
  case mloadBroadcast => exact readsBack_mloadBroadcast _
  case mloadRaw => exact readsBack_mloadRaw _ _ _ _
  case mdrainConverted => exact readsBack_mdrainConverted _ _ _ _ _ _
  case mdrainRaw => exact readsBack_mdrainRaw _ _ _
  case mwait => exact readsBack_mwait _ _ _
  case nsend => exact readsBack_nsend _ _
  case nrecv => exact readsBack_nrecv _
  case trc => exact readsBack_trc _
  case rdctr => exact readsBack_rdctr _ _
  case rdsnap => exact readsBack_rdsnap

/-- Settles O4: an instruction's word names it and sets no unused bit, so a legal one decodes (R128 to R161). -/
theorem tileWordsReadBack : Obligations.TileWordsReadBack := by
  unfold Obligations.TileWordsReadBack
  intro i w henc hlegal
  obtain ⟨n, hn, rfl⟩ := Option.map_eq_some_iff.mp henc
  obtain ⟨t, hread, hused⟩ := readsBack i n hn
  refine ⟨t, ?_⟩
  rw [decodeTile, hread, hused]
  exact if_pos ⟨henc, hlegal⟩

end Sys2Proof.Machine
end

section
/-! PROOFS. Tile instructions in the slot in which they issue (R139 to R161): what each one's body hands to the issue, and the next state that follows. -/

namespace Sys2Proof.Machine

section Slot

variable {s : State} {t : TileNo} {i : Instr} {use : State → Use} {body : State → Issue}

/-- An instruction that is ready, and whose body lets it issue, issues. -/
theorem exec_issues {e : Eff} (hexec : exec i s = .next (s.issue t i use body)) (hbody : body s = .go e) (hready : s.ready t i (use s) = true) :
    exec i s = .next (s.issueSlot t.toNat e) := hexec.trans (congrArg _ (State.issue_go hready hbody))

/-- An instruction that is ready, and whose body stops at a synchronous fault, raises it (R120). -/
theorem exec_faults {r : State} {c w : Nat} (hexec : exec i s = .next (s.issue t i use body)) (hbody : body s = .fault r c w)
    (hready : s.ready t i (use s) = true) : exec i s = .next (r.tileFault t.toNat c w) := hexec.trans (congrArg _ (State.issue_fault hready hbody))

end Slot

/-! ### Sequencer control (R139, R113, R114) -/

section Control

variable {s : State} {n : Nat} {cs : Bool} {r : BitVec 4} {stop : BitVec 12} {imm : Word}

/-- A `rep` that can open a level opens it, or skips its body where the count is 0. -/
theorem repBody_of_room (hstop : ((s.tile n).pc + 1).toNat ≤ stop.toNat) (hdepth : (s.tile n).depth ≠ 4) :
    let count := if cs then (s.tile n).gen r.toNat else imm
    repBody n cs r stop imm s = .go { st := s, ctl := if count = 0 then .skip (stop + 1) else .openLevel count stop } := by
  intro count
  have hroom : ¬ (stop.toNat < (nextPc (s.tile n).pc).toNat ∨ (s.tile n).depth = 4) := not_or.mpr ⟨Nat.not_lt.mpr hstop, hdepth⟩
  rw [repBody, if_neg hroom]
  by_cases hzero : count = 0
  · exact (if_pos hzero).trans (by rw [if_pos hzero]; rfl)
  · exact (if_neg hzero).trans (by rw [if_neg hzero]; rfl)

/-- A `rep` whose body ends before it begins, or that finds four levels open, is LOOP_ERR. -/
theorem repBody_of_loopErr (h : stop.toNat < ((s.tile n).pc + 1).toNat ∨ (s.tile n).depth = 4) : repBody n cs r stop imm s = .fault s fltLOOP 0 := if_pos h

end Control

/-- Settles O12: each row is the body of one instruction, at the issue of R108 to R115. -/
theorem controlInstructionsComplete : Obligations.ControlInstructionsComplete := by
  unfold Obligations.ControlInstructionsComplete
  refine ⟨?nop, ?halt, ?rti, ?br, ?bal, ?jr, ?rep, ?rbrk, ?setf, ?clrf, ?repErr, ?rbrkErr⟩
  case nop => exact fun _ _ h => exec_issues rfl rfl h
  case halt => exact fun _ _ h => exec_issues rfl rfl h
  case rti => exact fun _ _ h => exec_issues rfl rfl h
  case br => exact fun _ _ _ _ h => exec_issues rfl rfl h
  case bal => exact fun _ _ _ _ h => exec_issues rfl rfl h
  case jr => exact fun _ _ _ h => exec_issues rfl rfl h
  case rep => exact fun _ _ _ _ _ _ h hstop hdepth => exec_issues rfl (repBody_of_room hstop hdepth) h
  case rbrk => exact fun _ _ _ h hn => exec_issues rfl (if_neg (Nat.not_lt.mpr hn)) h
  case setf => exact fun _ _ _ h => exec_issues rfl rfl h
  case clrf => exact fun _ _ _ h => exec_issues rfl rfl h
  case repErr => exact fun _ _ _ _ _ _ h herr => exec_faults rfl (repBody_of_loopErr herr) h
  case rbrkErr => exact fun _ _ _ h hn => exec_faults rfl (if_pos hn) h

/-! ### Scalar arithmetic (R141) -/

section Scalar

variable {s : State} {d : Reg6} {r cv : Word}

theorem aluOut_zn : aluOut s d r 0 0 = .go { st := s, own := [.gen d.toNat r, .flags 3 (znOf r)] } := by
  have hflags : znOf r ||| 0 = znOf r := BitVec.or_zero
  rw [aluOut, hflags]
  rfl

theorem aluOut_zncv : aluOut s d r (maskC ||| maskV) cv = .go { st := s, own := [.gen d.toNat r, .flags 15 (znOf r ||| cv)] } := rfl

theorem ite_slt (a b c d : Word) : (if BitVec.slt a b then c else d) = if a.toInt < b.toInt then c else d := by simp only [BitVec.slt, decide_eq_true_eq]

end Scalar

/-- Settles O13: each row is the body of one instruction. -/
theorem scalarInstructionsComplete : Obligations.ScalarInstructionsComplete := by
  unfold Obligations.ScalarInstructionsComplete
  intro s t o a b zn zncv
  refine ⟨?add, ?sub, ?and, ?or, ?xor, ?shl, ?shr, ?sra, ?min, ?max, ?mul, ?mov, ?cmp, ?pmod⟩
  case add | sub => exact fun h => exec_issues rfl aluOut_zncv h
  case and | or | xor | shl | shr | sra | mov => exact fun h => exec_issues rfl aluOut_zn h
  case min => exact fun h => exec_issues rfl ((congrArg (aluOut s o.d · 0 0) (ite_slt b a b a)).trans aluOut_zn) h
  case max => exact fun h => exec_issues rfl ((congrArg (aluOut s o.d · 0 0) (ite_slt a b b a)).trans aluOut_zn) h
  case mul | cmp | pmod => exact fun h => exec_issues rfl rfl h

/-! ### Special registers and the operand store (R142, R143) -/

section Memory

variable {s s' : State} {t : TileNo} {m : MAddr} {v : Word}

/-- A load that the check of R103 passes, from a word that can be read. -/
theorem loadWord_of_read {k : State → Word → List PWrite → Issue} (hlegal : checkRange osTop 4 ((s.tile t.toNat).maddr m).1 4 = none)
    (hread : s.osWord t.toNat ((s.tile t.toNat).maddr m).1 = (s', some v)) : loadWord s t m k = k s' v ((s.tile t.toNat).maddr m).2 := by
  simp only [loadWord, hlegal, hread]

/-- A write of a special register at issue: LOOP_ERR for a depth above 4 (R114). -/
theorem exec_sprWrite {i : Instr} {r : Reg6} {body : State → Issue} (hexec : exec i s = .next (s.issue t i noUse body)) (hbody : body s = sprOut s r v)
    (hready : s.ready t i {} = true) :
    exec i s = .next (if r.toNat = 0x1C ∧ 4 < bits v.toNat 2 0 then s.tileFault t.toNat 6 0
      else s.issueSlot t.toNat { st := s, own := [.spr r.toNat v] }) := by
  split
  case isTrue hbad => exact exec_faults hexec (hbody.trans (if_pos (decide_eq_true hbad))) hready
  case isFalse hgood => exact exec_issues hexec (hbody.trans (sprOut_of_not_badDepth (fun h => hgood (of_decide_eq_true h)))) hready

end Memory

/-- Settles O14: each row is the body of one instruction; a load's body goes on with the word read. -/
theorem specialAndWordAccessesComplete : Obligations.SpecialAndWordAccessesComplete := by
  unfold Obligations.SpecialAndWordAccessesComplete
  refine ⟨?mvsRead, ?mvsWrite, ?setsp, ?ld, ?ldsp, ?st, ?stsp⟩
  case mvsRead => exact fun _ _ _ _ h => exec_issues rfl rfl h
  case mvsWrite => exact fun _ _ _ _ h => exec_sprWrite rfl rfl h
  case setsp => exact fun _ _ _ _ h => exec_sprWrite rfl rfl h
  case ld => exact fun _ _ _ _ _ _ h hlegal hread => exec_issues rfl (loadWord_of_read hlegal hread) h
  case ldsp =>
    intro s s' t r m v h hlegal hread hdepth
    have hgood : ¬ badDepth r.toNat v = true := fun hbad => by
      obtain ⟨hr, hv⟩ := of_decide_eq_true hbad
      rcases hdepth with hr' | hv'
      · exact hr' hr
      · omega
    exact exec_issues rfl ((loadWord_of_read hlegal hread).trans (if_neg hgood)) h
  case st => exact fun _ _ _ _ h hlegal => exec_issues rfl (storeWord_of_legal hlegal) h
  case stsp => exact fun _ _ _ _ h hlegal => exec_issues rfl (storeWord_of_legal hlegal) h

/-! ### Lines (R143, R159, R166) -/

/-- Settles O15: each row is the body of one instruction. -/
theorem lineAccessesComplete : Obligations.LineAccessesComplete := by
  unfold Obligations.LineAccessesComplete
  refine ⟨?vld, ?vst, ?lnld, ?lnst⟩
  case vld =>
    intro s s' t d bus m v h hlegal hread
    have hpassed : checkRange osTop 128 ((s.tile t.toNat).maddr m).1 128 = none := hlegal
    cases bus with
    | false => exact exec_issues (use := useX t m) rfl (by simp only [hpassed, hread]; rfl) h
    | true => exact exec_issues (use := useY t m) rfl (by simp only [hpassed, hread]; rfl) h
  case vst =>
    intro s t r m h hlegal
    have hpassed : checkRange osTop 128 ((s.tile t.toNat).maddr m).1 128 = none := hlegal
    exact exec_issues rfl (by simp only [hpassed]; rfl) h
  case lnld =>
    intro s s' t d m v h hlegal hread
    have hpassed : checkRange liningTop 128 ((s.tile t.toNat).maddr m).1 128 = none := hlegal
    exact exec_issues rfl (by simp only [hpassed, hread]; rfl) h
  case lnst =>
    intro s t r m h hlegal
    have hpassed : checkRange liningTop 128 ((s.tile t.toNat).maddr m).1 128 = none := hlegal
    exact exec_issues rfl (by simp only [hpassed]; rfl) h

/-! ### Messages, trace and counters (R160, R161, R181, R191) -/

section Ports

variable {s : State} {n cls : Nat} {a : Reg6} {r : BitVec 4}

/-- A barrier arrival that finds at most one before it (R181, R182). -/
theorem nsendBody_of_arrival (hcls : cls = 2) (hroute : (s.tile n).gen r.toNat = 0xFFFFFFFF) (hroom : (s.tile n).barPend + (s.tile n).arriving < 2) :
    nsendBody n a cls r s = .go { st := s, later := [later 2 false .arrive] } :=
  (if_pos ⟨hcls, hroute⟩).trans (if_neg (Nat.not_le.mpr hroom))

/-- A message that is no barrier arrival, that the injection port can take, and that its stitch admits where it has one (R192, R200). -/
theorem nsendBody_of_message (harrival : ¬ (cls = 2 ∧ (s.tile n).gen r.toNat = 0xFFFFFFFF)) (hidle : (s.tile n).injecting = false)
    (hroom : s.injectionFull n cls = false)
    (hadmit : cls = 0 → s.admits (((s.tile n).gen r.toNat).toNat % 1024) ((s.tile n).ic + 1) = true) :
    nsendBody n a cls r s = .go { st := s, later := [later 2 false (.inject cls ((s.tile n).gen r.toNat) ((s.tile n).vec (vnum a)))] } := by
  refine (if_neg harrival).trans ((if_neg ?free).trans (if_neg ?held))
  case free => simp [hidle, hroom]
  case held => exact fun ⟨hzero, _, _, hrefused⟩ => hrefused (hadmit hzero)

end Ports

/-- Settles O16: each row is the body of one instruction; that of `nsend` has a lemma for an arrival and one for a message. -/
theorem portInstructionsComplete : Obligations.PortInstructionsComplete := by
  unfold Obligations.PortInstructionsComplete
  refine ⟨?arrival, ?message, ?stitched, ?nrecv, ?trc, ?rdctr, ?rdsnap⟩
  case arrival =>
    intro s t a c r h hc hroute hroom
    exact exec_issues rfl (nsendBody_of_arrival (congrArg BitVec.toNat hc) hroute hroom) h
  case message =>
    intro s t a c r h hc harrival hidle hroom
    refine exec_issues rfl (nsendBody_of_message ?_ hidle hroom ?_) h
    · exact fun hbar => harrival.elim (fun hne => hne (BitVec.eq_of_toNat_eq hbar.1)) (fun hne => hne hbar.2)
    · exact fun hzero => absurd (BitVec.eq_of_toNat_eq hzero) hc
  case stitched =>
    intro s t a r h hidle hroom hadmit
    exact exec_issues rfl (nsendBody_of_message (fun hbar => absurd hbar.1 (by decide)) hidle hroom (fun _ => hadmit)) h
  case nrecv => exact fun s t d c m l h hqueue => exec_issues rfl (by simp only [hqueue]; rfl) h
  case trc => exact fun _ _ _ _ h => exec_issues rfl rfl h
  case rdctr => exact fun _ _ _ _ _ h => exec_issues rfl rfl h
  case rdsnap => exact fun _ _ _ h => exec_issues rfl rfl h

/-! ### Vector arithmetic (R144 to R151) -/

section Vector

variable {s : State} {t : TileNo} {d : Reg6}

theorem or_none_of_none {a b c : Option Nat} (ha : a = none) (hb : b = none) (hc : c = none) : a.or (b.or c) = none := by rw [ha, hb, hc]; rfl

theorem excOr_foldl_none {α : Type} (l : List α) : l.foldl (fun e _ => e.or Exc.none) Exc.none = Exc.none := by
  induction l with
  | nil => rfl
  | cons _ _ ih => exact ih

/-- A vector result that raises nothing. -/
theorem vecPlain_eq (f : Nat → Word) : vecPlain s d f = .go { st := s, later := [⟨2, true, .vec (vnum d) (mapLanes f), 0, 0⟩] } := by
  have hraised : ((List.range 32).map (fun l => (f l, Exc.none))).foldl (fun e q => e.or q.2) Exc.none = Exc.none := by
    rw [List.foldl_map]
    exact excOr_foldl_none _
  have hlanes : ((List.range 32).map (fun l => (f l, Exc.none))).map (·.1) = (List.range 32).map f := by rw [List.map_map]; rfl
  simp only [vecPlain, vecLanes, hraised, hlanes]
  rfl

/-- A vector result with the exceptions that its lanes raise. -/
theorem vecLanes_eq (n : Nat) (f : Nat → Word × Exc) :
    vecLanes s n d f = .go { st := s, later := [⟨n, true, .vec (vnum d) (mapLanes (fun i => (f i).1)),
      (((List.range 32).map f).foldl (fun e q => e.or q.2) Exc.none).mask, 0⟩] } := by
  simp only [vecLanes, List.map_map]
  rfl

end Vector

/-- Settles O17: each row is the body of one instruction; the lane rows share the lemma on `vecLanes`. -/
theorem vectorArithmeticCompletes : Obligations.VectorArithmeticCompletes := by
  unfold Obligations.VectorArithmeticCompletes
  refine ⟨?lanes, ?vqb, ?vtack, ?vtap⟩
  case lanes =>
    intro s t y d a b c va vb vc rnd out
    refine ⟨?vadd, ?vsub, ?vmul, ?vfma, ?vmin, ?vmax, ?vcmp, ?vcvt⟩
    case vadd | vsub | vmul | vfma | vmin | vmax => exact fun h => exec_issues rfl (vecLanes_eq _ _) h
    case vcmp => exact fun r h => exec_issues rfl (vecLanes_eq _ _) h
    case vcvt => exact fun r scl h => exec_issues rfl (vecLanes_eq _ _) h
  case vqb => exact fun _ _ _ _ _ h => exec_issues rfl rfl h
  case vtack =>
    intro s s' t d a b py my v x ya h hlegal hread f
    have hlegal' : checkRange osTop 128 (ptrAddr s t py) 128 = none := hlegal
    have hread' : s.osLine t.toNat (ptrAddr s t py) = (s', some v) := hread
    exact exec_issues rfl (by simp only [hlegal', hread', List.map_map]; rfl) h
  case vtap =>
    intro s s1 s2 t y d px mx py my xv hv x xa ya da h hx hy hd hreadx hready
    have hlegal : (checkRange osTop 128 (ptrAddr s t px) 128).or ((checkRange osTop 128 (ptrAddr s t py) 128).or
        (checkRange osTop 128 ((s.tile t.toNat).wrapPtr px.toNat ((s.tile t.toNat).ptr px.toNat + 128)).toNat 128)) = none := or_none_of_none hx hy hd
    have hreadx' : s.osLine t.toNat (ptrAddr s t px) = (s1, some xv) := hreadx
    have hready' : s1.osLine t.toNat (ptrAddr s t py) = (s2, some hv) := hready
    exact exec_issues rfl (by simp only [hlegal, hreadx', hready']; rfl) h

/-- Settles O18: each row is the body of one instruction; the lane rows share the lemma on `vecPlain`. -/
theorem vectorMovesComplete : Obligations.VectorMovesComplete := by
  unfold Obligations.VectorMovesComplete
  intro s t d a b c va vb vc out
  refine ⟨?viadd, ?visub, ?vand, ?vor, ?vxor, ?vshl, ?vshr, ?vsra, ?vmov, ?vsel, ?vbcast, ?vget, ?vrot⟩
  case viadd | visub | vand | vor | vxor | vshl | vshr | vsra | vmov | vsel | vbcast => exact fun h => exec_issues rfl (vecPlain_eq _) h
  case vget => exact fun _ h => exec_issues rfl rfl h
  case vrot => exact fun _ h => exec_issues rfl (vecPlain_eq _) h

/-! ### Matrix control (R152 to R158) -/

section Matrix

variable {s : State} {n : Nat}

/-- A swap with no back-bank operation before it takes place at once (R46, R47). -/
theorem swapBody_of_free {red : Option (Nat × Bool × Nat)} (hbusy : ((s.tile n).bbRun.isSome || !(s.tile n).bbWait.isEmpty) = false) :
    swapBody n s red = .go { st := s, swap := some (s.swapNow n red) } := by
  simp only [swapBody, hbusy, Bool.false_eq_true, if_false]

/-- Behind a back-bank operation that runs or waits, a swap joins the queue (R47). -/
theorem swapBody_of_busy {red : Option (Nat × Bool × Nat)} (hbusy : ((s.tile n).bbRun.isSome || !(s.tile n).bbWait.isEmpty) = true) :
    swapBody n s red = .go { st := s.setTile n ((s.tile n).bbQueue (.swap red)) } := if_pos hbusy

/-- A back-bank operation with a place and a legal range joins the queue (R47, R152). -/
theorem bbBody_of_place {op : Nat ⊕ Nat} {dst : Nat} {mk : Nat → BBOp} (hplace : (s.tile n).bbWaiting < 4) (hop : op = .inl dst) :
    bbBody n s op mk = .go { st := s.setTile n ((s.tile n).bbQueue (mk dst)) } := by
  rw [hop]
  exact if_neg (Nat.not_le.mpr hplace)

/-- The stream that an instruction at tile n names (R55, R153). -/
def Tile.newStream (x : Tile) (fold : Bool) (w : StreamOps) : StreamSt :=
  ⟨fold, w, (x.ptr (w.areg.toNat % 8)).toNat, (x.ptr w.bptr.toNat).toNat, x.ic, none, 0, 0, [], [], none, [], x.bbWait.countP BBOp.isSwap⟩

/-- A stream with a place, whole blocks in fold mode, and legal ranges joins the waiting streams (R55, R57, R153). -/
theorem streamBody_of_place {fold : Bool} {w : StreamOps} (hplace : (s.tile n).streamPlace = true)
    (hmode : ¬ (fold = true ∧ w.len.toNat % ((s.tile n).newStream fold w).bl ≠ 0)) (hlegal : streamFault ((s.tile n).newStream fold w) = none) :
    streamBody n fold w s = .go { st := s.setTile n { s.tile n with
      waiting := (s.tile n).waiting ++ [(s.tile n).newStream fold w], lastDone := none, lastIssued := some ((s.tile n).newStream fold w).m } } := by
  unfold Tile.newStream at *
  rw [streamBody]
  simp only [hplace, Bool.not_true, Bool.false_eq_true, if_false, hmode, hlegal]

end Matrix

/-- Settles O19: each row is the body of one instruction, once it has its place and its ranges are legal. -/
theorem matrixInstructionsComplete : Obligations.MatrixInstructionsComplete := by
  unfold Obligations.MatrixInstructionsComplete
  refine ⟨?streams, ?swap, ?heldSwap, ?reduce, ?backBank, ?mwait⟩
  case streams =>
    intro s t w x st waits
    refine ⟨?mstream, ?mfold⟩
    case mstream => exact fun h hplace hlegal => exec_issues rfl (streamBody_of_place hplace (by simp) hlegal) h
    case mfold => exact fun h hplace hlen hlegal => exec_issues rfl (streamBody_of_place hplace (fun hmode => hmode.2 hlen) hlegal) h
  case swap =>
    intro s t h hrun hwait
    exact exec_issues rfl (swapBody_of_free (by rw [hrun, hwait]; rfl)) h
  case heldSwap => exact fun _ _ h hbusy => exec_issues rfl (swapBody_of_busy hbusy) h
  case reduce =>
    intro s t f od r dst h hdst
    refine exec_issues rfl ?_ h
    simp only [hdst]
    split
    case isTrue hbusy => exact swapBody_of_busy hbusy
    case isFalse hfree => exact swapBody_of_free (Bool.eq_false_iff.mpr hfree)
  case backBank =>
    intro s t hplace x queued
    refine ⟨?converted, ?raw, ?row, ?broadcast, ?loadRaw, ?clear⟩
    case converted => exact fun _ _ _ _ _ _ _ h hdst => exec_issues rfl (bbBody_of_place hplace hdst) h
    case raw => exact fun _ _ _ _ h hdst => exec_issues rfl (bbBody_of_place hplace hdst) h
    case row => exact fun _ _ h => exec_issues rfl (bbBody_of_place hplace rfl) h
    case broadcast => exact fun _ h => exec_issues rfl (bbBody_of_place hplace rfl) h
    case loadRaw => exact fun _ _ _ _ _ h hsrc => exec_issues rfl (bbBody_of_place hplace hsrc) h
    case clear => exact fun h => exec_issues rfl (bbBody_of_place hplace rfl) h
  case mwait => exact fun _ _ _ _ _ h hwait => exec_issues rfl (if_pos hwait) h

end Sys2Proof.Machine
end

section
/-! PROOFS. Commands of queue 0 (R181, R182, R234, R235, R237, R239 to R241): what each does once it stands at the head and nothing holds it. -/

namespace Sys2Proof.Machine

section QueueZero

variable {s : State} {p : PanelNo} {c : QCmd}

/-- A launch that nothing holds, with a cause to refuse it, starts no target (R233, R234). -/
theorem exec_launch_of_refused (hhead : s.head0 p.toNat 1 = some c) (hiss : c.issued = false)
    (hidle : c.targets.all (fun t => !(s.tile t).busyRun) = true) (hsnaps : (s.panel p.toNat).snaps.any (fun m => c.targets.any m.tiles.contains) = false)
    (hcause : s.launchCause p.toNat c ≠ 0) :
    exec (.launch p) s = .next (s.refuseCmd p.toNat 0 c (s.launchCause p.toNat c) 0) := by
  have hbusy : c.targets.any (fun t => (s.tile t).busyRun) = false := by simpa using hidle
  obtain ⟨k, hk⟩ := Nat.exists_eq_succ_of_ne_zero hcause
  simp only [exec_launch, execLaunch, hhead, hiss, hbusy, hsnaps, hk, Bool.or_self, Bool.false_eq_true, if_false]

/-- A load that nothing refuses writes program memory and is complete, or sends its data and stands until that is delivered (R180, R235). -/
theorem exec_load_of_granted (hhead : s.head0 p.toNat 2 = some c) (hiss : c.issued = false) (hcause : s.loadCause p.toNat c = 0) :
    exec (.load p) s = .next (if c.target = 0 then (s.popCmd p.toNat 0 c.ord).loadProgram (bits (c.word 0) 10 0) c
      else ((s.markIssued p.toNat 0 c.ord).loadSend p.toNat (bits (c.word 0) 10 0) c).settleLoads) := by
  simp only [exec_load, execLoad, hhead, hiss, hcause, Bool.false_eq_true, if_false]

/-- A tag at the head gives its pair to the command processor and to every tile (R240). -/
theorem exec_tag_of_head (hhead : s.head0 p.toNat 9 = some c) :
    let l := bits (c.word 0) 15 0
    let o := bits (c.word 0) 31 16
    let u := setF (setF (s.popCmd p.toNat 0 c.ord) Reg.CMD_TAGS_LAYER l p.toNat) Reg.CMD_TAGS_OPERATOR o p.toNat
    exec (.tag p) s = .next ((u.panelTiles p.toNat).foldl (fun u t => u.modTile t (fun x => { x with layer := l, operator := o })) u) := by
  simp only [exec_tag, execTag, hhead]

/-- A signal at the head writes VALUE and SEQ, and then sends its vector (R241). -/
theorem exec_signal_of_head (hhead : s.head0 p.toNat 10 = some c) :
    exec (.signal p) s = .next ((setF (setF (s.popCmd p.toNat 0 c.ord) Reg.CMD_SIGNAL_VAL_VALUE (c.word 0) p.toNat)
      Reg.CMD_SIGNAL_SEQ_VALUE c.seq p.toNat).sendVector (bits (c.word 4) 7 0)) := by
  simp only [exec_signal, execSignal, hhead]

/-- A snap at the head takes its marker out of queue 0, and the tiles have it to copy (R239). -/
theorem exec_snap_of_head (hhead : s.head0 p.toNat 8 = some c) :
    let u := (s.popCmd p.toNat 0 c.ord).modPanel p.toNat (fun x => { x with
      snaps := x.snaps.map (fun m => if m.ord = c.ord then { m with queues := m.queues.filter (· ≠ 0), tiles := s.panelTiles p.toNat } else m) })
    exec (.snap p) s = .next ((if bitAt (c.word 4) 0 then (s.panelTiles p.toNat).foldl (fun u t => u.postIrq t 2) u else u).placeMarks p.toNat) := by
  simp only [exec_snap, execSnap, hhead]

/-- A barrier at the head holds queue 0 (R181). -/
theorem exec_barrier_of_head (hhead : s.head0 p.toNat 6 = some c) : exec (.barrier p) s = .next (s.markIssued p.toNat 0 c.ord) := by
  simp only [exec_barrier, execBarrier, hhead]

/-- A barrier whose covered moves are complete and whose tiles have arrived advances COUNT and answers the pending arrivals (R181, R182, R237). -/
theorem exec_barrierRelease_of_arrived (hhead : s.head0 p.toNat 6 = some c) (hiss : c.issued = true)
    (hmoves : (List.range 8).all (fun q => ((s.panel p.toNat).queue q).all (fun e => !decide (e.op = 3 ∧ e.ord < c.ord))) = true)
    (htiles : (s.panelTiles p.toNat).all (fun t => (s.tile t).arrived) = true) :
    let num := (getF s Reg.CMD_BARRIER_COUNT p.toNat + 1) % 2 ^ 32
    exec (.barrierRelease p) s = .next (((s.panelTiles p.toNat).filter (fun t => decide (0 < (s.tile t).barPend))).foldl
      (fun u t => (u.modTile t (fun x => { x with barPend := x.barPend - 1 })).enqueue t 2 (releaseMsg num c.layer c.oper))
      (setF (s.popCmd p.toNat 0 c.ord) Reg.CMD_BARRIER_COUNT num p.toNat)) := by
  have hcovered : (List.range 8).any (fun q => ((s.panel p.toNat).queue q).any (fun e => decide (e.op = 3 ∧ e.ord < c.ord))) = false := by
    simpa only [← List.not_any_eq_all_not, Bool.not_eq_true'] using hmoves
  have harrived : (s.panelTiles p.toNat).any (fun t => !(s.tile t).arrived) = false := by
    simpa only [List.all_eq_not_any_not, Bool.not_eq_true'] using htiles
  simp only [exec_barrierRelease, execBarrierRelease, hhead, hiss, hcovered, harrived, not_true_eq_false, Bool.false_eq_true, or_self, if_false]
  -- The end of a command and the write of a register reach no tile: the arrivals pending then are those of `s`.
  rfl

end QueueZero

/-- Settles O30: each clause is the rule of one command; a launch runs or is refused as its cause says. -/
theorem queueZeroCommandsComplete : Obligations.QueueZeroCommandsComplete := by
  unfold Obligations.QueueZeroCommandsComplete
  intro s p c n
  refine ⟨?launch, ?load, ?tag, ?signal, ?snap, ?barrier, ?barrierRelease⟩
  case launch =>
    intro hhead hiss hidle hsnaps
    have hclear : (s.panel n).snaps.any (fun m => c.targets.any m.tiles.contains) = false := by
      simpa only [← List.not_any_eq_all_not, Bool.not_eq_true'] using hsnaps
    split
    case isTrue hcause => exact exec_launch_of_runs hhead hiss hidle hclear hcause
    case isFalse hcause => exact exec_launch_of_refused hhead hiss hidle hclear hcause
  case load => exact exec_load_of_granted
  case tag => exact exec_tag_of_head
  case signal => exact exec_signal_of_head
  case snap => exact exec_snap_of_head
  case barrier => exact exec_barrier_of_head
  case barrierRelease => exact exec_barrierRelease_of_arrived

end Sys2Proof.Machine
end

section
/-! PROOFS. Commands of the mover queues (R179, R180, R236, R254): what each does once its turn has come and its queue runs. -/

namespace Sys2Proof.Machine

section MoverQueue

variable {s : State} {p : PanelNo} {q : BitVec 3} {c : QCmd}

/-- The oldest unissued move issues within the outstanding limit, behind no unsatisfied wait, where its channel has room or refuses it (R179). -/
theorem exec_moveIssue_of_room (hfirst : s.firstCmd p.toNat q.toNat (fun c => decide (c.op = 3 ∧ ¬ c.issued)) = some c) (hq : q.toNat ≠ 0)
    (hruns : s.queueRuns p.toNat q.toNat = true) (hlimit : outstanding ((s.panel p.toNat).queue q.toNat) < s.qLimit p.toNat q.toNat)
    (hwait : waitBefore ((s.panel p.toNat).queue q.toNat) c.ord = false) (hroom : s.moveRoom p.toNat c = true) :
    exec (.moveIssue p q) s = .next (s.markIssued p.toNat q.toNat c.ord) := by
  have hgo : q.toNat ≠ 0 ∧ s.queueRuns p.toNat q.toNat = true ∧ outstanding ((s.panel p.toNat).queue q.toNat) < s.qLimit p.toNat q.toNat
      ∧ ¬ waitBefore ((s.panel p.toNat).queue q.toNat) c.ord = true ∧ s.moveRoom p.toNat c = true :=
    ⟨hq, hruns, hlimit, Bool.eq_false_iff.mp hwait, hroom⟩
  simp only [exec_moveIssue, execMoveIssue, hfirst, if_pos hgo]

/-- The oldest issued move whose descriptor is not yet handed over, in a queue that nothing holds, with no marker before it. -/
structure State.MoveDue (s : State) (n k : Nat) (c : QCmd) : Prop where
  first : s.firstCmd n k (fun c => decide (c.op = 3) && c.issued && !c.sent) = some c
  runs : s.cmdStopped n = false
  free : SMap.get false (s.panel n).held k = false
  unmarked : (s.panel n).marksBefore c.ord = false

/-- What a due move does is decided by its channel alone: whether it is bound to the panel, and whether it has room. -/
theorem exec_move_of_due (h : s.MoveDue p.toNat q.toNat c) :
    exec (.move p q) s = .next (if ¬ s.boundTo c.chan.1 c.chan.2 p.toNat then (s.refuseCmd p.toNat q.toNat c 6 0).placeMarks p.toNat
      else if 16 ≤ (s.chan c.chan.1 c.chan.2).waiting.length then s
      else ((s.modChan c.chan.1 c.chan.2 (fun x => { x with
          waiting := x.waiting ++ [⟨c.body.drop 16, c.seq, c.layer, c.oper, some ⟨p.toNat, q.toNat, c.ord⟩⟩] })).modPanel p.toNat
        (fun x => x.setQueue q.toNat ((x.queue q.toNat).map (fun e => if e.ord = c.ord then { e with sent := true } else e)))).placeMarks p.toNat) := by
  simp only [exec_move, execMove, h.first, h.runs, h.free, h.unmarked, Bool.false_eq_true, or_self, if_false]

/-- A due move of a channel that is not bound to the panel is refused with cause 6 (R236, R254). -/
theorem exec_move_of_unbound (h : s.MoveDue p.toNat q.toNat c) (hbound : s.boundTo c.chan.1 c.chan.2 p.toNat = false) :
    exec (.move p q) s = .next ((s.refuseCmd p.toNat q.toNat c 6 0).placeMarks p.toNat) := by
  rw [exec_move_of_due h, if_pos (Bool.eq_false_iff.mp hbound)]

/-- A due move hands its descriptor to a bound channel that has room (R179, R236). -/
theorem exec_move_of_bound (h : s.MoveDue p.toNat q.toNat c) (hbound : s.boundTo c.chan.1 c.chan.2 p.toNat = true)
    (hroom : (s.chan c.chan.1 c.chan.2).waiting.length < 16) :
    exec (.move p q) s = .next (((s.modChan c.chan.1 c.chan.2 (fun x => { x with
        waiting := x.waiting ++ [⟨c.body.drop 16, c.seq, c.layer, c.oper, some ⟨p.toNat, q.toNat, c.ord⟩⟩] })).modPanel p.toNat
      (fun x => x.setQueue q.toNat ((x.queue q.toNat).map (fun e => if e.ord = c.ord then { e with sent := true } else e)))).placeMarks p.toNat) := by
  rw [exec_move_of_due h, if_neg (not_not_intro hbound), if_neg (Nat.not_le.mpr hroom)]

/-- A mark that its queue begins stands in it (R236). -/
theorem exec_mark_of_runs (hfirst : s.unbegun p.toNat q.toNat 4 = some c) (hruns : s.queueRuns p.toNat q.toNat = true) :
    exec (.mark p q) s = .next ((s.markIssued p.toNat q.toNat c.ord).placeMarks p.toNat) := by
  simp only [exec_mark, execMark, hfirst, if_pos hruns]

/-- A mark that has come to the head of its queue is reached (R180, R236). -/
theorem exec_markReached_of_head (hhead : ((s.panel p.toNat).queue q.toNat).head? = some c) (hop : c.op = 4) (hiss : c.issued = true)
    (hruns : s.cmdStopped p.toNat = false) :
    exec (.markReached p q) s = .next
      (setF (s.popCmd p.toNat q.toNat c.ord) Reg.CMD_QMARK_REACHED (bits (c.word 0) 15 0) p.toNat q.toNat) := by
  have hgo : c.op = 4 ∧ c.issued = true ∧ ¬ s.cmdStopped p.toNat = true := ⟨hop, hiss, Bool.eq_false_iff.mp hruns⟩
  simp only [exec_markReached, execMarkReached, hhead, if_pos hgo]

/-- A wait that its queue begins holds it (R236). -/
theorem exec_wait_of_runs (hfirst : s.unbegun p.toNat q.toNat 5 = some c) (hruns : s.queueRuns p.toNat q.toNat = true) :
    exec (.wait p q) s = .next ((s.markIssued p.toNat q.toNat c.ord).placeMarks p.toNat) := by
  simp only [exec_wait, execWait, hfirst, if_pos hruns]

/-- The oldest wait of a queue is satisfied once REACHED is at or past its number (R236). -/
theorem exec_waitSatisfied_of_met
    (hfirst : (if q.toNat = 0 then s.head0 p.toNat 5 else s.firstCmd p.toNat q.toNat (fun c => decide (c.op = 5))) = some c)
    (hiss : c.issued = true) (hruns : s.cmdStopped p.toNat = false) (hmet : s.waitMet p.toNat c = true) :
    exec (.waitSatisfied p q) s = .next (s.popCmd p.toNat q.toNat c.ord) := by
  have hgo : c.issued = true ∧ ¬ s.cmdStopped p.toNat = true ∧ s.waitMet p.toNat c = true := ⟨hiss, Bool.eq_false_iff.mp hruns, hmet⟩
  simp only [exec_waitSatisfied, execWaitSatisfied, hfirst, if_pos hgo]

end MoverQueue

/-- Settles O31: each clause is the rule of one command. -/
theorem moverQueueCommandsComplete : Obligations.MoverQueueCommandsComplete := by
  unfold Obligations.MoverQueueCommandsComplete
  intro s p q c n k l
  refine ⟨?issue, ?refused, ?handed, ?mark, ?reached, ?wait, ?satisfied⟩
  case issue => exact exec_moveIssue_of_room
  case refused => exact fun hfirst hruns hfree hmarks => exec_move_of_unbound ⟨hfirst, hruns, hfree, hmarks⟩
  case handed => exact fun hfirst hruns hfree hmarks => exec_move_of_bound ⟨hfirst, hruns, hfree, hmarks⟩
  case mark => exact exec_mark_of_runs
  case reached => exact exec_markReached_of_head
  case wait => exact exec_wait_of_runs
  case satisfied => exact fun hfirst hiss hruns hmet => exec_waitSatisfied_of_met hfirst hiss hruns (decide_eq_true hmet)

end Sys2Proof.Machine
end

section
/-! PROOFS. Deliveries (R193 to R195, R200 to R202): a message at its own router is the one that its ejection grants; a stitch's message at its last
point; a landed line; a credit. -/

namespace Sys2Proof.Machine

section Flights

variable {s : State} {f : Flight} {n d : Nat}

/-- A message of this device does not seek a lane port (R301). -/
theorem State.dropAway_own (hdev : f.msg.h.ddev = s.devId) : s.dropAway f = none := if_pos hdev

/-- A message that stands at the router of its destination leaves by the ejection port (R195). -/
theorem State.nextHop_home (hdev : f.msg.h.ddev = s.devId) (hack : f.isAck = false) (hpos : f.pos = s.posOf d) :
    s.nextHop f d = some ⟨8, [], f.pos, 0⟩ := by
  have hgoal : s.goal f d = f.pos := by
    simp only [State.goal, hack, hdev, hpos, Bool.false_eq_true, if_false, if_true]
  simp only [State.nextHop, hgoal, if_true]

/-- The fences stand between routers: they do not bar a way that crosses no link (R209). -/
theorem State.hopFenced_noHops (h : Hop) (hhops : h.hops = []) : s.hopFenced f h = true := by
  simp [State.hopFenced, State.pathFenced, hhops]

/-- A message at the router of its one destination, which may receive it, loses no branch (R209, R213). -/
theorem State.cull_home (hdev : f.msg.h.ddev = s.devId) (hack : f.isAck = false) (hdsts : f.dsts = [d]) (hpos : f.pos = s.posOf d)
    (hawake : (s.tileAsleep d && decide (f.msg.h.dlv < 2)) = false) (hserves : (f.msg.h.nt && (s.tile d).retired) = false) :
    s.cull f = (s, f) := by
  have hhop := State.nextHop_home hdev hack hpos
  have hfence : s.hopFenced f ⟨8, [], f.pos, 0⟩ = true := State.hopFenced_noHops _ rfl
  have hkept : s.cull f = (s, { f with dsts := [d] }) := by
    simp only [State.cull, hdsts, List.filter_cons, List.filter_nil, hhop, hfence, hawake, hserves, Option.isNone_some, Option.any_some,
      Bool.or_self, Bool.and_false, Bool.false_and, Bool.not_true, Bool.false_eq_true, if_false, if_true, List.contains_nil, Bool.not_false]
  rw [hkept, ← hdsts]

/-- The one branch of a message at the router of its destination is the ejection port's (R195). -/
theorem State.branch_home (hdev : f.msg.h.ddev = s.devId) (hack : f.isAck = false) (hdsts : f.dsts = [d]) (hpos : f.pos = s.posOf d) (o : Nat) :
    s.branch f o = if o = 8 then (some ⟨8, [], f.pos, 0⟩, [d]) else (none, []) := by
  have hhop := State.nextHop_home hdev hack hpos
  by_cases ho : o = 8
  · simp [State.branch, hdsts, hhop, ho]
  · simp [State.branch, hdsts, hhop, ho, Ne.symm ho]

/-- A contender for an output may leave by it. -/
theorem State.mayLeave_of_contender {r o : Nat} {h : Hop} {ds : List Nat} (hmem : f ∈ s.contenders r o) (hbranch : s.branch f o = (some h, ds)) :
    s.mayLeave f h ds = true := by
  obtain ⟨-, hleave⟩ := List.mem_filter.mp hmem
  rw [hbranch, Bool.and_eq_true] at hleave
  exact hleave.2

/-- A message at the router of its one destination that contends for the ejection port has its way out there. -/
theorem State.wayOut_home (hdev : f.msg.h.ddev = s.devId) (hack : f.isAck = false) (hdsts : f.dsts = [d]) (hpos : f.pos = s.posOf d)
    (hmem : f ∈ s.contenders f.pos 8) : s.wayOut f = some (⟨8, [], f.pos, 0⟩, [d]) := by
  have hbranch := State.branch_home hdev hack hdsts hpos
  have hleave : s.mayLeave f ⟨8, [], f.pos, 0⟩ [d] = true := State.mayLeave_of_contender hmem (hbranch 8)
  simp [State.wayOut, hbranch, hleave, List.range, List.range.loop]

/-- A branch that leaves its place is marked as before (R215). -/
theorem State.leave_voided (ds : List Nat) (m : Msg) : (s.leave f ds).voided m = s.voided m := rfl

/-- What leaves the network at its own tile is delivered there, and its mover hears of it (R194, R264). -/
theorem State.eject_home (hdev : f.msg.h.ddev = s.devId) (hack : f.isAck = false) :
    s.eject f [d] = ((s.leave f [d]).deliver d (s.voided f.msg)).sendAck f := by
  simp only [State.eject, hack, hdev, Bool.false_eq_true, if_false, if_true, List.foldl_cons, List.foldl_nil, State.leave_voided]

/-- A message whose way out no other message contends for takes it (R193 to R195). -/
theorem exec_messageDelivery_of_granted {h : Hop} {ds : List Nat} (hrun : s.arrayFrozen = false) (hf : s.flights[n]? = some f)
    (haway : s.dropAway f = none) (hfront : s.inFront f = none) (hcull : s.cull f = (s, f)) (hdsts : f.dsts ≠ [])
    (hway : s.wayOut f = some (h, ds)) (hone : s.contenders f.pos h.out = [f]) (hlo : 1 ≤ f.msg.h.cls) (hhi : f.msg.h.cls ≤ 3) (hvia : f.via < 10) :
    exec (.messageDelivery n) s = .next ((if h.out = 8 then s.eject f ds
      else State.carry 4095 (s.cross f h ds).1 (s.cross f h ds).2).settleLoads.settleMovers) := by
  simp only [exec_messageDelivery, execMessageDelivery, hf, hrun, haway, Bool.false_eq_true, if_false,
    State.carry_granted hlo hhi hvia hfront hcull hdsts hway (State.wayOut_branch hway) hone]

/-- A message that its tile's ejection grants leaves the network there (R194, R195). -/
theorem exec_messageDelivery_of_home (hrun : s.arrayFrozen = false) (hf : s.flights[n]? = some f) (hdev : f.msg.h.ddev = s.devId)
    (hack : f.isAck = false) (hdsts : f.dsts = [d]) (hpos : f.pos = s.posOf d) (hfront : s.inFront f = none)
    (hawake : (s.tileAsleep d && decide (f.msg.h.dlv < 2)) = false) (hserves : (f.msg.h.nt && (s.tile d).retired) = false)
    (hone : s.contenders f.pos 8 = [f]) (hlo : 1 ≤ f.msg.h.cls) (hhi : f.msg.h.cls ≤ 3) (hvia : f.via < 10) :
    exec (.messageDelivery n) s = .next ((((s.leave f [d]).deliver d (s.voided f.msg)).sendAck f).settleLoads.settleMovers) := by
  have hway := State.wayOut_home hdev hack hdsts hpos (hone ▸ List.mem_singleton_self f)
  rw [exec_messageDelivery_of_granted hrun hf (State.dropAway_own hdev) hfront (State.cull_home hdev hack hdsts hpos hawake hserves)
    (by simp [hdsts]) hway hone hlo hhi hvia, if_pos rfl, State.eject_home hdev hack]

end Flights

/-! ### The class that an output grants (R193) -/

section Grant

variable {k : LinkSt} {has : Nat → Bool}

theorem grantClass_of_owed1 (h : has 1 = true) (hlost : 3 ≤ k.lost1) : grantClass k has = 1 := by
  simp [grantClass, h, hlost]

theorem grantClass_of_owed3 (hno1 : ¬ (has 1 = true ∧ 3 ≤ k.lost1)) (h : has 3 = true) (hlost : 63 ≤ k.lost3) : grantClass k has = 3 := by
  simp only [grantClass, Bool.and_eq_true, decide_eq_true_eq, if_neg hno1, if_pos (And.intro h hlost)]

theorem grantClass_of_none_owed (hno1 : ¬ (has 1 = true ∧ 3 ≤ k.lost1)) (hno3 : ¬ (has 3 = true ∧ 63 ≤ k.lost3)) :
    grantClass k has = if has 2 then 2 else if has 1 then 1 else 3 := by
  simp only [grantClass, Bool.and_eq_true, decide_eq_true_eq, if_neg hno1, if_neg hno3]

end Grant

/-! ### Stitches (R200 to R202) -/

section Stitches

variable {s : State} {n p i : Nat} {st : Stitch} {m : CMsg}

/-- The oldest message m of stitch n that has still to reach point p, its only one, which is the end of the stitch at a tile; it is not lost,
and no stopped island or sleeping tile is in its way. -/
structure State.EndDue (s : State) (n p i : Nat) (st : Stitch) (m : CMsg) : Prop where
  runs : s.arrayFrozen = false
  stitch : s.stitch n = some st
  next : st.nextAt p = some (i, m)
  points : m.points = [p]
  last : st.points.getLast? = some p
  kept : m.lostAt = none
  tile : st.dstKind = 0
  only : st.points.filter (· < p) = []
  path : s.pathFrozen (st.hops.take p) = false
  thawed : s.tileFrozen st.endTile = false
  awake : s.tileAsleep st.endTile = false

/-- A message due at the end of its stitch is delivered there, unless it is for a line and the landing stage is full (R201, R202). -/
theorem State.stitchArrive_end (h : s.EndDue n p i st m) (hroom : ¬ (m.msg.h.dlv = 1 ∧ (s.tile st.endTile).landing.length = 16)) :
    s.stitchArrive n p = (((s.setStitch n (some { st with flight := st.flight.eraseIdx i })).countPath 0 (st.hops.take p)).loseTurns
      (st.hops.take p)).deliver0 n st.dst { m with msg := s.voided m.msg } false := by
  simp only [State.stitchArrive, h.stitch, h.next, h.only, List.foldl_nil, List.drop_zero, Nat.sub_zero, h.last, if_true, h.kept, h.runs, h.points,
    h.path, h.thawed, h.awake, List.head?_cons, ne_eq, not_true_eq_false, decide_false, Bool.or_self, Bool.false_and, Bool.false_eq_true, if_false,
    hroom, List.filter_cons, List.filter_nil, State.deliverEnd, h.tile]

/-- With delivery to a queue, a message goes into that of class 0 (R201). -/
theorem State.deliver0_queue {t : Nat} (hdlv : m.msg.h.dlv = 0) : s.deliver0 n t m false = (s.noteVoid t m.msg).enqueue t 0 m.msg := by
  simp only [State.deliver0, hdlv, Bool.false_eq_true, if_false, if_true]

/-- With delivery to a line, a message goes into the landing stage (R202). -/
theorem State.deliver0_line {t : Nat} (hdlv : m.msg.h.dlv ≠ 0) :
    s.deliver0 n t m false = ((s.noteVoid t m.msg).countTile t 14).modTile t
      (fun x => { x with landing := x.landing ++ [⟨m.msg.h.line, m.msg.data, x.ic⟩] }) := by
  simp only [State.deliver0, hdlv, Bool.false_eq_true, if_false]

/-- A credit that is due comes back to the source of its stitch (R200, R205). -/
theorem exec_creditReturn_of_due {n : BitVec 10} (hst : s.stitch n.toNat = some st) (hdlv : st.dlv = 0) (hdue : 0 < st.returning ∨ st.dstKind = 2)
    (hroom : getF s Reg.NET_ST_STATUS_CREDIT n.toNat < st.credits) (hrun : s.arrayFrozen = false) (hthawed : s.tileFrozen st.startTile = false) :
    let u := setF (s.setStitch n.toNat (some { st with returning := st.returning - 1 }))
      Reg.NET_ST_STATUS_CREDIT (getF s Reg.NET_ST_STATUS_CREDIT n.toNat + 1) n.toNat
    exec (.creditReturn n) s = .next (if st.srcKind = 2 then u.emit .laneCredit [st.src / 8, st.src % 8]
      else if st.srcKind = 1 then u.pumpHem st.src else u) := by
  have hgo : ¬ (st.dlv ≠ 0 ∨ ¬ (decide (0 < st.returning) = true ∨ decide (st.dstKind = 2) = true)
      ∨ st.credits ≤ getF s Reg.NET_ST_STATUS_CREDIT n.toNat ∨ s.arrayFrozen = true ∨ s.tileFrozen st.startTile = true) := by
    simp [hdlv, hdue, hroom, hrun, hthawed]
  simp only [exec_creditReturn, execCreditReturn, hst, if_neg hgo]

end Stitches

/-! ### The landing stage (R202) -/

section Landing

variable {s : State}

/-- A landed line is written, and then a second one where their banks differ. -/
theorem exec_landingStageWrite_of_landable {t : TileNo} {l : Landed} (hthawed : s.tileFrozen t.toNat = false)
    (hl : s.landable t.toNat [] = some l) :
    exec (.landingStageWrite t) s = .next (match (s.land t.toNat l).landable t.toNat [osBank (128 * l.line)] with
      | none => s.land t.toNat l
      | some m => (s.land t.toNat l).land t.toNat m) := by
  simp only [exec_landingStageWrite, execLandingStageWrite, hl]
  exact congrArg _ (if_neg (Bool.eq_false_iff.mp hthawed))

variable {t : Nat} {l : Landed}

/-- An access that takes a port of its tile changes what the tile keeps of taken ports, and no more (R105). -/
theorem State.takePort_tile (h : s.memWf = true) (port : Option Nat) :
    ∃ took, (s.takePort t port).tile t = { s.tile t with extTook := took } := by
  unfold State.takePort
  split
  · exact ⟨_, State.modTile_tile_self (State.memWf_tiles h) _⟩
  · exact ⟨(s.tile t).extTook, rfl⟩

theorem State.memWf_takePort (h : s.memWf = true) (port : Option Nat) : (s.takePort t port).memWf = true := by
  unfold State.takePort
  split
  · exact State.memWf_modTile h t (fun _ hx => Tile.memWf_congr hx rfl rfl rfl rfl rfl rfl)
  · exact h

/-- A line that lands leaves the landing stage, and stands in its ring line. -/
theorem State.land_tile (h : s.memWf = true) : ((s.land t l).tile t).landing = (s.tile t).landing.erase l
    ∧ ((s.land t l).tile t).os = Mem.store 0 (s.tile t).os (128 * l.line) (leBytes 128 l.data.toNat) := by
  obtain ⟨took, htile⟩ := State.takePort_tile (t := t) h (some (osBank (128 * l.line)))
  rw [State.land, State.modTile_tile_self (State.memWf_tiles (State.memWf_takePort h _)), htile]
  simp only [Tile.osStoreLine, Tile.osStore, and_self]

theorem State.land_os (h : s.memWf = true) :
    Mem.StoredAt (s.tile t).os ((s.land t l).tile t).os (128 * l.line) (leBytes 128 l.data.toNat) := by
  rw [(State.land_tile h).2]
  exact Mem.get_store (Tile.memWf_parts.mp (State.memWf_tile h t)).2.1 _ _

end Landing

/-- Settles O24: each clause is the rule of one command, or of the grant that it asks for. -/
theorem deliveriesComplete : Obligations.DeliveriesComplete := by
  unfold Obligations.DeliveriesComplete
  refine ⟨?home, ?granted, ?grant, ?stitch, ?landing, ?line, ?credit⟩
  case home => exact fun _ _ _ _ => exec_messageDelivery_of_home
  case granted => exact fun _ _ _ _ _ => exec_messageDelivery_of_granted
  case grant => exact fun _ _ => ⟨grantClass_of_owed1, grantClass_of_owed3, grantClass_of_none_owed⟩
  case stitch =>
    intro s n p i st m hrun hst hnext hpoints hlast hkept htile honly hpath hthawed hawake
    have hdue : s.EndDue n.toNat p i st m := ⟨hrun, hst, hnext, hpoints, hlast, hkept, htile, honly, hpath, hthawed, hawake⟩
    refine ⟨fun hdlv hdlv' => ?_, fun _ hdlv' hroom => ?_⟩
    · rw [exec_stitchDelivery, execStitchDelivery, State.stitchArrive_end hdue (by simp [hdlv]), State.deliver0_queue hdlv']
    · rw [exec_stitchDelivery, execStitchDelivery, State.stitchArrive_end hdue (fun hfull => Nat.ne_of_lt hroom hfull.2),
        State.deliver0_line hdlv']
  case landing => exact fun _ _ _ => exec_landingStageWrite_of_landable
  case line => exact fun _ _ _ h => ⟨(State.land_tile h).1, State.land_os h⟩
  case credit => exact fun _ _ _ => exec_creditReturn_of_due

end Sys2Proof.Machine
end

section
/-! PROOFS. Failures of links and routers (R203, R211 to R214, R217): what each event does to a link that is in service, and each host write to one
that no stitch reserves. -/

namespace Sys2Proof.Machine

section LinkFaults

variable {s : State} {t : TileNo} {p : BitVec 3}

/-- A class 0 message that fails its CRC is lost at the next router, and the failure is a link event and a report (R203). -/
theorem exec_class0CrcFailure_of_inFlight {n : BitVec 10} {hop i : Nat} {st : Stitch} {h : Nat × Nat} (hst : s.stitch n.toNat = some st)
    (hhop : st.hops[hop]? = some h) (hi : st.flight.findIdx? (fun m => m.lostAt.isNone && m.points.any (hop < ·)) = some i)
    (hthawed : s.tileFrozen h.1 = false) :
    exec (.class0CrcFailure n hop) s = .next (((s.setStitch n.toNat (some { st with
      flight := st.flight.modify i (fun m => { m with lostAt := some (hop + 1) }) })).linkEvent h.1 h.2).report 0 (unitNo blkNET h.1) []) := by
  simp only [exec_class0CrcFailure, execClass0CrcFailure, hst, hhop, hi, hthawed, Bool.false_eq_true, if_false]

/-- A flit that fails is replayed, and what its router holds for the link is resent in order (R211). -/
theorem exec_linkReplay_first (hup : s.linkUp t.toNat p.toNat = true) (hthawed : s.tileFrozen t.toNat = false) :
    exec (.linkReplay t p false) s = .next (((s.modLink t.toNat p.toNat (fun l => { l with retry := s.resend t.toNat p.toNat })).modLink
      t.toNat p.toNat (fun l => { l with fails := 0 })).linkEvent t.toNat p.toNat) := by
  simp only [exec_linkReplay, execLinkReplay, hup, hthawed, Bool.not_true, Bool.or_self, Bool.false_and, Bool.false_eq_true, if_false]

/-- A replay that fails is a link event, or at the third failure the end of the link (R211, R212). -/
theorem exec_linkReplay_again (hup : s.linkUp t.toNat p.toNat = true) (hthawed : s.tileFrozen t.toNat = false) :
    exec (.linkReplay t p true) s = .next (if 2 ≤ (s.link t.toNat p.toNat).fails then s.retireLink t.toNat p.toNat
      else (s.modLink t.toNat p.toNat (fun l => { l with fails := l.fails + 1 })).linkEvent t.toNat p.toNat) := by
  simp only [exec_linkReplay, execLinkReplay, hup, hthawed, Bool.not_true, Bool.or_self, Bool.true_and, decide_eq_true_eq, Bool.false_eq_true,
    if_false, if_true]

/-- More link events than a window allows retire the link (R212). -/
theorem exec_linkEventLimitExceeded_of_exceeded (hwin : getF s Reg.NET_LINK_LIMIT_WINDOW ≠ 0)
    (hlim : getF s Reg.NET_LINK_LIMIT_COUNT < (s.link t.toNat p.toNat).inWindow) :
    exec (.linkEventLimitExceeded t p) s = .next (s.retireLink t.toNat p.toNat) :=
  congrArg _ (if_pos ⟨hwin, hlim⟩)

/-- A router that faults takes its links, its hem ports and its tile out of service (R214, R337). -/
theorem exec_routerFault_of_inService (h : (s.tile t.toNat).routerRetired = false) :
    exec (.routerFault t) s = .next (((hemsAt t.toNat).foldl (fun u h => u.emptyHem h)
      (((List.range 8).foldl (fun u p => u.retireLink t.toNat p) s).modTile t.toNat (fun x => { x with routerRetired := true }))).retireTile
        t.toNat) :=
  congrArg _ (if_neg (Bool.eq_false_iff.mp h))

/-- A link that no stitch reserves is forced out of service in both directions (R217). -/
theorem exec_linkForceWrite_off (h : s.mayWrite Reg.NET_LINK_FORCE_OFF 0 0 = true) :
    let w := bothWays (getF s Reg.NET_LINK_SEL_TILE) (getF s Reg.NET_LINK_SEL_PORT)
    w.all (fun h => (s.link h.1 h.2).rsv.isNone) = true →
    exec (.linkForceWrite true) s = .next (w.foldl (fun u h => u.modLink h.1 h.2 (fun l => { l with forced := true, lateRsv := false })) s) := by
  intro w hfree
  have hnone : w.any (fun h => (s.link h.1 h.2).rsv.isSome) = false := by
    simpa only [List.all_eq_not_any_not, Option.not_isNone, Bool.not_eq_true'] using hfree
  rw [exec_linkForceWrite, execLinkForceWrite, State.hostWrite_ok h]
  exact congrArg _ (if_neg (Bool.eq_false_iff.mp hnone))

/-- A forced link comes back into service; the reservation that comes next still finds it taken (R198, R217). -/
theorem exec_linkForceWrite_on (h : s.mayWrite Reg.NET_LINK_FORCE_OFF 0 0 = true) :
    exec (.linkForceWrite false) s = .next ((bothWays (getF s Reg.NET_LINK_SEL_TILE) (getF s Reg.NET_LINK_SEL_PORT)).foldl
      (fun u h => u.modLink h.1 h.2 (fun l => { l with forced := false, lateRsv := l.forced || l.lateRsv })) s) := by
  rw [exec_linkForceWrite, execLinkForceWrite, State.hostWrite_ok h]
  rfl

end LinkFaults

/-- Settles O25: each clause is the rule of one command; the failures of a replay differ only in their number. -/
theorem linkFaultsComplete : Obligations.LinkFaultsComplete := by
  unfold Obligations.LinkFaultsComplete
  refine ⟨?crc, ?replay, ?again, ?third, ?limit, ?router, ?force⟩
  case crc => exact fun _ _ _ _ _ _ => exec_class0CrcFailure_of_inFlight
  case replay => exact fun _ _ _ => exec_linkReplay_first
  case again => exact fun _ _ _ hup hthawed hfew => (exec_linkReplay_again hup hthawed).trans (congrArg _ (if_neg (Nat.not_le.mpr hfew)))
  case third => exact fun _ _ _ hup hthawed hmany => (exec_linkReplay_again hup hthawed).trans (congrArg _ (if_pos hmany))
  case limit => exact fun _ _ _ => exec_linkEventLimitExceeded_of_exceeded
  case router => exact fun _ _ => exec_routerFault_of_inService
  case force => exact fun _ h hfree => ⟨exec_linkForceWrite_off h hfree, exec_linkForceWrite_on h⟩

end Sys2Proof.Machine
end

section
/-! PROOFS. Multicast (R206, R208): a branch that waits for credit, its torn marker, and the definition of a group. -/

namespace Sys2Proof.Machine

section Multicast

variable {s : State} {g : Byte} {t : TileNo} {port : BitVec 4}

/-- The branch of the oldest message of a group that waits at an output without credit is dropped and counted (R208). -/
theorem exec_multicastDetach_of_held {f : Flight} {ds : List Nat} (hhold : getF s Reg.NET_MCAST_HOLD_HOLD ≠ 0) (hrun : s.arrayFrozen = false)
    (hpanel : s.panelState (getF s Reg.NET_MCG_PANEL g.toNat) ≠ 2) (hheld : s.heldBranch g.toNat t.toNat port.toNat = some (f, ds))
    (hcredit : (s.branch f port.toNat).1.any (fun h => s.hasCredit f h ds) = false) :
    exec (.multicastDetach g t port) s = .next { s.leave f ds with torn := addTorn s.torn t.toNat port.toNat g.toNat f ds } := by
  simp only [exec_multicastDetach, execMulticastDetach, hhold, hrun, hpanel, hheld, hcredit, Bool.false_eq_true, or_self, if_false]

/-- A torn branch whose output has credit again sends its marker ahead of the messages in flight (R208). -/
theorem exec_tornMarker_of_credit {w : Torn}
    (hw : s.torn.find? (fun v => decide (v.router = t.toNat ∧ v.port = port.toNat ∧ v.group = g.toNat)) = some w)
    (hcredit : (s.branch (s.markerFlight w) port.toNat).1.any (fun h => s.hasCredit (s.markerFlight w) h w.beyond) = true) :
    exec (.tornMarker t port g) s = .next { s with
      flights := s.markerFlight w :: s.flights
      nextId := s.nextId + 1
      torn := s.torn.filter (fun v => !decide (v.router = t.toNat ∧ v.port = port.toNat ∧ v.group = g.toNat)) } := by
  simp only [exec_tornMarker, execTornMarker, hw, hcredit, if_true]

/-- What a granted definition of a group leaves, its validity last (R189, R206). -/
theorem exec_mcastGroupWrite_of_mayWrite {v : Word} (h : s.mayWrite Reg.NET_MCG_X0 g.toNat 0 = true) :
    let n := g.toNat
    let x0 := bits v.toNat 5 0
    let x1 := bits v.toNat 11 6
    let y0 := bits v.toNat 16 12
    let y1 := bits v.toNat 21 17
    let p := bits v.toNat 25 22
    let u := setF (setF (setF (setF (setF s Reg.NET_MCG_X0 x0 n) Reg.NET_MCG_X1 x1 n) Reg.NET_MCG_Y0 y0 n) Reg.NET_MCG_Y1 y1 n) Reg.NET_MCG_PANEL p n
    exec (.mcastGroupWrite g v) s = .next (if bitAt v.toNat 26 then
      if u.groupValid x0 x1 y0 y1 p then setF u Reg.NET_MCG_VALID 1 n
      else (setF u Reg.NET_MCG_VALID 0 n).logErr 4 idHost (Reg.NET_MCG_X0.addr n 0) v.toNat
    else setF u Reg.NET_MCG_VALID 0 n) := by
  rw [exec_mcastGroupWrite, execMcastGroupWrite, State.hostWrite_ok h]

end Multicast

/-- Settles O26: each clause is the rule of one command; a group written valid is so where R206 and R189 allow it. -/
theorem multicastCommandsComplete : Obligations.MulticastCommandsComplete := by
  unfold Obligations.MulticastCommandsComplete
  refine ⟨?detach, ?marker, ?group⟩
  case detach => exact fun _ _ _ _ _ _ => exec_multicastDetach_of_held
  case marker => exact fun _ _ _ _ _ => exec_tornMarker_of_credit
  case group =>
    intro s g v h n x0 x1 y0 y1 p u
    have hwrite := exec_mcastGroupWrite_of_mayWrite (v := v) h
    refine ⟨fun hv hvalid => ?_, fun hv hvalid => ?_, fun hv => ?_⟩
    · exact hwrite.trans (congrArg _ ((if_pos hv).trans (if_pos hvalid)))
    · exact hwrite.trans (congrArg _ ((if_pos hv).trans (if_neg (Bool.eq_false_iff.mp hvalid))))
    · exact hwrite.trans (congrArg _ (if_neg (Bool.eq_false_iff.mp hv)))

end Sys2Proof.Machine
end

section
/-! PROOFS. Stitches (R197 to R199, R204, R217): a reservation whole or refused, and a release that starts and takes effect. -/

namespace Sys2Proof.Machine

section StitchCommands

variable {s : State} {p : PanelNo} {c : QCmd} {st : Stitch}

/-- A reservation at the head reserves whole where no condition of R198 fails, and else nothing (R198, R199). -/
theorem exec_stitchReserve_of_head (hhead : s.head0 p.toNat 7 = some c) (hop : c.stOp ≠ 1) :
    exec (.stitchReserve p) s = .next (if s.stitchCause p.toNat c = 0
      then ((s.popCmd p.toNat 0 c.ord).reserveStitch p.toNat c).settleForced
      else (s.refuseCmd p.toNat 0 c 5 (s.stitchCause p.toNat c)).settleForced) := by
  simp only [exec_stitchReserve, execStitchReserve, hhead, if_neg hop]
  cases s.stitchCause p.toNat c with
  | zero => rfl
  | succ k => rfl

/-- A release at the head of a stitch that its panel has reserved starts (R204). -/
theorem exec_stitchRelease_of_reserved (hhead : s.head0 p.toNat 7 = some c) (hop : c.stOp = 1) (hiss : c.issued = false)
    (hfields : c.relFields = true) (hst : s.stitch c.stNum = some st) (hpanel : getF s Reg.NET_ST_STATUS_PANEL c.stNum = p.toNat) :
    let u := (s.setStitch c.stNum (some { st with releasing := true })).markIssued p.toNat 0 c.ord
    exec (.stitchRelease p) s = .next (if getF u Reg.NET_ST_STATUS_STATE c.stNum = 1 then setF u Reg.NET_ST_STATUS_STATE 2 c.stNum else u) := by
  simp only [exec_stitchRelease, execStitchRelease, hhead, hop, hiss, hfields, hst, hpanel, ne_eq, not_true_eq_false, Bool.false_eq_true, or_self,
    if_false]

/-- A release with nothing in flight frees the links, and its command is complete (R204). -/
theorem exec_stitchReleaseEffect_of_drained {k : BitVec 10} (hst : s.stitch k.toNat = some st) (hrel : st.releasing = true)
    (hdrained : st.flight = []) (hrun : s.panelFrozen (getF s Reg.NET_ST_STATUS_PANEL k.toNat) = false)
    (hhead : (((s.freeStitch k.toNat).panel (getF s Reg.NET_ST_STATUS_PANEL k.toNat)).queue 0).head? = some c)
    (hcmd : c.op = 7 ∧ c.stOp = 1 ∧ c.stNum = k.toNat ∧ c.issued = true) :
    exec (.stitchReleaseEffect k) s = .next ((s.freeStitch k.toNat).popCmd (getF s Reg.NET_ST_STATUS_PANEL k.toNat) 0 c.ord) := by
  simp only [exec_stitchReleaseEffect, execStitchReleaseEffect, hst, hrel, hdrained, hrun, hhead, if_pos hcmd, ne_eq, not_true_eq_false,
    Bool.false_eq_true, or_self, if_false]

/-- What a reservation along a path leaves: its stitch, its links and its status (R199). -/
theorem State.reserveStitch_of_path {n last : Nat} {hops : List (Nat × Nat)} {drops : List Nat} (hpath : s.stPath c = some (hops, drops, last)) :
    let st : Stitch := { dlv := c.stDlv, credits := c.stCredits, srcKind := c.stSrcK, src := c.stSrc, dstKind := c.stDstK, dst := c.stDst,
                         rbase := c.stRbase, rlen := c.stRlen, hops := hops, points := drops ++ [hops.length], sent := 0, lastAdmit := none,
                         flight := [], returning := 0, releasing := false }
    s.reserveStitch n c = setF (setF (setF (hops.foldl (fun u h => u.modLink h.1 h.2 (fun l => { l with rsv := some c.stNum }))
      (s.setStitch c.stNum (some st))) Reg.NET_ST_STATUS_STATE 1 c.stNum) Reg.NET_ST_STATUS_PANEL n c.stNum)
      Reg.NET_ST_STATUS_CREDIT c.stCredits c.stNum := by
  simp only [State.reserveStitch, hpath]

end StitchCommands

/-- Settles O32: each clause is the rule of one command, or of the reservation that it makes. -/
theorem stitchCommandsComplete : Obligations.StitchCommandsComplete := by
  unfold Obligations.StitchCommandsComplete
  refine ⟨?reserve, ?reserved, ?release, ?effect⟩
  case reserve => exact fun _ _ _ => exec_stitchReserve_of_head
  case reserved =>
    rintro s p _ c hops drops last hpath rfl
    exact State.reserveStitch_of_path hpath
  case release => exact fun _ _ _ _ => exec_stitchRelease_of_reserved
  case effect =>
    intro s k st c hst hrel hdrained hrun p u hhead hop hstop hnum hiss
    exact exec_stitchReleaseEffect_of_drained hst hrel hdrained hrun hhead ⟨hop, hstop, hnum, hiss⟩

end Sys2Proof.Machine
end

section
/-! PROOFS. Definition, removal, reset and thaw of panels (R218 to R222, R244, R248): what each command does once nothing bars it. -/

namespace Sys2Proof.Machine

section PanelControl

variable {s : State} {p : PanelNo}

/-- A granted DEFINE of a panel with no definition under way begins one, or is refused with its cause (R218, R219). -/
theorem exec_panelDefine_of_mayWrite (h : s.mayWrite Reg.CMD_PANEL_CTRL_DEFINE p.toNat 0 = true)
    (hidle : flag s Reg.CMD_PANEL_CTRL_DEFINE p.toNat = false) :
    exec (.panelDefine p) s = .next (if s.defCause p.toNat = 0
      then (setF s Reg.CMD_PANEL_CTRL_DEFINE 1 p.toNat).modPanel p.toNat (fun x => { x with defining := true })
      else setF (setF s Reg.CMD_PANEL_STATUS_DEF_ERR 1 p.toNat) Reg.CMD_PANEL_STATUS_DEF_CAUSE (s.defCause p.toNat) p.toNat) := by
  simp only [exec_panelDefine, execPanelDefine, State.hostWrite_ok h, hidle, Bool.false_eq_true, if_false]

/-- Panel n as the completion of its definition leaves it: STATE 1, the window's words kept, all else of the panel at its start (R220). -/
def State.panelStart (s : State) (n : Nat) : State :=
  let u := setF (setF (s.setPanel n { Panel.init with words := (s.panel n).words }) Reg.CMD_PANEL_CTRL_DEFINE 0 n) Reg.CMD_PANEL_STATUS_STATE 1 n
  let u := setF (setF (setF u Reg.CMD_INTAKE_PTR_NEXT 0 n) Reg.CMD_INTAKE_PTR_CONSUMED 0 n) Reg.CMD_INTAKE_SEQ_VALUE 0 n
  let u := setF (setF (setF u Reg.CMD_TAGS_LAYER 0 n) Reg.CMD_TAGS_OPERATOR 0 n) Reg.CMD_BARRIER_COUNT 0 n
  (List.range 8).foldl (fun u q => setF u Reg.CMD_QMARK_REACHED 0 n q) u

/-- A definition under way completes in the initial state, with layer and operator 0 in every tile of the panel (R220). -/
theorem exec_panelDefineComplete_of_defining (hdef : (s.panel p.toNat).defining = true) (hrun : s.arrayFrozen = false) :
    exec (.panelDefineComplete p) s = .next (((s.panelStart p.toNat).panelTiles p.toNat).foldl
      (fun u t => u.modTile t (fun x => { x with layer := 0, operator := 0 })) (s.panelStart p.toNat)) := by
  have hgo : (s.panel p.toNat).defining = true ∧ ¬ s.arrayFrozen = true := ⟨hdef, Bool.eq_false_iff.mp hrun⟩
  rw [exec_panelDefineComplete, execPanelDefineComplete]
  exact congrArg _ (if_pos hgo)

/-- A granted reset or removal of a panel takes effect while no device freeze is in force (R443). -/
theorem State.panelCtl_of_running {f : Fld} {n : Nat} {k : State → State} (h : s.mayWrite f n 0 = true) (hrun : s.arrayFrozen = false) :
    s.panelCtl f n k = k s := by
  simp only [State.panelCtl, State.hostWrite_ok h, hrun, Bool.false_eq_true, if_false]

/-- The removal of a panel that is not in reset starts its reset, and notes that the definition goes with it (R222). -/
theorem exec_panelUndefine_of_defined (h : s.mayWrite Reg.CMD_PANEL_CTRL_UNDEFINE p.toNat 0 = true) (hrun : s.arrayFrozen = false)
    (hdefined : s.panelState p.toNat ≠ 0) :
    let u := (setF s Reg.CMD_PANEL_CTRL_UNDEFINE 1 p.toNat).modPanel p.toNat (fun x => { x with undefining := true })
    u.panelState p.toNat ≠ 3 → exec (.panelUndefine p) s = .next ((u.readyForReset p.toNat).startPanelReset p.toNat) := by
  intro u hreset
  rw [exec_panelUndefine, execPanelUndefine, State.panelCtl_of_running h hrun]
  exact congrArg _ ((if_neg hdefined).trans (if_neg hreset))

/-- The reset of a panel that is defined or frozen starts, after the thaw of a frozen one (R244, R248). -/
theorem exec_panelReset_of_defined (h : s.mayWrite Reg.CMD_PANEL_CTRL_RESET p.toNat 0 = true) (hrun : s.arrayFrozen = false)
    (hmaster : s.frozenMaster (idCmd p.toNat) = false) (hdefined : s.panelState p.toNat = 1 ∨ s.panelState p.toNat = 2) :
    exec (.panelReset p) s = .next ((setF (s.readyForReset p.toNat) Reg.CMD_PANEL_CTRL_RESET 1 p.toNat).startPanelReset p.toNat) := by
  have hgo : ¬ (s.panelState p.toNat = 0 ∨ s.panelState p.toNat = 3) := by omega
  simp only [exec_panelReset, execPanelReset, State.panelCtl_of_running h hrun, hmaster, hgo, Bool.false_eq_true, if_false]

/-- A panel reset ends once no bound channel aborts; the definition goes with it, or STATE reads 1 (R222, R244). -/
theorem exec_panelResetComplete_of_aborted (hreset : s.panelState p.toNat = 3) (hrun : s.arrayFrozen = false)
    (hchans : (s.boundChans p.toNat).all (fun c => decide (s.chanState c.1 c.2 ≠ 3)) = true) :
    exec (.panelResetComplete p) s = .next (if (s.panel p.toNat).undefining
      then (setF s Reg.CMD_PANEL_CTRL_RESET 0 p.toNat).removePanel p.toNat
      else setF (setF s Reg.CMD_PANEL_CTRL_RESET 0 p.toNat) Reg.CMD_PANEL_STATUS_STATE 1 p.toNat) := by
  have hgo : ¬ (s.panelState p.toNat ≠ 3 ∨ s.arrayFrozen = true
      ∨ (s.boundChans p.toNat).any (fun c => decide (s.chanState c.1 c.2 = 3)) = true) := by
    simpa [hreset, hrun] using hchans
  rw [exec_panelResetComplete, execPanelResetComplete]
  exact congrArg _ (if_neg hgo)

/-- A frozen panel whose command processor the charter has not frozen thaws (R248). -/
theorem exec_panelThaw_of_frozen (h : s.mayWrite Reg.CMD_PANEL_CTRL_THAW p.toNat 0 = true) (hrun : s.arrayFrozen = false)
    (hmaster : s.frozenMaster (idCmd p.toNat) = false) (hfrozen : s.panelState p.toNat = 2) :
    exec (.panelThaw p) s = .next (s.thawPanel p.toNat) := by
  simp only [exec_panelThaw, execPanelThaw, State.panelCtl_of_running h hrun, hmaster, hfrozen, Bool.false_eq_true, if_false, if_true]

end PanelControl

/-- Settles O27: each clause is the rule of one command. -/
theorem panelControlCompletes : Obligations.PanelControlCompletes := by
  unfold Obligations.PanelControlCompletes
  refine ⟨?define, ?defineComplete, ?undefine, ?reset, ?resetComplete, ?thaw⟩
  case define => exact fun _ _ => exec_panelDefine_of_mayWrite
  case defineComplete => exact fun _ _ => exec_panelDefineComplete_of_defining
  case undefine => exact fun _ _ => exec_panelUndefine_of_defined
  case reset => exact fun _ _ => exec_panelReset_of_defined
  case resetComplete => exact fun _ _ => exec_panelResetComplete_of_aborted
  case thaw => exact fun _ _ => exec_panelThaw_of_frozen

end Sys2Proof.Machine
end

section
/-! PROOFS. The intake (R223 to R230, R378): what a word of a granted write does to its window, a resync, and the decision and consumption of the
oldest packet. -/

namespace Sys2Proof.Machine

section Intake

variable {s : State} {p : PanelNo}

/-- A served and granted write of the intake gives its words to the window; a poisoned one is counted and reported first, and every word of it
is bad (R378, R383). -/
theorem exec_intakeWrite_of_granted (off : BitVec 22) (words : List Word) (pb poisoned : Bool) (hserved : s.hostServed = true)
    (hwarm : s.warming = none) (hgranted : s.intakeRefused = false) :
    exec (.intakeWrite off words pb poisoned) s = .next (State.intakeWords (pb || poisoned || decide (off.toNat % 4 ≠ 0)) off.toNat words
      (if poisoned then (bumpF s Reg.PCI_ERR_CNT_UNCORR).report 0 (unitNo blkPCI 0) [] else s)) := by
  simp only [exec_intakeWrite, execIntakeWrite, hserved, hwarm, hgranted, Bool.not_true, Option.isSome_none, Bool.or_self, Bool.false_eq_true,
    if_false]

/-! ### A word in the window of a defined panel (R224, R227, R228) -/

/-- The panel with a word stored at offset off of its window: commits that were deferred have taken place, unless the intake waits still. -/
def State.wordStored (s : State) (n off : Nat) (w : Word) : Panel :=
  let y := if s.intakeWaits n then s.panel n else (s.panel n).commitNow
  { y with words := SMap.set 0 y.words (off / 4) w, hdrHeld := y.hdrHeld || decide (off = y.fill) }

/-- A word that no committed packet protects is stored: it is a header of illegal length, or the last word of the packet, or neither. -/
theorem State.intakeWord_of_unprotected {n off : Nat} {w : Word} (hdefined : s.panelState n = 1)
    (hruns : flag s Reg.CMD_INTAKE_STATUS_STOPPED n = false) (hfree : s.protectedAt n off = false) :
    let x := s.wordStored n off w
    let len := x.lenAt x.fill
    s.intakeWord n off w false =
      if off = x.fill ∧ ¬ lenOk len = true then setF (s.setPanel n x) Reg.CMD_INTAKE_STATUS_STOPPED 1 n
      else if x.hdrHeld = true ∧ off = (x.fill + len - 4) % 65536 then s.setPanel n
        { x with undecided := x.undecided ++ [⟨x.fill, len, if s.intakeWaits n then none else some (x.bytes x.fill len)⟩],
                 fill := (x.fill + len) % 65536, hdrHeld := false }
      else s.setPanel n x := by
  have hlive : ¬ (s.panelState n = 0 ∨ false = true) := by simp [hdefined]
  have hopen : ¬ (s.panelState n = 3 ∨ flag s Reg.CMD_INTAKE_STATUS_STOPPED n = true) := by simp [hdefined, hruns]
  rw [State.intakeWord, if_neg hlive, if_neg hopen, hfree]
  exact ite_congr (propext (and_iff_right Bool.false_ne_true)) (fun _ => rfl) (fun _ => rfl)

/-- A resync discards what is uncommitted and begins again at CONSUMED (R227). -/
theorem exec_intakeResync_of_mayWrite (h : s.mayWrite Reg.CMD_INTAKE_CTRL_RESYNC p.toNat 0 = true) :
    let c := getF s Reg.CMD_INTAKE_PTR_CONSUMED p.toNat
    exec (.intakeResync p) s = .next (setF (setF (s.modPanel p.toNat (fun x => { x with undecided := [], fill := c, hdrHeld := false }))
      Reg.CMD_INTAKE_PTR_NEXT c p.toNat) Reg.CMD_INTAKE_STATUS_STOPPED 0 p.toNat) := by
  simp only [exec_intakeResync, execIntakeResync, State.hostWrite_ok h, State.inConsumed]

/-! ### The oldest packet (R228 to R230) -/

/-- The oldest committed packet is decided: NEXT passes it, and it is accepted or rejected as its cause says (R228, R229). -/
theorem exec_packetDecision_of_committed {off len : Nat} {held : Option (List Byte)} {r : List Undecided}
    (hfirst : (s.panel p.toNat).undecided = ⟨off, len, held⟩ :: r) (hruns : s.intakeWaits p.toNat = false) :
    let n := p.toNat
    let k : Pkt := ⟨held.getD ((s.panel n).bytes off len)⟩
    let u := setF (s.modPanel n (fun x => { x with undecided := r })) Reg.CMD_INTAKE_PTR_NEXT (off + len) n
    let v := if (u.panel n).packets = [] then setF u Reg.CMD_INTAKE_PTR_CONSUMED (off + len) n else u
    exec (.packetDecision p) s = .next (if s.packetCause n k = 0
      then (setF (u.modPanel n (fun x => x.accept off k)) Reg.CMD_INTAKE_SEQ_VALUE (getF u Reg.CMD_INTAKE_SEQ_VALUE n + 1) n).placeMarks n
      else (setF (setF (setF v Reg.CMD_INTAKE_STATUS_CAUSE (s.packetCause n k) n) Reg.CMD_INTAKE_REJ_SEQ_VALUE k.seq n)
        Reg.CMD_INTAKE_STATUS_REJ 1 n).raise n) := by
  simp only [exec_packetDecision, execPacketDecision, hfirst, hruns, Bool.false_eq_true, if_false, State.intakeFlag]

/-- The oldest accepted packet moves into its queue, and CONSUMED passes it: to the next accepted packet, or to NEXT (R230). -/
theorem exec_packetConsume_of_room {k : Packet} {r : List Packet} (hfirst : (s.panel p.toNat).packets = k :: r)
    (hruns : s.intakeWaits p.toNat = false) (hroom : ((s.panel p.toNat).queue k.queue).length < queueSize k.queue) :
    let x := s.panel p.toNat
    let u := s.setPanel p.toNat ({ x with packets := r }.setQueue k.queue (x.queue k.queue ++ [k.cmd]))
    exec (.packetConsume p) s = .next (setF u Reg.CMD_INTAKE_PTR_CONSUMED
      (match r.head? with
        | none => getF u Reg.CMD_INTAKE_PTR_NEXT p.toNat
        | some j => j.off) p.toNat) := by
  have hgo : ¬ (s.intakeWaits p.toNat = true ∨ queueSize k.queue ≤ ((s.panel p.toNat).queue k.queue).length) := by
    simp [hruns, Nat.not_le.mpr hroom]
  simp only [exec_packetConsume, execPacketConsume, hfirst, hgo, if_false, State.inNext]
  cases r <;> rfl

end Intake

/-- Settles O29: each clause is the rule of one command, or of one word of a write. -/
theorem intakeCommandsComplete : Obligations.IntakeCommandsComplete := by
  unfold Obligations.IntakeCommandsComplete
  refine ⟨?write, ?word, ?resync, ?decision, ?consume⟩
  case write =>
    intro s off words pb hserved hwarm hgranted
    have hwrite := fun poisoned => exec_intakeWrite_of_granted off words pb poisoned hserved hwarm hgranted
    refine ⟨?_, ?_⟩
    · simpa using hwrite false
    · simpa [unitNo, blkPCI] using hwrite true
  case word =>
    intro s p off w hdefined hruns hfree y x n
    have hword := State.intakeWord_of_unprotected (w := w) hdefined hruns hfree
    have hpast : off ≠ x.fill ∨ lenOk n = true → ¬ (off = x.fill ∧ ¬ lenOk n = true) :=
      fun hlegal ⟨hhdr, hlen⟩ => hlegal.elim (fun hne => hne hhdr) hlen
    refine ⟨fun hhdr hlen => ?stops, fun hlegal hheld hlast => ?commits, fun hlegal hmore => ?stored⟩
    case stops => exact hword.trans (if_pos ⟨hhdr, Bool.eq_false_iff.mp hlen⟩)
    case commits => exact hword.trans ((if_neg (hpast hlegal)).trans (if_pos ⟨hheld, hlast⟩))
    case stored => exact hword.trans ((if_neg (hpast hlegal)).trans (if_neg hmore))
  case resync => exact fun _ _ => exec_intakeResync_of_mayWrite
  case decision =>
    intro s p off len held r hfirst hruns n k u
    have hdecided := exec_packetDecision_of_committed hfirst hruns
    exact ⟨fun haccept => hdecided.trans (congrArg _ (if_pos haccept)), fun hreject => hdecided.trans (congrArg _ (if_neg hreject))⟩
  case consume => exact fun _ _ _ _ => exec_packetConsume_of_room

end Sys2Proof.Machine
end

section
/-! PROOFS. A mover channel runs (R253, R260, R262 to R265): the next descriptor, the bursts of the engines, and the announcement of a block. -/

namespace Sys2Proof.Machine

section MoverRuns

variable {s : State} {k n : Nat} {d : Desc} {r : List Desc} {a len : Nat}

/-- Descriptor d of a channel is now its current one, with nothing of it moved, and r wait behind it (R253). -/
def State.takeDesc (s : State) (k n : Nat) (d : Desc) (r : List Desc) : State :=
  let u := s.modChan k n (fun x => { x with waiting := r, cur := some d, done := 0, errSeen := false }.rewind)
  setF (setF (setF u Reg.MOV_CH_STATUS_BLOCKS 0 k n) Reg.MOV_CH_STATUS_DERR 0 k n) Reg.MOV_CH_STATUS_ERR_SEEN 0 k n

/-- The next descriptor fails a check, moves nothing, is refused by the charter, or begins to move, in this order (R260, R261). -/
theorem State.startDesc_of_waiting (hwait : (s.chan k n).waiting = d :: r) :
    let u := s.takeDesc k n d r
    let v := u.setCursor k n d 0
    s.startDesc k n =
      if u.derr k d ≠ 0 then
        ((setF v Reg.MOV_CH_STATUS_DERR (u.derr k d) k n).logErr 4 (idMover k) (Reg.MOV_CH_STATUS_STATE.addr k n) (u.derr k d)).endDesc k n 2
      else if d.total = 0 then v.endDesc k n 1
      else if (v.descRefused k d).1 ≠ 0 then v.refuseDesc k n d (v.descRefused k d)
      else (v.setChanState k n 1).askHost k n := by
  intro u v
  have hstart : s.startDesc k n = match u.derr k d with
      | 0 => if d.total = 0 then v.endDesc k n 1
        else if (v.descRefused k d).1 ≠ 0 then v.refuseDesc k n d (v.descRefused k d) else (v.setChanState k n 1).askHost k n
      | e => ((setF v Reg.MOV_CH_STATUS_DERR e k n).logErr 4 (idMover k) (Reg.MOV_CH_STATUS_STATE.addr k n) e).endDesc k n 2 := by
    simp only [State.startDesc, hwait]
    rfl
  rw [hstart]
  cases u.derr k d <;> rfl

/-- An idle channel that nothing holds takes its next descriptor (R253). -/
theorem exec_descriptorStart_of_idle {k : Fin 9} {n : BitVec 6} (hidle : s.chanState k n.toNat = 0) (hfree : s.chanHeld k n.toNat = false) :
    exec (.descriptorStart k n) s = .next (s.startDesc k n.toNat) := by
  simp only [exec_descriptorStart, execDescriptorStart, hidle, hfree, ne_eq, not_true_eq_false, Bool.false_eq_true, or_self, if_false]

/-- A first block that is not yet written is not announced (R265). -/
theorem State.announceIf_of_open (hopen : s.blockHere k n d = false) : s.announceIf k n d = (s, false) := by
  simp only [State.announceIf, hopen, Bool.not_false, if_true]

/-- A written first block is announced, where no other device owes an acknowledgement of it (R264, R265). -/
theorem State.announceIf_of_here (hhere : s.blockHere k n d = true) (hnear : (s.chan k n).far = false) :
    s.announceIf k n d = (s.announce k n d, true) := by
  simp only [State.announceIf, hhere, hnear, Bool.not_true, Bool.false_eq_true, if_false]

/-- A block that the engines have written is announced: the last one ends the descriptor, and any other lets it go on (R265). -/
theorem exec_blockAnnounce_of_here {k : Fin 9} {n : BitVec 6} (hcur : (s.chan k n.toNat).cur = some d) :
    let u := State.engines k n.toNat d 16384 (s.farData k n.toNat)
    let v := u.announce k n.toNat d
    u.chanGoes k n.toNat = true → u.blockHere k n.toNat d = true → (u.chan k n.toNat).far = false →
    exec (.blockAnnounce k n) s = .next (if (v.chan k n.toNat).done = d.total then v.endDesc k n.toNat 1 else v.askHost k n.toNat) := by
  intro u v hgoes hhere hnear
  have hannounced := State.announceIf_of_here hhere hnear
  simp only [exec_blockAnnounce, execBlockAnnounce, hcur, u, v] at hgoes hannounced ⊢
  simp only [hgoes, hannounced, Bool.not_true, Bool.false_eq_true, if_false, if_true]

/-- HBM answers a read burst in the same step: with its bytes, or with a bus error (R256, R267). -/
theorem State.readBurst_hbm (hgood : s.accessBad k a len = false) (hspace : spaceOf a = 0) :
    let q := ((s.count (ctrChan k n) len).hbmTaken (idMover k) (a % 2 ^ 39)).hbmRead (a % 2 ^ 39) len
    s.readBurst k n d a len = if q.2.2 then q.1.chanBusError k n a else q.1.addBurst k n ⟨a, len, q.2.1, [], []⟩ := by
  simp only [State.readBurst, hgood, hspace, Bool.false_eq_true, if_false]

/-- A read burst of host memory leaves as requests of the link, and its bytes come later (R256, R383). -/
theorem State.readBurst_host (hgood : s.accessBad k a len = false) (hspace : spaceOf a = 3) :
    s.readBurst k n d a len = (hostBursts len a len).foldl (fun v b => v.emit .hostRead [n, b.1 % 2 ^ 57, b.2])
      ((s.count (ctrChan k n) len).addBurst k n ⟨a, len, [], [], []⟩) := by
  simp only [State.readBurst, hgood, hspace, Bool.false_eq_true, if_false]

/-- `m` bytes of a channel have been written out: counted, and gone from its buffer (R264, R422). -/
def State.wroteOut (s : State) (k n m : Nat) : State :=
  (s.count (ctrChan k n + 1) m).modChan k n (fun c =>
    { c with wr := c.wr + m, buf := (dropBytes c.buf (c.used + m)).1, used := (dropBytes c.buf (c.used + m)).2 })

/-- A write burst to HBM is a write of its bytes there (R256, R264). -/
theorem State.writeBurst_hbm {bs : List Byte} (hspace : spaceOf a = 0) :
    s.writeBurst k n d a bs = (s.hbmWrite (a % 2 ^ 39) bs).wroteOut k n bs.length := by
  simp only [State.writeBurst, hspace, State.wroteOut]

/-- A write burst to host memory leaves as a write on the link (R256, R264). -/
theorem State.writeBurst_host {bs : List Byte} (hspace : spaceOf a = 3) :
    s.writeBurst k n d a bs = ((s.cachePage a).emit .hostWrite [a % 2 ^ 57] bs).wroteOut k n bs.length := by
  simp only [State.writeBurst, hspace, State.wroteOut]

end MoverRuns

/-- Settles O33: each clause is the rule of one command, or of one burst of an engine. -/
theorem moverRunsComplete : Obligations.MoverRunsComplete := by
  unfold Obligations.MoverRunsComplete
  refine ⟨?start, ?announce, ?read, ?write⟩
  case start =>
    intro s k n d r hidle hfree hwait c u v w
    have hstart := (exec_descriptorStart_of_idle hidle hfree).trans (congrArg _ (State.startDesc_of_waiting hwait))
    refine ⟨fun hbad => ?rejected, fun hok hnone => ?empty, fun hok hsome => ?moves⟩
    case rejected => exact hstart.trans (congrArg _ (if_pos hbad))
    case empty => exact hstart.trans (congrArg _ ((if_neg (not_not_intro hok)).trans (if_pos hnone)))
    case moves => exact hstart.trans (congrArg _ ((if_neg (not_not_intro hok)).trans ((if_neg hsome).trans (ite_not ..))))
  case announce => exact fun _ _ _ _ => exec_blockAnnounce_of_here
  case read => exact fun _ _ _ _ _ _ hgood => ⟨State.readBurst_hbm hgood, State.readBurst_host hgood⟩
  case write => exact fun _ _ _ _ _ _ => ⟨State.writeBurst_hbm, State.writeBurst_host⟩

end Sys2Proof.Machine
end

section
/-! PROOFS. Errors of a mover channel (R267, R270, R383 to R386): a descriptor that is to stop, a page without translation, and the completions of the
host. -/

namespace Sys2Proof.Machine

section MoverErrors

variable {s : State} {k n st addr : Nat} {d : Desc}

/-- An active channel notes why it is to stop, and stops once it can (R267). -/
theorem State.stopDesc_of_active (hactive : s.chanState k n = 1) :
    s.stopDesc k n st addr = (s.modChan k n (fun c => { c with stop := c.stop.or (some (st, addr)) })).settleChan k n := by
  simp only [State.stopDesc, hactive, ne_eq, not_true_eq_false, if_false]

/-- A bus error of an active channel leaves ERR_SEEN and stops its descriptor with status 3 (R267). -/
theorem State.chanBusError_of_active (hactive : s.chanState k n = 1) :
    s.chanBusError k n addr = (s.modChan k n (fun c => { c with errSeen := true })).stopDesc k n 3 addr := if_pos (.inl hactive)

/-- A descriptor that is to stop, with no burst in flight and no block written that could still be announced, stops (R267, R270). -/
theorem State.settleChan_of_landed (hstop : (s.chan k n).stop = some (st, addr)) (hcur : (s.chan k n).cur = some d)
    (hlanded : s.inFlight k n = false) (hopen : s.blockHere k n d = false) :
    s.settleChan k n = if st = 4 then s.needPage k n d addr else s.failDesc k n st addr := by
  simp only [State.settleChan, hstop, hcur, hlanded, State.announceIf_of_open hopen, Bool.false_eq_true, if_false]

/-- A page without translation that an active channel needs takes back the reads of it, and stops the descriptor with status 4 (R270, R384). -/
theorem exec_translationFault_of_needed {n : BitVec 6} {addr : DWord} (hcur : (s.chan 8 n.toNat).cur = some d)
    (hactive : s.chanState 8 n.toNat = 1) (hrun : s.arrayFrozen = false) (hats : s.atsEn = true) :
    let a := 3 * 2 ^ 60 + addr.toNat % 2 ^ 57
    (s.chan 8 n.toNat).needs d (a % 2 ^ 57 / 4096) = true →
    exec (.translationFault ⟨n, addr⟩) s = .next
      ((s.modChan 8 n.toNat (fun x => { x with buf := x.buf.filter (fun b => !b.onPage (a % 2 ^ 57 / 4096)) })).stopDesc 8 n.toNat 4 a) := by
  intro a hneeds
  have hgo : ¬ (s.chanState 8 n.toNat ≠ 1 ∨ s.arrayFrozen = true ∨ ¬ s.atsEn = true
      ∨ ¬ (s.chan 8 n.toNat).needs d (a % 2 ^ 57 / 4096) = true) := by
    simp only [hactive, hrun, hats, hneeds, ne_eq, not_true_eq_false, Bool.false_eq_true, or_self, not_false_eq_true]
  simp only [exec_translationFault, execTranslationFault, hcur]
  exact congrArg _ (if_neg hgo)

/-- Page requests can be sent: they are enabled here and on the link, and no Response Failure has stopped them (R270, R386). -/
def State.asksPages (s : State) : Bool := flag s Reg.MOV_HOST_CFG_PRI_EN && s.priEn && !s.priStopped

theorem State.asksPages_iff : s.asksPages = true ↔ flag s Reg.MOV_HOST_CFG_PRI_EN = true ∧ s.priEn = true ∧ ¬ s.priStopped = true := by
  simp [State.asksPages, and_assoc]

/-- Where page requests can be sent, a page without translation sends one, and the channel waits from its cursor (R270). -/
theorem State.needPage_asks (hasks : s.asksPages = true) :
    s.needPage k n d addr =
      (((s.setCursor k n d (s.chan k n).done).modChan k n (fun c => { c.rewind with failAt := addr })).setChanState k n 4).emit .pageRequest
        [n, addr % 2 ^ 57 / 4096 * 4096] := if_pos (State.asksPages_iff.mp hasks)

/-- Where no page request can be sent, a page without translation fails the descriptor with status 4 (R270). -/
theorem State.needPage_fails (hasks : s.asksPages = false) : s.needPage k n d addr = s.failDesc k n 4 addr :=
  if_neg (fun h => Bool.eq_false_iff.mp hasks (State.asksPages_iff.mpr h))

/-- A response to a channel that waits for one and that nothing holds is acted on (R270). -/
theorem State.respond_of_waiting {code : Nat} (hwait : s.chanState 8 n = 4) (hfree : s.chanHeld 8 n = false) :
    s.respond n code = s.pageRespond 8 n code := by
  simp only [State.respond, hwait, hfree, ne_eq, not_true_eq_false, Bool.false_eq_true, if_false]

/-- A page response is acted on, and a Response Failure besides stops further page requests (R270, R386). -/
theorem exec_pageResponse_of_waiting {n : BitVec 6} {code : BitVec 4} (hwait : s.chanState 8 n.toNat = 4)
    (hfree : s.chanHeld 8 n.toNat = false) :
    exec (.pageResponse n code) s = .next ((if code = 15 then { s with priStopped := true } else s).pageRespond 8 n.toNat code.toNat) := by
  rw [exec_pageResponse, execPageResponse]
  split
  · exact congrArg _ (State.respond_of_waiting hwait hfree)
  · exact congrArg _ (State.respond_of_waiting hwait hfree)

variable {n : BitVec 6} {i : Nat} {b : Burst}

/-- A good completion brings bytes to the oldest read of the channel (R383). -/
theorem exec_hostCompletion_data {bytes : List Byte} (hwait : (s.chan 8 n.toNat).hostWait = some (i, b)) (hup : s.pcieUp = true) :
    exec (.hostCompletion n 0 bytes) s = .next (((s.cachePage (b.addr + b.raw.length)).modChan 8 n.toNat (fun x =>
      { x with buf := x.buf.modify i (fun b => { b with raw := b.raw ++ bytes.take (b.len - b.raw.length) }) })).settleChan 8 n.toNat) := by
  simp only [exec_hostCompletion, execHostCompletion, hwait, hup, Bool.not_true, Bool.false_eq_true, if_false, if_true]

/-- A completion with an error status loses the oldest read of the channel (R267, R383). -/
theorem exec_hostCompletion_error {status : BitVec 3} {bytes : List Byte} (hwait : (s.chan 8 n.toNat).hostWait = some (i, b))
    (hup : s.pcieUp = true) (herror : status ≠ 0) :
    exec (.hostCompletion n status bytes) s = .next ((s.hostLost n.toNat i b).settleChan 8 n.toNat) := by
  simp only [exec_hostCompletion, execHostCompletion, hwait, hup, herror, Bool.not_true, Bool.false_eq_true, if_false]

/-- A completion that does not come in time is an uncorrectable error, and loses the oldest read of the channel (R267, R383). -/
theorem exec_completionTimeout_of_waiting (hwait : (s.chan 8 n.toNat).hostWait = some (i, b)) :
    exec (.completionTimeout n) s = .next (((s.aerUncorr aerTimeout).hostLost n.toNat i b).settleChan 8 n.toNat) := by
  simp only [exec_completionTimeout, execCompletionTimeout, hwait]

end MoverErrors

/-- Settles O34: each clause is the rule of one event, or of the stop that it asks for. -/
theorem moverErrorsComplete : Obligations.MoverErrorsComplete := by
  unfold Obligations.MoverErrorsComplete
  refine ⟨?busError, ?stop, ?fault, ?page, ?response, ?completion⟩
  case busError => exact fun _ _ _ _ hactive => congrArg _ (State.chanBusError_of_active hactive)
  case stop =>
    intro s k n st addr d hactive v hcur hstop hlanded hopen
    exact (State.stopDesc_of_active hactive).trans (State.settleChan_of_landed hstop hcur hlanded hopen)
  case fault => exact fun _ _ _ _ => exec_translationFault_of_needed
  case page => exact fun _ _ _ _ _ => ⟨State.needPage_asks, State.needPage_fails⟩
  case response =>
    exact fun _ _ _ hwait hfree => ⟨exec_pageResponse_of_waiting hwait hfree, congrArg _ (State.respond_of_waiting hwait hfree)⟩
  case completion =>
    exact fun _ _ _ _ _ _ hwait => ⟨exec_hostCompletion_data hwait, exec_hostCompletion_error hwait, exec_completionTimeout_of_waiting hwait⟩

end Sys2Proof.Machine
end

section
/-! PROOFS. Control of a mover channel by the host (R269, R271, R274): the abort, the end of a hold, and the direct post. -/

namespace Sys2Proof.Machine

section MoverControl

variable {s : State} {k : Fin 9} {n : BitVec 6} {d : Desc}

/-- An abort of a channel that holds a descriptor begins: ABORT reads 1, and STATE 3 (R271). -/
theorem exec_channelAbort_of_busy (hmay : s.mayWrite Reg.MOV_CH_CTRL_ABORT k n.toNat = true)
    (hbusy : ((s.chan k n.toNat).cur.isSome || decide ((s.chan k n.toNat).waiting ≠ [])) = true) :
    exec (.channelAbort k n) s = .next ((setF s Reg.MOV_CH_CTRL_ABORT 1 k n.toNat).setChanState k n.toNat 3) := by
  have hgo : ¬ ((s.chan k n.toNat).cur.isNone = true ∧ (s.chan k n.toNat).waiting = []) := by
    rintro ⟨hnone, hempty⟩
    simp [Option.isNone_iff_eq_none.mp hnone, hempty] at hbusy
  rw [exec_channelAbort, execChannelAbort, State.hostWrite_ok hmay]
  exact congrArg _ (if_neg hgo)

/-- What an abort does last, once the current descriptor has ended: the waiting descriptors end aborted, ABORT reads 0, and the channel is idle
or stays charter-frozen (R271, R273); x is the channel as the abort finds it. -/
def State.leaveAbort (s : State) (k n : Nat) (x : Chan) : State :=
  let u := setF s Reg.MOV_CH_STATUS_ERR_SEEN (bit x.errSeen) k n
  let u := (u.abortWaiting k n).modChan k n (fun c => { c with errSeen := false })
  (setF u Reg.MOV_CH_CTRL_ABORT 0 k n).setChanState k n (if x.charter then 6 else 0)

/-- An abort with no burst in flight ends the current descriptor with status 5, from the cursor of its first block, which is not written (R271). -/
theorem State.finishAbort_of_current {k n : Nat} (haborting : s.chanState k n = 3) (hlanded : s.inFlight k n = false)
    (hcur : (s.chan k n).cur = some d) (hopen : s.blockHere k n d = false) :
    s.finishAbort k n = ((s.setCursor k n d (s.chan k n).done).endDesc k n 5).leaveAbort k n (s.chan k n) := by
  simp only [State.finishAbort, haborting, hlanded, hcur, State.announceIf_of_open hopen, ne_eq, not_true_eq_false, Bool.false_eq_true,
    or_self, if_false, State.leaveAbort]

/-- An abort with no current descriptor raises the channel's error vector (R271). -/
theorem State.finishAbort_of_none {k n : Nat} (haborting : s.chanState k n = 3) (hlanded : s.inFlight k n = false)
    (hcur : (s.chan k n).cur = none) : s.finishAbort k n = (s.chanErr k n).leaveAbort k n (s.chan k n) := by
  simp only [State.finishAbort, haborting, hlanded, hcur, ne_eq, not_true_eq_false, Bool.false_eq_true, or_self, if_false, State.leaveAbort]

/-- An abort completes while no device freeze stops its cluster (R271, R436). -/
theorem exec_abortComplete_of_running (hrun : s.arrayFrozen = false) : exec (.abortComplete k n) s = .next (s.finishAbort k n.toNat) := by
  simp only [exec_abortComplete, execAbortComplete, hrun, Bool.false_eq_true, if_false]

/-- RETRY with SKIP in the same write is discarded and recorded (R273). -/
theorem exec_channelRetry_both (hmay : s.mayWrite Reg.MOV_CH_CTRL_RETRY k n.toNat = true) :
    exec (.channelRetry k n true) s = .next (s.discard (Reg.MOV_CH_CTRL_RETRY.addr k n.toNat) 6) := by
  simp only [exec_channelRetry, execChannelRetry, State.hostWrite_ok hmay, if_true]

/-- A halted channel that nothing holds besides resumes its descriptor from the cursor (R269). -/
theorem exec_channelRetry_of_halted (hmay : s.mayWrite Reg.MOV_CH_CTRL_RETRY k n.toNat = true) (hhalted : s.chanState k n.toNat = 2)
    (hfree : s.chanHeld k n.toNat = false) :
    exec (.channelRetry k n false) s = .next
      (((s.modChan k n.toNat (fun x => { x with held := 0 })).setChanState k n.toNat 1).askHost k n.toNat) := by
  simp only [exec_channelRetry, execChannelRetry, State.hostWrite_ok hmay, hhalted, hfree, Bool.false_eq_true, not_false_eq_true, and_self,
    if_false, if_true]

/-- A halted channel that nothing holds besides ends its descriptor with the recorded status (R269). -/
theorem exec_channelSkip_of_halted (hmay : s.mayWrite Reg.MOV_CH_CTRL_SKIP k n.toNat = true) (hhalted : s.chanState k n.toNat = 2)
    (hfree : s.chanHeld k n.toNat = false) :
    exec (.channelSkip k n) s = .next (s.endDesc k n.toNat (s.chan k n.toNat).held) := by
  simp only [exec_channelSkip, execChannelSkip, State.hostWrite_ok hmay, hhalted, hfree, Bool.false_eq_true, not_false_eq_true, and_self, if_true]

/-- The write of word 15 to a direct, unbound channel that has room queues a descriptor of the words held (R274). -/
theorem exec_directPost_of_taken {v : Word} (hmay : s.mayWrite Reg.MOV_CH_POST_DESC k (16 * n.toNat + 15) = true)
    (hdirect : flag s Reg.MOV_CH_CFG_DIRECT k n.toNat = true) (hunbound : flag s Reg.MOV_CH_CFG_BOUND k n.toNat = false)
    (hroom : (s.chan k n.toNat).waiting.length < 16) :
    exec (.directPost k n v) s = .next (s.modChan k n.toNat (fun x =>
      let post := SMap.set 0 x.post 15 v.toNat
      { x with post := post, waiting := x.waiting ++ [⟨(List.range 16).flatMap (fun i => leBytes 4 (SMap.get 0 post i)), 0, 0, 0, none⟩] })) := by
  have htaken : s.postTaken k n.toNat = true := by simp only [State.postTaken, hdirect, hunbound, Bool.not_false, Bool.and_self]
  have hgo : ¬ (¬ s.postTaken k n.toNat = true ∨ 16 ≤ (s.chan k n.toNat).waiting.length) := by simp [htaken, hroom]
  rw [exec_directPost, execDirectPost, State.hostWrite_ok hmay]
  exact congrArg _ (if_neg hgo)

end MoverControl

/-- Settles O35: each clause is the rule of one command. -/
theorem moverControlCompletes : Obligations.MoverControlCompletes := by
  unfold Obligations.MoverControlCompletes
  intro s k n c
  refine ⟨?abort, ?aborted, ?abortedIdle, ?both, ?retry, ?skip, ?post⟩
  case abort => exact exec_channelAbort_of_busy
  case aborted =>
    intro d hrun haborting hlanded hcur hopen
    exact (exec_abortComplete_of_running hrun).trans (congrArg _ (State.finishAbort_of_current haborting hlanded hcur hopen))
  case abortedIdle =>
    intro hrun haborting hlanded hcur
    exact (exec_abortComplete_of_running hrun).trans (congrArg _ (State.finishAbort_of_none haborting hlanded hcur))
  case both => exact exec_channelRetry_both
  case retry => exact exec_channelRetry_of_halted
  case skip => exact exec_channelSkip_of_halted
  case post => exact fun _ => exec_directPost_of_taken

end Sys2Proof.Machine
end

section
/-! PROOFS. Requests to HBM (R276 to R278, R281 to R284, R287, R288): what a controller takes, what leaves it, and what changes nothing. -/

namespace Sys2Proof.Machine

section HbmRequests

variable {s : State}

/-! ### Room at a controller (R277) -/

theorem State.hbmFull_of_room {c : Nat} (hserves : s.hbmWaits c = false) (hroom : (s.trk c).length < 64) : s.hbmFull c = false := by
  simp [State.hbmFull, hserves, hroom]

theorem State.hbmFull_of_held {c : Nat} (h : s.hbmWaits c = true ∨ 64 ≤ (s.trk c).length) : s.hbmFull c = true := by
  simpa [State.hbmFull] using h

/-! ### A granted request within the capacity (R277, R278, R281) -/

/-- The address of the 64 bytes that a request is for (R277). -/
def hbmLine (r : HbmReq) : Nat := r.addr.toNat / 64 * 64

section Accept

variable {r : HbmReq} (hrun : s.hbmRuns = true) (hgrant : s.hbmGranted r.master.toNat r.write (hbmLine r) (hbmLine r + 63) = true)
  (hserved : s.hbmRefused r.master.toNat (hbmLine r) (hbmLine r + 63) = false)

include hrun hgrant hserved

/-- A controller with room takes a read with what stands at its place (R278). -/
theorem exec_hbmRequestAccept_read (hroom : s.hbmFull (sectCtl (s.hbmPlace (hbmLine r)).1) = false) (hread : r.write = false) :
    let i := r.master.toNat
    let a := hbmLine r
    let g := (s.hbmPlace a).1
    let q := (s.hbmTaken i a).hbmRequest a 0
    exec (.hbmRequestAccept r) s =
      .next (q.1.setTrk (sectCtl g) (q.1.trk (sectCtl g) ++ [⟨i, false, a, g, q.1.hbmBytes a 64, false, q.2⟩])) := by
  rw [hread] at hgrant
  simp only [hbmLine] at hgrant hserved hroom ⊢
  simp only [exec_hbmRequestAccept, execHbmRequestAccept, hrun, hgrant, hserved, hroom, hread, not_true_eq_false, Bool.not_true, Bool.false_eq_true,
    if_false]

/-- A controller with room takes a write with its bytes stored (R278). -/
theorem exec_hbmRequestAccept_write (hroom : s.hbmFull (sectCtl (s.hbmPlace (hbmLine r)).1) = false) (hwrite : r.write = true) :
    let a := hbmLine r
    let g := (s.hbmPlace a).1
    let u := (s.hbmRequest a 1).1.hbmStore a (r.data.take 64)
    exec (.hbmRequestAccept r) s = .next (u.setTrk (sectCtl g) (u.trk (sectCtl g) ++ [⟨r.master.toNat, true, a, g, [], false, false⟩])) := by
  rw [hwrite] at hgrant
  simp only [hbmLine] at hgrant hserved hroom ⊢
  simp only [exec_hbmRequestAccept, execHbmRequestAccept, hrun, hgrant, hserved, hroom, hwrite, not_true_eq_false, Bool.not_true, Bool.false_eq_true,
    if_false, if_true]

/-- A full controller, or one whose requests wait, takes nothing (R277, R283). -/
theorem exec_hbmRequestAccept_held (hfull : s.hbmFull (sectCtl (s.hbmPlace (hbmLine r)).1) = true) :
    exec (.hbmRequestAccept r) s = .next (if r.write then s else s.hbmLate r.master.toNat (hbmLine r) 64) := by
  simp only [hbmLine] at hgrant hserved hfull ⊢
  simp only [exec_hbmRequestAccept, execHbmRequestAccept, hrun, hgrant, hserved, hfull, not_true_eq_false, Bool.not_true, Bool.false_eq_true,
    if_false, if_true]

end Accept

/-- A command that meets no parity error goes out and does nothing else (R288). -/
theorem State.hbmIssue_of_noError {c : Nat} (h : SMap.get 0 s.hbm.caErr c = 0) : s.hbmIssue c = (s, false) := by
  simp only [State.hbmIssue, h]

/-- A request is counted at the controller of its place (R422), and its command does nothing else where it meets no parity error. -/
theorem State.hbmRequest_of_noError {a k : Nat} (h : SMap.get 0 s.hbm.caErr (sectCtl (s.hbmPlace a).1) = 0) :
    s.hbmRequest a k = (s.count (ctrHbm (sectCtl (s.hbmPlace a).1) + k), false) :=
  State.hbmIssue_of_noError h

/-! ### Accepted requests end (R278, R287, R288) -/

theorem State.hbmWords_of_noError {a n : Nat} (h : s.hbm.err = []) : s.hbmWords a n = (s, false) := if_pos h

/-- What the ECC of its stack found in a read of section g, of which the data have left controller c: nothing, a word corrected, an uncorrectable
word whose replay was clean, or one that stays so (R287, R288). -/
def State.eccFound (s : State) (c g : Nat) : Nat → State
  | 0 => s
  | 1 => s.bumpChF Reg.HBM_CH_ERR_CORR c
  | 2 => { s.hbmUncorr c with hbm := { (s.hbmUncorr c).hbm with events := SMap.mod 0 (s.hbmUncorr c).hbm.events g (· + 1) } }
  | _ => (s.hbmUncorr c).sectDue [g]

/-- A read's data leave; what the ECC of its stack found is done after that (R287, R288). -/
theorem exec_hbmReadData_of_read {c : Byte} {n : BitVec 6} {e : Trk} (ecc : BitVec 2) (hentry : (s.trk c.toNat)[n.toNat]? = some e)
    (hread : e.write = false) (hrun : s.hbmRuns = true) :
    let q := (s.setTrk c.toNat ((s.trk c.toNat).eraseIdx n.toNat)).hbmWords e.addr 64
    let u := q.1.hbmAnswer { e with data := if s.hbm.err = [] then e.data else q.1.hbmBytes e.addr 64 } (ecc = 3 || q.2 || e.bad)
    exec (.hbmReadData c n ecc) s = .next (u.eccFound c.toNat e.sect ecc.toNat) := by
  simp only [exec_hbmReadData, execHbmReadData, hentry, hread, hrun, Bool.false_eq_true, not_true_eq_false, or_self, if_false]
  rfl

/-- A committed write frees its entry (R278). -/
theorem exec_hbmWriteCommit_of_write {c : Byte} {n : BitVec 6} {e : Trk} (hentry : (s.trk c.toNat)[n.toNat]? = some e)
    (hwrite : e.write = true) (hrun : s.hbmRuns = true) :
    exec (.hbmWriteCommit c n) s = .next (s.setTrk c.toNat ((s.trk c.toNat).eraseIdx n.toNat)) := by
  simp only [exec_hbmWriteCommit, execHbmWriteCommit, hentry, hwrite, hrun, Bool.not_true, Bool.or_self, Bool.false_eq_true, if_false]

/-- The host enables the map (R281). -/
theorem exec_mapEnable_of_mayWrite {en : Bool} (hmay : s.mayWrite Reg.HBM_MAP_CTRL_EN 0 0 = true) :
    exec (.mapEnable en) s = .next (setF s Reg.HBM_MAP_CTRL_EN (bit en)) := by
  rw [exec_mapEnable, execMapEnable, State.hostWrite_ok hmay]

end HbmRequests

/-- Settles O38: each clause is the rule of one command, or of the command that a request sends to its stack. -/
theorem hbmRequestsComplete : Obligations.HbmRequestsComplete := by
  unfold Obligations.HbmRequestsComplete
  refine ⟨?accept, ?issue, ?data, ?commit, ?refresh, ?enable⟩
  case accept =>
    intro s r hrun i a g c hgrant hserved
    refine ⟨fun hserves hroom => ⟨?read, ?write⟩, fun hheld => ?held⟩
    case read => exact exec_hbmRequestAccept_read hrun hgrant hserved (State.hbmFull_of_room hserves hroom)
    case write => exact exec_hbmRequestAccept_write hrun hgrant hserved (State.hbmFull_of_room hserves hroom)
    case held => exact exec_hbmRequestAccept_held hrun hgrant hserved (State.hbmFull_of_held hheld)
  case issue => exact fun _ _ _ hnone => State.hbmRequest_of_noError hnone
  case data =>
    intro s c n e hentry hread hrun t q u v
    refine ⟨fun hnone => State.hbmWords_of_noError hnone, ?clean, ?corrected, ?replayed, ?again⟩
    case clean => exact exec_hbmReadData_of_read 0 hentry hread hrun
    case corrected => exact exec_hbmReadData_of_read 1 hentry hread hrun
    case replayed => exact exec_hbmReadData_of_read 2 hentry hread hrun
    case again => exact exec_hbmReadData_of_read 3 hentry hread hrun
  case commit => exact fun _ _ _ _ hentry hwrite hrun => exec_hbmWriteCommit_of_write hentry hwrite hrun
  case refresh => exact exec_hbmRefresh
  case enable => exact fun _ _ hmay => exec_mapEnable_of_mayWrite hmay

end Sys2Proof.Machine
end

section
/-! PROOFS. A write of 64 bytes to HBM (R278, R279, R281, R291): the place of each byte, what a store leaves of the bytes at other places, and the
registers that an accepted write leaves alone. -/

namespace Sys2Proof.Machine

/-! ### A store of bytes -/

theorem storeOpt_get_out {m : SMap (Option Byte)} {k q : Nat} {l : List Byte} (h : q < k ∨ k + l.length ≤ q) :
    SMap.get none (storeOpt m k l) q = SMap.get none m q := by
  induction l generalizing m k with
  | nil => rfl
  | cons b r ih =>
    rw [List.length_cons] at h
    rw [storeOpt, ih (by omega), SMap.get_set_ne _ _ _ _ _ (by omega)]

theorem storeOpt_get_in {m : SMap (Option Byte)} {k i : Nat} {l : List Byte} (hm : SMap.rising none m = true) (h : i < l.length) :
    SMap.get none (storeOpt m k l) (k + i) = some l[i] := by
  induction l generalizing m k i with
  | nil => simp at h
  | cons b r ih =>
    cases i with
    | zero => rw [storeOpt, storeOpt_get_out (by omega)]; exact SMap.get_set_self none m k (some b) hm
    | succ i =>
      have hrest := ih (k := k + 1) (SMap.rising_set none m k (some b) hm) (Nat.lt_of_succ_lt_succ h)
      rwa [Nat.add_right_comm] at hrest

section HbmPlaces

variable {s : State} {a b : Nat}

/-! ### The place of a byte (R279, R291) -/

theorem State.hbmSlot_of_page (h : b / 4096 = a / 4096) : s.hbmSlot b = s.hbmSlot a := by
  have hslot : bits b 22 12 = bits a 22 12 := by simp only [bits]; omega
  have hq : bits b 38 23 = bits a 38 23 := by simp only [bits]; omega
  simp only [State.hbmSlot, hslot, hq]

/-- The bytes of a page stand in one section and row. -/
theorem State.hbmPlace_of_page (h : b / 4096 = a / 4096) : s.hbmPlace b = s.hbmPlace a := by
  have hq : bits b 38 23 = bits a 38 23 := by simp only [bits]; omega
  simp only [State.hbmPlace, State.hbmSlot_of_page h, hq]

/-- The bytes of 64 that are read or written together stand one after the other. -/
theorem State.hbmKey_add {k : Nat} (ha : a % 64 = 0) (hk : k < 64) : s.hbmKey (a + k) = s.hbmKey a + k := by
  have hpage : (a + k) / 4096 = a / 4096 := by omega
  have hoff : (a + k) % 4096 = a % 4096 + k := by omega
  rw [State.hbmKey, State.hbmKey, State.hbmPlace_of_page hpage, hoff, Nat.add_assoc]

theorem foldl_bits_lt (p : Nat → Bool) (k : Nat) : (List.range k).foldl (fun n b => n + bit (p b) * 2 ^ b) 0 < 2 ^ k := by
  induction k with
  | zero => exact Nat.one_pos
  | succ k ih =>
    rw [List.range_succ, List.foldl_append, List.foldl_cons, List.foldl_nil, Nat.pow_succ]
    have hbit : bit (p k) * 2 ^ k ≤ 2 ^ k := by cases p k <;> simp [bit]
    omega

/-- A slot is a number of 11 bits (R279). -/
theorem State.hbmSlot_lt : s.hbmSlot a < 2048 :=
  Nat.xor_lt_two_pow (n := 11) (Nat.mod_lt _ (by decide)) (foldl_bits_lt _ 11)

/-! ### The registers of the map stand below those of the controllers -/

theorem getF_setF_of_addr_lt {f g : Fld} {v i j k n : Nat} (hg : g.lo < 32) (h : g.addr k n < f.addr i j) :
    getF (setF s f v i j) g k n = getF s g k n :=
  getF_setF_ne s f g v i j k n (by unfold Fld.key; omega)

section AboveMap

variable {f : Fld} {v i j : Nat} (hf : 0x500200 ≤ f.addr i j)

include hf

theorem State.hbmT_setF : (setF s f v i j).hbmT = s.hbmT :=
  getF_setF_of_addr_lt (by decide) (Nat.lt_of_lt_of_le (by decide) hf)

theorem State.sectRetired_setF {g : Nat} (hg : g < 2048) : (setF s f v i j).sectRetired g = s.sectRetired g := by
  have haddr : Reg.HBM_RETIRED_SECT.addr (g / 32) 0 < f.addr i j := by simp only [Reg.HBM_RETIRED_SECT, Fld.addr] at hf ⊢; omega
  simp only [State.sectRetired, fbit, getF_setF_of_addr_lt (g := Reg.HBM_RETIRED_SECT) (by decide) haddr]

theorem State.hbmSlot_setF : (setF s f v i j).hbmSlot a = s.hbmSlot a := by
  unfold State.hbmSlot
  refine congrArg _ (List.foldl_rel (r := Eq) rfl fun b hb n m hn => ?_)
  have haddr : Reg.HBM_HASH_SLOT_MASK.addr b 0 < f.addr i j := by
    have hlt := List.mem_range.mp hb
    simp only [Reg.HBM_HASH_SLOT_MASK, Fld.addr] at hf ⊢
    omega
  rw [hn, getF_setF_of_addr_lt (by decide) haddr]

/-- A register that is none of the map's leaves every place. -/
theorem State.hbmPlace_setF : (setF s f v i j).hbmPlace a = s.hbmPlace a := by
  have hretired : (setF s f v i j).retiredSects = s.retiredSects :=
    List.filter_congr fun g hg => State.sectRetired_setF hf (List.mem_range.mp hg)
  have hlive : (setF s f v i j).liveSects = s.liveSects :=
    List.filter_congr fun g hg => congrArg not (State.sectRetired_setF hf (List.mem_range.mp hg))
  simp only [State.hbmPlace, State.hbmSlot_setF hf, State.hbmT_setF hf, State.sectRetired_setF hf State.hbmSlot_lt, hretired, hlive]

end AboveMap

/-- The tracker's field OUT is none of the map's, and its entries are no bytes. -/
theorem State.hbmByte_setTrk (c : Nat) (l : List Trk) : (s.setTrk c l).hbmByte a = s.hbmByte a := by
  have habove : 0x500200 ≤ Reg.HBM_CH_STATUS_OUT.addr (c / 32) (c % 32) := by simp only [Reg.HBM_CH_STATUS_OUT, Fld.addr]; omega
  have hkey : (s.setTrk c l).hbmKey a = s.hbmKey a := by
    unfold State.hbmKey
    rw [State.setTrk, State.hbmPlace_setF habove]
    rfl
  rw [State.hbmByte, State.hbmByte, hkey]
  rfl

/-! ### The bytes after a write of 64 -/

theorem State.memWf_mem (h : s.memWf = true) : SMap.rising none s.hbm.mem = true := by
  simp only [State.memWf, SMap.wf, Bool.and_eq_true] at h
  exact h.1.2.1

theorem hbmParts_line (ha : a % 64 = 0) : hbmParts a 64 = [(a, 64)] := by
  have hone : List.range ((a % 64 + 64 + 63) / 64) = [0] := by rw [ha]; rfl
  have hlo : max a ((a / 64 + 0) * 64) = a := by omega
  have hlen : min (a + 64) ((a / 64 + 0 + 1) * 64) - a = 64 := by omega
  simp only [hbmParts, hone, List.map_cons, List.map_nil, hlo, hlen]

/-- 64 bytes stored where no word is in error. -/
theorem State.hbmStore_line {l : List Byte} (ha : a % 64 = 0) (hl : l.length = 64) (hnone : s.hbm.err = []) :
    s.hbmStore a l = { s with hbm := { s.hbm with mem := storeOpt s.hbm.mem (s.hbmKey a) l } } := by
  have hall : (l.drop (a - a)).take 64 = l := by rw [Nat.sub_self, List.drop_zero, ← hl, List.take_length]
  simp only [State.hbmStore, hl, hbmParts_line ha, List.foldl_cons, List.foldl_nil, hall]
  exact if_pos hnone

theorem State.hbmByte_hbmStore_in {l : List Byte} {k : Nat} (hwf : s.memWf = true) (ha : a % 64 = 0) (hl : l.length = 64) (hnone : s.hbm.err = [])
    (hk : k < 64) : (s.hbmStore a l).hbmByte (a + k) = l.getD k 0 := by
  have hlt : k < l.length := by omega
  have hkey : (s.hbmStore a l).hbmKey (a + k) = s.hbmKey a + k := by
    rw [State.hbmStore_line ha hl hnone]
    exact State.hbmKey_add ha hk
  have hstored : SMap.get none (s.hbmStore a l).hbm.mem (s.hbmKey a + k) = some l[k] := by
    rw [State.hbmStore_line ha hl hnone]
    exact storeOpt_get_in (State.memWf_mem hwf) hlt
  rw [State.hbmByte, hkey, hstored, Option.getD_some, List.getD_eq_getElem?_getD, List.getElem?_eq_getElem hlt, Option.getD_some]

theorem State.hbmByte_hbmStore_out {l : List Byte} (ha : a % 64 = 0) (hl : l.length = 64) (hnone : s.hbm.err = [])
    (hb : ∀ k, k < 64 → s.hbmKey b ≠ s.hbmKey a + k) : (s.hbmStore a l).hbmByte b = s.hbmByte b := by
  have hout : s.hbmKey b < s.hbmKey a ∨ s.hbmKey a + l.length ≤ s.hbmKey b := by
    have hne := hb (s.hbmKey b - s.hbmKey a)
    omega
  rw [State.hbmStore_line ha hl hnone]
  exact congrArg (fun x => Option.getD x _) (storeOpt_get_out hout)

end HbmPlaces

/-- Settles O7: the state that an accepted write leaves is the store of its bytes under the tracker and the counter of its controller. -/
theorem hbmWriteFrame : Obligations.HbmWriteFrame := by
  unfold Obligations.HbmWriteFrame
  intro s r i a c hwf hrun hwrite hlen hgrant hserved hserves hroom hnone hparity
  have ha : a % 64 = 0 := Nat.mul_mod_left _ _
  let e : Trk := ⟨i, true, a, (s.hbmPlace a).1, [], false, false⟩
  let t := s.count (ctrHbm c + 1)
  let w := t.hbmStore a r.data
  have hstore : (s.hbmRequest a 1).1.hbmStore a (r.data.take 64) = w := by
    rw [List.take_of_length_le (Nat.le_of_eq hlen), State.hbmRequest_of_noError hparity]
  have hexec : exec (.hbmRequestAccept r) s = .next (w.setTrk c (w.trk c ++ [e])) := by
    rw [← hstore]
    exact exec_hbmRequestAccept_write hrun (hwrite ▸ hgrant) hserved (State.hbmFull_of_room hserves hroom) hwrite
  have hline : w = { t with hbm := { t.hbm with mem := storeOpt t.hbm.mem (t.hbmKey a) r.data } } := State.hbmStore_line ha hlen hnone
  refine ⟨_, hexec, ?stored, ?kept, ?rest, ?counters, ?registers⟩
  case stored =>
    intro k hk
    rw [State.hbmByte_setTrk, State.hbmByte_hbmStore_in (State.memWf_count hwf _ _) ha hlen hnone hk]
  case kept =>
    intro b hb
    exact (State.hbmByte_setTrk _ _).trans (State.hbmByte_hbmStore_out (s := t) ha hlen hnone hb)
  case rest => rw [hline]; rfl
  case counters =>
    intro n hn
    rw [hline]
    exact SMap.get_set_ne 0 s.ctrs _ n _ hn
  case registers =>
    intro f n k hf
    rw [hline]
    exact getF_setF_ne _ Reg.HBM_CH_STATUS_OUT f _ _ _ n k hf

end Sys2Proof.Machine
end

section
/-! PROOFS. Retirement of HBM sections (R289 to R292): the event limit, the refusal of what is due, and the end of a rebuild. -/

namespace Sys2Proof.Machine

section HbmRetirement

variable {s : State}

/-- The named sections of a channel that are over the event limit become due, where the channel's own events are not (R289). -/
theorem exec_hbmEventLimitExceeded_of_sections {c : Byte} {m : Nat} (hwindow : getF s Reg.HBM_CH_LIMIT_WINDOW ≠ 0) (hrun : s.hbmRuns = true)
    (hchannel : ¬ (bitAt m 8 = true ∧ getF s Reg.HBM_CH_LIMIT_COUNT < SMap.get 0 s.hbm.parity c.toNat)) :
    exec (.hbmEventLimitExceeded c m) s = .next (s.sectDue (((List.range 8).filter (bitAt m)).filterMap (fun k =>
      ((ctlSects c.toNat)[k]?).filter (fun g => decide (getF s Reg.HBM_CH_LIMIT_COUNT < SMap.get 0 s.hbm.events g))))) := by
  have hgo : ¬ (getF s Reg.HBM_CH_LIMIT_WINDOW = 0 ∨ ¬ s.hbmRuns = true) := by simp [hwindow, hrun]
  exact congrArg _ ((if_neg hgo).trans (if_neg hchannel))

/-- The lowest section that is due, or its whole channel where all of that is due (R290). -/
def State.nextRetired (s : State) : List Nat :=
  let g := s.hbm.due.foldl min (s.hbm.due.headD 0)
  if (ctlSects (sectCtl g)).all s.hbm.due.contains then ctlSects (sectCtl g) else [g]

section Retirement

variable (hrun : s.hbmRuns = true) (hidle : s.hbm.retiring = []) (hdue : s.hbm.due ≠ [])

include hrun hidle hdue

/-- A retirement that keeps within 512 sections begins: what is due is refused, a retraining of its channel is abandoned, and accepted reads are
LATE (R283, R290, R293, R348). -/
theorem exec_sectionRetirement_of_room (hroom : s.retiredSects.length + s.nextRetired.length ≤ 512) :
    let l := s.nextRetired
    let u := if s.hbm.retraining.any (fun r => l.any (fun h => sectCtl h = r.1)) then s.abandonRetrain else s
    let v := setF { u with hbm := { u.hbm with retiring := l, due := u.hbm.due.filter (fun h => !l.contains h) } } Reg.HBM_MAP_CTRL_BUSY 1
    exec .sectionRetirement s = .next ((v.hbm.trk.foldl (fun (x : State) e => x.trkLate e.1) v).refuseWrites l) := by
  have hgo : ¬ (¬ s.hbmRuns = true ∨ s.hbm.retiring ≠ [] ∨ s.hbm.due = []) := by simp [hrun, hidle, hdue]
  have hfits : ¬ s.tooMany s.nextRetired = true := by simpa [State.tooMany] using hroom
  exact congrArg _ ((if_neg hgo).trans (if_neg hfits))

/-- A retirement that would exceed 512 sections takes HBM out of service (R292). -/
theorem exec_sectionRetirement_of_tooMany (hmany : 512 < s.retiredSects.length + s.nextRetired.length) :
    exec .sectionRetirement s = .next s.hbmOut := by
  have hgo : ¬ (¬ s.hbmRuns = true ∨ s.hbm.retiring ≠ [] ∨ s.hbm.due = []) := by simp [hrun, hidle, hdue]
  have hover : s.tooMany s.nextRetired = true := decide_eq_true hmany
  exact congrArg _ ((if_neg hgo).trans (if_pos hover))

end Retirement

/-- A rebuild ends with the new map, a record for each section and vector 26 (R290, R292). -/
theorem exec_mapRebuildComplete_of_retiring (hbusy : s.hbm.retiring ≠ []) (hrun : s.hbmRuns = true) :
    let u := ({ s with hbm := { s.hbm with retiring := [] } } : State).rebuildMap s.hbm.retiring
    exec .mapRebuildComplete s = .next ((s.hbm.retiring.foldl (fun v g =>
      v.report 6 (unitNo blkHBM g) (leBytes 2 g ++ leBytes 2 v.hbmT)) (setF u Reg.HBM_MAP_CTRL_BUSY 0)).raise 26) := by
  have hgo : ¬ (s.hbm.retiring = [] ∨ ¬ s.hbmRuns = true) := by simp [hbusy, hrun]
  exact congrArg _ (if_neg hgo)

end HbmRetirement

/-- Settles O39: each clause is the rule of one command. -/
theorem hbmRetirementCompletes : Obligations.HbmRetirementCompletes := by
  unfold Obligations.HbmRetirementCompletes
  refine ⟨?limit, ?retire, ?rebuild⟩
  case limit => exact fun _ _ _ hwindow hrun hchannel => exec_hbmEventLimitExceeded_of_sections hwindow hrun hchannel
  case retire =>
    intro s hrun hidle hdue
    exact ⟨exec_sectionRetirement_of_room hrun hidle hdue, exec_sectionRetirement_of_tooMany hrun hidle hdue⟩
  case rebuild => exact fun _ hbusy hrun => exec_mapRebuildComplete_of_retiring hbusy hrun

end Sys2Proof.Machine
end

section
/-! PROOFS. Training of HBM (R286, R295): the background retraining, and a channel under expert control. -/

namespace Sys2Proof.Machine

section HbmTraining

variable {s : State} {k : BitVec 3}

/-- Where no retirement and no other retraining is in progress, the next channel in turn is retrained, if it is in service (R286). -/
theorem exec_backgroundRetrain_of_serving (hprofile : s.availability = true) (hfirmware : s.firmware = true) (hrun : s.hbmRuns = true)
    (hnoRetirement : s.hbm.retiring = []) (hnoRetraining : s.hbm.retraining = none) :
    let c := 32 * (s.hbm.nextRetrain % 8) + s.hbm.nextRetrain / 8
    let u : State := { s with hbm := { s.hbm with nextRetrain := (s.hbm.nextRetrain + 1) % 256 } }
    (s.chF Reg.HBM_CH_STATUS_STATE c = 1 ∨ s.chF Reg.HBM_CH_STATUS_STATE c = 4) → exec .backgroundRetrain s = .next (u.retrain c false) := by
  intro c u hserving
  have hgo : ¬ (!s.availability || !s.firmware || !s.hbmRuns || decide (s.hbm.retiring ≠ []) || s.hbm.retraining.isSome) = true := by
    simp [hprofile, hfirmware, hrun, hnoRetirement, hnoRetraining]
  exact congrArg _ ((if_neg hgo).trans (if_pos hserving))

/-- Control of a channel that nobody controls begins once its accepted requests are complete (R295). -/
theorem exec_trainingOwn_of_free {v : Word} (hmay : s.mayWrite Reg.HBM_TRN_CTRL_OWN k.toNat 0 = true)
    (hfree : flag s Reg.HBM_TRN_CTRL_OWN k.toNat = false) (hown : bitAt v.toNat 6 = true) (hrate : bits v.toNat 11 10 ≠ 0) :
    let u := setF (setF s Reg.HBM_TRN_CTRL_CH (bits v.toNat 4 0) k.toNat) Reg.HBM_TRN_CTRL_PC (bits v.toNat 5 5) k.toNat
    let u := setF (setF u Reg.HBM_TRN_CTRL_OP (bits v.toNat 8 7) k.toNat) Reg.HBM_TRN_CTRL_RATE (bits v.toNat 11 10) k.toNat
    exec (.trainingOwn k v) s =
      .next (setF ((u.drainCtl (u.trnChan k.toNat)).setChF Reg.HBM_CH_STATUS_STATE (u.trnChan k.toNat) 5) Reg.HBM_TRN_CTRL_OWN 1 k.toNat) := by
  have hdisown : s.disown k.toNat = s := if_neg (by simp [hfree])
  rw [exec_trainingOwn, execTrainingOwn, State.hostWrite_ok hmay]
  simp only [hfree, hown, hdisown, if_neg hrate, Bool.and_false, Bool.false_and, Bool.false_eq_true, not_false_eq_true, and_self, if_true, if_false]

/-- What a run writes as it starts, before OP 0 loses the rows it uses (R295). -/
def State.trnRunning (s : State) (k op : Nat) : State :=
  let u := setF (setF (setF s Reg.HBM_TRN_CTRL_OP op k) Reg.HBM_TRN_CTRL_GO 1 k) Reg.HBM_TRN_RESULT_DONE 0 k
  { u with hbm := { u.hbm with rate := SMap.set 0 u.hbm.rate k (getF u Reg.HBM_TRN_CTRL_RATE k) } }

/-- A run of a controlled channel starts where none is in progress (R295). -/
theorem State.trnStart_of_owned {k op : Nat} (hmay : s.mayWrite Reg.HBM_TRN_CTRL_GO k 0 = true)
    (hown : flag s Reg.HBM_TRN_CTRL_OWN k = true) (hidle : flag s Reg.HBM_TRN_CTRL_GO k = false) :
    s.trnStart k op = if op = 0 then (s.trnRunning k op).hbmLose (fun n => ((s.trnRunning k op).trnSects k).contains (n / 4096 / 49152))
      else s.trnRunning k op := by
  have hgo : ¬ (¬ flag s Reg.HBM_TRN_CTRL_OWN k = true ∨ flag s Reg.HBM_TRN_CTRL_GO k = true) := by simp [hown, hidle]
  exact (State.hostWrite_ok hmay).trans (if_neg hgo)

/-- A run ends with DONE and the errors counted (R295). -/
theorem exec_trainingRunDone_of_running {n : Nat} (hgo : flag s Reg.HBM_TRN_CTRL_GO k.toNat = true) (hrun : s.hbmRuns = true) :
    exec (.trainingRunDone k n) s = .next (setF (setF (setF s Reg.HBM_TRN_CTRL_GO 0 k.toNat) Reg.HBM_TRN_RESULT_DONE 1 k.toNat)
      Reg.HBM_TRN_RESULT_ERRS (min n 0xFFFFFF) k.toNat) := by
  have hdue : ¬ (¬ flag s Reg.HBM_TRN_CTRL_GO k.toNat = true ∨ ¬ s.hbmRuns = true) := by simp [hgo, hrun]
  exact congrArg _ (if_neg hdue)

end HbmTraining

/-- Settles O40: each clause is the rule of one command; the three runs share the start of a run. -/
theorem hbmTrainingCompletes : Obligations.HbmTrainingCompletes := by
  unfold Obligations.HbmTrainingCompletes
  refine ⟨?background, ?own, ?start, ?done⟩
  case background => exact fun _ => exec_backgroundRetrain_of_serving
  case own => exact fun _ _ _ => exec_trainingOwn_of_free
  case start =>
    intro s k hmay hown hidle w
    have hstart (op : Nat) := State.trnStart_of_owned (op := op) hmay hown hidle
    exact ⟨congrArg _ (hstart 0), congrArg _ (hstart 1), congrArg _ (hstart 2)⟩
  case done => exact fun _ _ _ => exec_trainingRunDone_of_running

end Sys2Proof.Machine
end

section
/-! PROOFS. Temperature (R284, R460): what a reading of the junction sensors, and one of a stack, shows and stops. -/

namespace Sys2Proof.Machine

section Temperature

variable {s : State} {k : BitVec 3} {t : Nat}

/-- What a reading of the junction sensors shows and counts, with the hottest and its place in `h` (R460). -/
def State.junctionShown (s : State) (h : Nat × Nat) : State :=
  let u := setF (setF s Reg.PWR_THERM_STATUS_TMAX (min h.1 255)) Reg.PWR_THERM_STATUS_SENSOR h.2
  let u := (u.thermWarn h.1 h.2).thermThrottle h.1
  { u with hotReads := if 115 ≤ h.1 then min 3 (u.hotReads + 1) else 0 }

/-- A reading is shown; the third in a row at 115 degrees or more shuts the device down (R460). -/
theorem exec_thermalSensorRead_of_powered {l : List Int} (hread : l ≠ []) (hpowered : s.shutdown = false) :
    let h := hottest 0 ((l.take 64).map Int.toNat)
    exec (.thermalSensorRead l) s =
      .next (if (s.junctionShown h).hotReads = 3 then (s.junctionShown h).thermalShutdown h.2 h.1 else s.junctionShown h) := by
  have hgo : ¬ (l = [] ∨ s.shutdown = true) := by simp [hread, hpowered]
  exact congrArg _ (if_neg hgo)

/-- What a stack's reading shows: its temperature and the refresh period that it asks for (R284). -/
def State.stackShown (s : State) (k t : Nat) : State :=
  setF (setF s Reg.HBM_STK_STATUS_TEMP (min t 255) k) Reg.HBM_STK_STATUS_RATE (if t ≤ 85 then 0 else if t ≤ 95 then 1 else 2) k

/-- A stack's reading is shown; one that reaches 105 degrees is reported, and one of 115 or more shuts the device down (R284, R460). -/
theorem exec_hbmStackTemperature_of_powered (hpowered : s.shutdown = false) :
    let u := if getF s Reg.HBM_STK_STATUS_TEMP k.toNat < 105 ∧ 105 ≤ t then (s.stackShown k.toNat t).report 0 (unitNo blkHBM (32 * k.toNat)) []
      else s.stackShown k.toNat t
    exec (.hbmStackTemperature k t) s = .next (if 115 ≤ t then u.thermalShutdown (64 + k.toNat) t else u) :=
  congrArg _ (if_neg (by simp [hpowered]))

theorem exec_hbmStackTemperature_of_cool (hpowered : s.shutdown = false) (hcool : t < 105) :
    exec (.hbmStackTemperature k t) s = .next (s.stackShown k.toNat t) := by
  have hquiet : ¬ (getF s Reg.HBM_STK_STATUS_TEMP k.toNat < 105 ∧ 105 ≤ t) := by omega
  rw [exec_hbmStackTemperature_of_powered hpowered, if_neg hquiet, if_neg (by omega)]

theorem exec_hbmStackTemperature_of_hot (hpowered : s.shutdown = false) (hhot : 115 ≤ t)
    (hreported : 105 ≤ getF s Reg.HBM_STK_STATUS_TEMP k.toNat) :
    exec (.hbmStackTemperature k t) s = .next ((s.stackShown k.toNat t).thermalShutdown (64 + k.toNat) t) := by
  have hquiet : ¬ (getF s Reg.HBM_STK_STATUS_TEMP k.toNat < 105 ∧ 105 ≤ t) := by omega
  rw [exec_hbmStackTemperature_of_powered hpowered, if_neg hquiet, if_pos hhot]

end Temperature

/-- Settles O53: a reading of the junction sensors, and one of a stack below the report's bound and above that of the shutdown. -/
theorem temperatureReadingsComplete : Obligations.TemperatureReadingsComplete := by
  unfold Obligations.TemperatureReadingsComplete
  refine ⟨?junction, ?stack⟩
  case junction => exact fun _ _ hread hpowered => exec_thermalSensorRead_of_powered hread hpowered
  case stack =>
    exact fun _ _ _ hpowered => ⟨exec_hbmStackTemperature_of_cool hpowered, exec_hbmStackTemperature_of_hot hpowered⟩

end Sys2Proof.Machine
end

section
/-! PROOFS. Firmware services (R395): what a write of GO does where firmware runs and no service is in progress. -/

namespace Sys2Proof.Machine

/-- Firmware goes on through a write of any field but those that say that it runs and that nothing has frozen it (R391, R436). -/
theorem State.firmware_setF {s : State} {f : Fld} {v i j : Nat} (hboot : Reg.MGT_BOOT_STATUS_STATE.key 0 0 ≠ f.key i j)
    (hfrozen : Reg.OBS_FRZ_STATUS_STATE.key 0 0 ≠ f.key i j) : (setF s f v i j).firmware = s.firmware := by
  rw [State.firmware, State.mgmtState, getF_setF_ne s f _ v i j 0 0 hboot, getF_setF_ne s f _ v i j 0 0 hfrozen]
  rfl

/-- A write of GO runs the service f of its code, and shows its result (R395). -/
theorem State.service_of_ready {s : State} {code : Nat} {found : List Nat} {f : State → State × Nat}
    (hmay : s.mayWrite Reg.MGT_SVC_CTRL_GO 0 0 = true) (hidle : flag s Reg.MGT_SVC_CTRL_GO = false) (hfirmware : s.firmware = true) :
    s.service code found f = State.svcDone (f (setF (setF s Reg.MGT_SVC_CTRL_CODE code) Reg.MGT_SVC_CTRL_RESULT 0)) := by
  have hruns : (setF (setF s Reg.MGT_SVC_CTRL_CODE code) Reg.MGT_SVC_CTRL_RESULT 0).firmware = true := by
    rw [State.firmware_setF (by decide) (by decide), State.firmware_setF (by decide) (by decide), hfirmware]
  rw [State.service, State.hostWrite_ok hmay]
  simp only [hidle, hruns, Bool.false_eq_true, if_false, if_true]

/-- Settles O55: each clause is one service, served as every service is. -/
theorem servicesComplete : Obligations.ServicesComplete := by
  unfold Obligations.ServicesComplete
  intro s hmay hidle u done hfirmware
  have hserved (code : Nat) (found : List Nat) (f : State → State × Nat) : .next (s.service code found f) = done (f (u code)) :=
    congrArg _ (State.service_of_ready hmay hidle hfirmware)
  refine ⟨?thaw, ?train, ?retrain, ?link, ?repair, ?commit, ?advance, ?revoke⟩
  case thaw => exact hserved 1 [] State.runThaw
  case train => exact fun l => hserved 2 (chanList l) (fun v => v.runTrain (chanList l))
  case retrain => exact hserved 3 [] State.runRetrain
  case link => exact hserved 4 [] State.runLink
  case repair => exact hserved 5 [] State.runRepair
  case commit => exact hserved 6 [] (fun v => v.fuseService 6 State.runCommit)
  case advance => exact hserved 7 [] (fun v => v.fuseService 7 State.runAdvance)
  case revoke => exact hserved 8 [] (fun v => v.fuseService 8 State.runRevoke)

end Sys2Proof.Machine
end


section
/-! PROOFS. The step and the reset state: the front command runs on the rest of the queue, and at reset everything is in canonical form. -/

namespace Sys2Proof.Machine

theorem step_of_pending {s : State} {c : Instr} {r : List Instr} (h : s.pending = c :: r) : step s = exec c { s with pending := r } := by
  simp only [step, h]

theorem step_of_no_pending {s : State} (h : s.pending = []) : step s = .next s.idle := by
  simp only [step, h]

/-- Settles O1: the two cases of the queue. -/
theorem stepRunsTheFrontCommand : Obligations.StepRunsTheFrontCommand :=
  ⟨fun _ _ _ => step_of_pending, fun _ => step_of_no_pending⟩

/-- Settles O2: at reset each of the five stores is empty. -/
theorem resetIsCanonical : Obligations.ResetIsCanonical := by
  unfold Obligations.ResetIsCanonical
  rfl

end Sys2Proof.Machine
end

section
/-! PROOFS. Bring-up of a link (R302, R310, R311, R317): the host's requests, the steps of a lane, and what TRAIN and PARAM blocks bring. -/

namespace Sys2Proof.Machine

section BringUp

variable {s : State} {d : BitVec 2} {l : BitVec 5}

/-! ### The host's requests -/

theorem exec_linkUpRequest_of_mayWrite (h : s.mayWrite Reg.LAN_LINK_CFG_UP d.toNat 0 = true) :
    exec (.linkUpRequest d) s = .next (s.requestUp d.toNat) := by
  rw [exec_linkUpRequest, execLinkUpRequest, State.hostWrite_ok h]

/-- A link that is down or failed starts its bring-up, whatever its protocol (R310). -/
theorem State.requestUp_of_down {n : Nat} (hproto : s.proto n ≠ 0) (hdown : s.lnkState n = 0 ∨ s.lnkState n = 4) :
    s.requestUp n = s.startBringUp n LaneLink.init := by
  have hup : s.lnkUp n = false := by
    rw [State.lnkUp, decide_eq_false_iff_not]
    omega
  simp only [State.requestUp, hproto, hup, hdown, not_true_eq_false, Bool.false_eq_true, and_false, if_false]

/-- On an Ethernet link that is up, the ports that do not run train again (R302). -/
theorem State.requestUp_of_etherUp {n : Nat} (hproto : s.proto n = 2) (hup : s.lnkUp n = true) : s.requestUp n = s.etherAgain n := by
  rw [State.requestUp, if_neg (by omega), if_pos ⟨hproto, hup⟩]

theorem exec_linkDownRequest_of_mayWrite (h : s.mayWrite Reg.LAN_LINK_CFG_DOWN d.toNat 0 = true) (hproto : s.proto d.toNat ≠ 0)
    (hstate : s.lnkState d.toNat ≠ 0) : exec (.linkDownRequest d) s = .next (s.lnkOff d.toNat 0 8) := by
  simp only [exec_linkDownRequest, execLinkDownRequest, State.hostWrite_ok h, hproto, hstate, or_self, if_false]

/-! ### The steps of a lane -/

section Step

variable (hrun : s.lanesRun = true) (hlane : s.laneState l.toNat = 1)
include hrun hlane

theorem exec_bringUpStepComplete_of_ether {inv : Bool} {k : BitVec 6} (hproto : s.proto (l.toNat / 8) = 2) :
    exec (.bringUpStepComplete l inv k) s = .next (s.etherTrained l.toNat inv) := by
  simp only [exec_bringUpStepComplete, execBringUpStepComplete, linkOfLane, hrun, hlane, hproto, ne_eq, not_true_eq_false, or_self, if_true, if_false]

theorem exec_bringUpStepComplete_of_training {inv : Bool} {k : BitVec 6} (hlink : s.lnkState (l.toNat / 8) = 1)
    (hproto : s.proto (l.toNat / 8) ≠ 2) : exec (.bringUpStepComplete l inv k) s = .next (s.stepDone l.toNat inv k.toNat) := by
  simp only [exec_bringUpStepComplete, execBringUpStepComplete, linkOfLane, hrun, hlane, hproto, hlink, ne_eq, not_true_eq_false, or_self, if_false]

theorem exec_bringUpStepTimeout_of_ether (hproto : s.proto (l.toNat / 8) = 2) :
    exec (.bringUpStepTimeout l) s = .next (s.etherFailed l.toNat) := by
  simp only [exec_bringUpStepTimeout, execBringUpStepTimeout, linkOfLane, hrun, hlane, hproto, ne_eq, not_true_eq_false, or_self, if_true, if_false]

/-- A lane that has passed step 1 times out: its link fails in the parameter exchange, and else goes on without it (R310, R317). -/
theorem exec_bringUpStepTimeout_of_training (hlink : s.lnkState (l.toNat / 8) = 1) (hproto : s.proto (l.toNat / 8) ≠ 2)
    (hstep : 1 ≤ s.laneStep l.toNat) :
    exec (.bringUpStepTimeout l) s = .next (if 5 ≤ s.laneStep l.toNat then s.lnkOff (l.toNat / 8) 4 1
      else if (s.setLaneState l.toNat 0).training (l.toNat / 8) = [] then (s.setLaneState l.toNat 0).lnkOff (l.toNat / 8) 4 1
      else (s.setLaneState l.toNat 0).trySwitch (l.toNat / 8)) := by
  have hpast : s.laneStep l.toNat ≠ 0 := by omega
  simp only [exec_bringUpStepTimeout, execBringUpStepTimeout, linkOfLane, hrun, hlane, hproto, hlink, hpast, ne_eq, not_true_eq_false, or_self,
    false_and, if_false]
  rfl

end Step

theorem State.stepDone_of_parameters {n skew : Nat} {inv : Bool} (h : 5 ≤ s.laneStep n) : s.stepDone n inv skew = s.paramExchange (n / 8) := by
  obtain ⟨k, hk⟩ := Nat.exists_eq_add_of_le h
  simp only [State.stepDone, linkOfLane, hk, Nat.add_comm 5 k]

/-! ### Training and parameter blocks -/

theorem exec_trainBlock_of_training {n : BitVec 3} {locked sw : Bool} {k : BitVec 4} (hrun : s.lanesRun = true) (hlane : s.laneState l.toNat = 1)
    (hstep : 2 ≤ s.laneStep l.toNat) :
    let u := s.modLane l.toNat (fun x =>
      if 0 < x.agree ∧ x.read = n.toNat then { x with agree := min 4 (x.agree + 1) } else { x with read := n.toNat, agree := 1 })
    exec (.trainBlock l n locked sw k) s = .next
      (if locked then (u.modLnk (l.toNat / 8) (fun x => { x with partnerLocked := true })).trySwitch (l.toNat / 8) else u) := by
  have hpast : ¬ s.laneStep l.toNat < 2 := by omega
  simp only [exec_trainBlock, execTrainBlock, linkOfLane, hrun, hlane, hpast, ne_eq, not_true_eq_false, or_self, if_false]

/-- A word of PARAM that follows on those of its round joins them; the eighth ends the round, which is compared with the one before (R311). -/
theorem exec_paramBlock_of_next {i : BitVec 3} {v : Word} (hrun : s.lanesRun = true) (hlink : s.lnkState d.toNat = 1)
    (haligned : (s.training d.toNat).any (fun l => decide (5 ≤ s.laneStep l)) = true) (hnext : i.toNat = (s.lnk d.toNat).words.length) :
    exec (.paramBlock d i v) s = .next (if i.toNat = 7 then (s.modLnk d.toNat (fun x =>
        let w := x.words ++ [v.toNat]
        { x with words := [], round := w, rounds := if w = x.round then min 8 (x.rounds + 1) else 1 })).sendParams d.toNat
      else s.modLnk d.toNat (fun x => { x with words := x.words ++ [v.toNat] })) := by
  have hlen : ((s.lnk d.toNat).words ++ [v.toNat]).length = 8 ↔ i.toNat = 7 := by
    rw [List.length_append, List.length_singleton]
    omega
  simp only [exec_paramBlock, execParamBlock, hrun, hlink, haligned, if_pos hnext, hlen, ne_eq, not_true_eq_false, or_self, if_false]
  rfl

end BringUp

/-- Settles O41: each clause is one branch of a request, of a lane's step, or of a block's effect. -/
theorem laneBringUpCompletes : Obligations.LaneBringUpCompletes := by
  unfold Obligations.LaneBringUpCompletes
  refine ⟨?up, ?down, ?step, ?timeout, ?train, ?param⟩
  case up =>
    intro s d hmay hproto
    rw [exec_linkUpRequest_of_mayWrite hmay]
    exact ⟨fun hdown => congrArg _ (State.requestUp_of_down hproto hdown), fun hether hup => congrArg _ (State.requestUp_of_etherUp hether hup)⟩
  case down => exact fun _ _ => exec_linkDownRequest_of_mayWrite
  case step =>
    intro s l inv k hrun hlane hlink
    have hstep (hproto) := exec_bringUpStepComplete_of_training (inv := inv) (k := k) hrun hlane hlink hproto
    refine ⟨exec_bringUpStepComplete_of_ether hrun hlane, fun hproto h0 => ?_, fun hproto h1 => ?_, fun hproto h3 => ?_, fun hproto h5 => ?_⟩
    · simp only [hstep hproto, State.stepDone, h0]
    · simp only [hstep hproto, State.stepDone, h1]
    · simp only [hstep hproto, State.stepDone, h3, linkOfLane]
      rfl
    · rw [hstep hproto, State.stepDone_of_parameters h5]
  case timeout =>
    intro s l hrun hlane hlink d
    refine ⟨exec_bringUpStepTimeout_of_ether hrun hlane, fun hproto h5 => ?_, fun hproto h1 h5 => ?_⟩
    · rw [exec_bringUpStepTimeout_of_training hrun hlane hlink hproto (by omega), if_pos h5]
    · rw [exec_bringUpStepTimeout_of_training hrun hlane hlink hproto h1, if_neg (by omega)]
  case train =>
    intro s l n sw k hrun hlane hstep u
    exact ⟨exec_trainBlock_of_training hrun hlane hstep, exec_trainBlock_of_training hrun hlane hstep⟩
  case param =>
    intro s d i v hrun hlink haligned hnext
    rw [exec_paramBlock_of_next hrun hlink haligned hnext]
    exact ⟨fun hi => congrArg _ (if_neg (by omega)), fun hi => congrArg _ (if_pos hi)⟩

end Sys2Proof.Machine
end


section
/-! PROOFS. Traffic on a link (R299 to R308, R316): codewords, flits, acknowledgements, replays, and the messages that leave the link. -/

namespace Sys2Proof.Machine

/-- A link carries blocks where the lanes run, it is up, and it is a stitch link or a bridge. -/
theorem State.carries_iff {s : State} {n : Nat} :
    s.carries n = true ↔ s.lanesRun = true ∧ s.lnkUp n = true ∧ (s.proto n = 1 ∨ s.proto n = 3) := by
  simp only [State.carries, Bool.and_eq_true, decide_eq_true_eq, and_assoc]

section Traffic

variable {s : State} {d : BitVec 2}

/-! ### Codewords -/

/-- What a decoded codeword of lane l leaves: its correction counted, its CWSEQ, and its place in the round (R303, R307). -/
theorem exec_codeword_of_carries {l : BitVec 5} {b : BitVec 5082} {a : Half} {w : BitVec 42} {p : BitVec 300}
    (hcarries : s.carries (l.toNat / 8) = true) (hlane : s.laneState l.toNat = 2) :
    let d := l.toNat / 8
    let seq (u : State) (q : Nat) : State := u.modLane l.toNat (fun y => { y with rxSeq := q })
    exec (.codeword l b a w p) s = .next (match decodeCodeword (codewordBits b a w p) with
      | some (o, t) =>
        let u := if o = 0 then s else bumpF s Reg.LAN_LANE_ERR_CORR 1 l.toNat
        let q := trailerSeq t
        ((seq u q).modLnk d (fun x => { x with cwseq := q })).codewordRound d (u.logical l.toNat) q (some t)
      | none =>
        let u := (bumpF s Reg.LAN_LANE_ERR_UNCORR 1 l.toNat).laneEvent l.toNat
        let q := ((u.laneSt l.toNat).rxSeq + 1) % 65536
        let u := (seq u q).codewordRound d (u.logical l.toNat) q none
        let x := u.lnk d
        if x.waitReplay ∧ l.toNat ∈ x.replayLanes then u.retireLane l.toNat
        else u.setLnk d { x with lostLanes := if l.toNat ∈ x.lostLanes then x.lostLanes else x.lostLanes ++ [l.toNat] }) := by
  obtain ⟨hrun, hup, hproto⟩ := State.carries_iff.mp hcarries
  have hon : s.proto (l.toNat / 8) ≠ 0 := by omega
  have hstitch : s.proto (l.toNat / 8) ≠ 2 := by omega
  have hgo : ¬ (¬ s.lanesRun ∨ ¬ s.lnkUp (linkOfLane l.toNat) ∨ s.laneState l.toNat ≠ 2 ∨ s.proto (linkOfLane l.toNat) = 0) := by
    simp [linkOfLane, hrun, hup, hlane, hon]
  rw [exec_codeword, execCodeword, if_neg hgo]
  generalize decodeCodeword (codewordBits b a w p) = q
  cases q <;> exact congrArg Host.Outcome.next (if_neg hstitch)

/-! ### Flits, acknowledgements and replays -/

section Flit

variable {v : BitVec 48} {ctl : DWord} {data : BitVec 512} {crc : Half}

/-- A flit is whole where its block is a FLIT block and its CRC is right (R305). -/
def flitWhole (v : BitVec 48) (ctl : DWord) (data : BitVec 512) (crc : Half) : Bool :=
  decide (bits v.toNat 7 0 = 0x1E) && decide (crc16 (flitBits v.toNat ctl data) = crc)

theorem flitWhole_iff : flitWhole v ctl data crc = true ↔ bits v.toNat 7 0 = 0x1E ∧ crc16 (flitBits v.toNat ctl data) = crc := by
  simp only [flitWhole, Bool.and_eq_true, decide_eq_true_eq]

theorem exec_flit_of_class0 (hcarries : s.carries d.toNat = true) (hproto : s.proto d.toNat = 1) (hclass : bits v.toNat 9 8 = 0) :
    exec (.flit d v ctl data crc) s = .next ((s.count (ctrLink d.toNat + 1)).flit0 d.toNat (bits v.toNat 14 12) (bitAt v.toNat 11)
      (flitWhole v ctl data crc) ctl data) := by
  have hzero : (s.count (ctrLink d.toNat + 1)).proto d.toNat = 1 ∧ bits v.toNat 9 8 = 0 := ⟨hproto, hclass⟩
  simp only [exec_flit, execFlit, hcarries, not_true_eq_false, if_false, if_pos hzero]
  rfl

/-- A flit with a sequence number is accepted where it is whole and the next one; else a replay is asked for, once (R306). -/
theorem exec_flit_of_sequenced (hcarries : s.carries d.toNat = true) (hseq : s.proto d.toNat ≠ 1 ∨ bits v.toNat 9 8 ≠ 0) :
    exec (.flit d v ctl data crc) s = .next (
      let u := s.count (ctrLink d.toNat + 1)
      if flitWhole v ctl data crc ∧ bits v.toNat 27 16 = (s.lnk d.toNat).expect then
        u.flitIn d.toNat (bits v.toNat 9 8) (bits v.toNat 10 10) (bits v.toNat 14 12) (bitAt v.toNat 11) ctl data
      else if (s.lnk d.toNat).waitReplay ∧ (s.lnk d.toNat).lostLanes = []
        ∧ ¬ (¬ flitWhole v ctl data crc ∧ bits v.toNat 27 16 = (s.lnk d.toNat).expect) then u
      else u.sendReplay d.toNat) := by
  have hnot : ¬ ((s.count (ctrLink d.toNat + 1)).proto d.toNat = 1 ∧ bits v.toNat 9 8 = 0) := fun h => hseq.elim (absurd h.1) (absurd h.2)
  simp only [exec_flit, execFlit, hcarries, not_true_eq_false, if_false, if_neg hnot]
  rfl

end Flit

theorem exec_ack_of_found {a : BitVec 12} {c1 c2 c3 : Byte} {i : Nat} (hcarries : s.carries d.toNat = true)
    (hfound : (s.lnk d.toNat).retry.findIdx? (fun f => decide (f.seq = a.toNat)) = some i) :
    let x := s.lnk d.toNat
    let give (m : SMap Nat) (c k : Nat) : SMap Nat := SMap.set 256 m c (min 256 (SMap.get 256 m c + k))
    exec (.ack d a c1 c2 c3) s = .next ((s.setLnk d.toNat { x with
      retry := x.retry.drop (i + 1)
      credit := give (give (give x.credit 1 c1.toNat) 2 c2.toNat) 3 c3.toNat }).pump d.toNat) := by
  simp only [exec_ack, execAck, hcarries, hfound, not_true_eq_false, if_false]

theorem exec_ackDue_of_due (hcarries : s.carries d.toNat = true) (hdue : (s.lnk d.toNat).ackDue = true ∨ (s.lnk d.toNat).freed ≠ []) :
    let x := s.lnk d.toNat
    let c (k : Nat) : Nat := min 255 (SMap.get 0 x.freed k)
    exec (.ackDue d) s = .next ((s.setLnk d.toNat { x with
      ackDue := false
      freed := [1, 2, 3].foldl (fun m k => SMap.set 0 m k (SMap.get 0 m k - c k)) x.freed }).sendCtl d.toNat
        [0x2D, (x.expect + 4095) % 4096, c 1, c 2, c 3]) := by
  have hany : ¬ (¬ (s.lnk d.toNat).ackDue = true ∧ (s.lnk d.toNat).freed = []) := fun h => hdue.elim h.1 (absurd h.2)
  simp only [exec_ackDue, execAckDue, hcarries, hany, not_true_eq_false, or_self, if_false]

/-- The first request for the flits from FROM on sends them again (R306). -/
theorem exec_replay_of_first {f : BitVec 12} {i : Nat} (hcarries : s.carries d.toNat = true)
    (hfirst : (s.lnk d.toNat).replays = 0 ∨ (s.lnk d.toNat).lastFrom ≠ f.toNat)
    (hfound : (s.lnk d.toNat).retry.findIdx? (fun e => decide (e.seq = f.toNat)) = some i) :
    let u := bumpF s Reg.LAN_LINK_CNT_REPLAY 1 d.toNat
    let x := s.lnk d.toNat
    exec (.replay d f) s = .next ((x.retry.drop i).foldl (fun u e =>
      (u.count (ctrLink d.toNat + 3)).sendFlit d.toNat e.of.cls e.of.vc e.of.port e.seq e.tail e.of.msg)
      (u.setLnk d.toNat { x with lastFrom := f.toNat, replays := 1 })) := by
  have hlnk : (bumpF s Reg.LAN_LINK_CNT_REPLAY 1 d.toNat).lnk d.toNat = s.lnk d.toNat := rfl
  have hnew : ¬ ((s.lnk d.toNat).replays ≠ 0 ∧ (s.lnk d.toNat).lastFrom = f.toNat) := fun h => hfirst.elim h.1 (absurd h.2)
  have hlimit : ¬ 3 < 1 := by decide
  simp only [exec_replay, execReplay, hcarries, hlnk, if_neg hnew, hlimit, hfound, not_true_eq_false, if_false]

/-! ### Messages off a link -/

section Arrival

variable {m : LMsg} (hfind : (s.lnk d.toNat).arrived.find? (fun m => !s.arrivalWaits d.toNat m) = some m) (hrun : s.lanesRun = true)
include hfind hrun

theorem exec_laneMessageArrival_of_bridge (hproto : s.proto d.toNat = 3) : exec (.laneMessageArrival d) s =
    .next ((s.takeArrived d.toNat m).emit .bridge [d.toNat, m.msg.hdr.toNat] (leBytes 128 m.msg.data.toNat)) := by
  simp only [exec_laneMessageArrival, execLaneMessageArrival, hfind, hrun, hproto, not_true_eq_false, if_false, if_true]

/-- A message for another device leaves by the link of its way, or is counted where there is none (R301). -/
theorem exec_laneMessageArrival_of_through (hproto : s.proto d.toNat ≠ 3) (hdev : m.msg.h.ddev ≠ s.devId) :
    exec (.laneMessageArrival d) s = .next (match (s.takeArrived d.toNat m).suitLink m.msg.h.ddev with
      | .inl e => (s.takeArrived d.toNat m).laneSend e m.port ((s.takeArrived d.toNat m).vcOn e (some (d.toNat, m.vc))) m.msg none
      | .inr e => (s.takeArrived d.toNat m).countDrop e) := by
  simp only [exec_laneMessageArrival, execLaneMessageArrival, hfind, hrun, hproto, hdev, ne_eq, not_false_eq_true, not_true_eq_false, if_false,
    if_true] <;> rfl

theorem exec_laneMessageArrival_of_local (hproto : s.proto d.toNat ≠ 3) (hdev : m.msg.h.ddev = s.devId)
    (hport : s.portUp (8 * d.toNat + m.port) = true) (hadmits : s.laneAdmits (laneRouter (8 * d.toNat + m.port)) m.msg.h = true) :
    exec (.laneMessageArrival d) s = .next ((s.takeArrived d.toNat m).launchMsg (.lane d.toNat) (laneRouter (8 * d.toNat + m.port)) m.msg) := by
  simp only [exec_laneMessageArrival, execLaneMessageArrival, hfind, hrun, hproto, hdev, hport, hadmits, ne_eq, not_true_eq_false, or_self, if_false]

end Arrival

end Traffic

/-- Settles O42: each clause is one command's effect on a link that carries blocks. -/
theorem laneTrafficCompletes : Obligations.LaneTrafficCompletes := by
  unfold Obligations.LaneTrafficCompletes
  refine ⟨?codeword, ?class0, ?sequenced, ?ack, ?due, ?replay, ?arrival⟩
  case codeword =>
    intro s l b a w p hcarries hlane d seq
    refine (exec_codeword_of_carries hcarries hlane).trans ?_
    cases decodeCodeword (codewordBits b a w p) <;> rfl
  case class0 => exact fun _ _ _ _ _ _ => exec_flit_of_class0
  case sequenced =>
    intro s d v ctl data crc hcarries hseq u good
    rw [exec_flit_of_sequenced hcarries hseq]
    refine ⟨fun hgood hnext => congrArg _ (if_pos ⟨flitWhole_iff.mpr hgood, hnext⟩), fun hbad hwait => congrArg _ ?_⟩
    have hnot : ¬ (flitWhole v ctl data crc = true ∧ bits v.toNat 27 16 = (s.lnk d.toNat).expect) := fun h => hbad ⟨flitWhole_iff.mp h.1, h.2⟩
    exact (if_neg hnot).trans (if_neg (by simp [hwait]))
  case ack => exact fun _ _ _ _ _ _ _ => exec_ack_of_found
  case due => exact fun _ _ => exec_ackDue_of_due
  case replay => exact fun _ _ _ _ => exec_replay_of_first
  case arrival =>
    intro s d m hfind hrun
    refine ⟨exec_laneMessageArrival_of_bridge hfind hrun, fun hproto hdev => ?_, exec_laneMessageArrival_of_local hfind hrun⟩
    have hthrough := exec_laneMessageArrival_of_through hfind hrun hproto hdev
    exact ⟨fun e he => by simp only [hthrough, he], fun e he => by simp only [hthrough, he]⟩

end Sys2Proof.Machine
end


section
/-! PROOFS. Changes of a link's lanes, slips and bitslip, limits, and test loops (R305, R312, R313, R316, R318, R320). -/

namespace Sys2Proof.Machine

section Maintenance

variable {s : State} {d : BitVec 2} {l : BitVec 5}

/-! ### The active set and the partner's freeze -/

theorem exec_lane_of_carries {m : Byte} {cw : Half} (h : s.carries d.toNat = true) :
    exec (.lane d m cw) s = .next (s.modLnk d.toNat (fun x => { x with
      nextMask := some (m.toNat &&& s.laneMask d.toNat (fun v => decide (v = 2)), cw.toNat) })) := by
  simp only [exec_lane, execLane, h, not_true_eq_false, if_false]

theorem exec_laneMaskApply_of_announced {m cw : Nat} (h : s.carries d.toNat = true) (hnext : (s.lnk d.toNat).nextMask = some (m, cw)) :
    exec (.laneMaskApply d) s = .next ((s.modLnk d.toNat (fun x => { x with nextMask := none, cwseq := cw })).applyMask d.toNat m) := by
  simp only [exec_laneMaskApply, execLaneMaskApply, h, hnext, not_true_eq_false, if_false]

theorem exec_freezeBlock_of_carries (h : s.carries d.toNat = true) : exec (.freezeBlock d) s = .next (s.setLnkState d.toNat 5) := by
  rw [exec_freezeBlock, execFreezeBlock, if_pos h]

/-- A link whose partner was frozen trains again with the messages that the partner has not acknowledged (R318). -/
theorem exec_linkRetrainAfterPartnerReset_of_frozen (hrun : s.lanesRun = true) (hstate : s.lnkState d.toNat = 5) :
    exec (.linkRetrainAfterPartnerReset d) s = .next ((s.breakOnLink d.toNat).startBringUp d.toNat { LaneLink.init with
      queue := (((s.lnk d.toNat).retry.filter (fun f => !f.tail)).map (·.of)) ++ (s.lnk d.toNat).queue }) := by
  simp only [exec_linkRetrainAfterPartnerReset, execLinkRetrainAfterPartnerReset, hrun, hstate, ne_eq, not_true_eq_false, or_self, if_false]

/-! ### Slips and bitslip -/

theorem exec_blockLockLoss_of_active {f : Bool} {o : BitVec 6} (h : s.carries (l.toNat / 8) = true) (hlane : s.laneState l.toNat = 2) :
    exec (.blockLockLoss l f o) s = .next (((setF (setF ((s.setLaneState l.toNat 3).laneEvent l.toNat) Reg.LAN_LANE_STATUS_FOUND (bit f) l.toNat)
      Reg.LAN_LANE_STATUS_SLIP_OFS (if f then o.toNat else 0) l.toNat).modLane l.toNat
        (fun x => { x with ofs := if f then some o.toNat else none })).removeLane l.toNat) := by
  simp only [exec_blockLockLoss, execBlockLockLoss, linkOfLane, h, hlane, ne_eq, not_true_eq_false, or_self, if_false]

/-- A write of LAN_BITSLIP with GO, for a lane that is slipped or in a loop, starts `go` (R313). -/
theorem State.bitslip_of_ready {n op count : Nat} {go : State → State} (hmay : s.mayWrite Reg.LAN_BITSLIP_GO 0 0 = true)
    (hidle : flag s Reg.LAN_BITSLIP_GO = false) :
    let w := setF (setF (setF s Reg.LAN_BITSLIP_LANE n) Reg.LAN_BITSLIP_OP op) Reg.LAN_BITSLIP_COUNT count
    (w.laneState n = 3 ∨ w.laneState n = 5) → s.bitslip n op count go = go (setF (setF w Reg.LAN_BITSLIP_GO 1) Reg.LAN_BITSLIP_RESULT 0) := by
  intro w hstate
  rw [State.bitslip, State.hostWrite_ok hmay]
  exact (if_neg (by simp [hidle])).trans (if_pos hstate)

/-- A lane may rejoin where it has run steps 1 to 5 with no loop on it, or has slipped back into its place (R313, R320). -/
theorem State.mayRejoin_iff {n : Nat} : s.mayRejoin n = true ↔
    (flag s Reg.LAN_BITSLIP_OP = true ∧ s.laneState n = 1 ∧ 5 ≤ s.laneStep n ∧ getF s Reg.LAN_LOOP_MODE n = 0)
      ∨ (flag s Reg.LAN_BITSLIP_OP = false ∧ s.laneState n = 3 ∧ (s.laneSt n).looped = false ∧ (s.laneSt n).ofs.getD 0 = 0) := by
  cases h : flag s Reg.LAN_BITSLIP_OP <;> simp [State.mayRejoin, h, and_assoc]

section Running

variable (hrun : s.lanesRun = true)
include hrun

theorem exec_laneRejoin_of_ready (hgo : flag s Reg.LAN_BITSLIP_GO = true) (hlane : getF s Reg.LAN_BITSLIP_LANE = l.toNat)
    (hready : s.mayRejoin l.toNat = true) : exec (.laneRejoin l) s = .next ((s.joinLane l.toNat).bitslipEnd 1) := by
  simp only [exec_laneRejoin, execLaneRejoin, hrun, hgo, hlane, hready, ne_eq, not_true_eq_false, or_self, if_false]

theorem exec_bitslipTimeout_of_idle (hgo : flag s Reg.LAN_BITSLIP_GO = true) (hlane : s.laneState (getF s Reg.LAN_BITSLIP_LANE) ≠ 1) :
    exec .bitslipTimeout s = .next (s.bitslipEnd 2) := by
  simp only [exec_bitslipTimeout, execBitslipTimeout, hrun, hgo, hlane, not_true_eq_false, or_self, if_false]

theorem exec_laneEventLimitExceeded_of_over (hwindow : getF s Reg.LAN_LANE_LIMIT_WINDOW ≠ 0)
    (hover : getF s Reg.LAN_LANE_LIMIT_COUNT < (s.laneSt l.toNat).events) :
    exec (.laneEventLimitExceeded l) s = .next ((s.modLane l.toNat (fun x => { x with events := 0 })).retireLane l.toNat) := by
  rw [exec_laneEventLimitExceeded, execLaneEventLimitExceeded, if_pos ⟨hrun, hwindow, hover⟩]

theorem exec_loopRunDone_of_running {n : Nat} (hgo : flag s Reg.LAN_LOOP_GO l.toNat = true) :
    exec (.loopRunDone l n) s = .next (setF (setF (setF s Reg.LAN_LOOP_GO 0 l.toNat) Reg.LAN_LOOP_RES_DONE 1 l.toNat)
      Reg.LAN_LOOP_RES_ERRS (min n 0xFFFFFF) l.toNat) := by
  simp only [exec_loopRunDone, execLoopRunDone, hrun, hgo, not_true_eq_false, or_self, if_false]

end Running

/-! ### Test loops -/

/-- A test loop takes an active lane out of striping (R320). -/
theorem exec_loopModeWrite_of_active {m : BitVec 2} (hmay : s.mayWrite Reg.LAN_LOOP_MODE l.toNat 0 = true) (hmode : m ≠ 0)
    (hlane : s.laneState l.toNat = 2) :
    exec (.loopModeWrite l m) s = .next ((((setF s Reg.LAN_LOOP_MODE m.toNat l.toNat).setLaneState l.toNat 5).modLane l.toNat
      (fun x => { x with looped := true })).removeLane l.toNat) := by
  simp only [exec_loopModeWrite, execLoopModeWrite, State.hostWrite_ok hmay, hmode, hlane, if_false, if_true]

theorem exec_loopRun_of_idle (hmay : s.mayWrite Reg.LAN_LOOP_GO l.toNat 0 = true) (hmode : getF s Reg.LAN_LOOP_MODE l.toNat ≠ 0)
    (hidle : flag s Reg.LAN_LOOP_GO l.toNat = false) :
    exec (.loopRun l) s = .next (setF (setF s Reg.LAN_LOOP_GO 1 l.toNat) Reg.LAN_LOOP_RES_DONE 0 l.toNat) := by
  simp only [exec_loopRun, execLoopRun, State.hostWrite_ok hmay, hmode, hidle, Bool.false_eq_true, or_self, if_false]

end Maintenance

/-- Settles O43: each clause is one command's effect where its event can occur. -/
theorem laneMaintenanceCompletes : Obligations.LaneMaintenanceCompletes := by
  unfold Obligations.LaneMaintenanceCompletes
  refine ⟨?lane, ?apply, ?freeze, ?retrain, ?slip, ?bitslip, ?rejoin, ?timeout, ?limit, ?loop, ?run, ?done⟩
  case lane => exact fun _ _ _ _ => exec_lane_of_carries
  case apply => exact fun _ _ _ _ => exec_laneMaskApply_of_announced
  case freeze => exact fun _ _ => exec_freezeBlock_of_carries
  case retrain => exact fun _ _ => exec_linkRetrainAfterPartnerReset_of_frozen
  case slip => exact fun _ _ _ _ => exec_blockLockLoss_of_active
  case bitslip =>
    intro s l c hmay hidle w
    exact ⟨fun h => congrArg _ (State.bitslip_of_ready hmay hidle h), fun h => congrArg _ (State.bitslip_of_ready hmay hidle h)⟩
  case rejoin => exact fun _ _ hrun hgo hlane hready => exec_laneRejoin_of_ready hrun hgo hlane (State.mayRejoin_iff.mpr hready)
  case timeout => exact fun _ => exec_bitslipTimeout_of_idle
  case limit => exact fun _ _ => exec_laneEventLimitExceeded_of_over
  case loop => exact fun _ _ _ => exec_loopModeWrite_of_active
  case run => exact fun _ _ => exec_loopRun_of_idle
  case done => exact fun _ _ _ hrun hgo => exec_loopRunDone_of_running hrun hgo

end Sys2Proof.Machine
end


section
/-! PROOFS. MAC client and bridge ports (R343, R344): frames sent and received, and messages of a bridge link. -/

namespace Sys2Proof.Machine

section MacAndBridge

variable {s : State} {k : BitVec 3}

/-- A frame that the MAC takes is stored and sent where its length is legal, and counted where it is not (R343). -/
theorem exec_macTransmitFrame_of_room {bs : List Byte} (hrun : s.fabricStopped = false) (hroom : (SMap.get [] s.macTx k.toNat).length < 2) :
    exec (.macTransmitFrame k bs false) s = .next (if frameLen (bs.length + 4) then
      ({ s with macTx := SMap.set [] s.macTx k.toNat (SMap.get [] s.macTx k.toNat ++ [bs]) } : State).macSend k.toNat
      else bumpF s Reg.FAB_MAC_CNT_ERR 1 k.toNat) := by
  have hfree : decide (2 ≤ (s.macStored k.toNat).length) = false := decide_eq_false (Nat.not_le.mpr hroom)
  simp only [exec_macTransmitFrame, execMacTransmitFrame, hrun, hfree, Bool.or_self, Bool.false_eq_true, if_false]
  cases frameLen (bs.length + 4) <;> rfl

theorem frameLen_iff {n : Nat} : frameLen n = true ↔ 64 ≤ n ∧ n ≤ 9216 := decide_eq_true_iff

/-- A frame that arrives is stored with what the MAC has checked while it fits in the buffer, and else dropped (R343). -/
theorem exec_macReceiveFrame_of_up {l : List Byte} {ready : Bool} (hup : s.macUp k.toNat = true)
    (hrun : getF s Reg.OBS_FRZ_STATUS_STATE ≠ 3) :
    let held := (s.macQueue k.toNat).foldl (fun a x => a + x.2.2.length) 0
    let t : State := { s with macTake := SMap.set false s.macTake k.toNat ready }
    exec (.macReceiveFrame k l ready) s = .next (if 65536 < held + (macCheck l).2.2.length
      then (bumpF t Reg.FAB_MAC_CNT_RX_DROP 1 k.toNat).macDeliver k.toNat
      else let u := if (macCheck l).1 || (macCheck l).2.1 then t.macErr k.toNat else t
        (u.setMacQueue k.toNat (u.macQueue k.toNat ++ [macCheck l])).macDeliver k.toNat) := by
  simp only [exec_macReceiveFrame, execMacReceiveFrame, hup, hrun, Bool.not_true, decide_false, Bool.or_self, Bool.false_eq_true, if_false]

theorem exec_bridgeTransmit_of_up {d : BitVec 2} {ctl : DWord} {data : Line} (hrun : s.fabricStopped = false) (hproto : s.proto d.toNat = 3)
    (hup : s.lnkUp d.toNat = true) : exec (.bridgeTransmit d ctl data) s = .next ((s.drawn.modLnk d.toNat (fun x => { x with
      queue := x.queue ++ [⟨1, 0, 0, ⟨ctl, data, Config.bridgeTail s.draws⟩, none⟩] })).pump d.toNat) := by
  simp only [exec_bridgeTransmit, execBridgeTransmit, hrun, hproto, hup, ne_eq, not_true_eq_false, decide_false, Bool.not_true, Bool.or_self,
    Bool.false_eq_true, if_false]

end MacAndBridge

/-- Settles O44: the two sides of a MAC, and a bridge port. -/
theorem macAndBridgeComplete : Obligations.MacAndBridgeComplete := by
  unfold Obligations.MacAndBridgeComplete
  refine ⟨?transmit, ?send, ?receive, ?bridge⟩
  case transmit =>
    intro s k bs hrun hroom
    rw [exec_macTransmitFrame_of_room hrun hroom]
    exact ⟨fun hlen => congrArg _ (if_pos (frameLen_iff.mpr hlen)), fun hlen => congrArg _ (if_neg (mt frameLen_iff.mp hlen))⟩
  case send => exact fun _ _ hup => if_pos hup
  case receive =>
    intro s k l ready hup hrun b badFcs badLen held t u
    rw [exec_macReceiveFrame_of_up hup hrun]
    refine ⟨fun hfits => congrArg _ ((if_neg (Nat.not_lt.mpr hfits)).trans ?_), fun hfull => congrArg _ (if_pos hfull)⟩
    have hqueue : u.macQueue k.toNat = s.macQueue k.toNat := by
      simp only [u]
      split <;> rfl
    rw [← hqueue]
    rfl
  case bridge => exact fun _ _ _ _ => exec_bridgeTransmit_of_up

end Sys2Proof.Machine
end


section
/-! PROOFS. Hem ports (R332 to R337, R362): head and tail beats, reception, the timeout of a tail, and EN. -/

namespace Sys2Proof.Machine

section HemPorts

variable {s : State} {h : Byte} (hport : h.toNat < 192)
include hport

/-! ### Transmission -/

section Transmit

variable (hrun : s.fabricStopped = false) (hmaster : s.frozenMaster (idHem h.toNat) = false)
include hrun hmaster

theorem exec_hemTransmit_of_head {c : BitVec 2} {r t : Word} {d : BitVec 512} (hseam : s.engaged (hemPatch h.toNat) = false)
    (hisland : s.tileFrozen (hemRouter h.toNat) = false) :
    exec (.hemTransmit h true c r t d) s = .next (s.hemHeadBeat h.toNat c.toNat r.toNat t.toNat d) := by
  have hin : ¬ 192 ≤ h.toNat := Nat.not_le.mpr hport
  simp only [exec_hemTransmit, execHemTransmit, hin, hrun, hmaster, hseam, hisland, Bool.false_eq_true, or_self, if_false, if_true]

theorem exec_hemTransmit_of_tail {c : BitVec 2} {r t : Word} {d : BitVec 512} :
    exec (.hemTransmit h false c r t d) s = .next (s.hemTailBeat h.toNat d) := by
  have hin : ¬ 192 ≤ h.toNat := Nat.not_le.mpr hport
  simp only [exec_hemTransmit, execHemTransmit, hin, hrun, hmaster, Bool.false_eq_true, or_self, if_false]

end Transmit

/-- A head whose tail has not come is discarded while a swap or a full load waits for its port (R362). -/
theorem exec_hemTailTimeout_of_waiting (hheld : s.patchHeld (hemPatch h.toNat) = true) (hhead : (s.hem h.toNat).head.isSome = true)
    (hrun : s.arrayFrozen = false) : exec (.hemTailTimeout h) s = .next (setF (s.dropHead h.toNat) Reg.FAB_HEM_STATUS_PROTO 1 h.toNat) := by
  rw [exec_hemTailTimeout, execHemTailTimeout, if_pos ⟨hport, hheld, hhead, by simp [hrun]⟩]

/-! ### Reception and EN -/

theorem exec_hemReceive_of_turn {c : Nat} {x : Hem} {m : Msg} {q : List Msg} (hrun : s.fabricStopped = false)
    (hseam : s.engaged (hemPatch h.toNat) = false) (hisland : s.tileFrozen (hemRouter h.toNat) = false) (hup : s.hemUp h.toNat = true)
    (hturn : (s.hem h.toNat).turn = some (c, x)) (hrx : x.rx c = m :: q) :
    let u := (s.setHem h.toNat (x.setRx c q)).hemPresent h.toNat m
    exec (.hemReceive h) s = .next (if c = 0 then u.hemCredit m else u) := by
  have hin : ¬ 192 ≤ h.toNat := Nat.not_le.mpr hport
  simp only [exec_hemReceive, execHemReceive, hin, hrun, hseam, hisland, hup, hturn, hrx, Bool.false_eq_true, not_true_eq_false, or_self, if_false]

theorem exec_hemEnable_of_mayWrite {v : Word} (hmay : s.mayWrite Reg.FAB_HEM_CFG_EN h.toNat 0 = true) :
    let held := (s.hem h.toNat).tx.length + bit (s.hem h.toNat).head.isSome
    let u := setF s Reg.FAB_HEM_CFG_CAP (bits v.toNat 7 5) h.toNat
    let u := if bitAt v.toNat 0 = false ∧ held ≠ 0 then bumpF ((u.dropHead h.toNat).dropTx h.toNat) Reg.FAB_HEM_CNT_DROP held h.toNat else u
    exec (.hemEnable h v) s = .next (setF u Reg.FAB_HEM_CFG_EN (bit (bitAt v.toNat 0)) h.toNat) := by
  have hin : ¬ 192 ≤ h.toNat := Nat.not_le.mpr hport
  simp only [exec_hemEnable, execHemEnable, hin, State.hostWrite_ok hmay, State.hemDrop, Bool.and_eq_true, Bool.not_eq_true', decide_eq_true_eq,
    if_false]

end HemPorts

/-! ### Beats -/

section Beats

variable {s : State} {n cls route tags : Nat} {data : BitVec 512}

theorem State.dropHead_of_none (hhead : (s.hem n).head = none) : s.dropHead n = s := by
  simp only [State.dropHead, hhead]

/-- A head at a port in service that holds none and has room is accepted; one of class 0 waits while its stitch admits nothing (R333, R334). -/
theorem State.hemHeadBeat_of_room (hattached : s.hemAttached n = true) (hfuse : s.fuseFault = false) (hright : s.hemRight n 0 = true)
    (hhead : (s.hem n).head = none) (hroom : s.hemFull n cls = false) :
    s.hemHeadBeat n cls route tags data =
      let waits := decide (cls = 0) && s.hemStitch n route && !s.admits (route % 1024) (s.tile (hemRouter n)).ic
      if waits then s else s.hemAccept n cls route tags data true := by
  simp only [State.hemHeadBeat, hattached, hfuse, hright, hhead, hroom, State.dropHead_of_none hhead, Option.isSome_none, Bool.not_true,
    Bool.not_false, Bool.true_and, Bool.or_false, Bool.false_eq_true, if_false]
  cases decide (cls = 0) && s.hemStitch n route && !s.admits (route % 1024) (s.tile (hemRouter n)).ic <;> rfl

/-- A head with a legal route and a granted delivery is held, with the credit of a stitch of class 0 messages (R333, R335). -/
theorem State.hemAccept_of_granted (hroute : s.hemRouteOk n cls route = true) (hright : s.hemRight n (1 + s.hemDlv cls route) = true) :
    s.hemAccept n cls route tags data true =
      let u := if cls = 0 ∧ s.hemDlv cls route = 0
        then setF s Reg.NET_ST_STATUS_CREDIT (getF s Reg.NET_ST_STATUS_CREDIT (route % 1024) - 1) (route % 1024) else s
      u.modHem n (fun x => { x with head := some ⟨cls, route, tags, data, true, true⟩ }) := by
  simp only [State.hemAccept, hroute, hright, not_true_eq_false, and_true, if_false]
  split <;> rfl

theorem State.hemTailBeat_of_good {d : HemHead} (hhead : (s.hem n).head = some d) (hgood : d.good = true) :
    s.hemTailBeat n data = if s.hemUp n
      then (s.modHem n (fun x => { x with head := none, tx := x.tx ++ [(d.paid, s.hemMsg n d data)] })).pumpHem n
      else bumpF (s.dropHead n) Reg.FAB_HEM_CNT_DROP 1 n := by
  simp only [State.hemTailBeat, hhead, hgood, not_true_eq_false, if_false]
  cases s.hemUp n <;> rfl

end Beats

/-- Settles O45: the beats that a port takes, what it presents, and what it discards. -/
theorem hemPortsComplete : Obligations.HemPortsComplete := by
  unfold Obligations.HemPortsComplete
  refine ⟨?head, ?stitchHead, ?tail, fun _ _ => exec_hemTailTimeout_of_waiting, fun _ _ _ _ _ _ hport => exec_hemReceive_of_turn hport,
    fun _ _ _ hport hmay => exec_hemEnable_of_mayWrite hport hmay⟩
  case head =>
    intro s h c r t d hport hrun hmaster hseam hisland hattached hfuse hright hhead hc hroom hroute hdlv
    have hclass : c.toNat ≠ 0 := fun h0 => hc (BitVec.eq_of_toNat_eq h0)
    have hbits : s.hemDlv c.toNat r.toNat = bits r.toNat 18 17 := if_neg hclass
    rw [exec_hemTransmit_of_head hport hrun hmaster hseam hisland, State.hemHeadBeat_of_room hattached hfuse hright hhead hroom,
      State.hemAccept_of_granted hroute (hbits ▸ hdlv)]
    simp only [hclass, decide_false, Bool.false_and, Bool.false_eq_true, false_and, if_false]
  case stitchHead =>
    intro s h r t d st hport hrun hmaster hseam hisland hattached hfuse hright hhead hroom hzero hfrom hst hdlv n go
    have hstitch : s.hemStitch h.toNat r.toNat = true := by
      simp only [State.hemStitch, hzero, hfrom, decide_true, Bool.and_self]
    have hbits : s.hemDlv 0 r.toNat = st.dlv := by
      simp only [State.hemDlv, hst, if_true]
    have hroute : s.hemRouteOk h.toNat 0 r.toNat = true := hstitch
    have hclass : (0 : BitVec 2).toNat = 0 := rfl
    rw [exec_hemTransmit_of_head hport hrun hmaster hseam hisland, hclass,
      State.hemHeadBeat_of_room hattached hfuse hright hhead hroom, State.hemAccept_of_granted hroute (hbits ▸ hdlv), hbits]
    refine ⟨fun hgo => ?_, fun hgo => ?_⟩
    · have hwaits : s.admits (r.toNat % 1024) (s.tile (hemRouter h.toNat)).ic = false := hgo
      simp only [hstitch, hwaits, decide_true, Bool.not_false, Bool.and_self, if_true]
    · have hadmits : s.admits (r.toNat % 1024) (s.tile (hemRouter h.toNat)).ic = true := hgo
      simp only [hadmits, Bool.not_true, Bool.and_false, Bool.false_eq_true, true_and, if_false]
      rfl
  case tail =>
    intro s h c r t d hd hport hrun hmaster hhead hgood
    rw [exec_hemTransmit_of_tail hport hrun hmaster, State.hemTailBeat_of_good hhead hgood]
    exact ⟨fun hup => congrArg _ (if_pos hup), fun hup => congrArg _ (if_neg (by simp [hup]))⟩

end Sys2Proof.Machine
end


section
/-! PROOFS. Memory ports (R338 to R342), reset trees, probes and the pins' supply (R330, R347, R349). -/

namespace Sys2Proof.Machine

section MemoryPorts

variable {s : State} {p : BitVec 3} {i : Nat} {r : MpReq}

/-- A request that nothing refuses joins the port's requests (R339). -/
theorem exec_mpRequest_of_granted {w : Bool} {addr : HbmAddr} {len : BitVec 5} {id : Byte} (hready : s.mpReady p.toNat id.toNat = true) :
    let a := addr.toNat / 64 * 64
    let hi := a + 64 * (len.toNat + 1) - 1
    s.hbmGranted (idPort p.toNat) w a hi = true → a / 4096 = hi / 4096 → s.hbmRefused (idPort p.toNat) a hi = false →
    exec (.mpRequest p w addr len id) s = .next (s.setMp p.toNat
      ⟨(s.mp p.toNat).reqs ++ [⟨w, a, len.toNat, id.toNat, 0, len.toNat + 1⟩]⟩) := by
  intro a hi hgranted hpage haddr
  simp only [exec_mpRequest, execMpRequest]
  rw [if_neg (by simp [hready]), if_neg (by simpa [a, hi] using hgranted), if_neg (not_not_intro hpage), if_neg (by simpa [a, hi] using haddr)]

section Beat

variable (hrun : s.arrayFrozen = false) (hstatus : r.status = 0) (haddr : s.hbmRefused (idPort p.toNat) r.at_ (r.at_ + 63) = false)
  (hfree : s.hbmBusy r.at_ 64 = false)
include hrun hstatus haddr hfree

theorem exec_mpWriteData_of_accepted {bs : List Byte} (hfirst : (s.mp p.toNat).first (fun r => r.write && decide (r.left ≠ 0)) = some (i, r)) :
    exec (.mpWriteData p bs) s =
      .next ((s.hbmWrite r.at_ ((bs ++ List.replicate 64 0).take 64)).setReq p.toNat i { r with left := r.left - 1 }) := by
  have hok : ¬ r.status ≠ 0 := not_not_intro hstatus
  simp only [exec_mpWriteData, execMpWriteData, hrun, hfirst, if_neg hok, haddr, hfree, Bool.false_eq_true, if_false]
  rfl

/-- A beat of a read leaves with what stands there, poisoned where a word of it met an uncorrectable error (R288, R341). -/
theorem exec_mpReadResponse_of_accepted (hfirst : (s.mp p.toNat).first (fun r => !r.write) = some (i, r)) :
    let q := (s.hbmTaken (idPort p.toNat) r.at_).hbmRead r.at_ 64
    exec (.mpReadResponse p false) s = .next (if q.2.2
      then ((bumpF (setF q.1 Reg.FAB_MP_STATUS_POISON 1 p.toNat) Reg.FAB_MP_CNT_POISON 1 p.toNat).mpAnswer p.toNat r 1 q.2.1).mpBeatGone p.toNat i r
      else (q.1.mpAnswer p.toNat r 0 q.2.1).mpBeatGone p.toNat i r) := by
  simp only [exec_mpReadResponse, execMpReadResponse, hrun, hfirst, hstatus, haddr, hfree, ne_eq, not_true_eq_false, Bool.false_eq_true,
    Bool.false_or, if_false]

end Beat

theorem exec_mpWriteResponse_of_complete (hrun : s.arrayFrozen = false)
    (hfirst : (s.mp p.toNat).first (fun r => r.write && decide (r.left = 0)) = some (i, r)) :
    exec (.mpWriteResponse p) s = .next ((s.mpAnswer p.toNat r r.status []).setMp p.toNat ⟨(s.mp p.toNat).reqs.eraseIdx i⟩) := by
  simp only [exec_mpWriteResponse, execMpWriteResponse, hrun, hfirst, Bool.false_eq_true, if_false]

end MemoryPorts

section Pins

variable {s : State}

theorem exec_globalResetAssert_of_mayWrite {v : Word} (hmay : s.mayWrite Reg.FAB_RST_ASSERT 0 0 = true) :
    exec (.globalResetAssert v) s = .next (setF s.latchResets Reg.FAB_RST_ASSERT v.toNat) := by
  rw [exec_globalResetAssert, execGlobalResetAssert, State.hostWrite_ok hmay]

/-- A probe is written where the pin that it shall drive is spare and free; a pin that it leaves, and the one that it drives, are shown (R349). -/
theorem exec_probeEnable_of_mayWrite {b : BitVec 3} {c : BitVec 2} {v : Word} (hmay : s.mayWrite Reg.FAB_PROBE_EN b.toNat c.toNat = true) :
    let pin := bits v.toNat 17 12
    (bitAt v.toNat 18 = true → s.sparePin b.toNat pin = true ∧ s.pinDriven b.toNat c.toNat pin = false) →
    let old := getF s Reg.FAB_PROBE_PIN b.toNat c.toNat
    let u := setF (setF (setF s Reg.FAB_PROBE_SEL (bits v.toNat 11 0) b.toNat c.toNat) Reg.FAB_PROBE_PIN pin b.toNat c.toNat)
      Reg.FAB_PROBE_EN (bit (bitAt v.toNat 18)) b.toNat c.toNat
    let u := if flag s Reg.FAB_PROBE_EN b.toNat c.toNat = true ∧ (old ≠ pin ∨ bitAt v.toNat 18 = false) then u.showPin b.toNat old else u
    exec (.probeEnable b c v) s = .next (if bitAt v.toNat 18 then u.showPin b.toNat pin else u) := by
  intro pin hpin
  have hfree : ¬ (bitAt v.toNat 18 = true ∧ (s.sparePin b.toNat pin = false ∨ s.pinDriven b.toNat c.toNat pin = true)) := by
    rintro ⟨hv, hbad⟩
    obtain ⟨hspare, hdriven⟩ := hpin hv
    simp [hspare, hdriven] at hbad
  simp only [exec_probeEnable, execProbeEnable, State.hostWrite_ok hmay, Bool.and_eq_true, Bool.or_eq_true, Bool.not_eq_true', decide_eq_true_eq]
  exact congrArg Host.Outcome.next (if_neg hfree)

end Pins

/-- Settles O46: each clause is one command's effect where nothing refuses it. -/
theorem memoryPortsAndPinsComplete : Obligations.MemoryPortsAndPinsComplete := by
  unfold Obligations.MemoryPortsAndPinsComplete
  refine ⟨fun _ _ _ _ _ _ => exec_mpRequest_of_granted, ?writeData, ?read, ?answer, fun _ _ => exec_globalResetAssert_of_mayWrite,
    fun _ _ _ _ => exec_probeEnable_of_mayWrite, fun _ _ _ => rfl⟩
  case writeData => exact fun _ _ _ _ _ hrun hfirst hstatus haddr hfree => exec_mpWriteData_of_accepted hrun hstatus haddr hfree hfirst
  case read =>
    intro s p i r hrun hfirst hstatus haddr hfree q
    rw [exec_mpReadResponse_of_accepted hrun hstatus haddr hfree hfirst]
    exact ⟨fun hclean => congrArg _ (if_neg (by simp [q, hclean])), fun hpoison => congrArg _ (if_pos hpoison)⟩
  case answer => exact fun _ _ _ _ => exec_mpWriteResponse_of_complete

end Sys2Proof.Machine
end


section
/-! PROOFS. Patch commands and the requests of the configuration engine (R361, R362, R364). -/

namespace Sys2Proof.Machine

section PatchRequests

variable {s : State} {r : EngReq}

/-- A `patch` that the charter grants waits for the engine (R361). -/
theorem State.patchCmd_of_granted {p : PanelNo} {c : QCmd} (hhead : s.head0 p.toNat 11 = some c) (hissued : c.issued = false)
    (hgranted : s.patchRefusal p.toNat (bits (c.word 0) 1 0) (bits (c.word 0) 7 2) (c.num 8 8) (c.word 16) = none) :
    s.patchCmd p.toNat (bits (c.word 0) 1 0) =
      ((s.markIssued p.toNat 0 c.ord).modPanel p.toNat (fun x => { x with engineWait := true })).ask
        ⟨bits (c.word 0) 1 0, bits (c.word 0) 7 2, bits (c.word 0) 8 8, c.num 8 8, c.word 16, some (p.toNat, c.ord)⟩ := by
  simp only [State.patchCmd, hhead, hissued, hgranted, ne_eq, not_true_eq_false, Bool.false_eq_true, or_self, if_false]

/-- The engine takes its next request when it is idle (R364). -/
theorem exec_engineRequestStart_of_idle {q : List EngReq} (hidle : s.cfg.cur = none) (hqueue : s.cfg.queue = r :: q) (hrun : s.arrayFrozen = false) :
    let u := setF (s.modCfg (fun c => { c with cur := some r, queue := q, phase := 1 })) Reg.CFG_STATUS_BUSY 1
    exec .engineRequestStart s = .next (match r.op with
      | 1 => u.startSwap r
      | 3 => (u.scrubPatch r.patch).endRequestCfg r 0
      | 4 => setF (u.modCfg (fun c => { c with phase := 4 })) Reg.CFG_STATUS_STATE 1
      | _ => u) := by
  simp only [exec_engineRequestStart, execEngineRequestStart, hidle, hqueue, State.engineRuns, hrun, Bool.not_false, not_true_eq_false, if_false] <;> rfl

section Copy

variable (hcur : s.cfg.cur = some r) (hphase : s.cfg.phase = 1) (hrun : s.arrayFrozen = false) (hlen : r.len ≤ 2 * 2 ^ 20)
  (haddr : r.len ≠ 0 → s.hbmRefused (if r.op = 5 then idMgmt else idHost) r.addr (r.addr + r.len - 1) = false)
  (hfree : s.hbmBusy r.addr r.len = false)
include hcur hphase hrun hlen haddr hfree

/-- The copy of a request within 2 MiB that HBM accepts is poisoned, or it is checked (R361). -/
theorem exec_preloadComplete_of_read : exec .preloadComplete s = .next (
    let q := s.hbmRead r.addr r.len
    if q.2.2 then q.1.preloadFailed r 8
    else match q.1.partialCheck r.patch r.len q.2.1 with
    | .error c => q.1.preloadFailed r c
    | .ok _ =>
      let s := setF (setF q.1 Reg.CFG_STAGE_VALID 1 r.staging) Reg.CFG_STAGE_PATCH r.patch r.staging
      let s := s.modCfg (fun c => { c with stage := SMap.set [] c.stage r.staging q.2.1, stageAddr := SMap.set 0 c.stageAddr r.staging r.addr })
      if r.op = 0 then s.endRequestCfg r 0 else s.startSwap { r with buf := 0 }) := by
  have hshort : ¬ 2 * 2 ^ 20 < r.len := Nat.not_lt.mpr hlen
  have hreach : ¬ (r.len ≠ 0 ∧ s.hbmRefused (if r.op = 5 then idMgmt else idHost) r.addr (r.addr + r.len - 1) = true) :=
    fun h => by simp [haddr h.1] at h
  simp only [exec_preloadComplete, execPreloadComplete, hcur, hphase, State.engineRuns, hrun, if_neg hshort, if_neg hreach, hfree, ne_eq,
    Bool.not_false, not_true_eq_false, Bool.false_eq_true, or_self, if_false] <;> rfl

end Copy

section Swap

variable (hcur : s.cfg.cur = some r) (hrun : s.arrayFrozen = false)
include hcur hrun

/-- The frames of a quiet patch are written from the buffer and read back, where the buffer still passes its checks (R362). -/
theorem exec_swapWriteStart_of_quiet {ok : Bool} (hphase : s.cfg.phase = 2) (hquiet : s.patchQuiet r.patch = true) :
    let l := SMap.get [] s.cfg.stage r.swapBuf
    exec (.swapWriteStart ok) s = .next (match s.partialCheck r.patch l.length l with
      | .error c => ((setF s Reg.CFG_STAGE_VALID 0 r.swapBuf).lastCode r c).endRequestCfg r c
      | .ok e =>
        if ok then (s.writeRegion r.patch e.2).modCfg (fun c => { c with phase := 3 })
        else
          let u := (setF (s.writeRegion r.patch e.2) Reg.CFG_STAGE_VALID 0 r.swapBuf).lastCode r 10
          (if r.op = 5 then u else u.patchFault r.patch 3 10).endRequestCfg r 10) := by
  simp only [exec_swapWriteStart, execSwapWriteStart, hcur, hphase, State.engineRuns, hrun, hquiet, ne_eq, Bool.not_false, not_true_eq_false,
    or_self, if_false]
  generalize s.partialCheck _ _ _ = checked
  cases checked with
  | error c => rfl
  | ok e => cases ok <;> rfl

/-- The seam of a written patch is released with the new load (R362). -/
theorem exec_swapRelease_of_written (hphase : s.cfg.phase = 3) :
    let b := r.swapBuf
    let a := SMap.get 0 s.cfg.stageAddr b
    let u := (s.newLoad r.patch (imSect (SMap.get [] s.cfg.stage b) 0).rclk).initRegion r.patch |>.release r.patch
    let u := setF (setF u Reg.CFG_STAGE_VALID 0 b) Reg.CFG_PATCH_STATUS_STATE 1 r.patch
    let u := setF (setF u Reg.CFG_REPAIR_ADDR_LO_ADDR a r.patch) Reg.CFG_REPAIR_ADDR_HI_ADDR (a / 2 ^ 32) r.patch
    exec .swapRelease s = .next ((setF u Reg.CFG_PATCH_STATUS_LAST_CODE 0 r.patch).endRequestCfg r 0) := by
  simp only [exec_swapRelease, execSwapRelease, hcur, hphase, State.engineRuns, hrun, ne_eq, Bool.not_false, not_true_eq_false, or_self, if_false]
  rfl

end Swap

end PatchRequests

/-- Settles O36: a `patch`, the start of a request, its copy, and the two steps of a swap. -/
theorem patchRequestsComplete : Obligations.PatchRequestsComplete := by
  unfold Obligations.PatchRequestsComplete
  refine ⟨?patch, ?start, ?copy, ?write, fun _ _ hcur hphase hrun => exec_swapRelease_of_written hcur hrun hphase⟩
  case patch =>
    intro s p c hhead hissued w hgranted r
    have hcmd (op : Nat) (hop : bits w 1 0 = op) : Host.Outcome.next (s.patchCmd p.toNat op) = r :=
      congrArg _ (hop ▸ State.patchCmd_of_granted hhead hissued hgranted)
    exact ⟨hcmd 0, hcmd 1, hcmd 2, hcmd 3⟩
  case start =>
    intro s r q hidle hqueue hrun u
    rw [exec_engineRequestStart_of_idle hidle hqueue hrun]
    refine ⟨?_, fun hop => by simp only [hop, u], fun hop => by simp only [hop, u], fun hop => by simp only [hop, u]⟩
    rintro (hop | hop | hop) <;> simp only [hop, u]
  case copy =>
    intro s r hcur hphase hrun hlen haddr hfree q b v
    rw [exec_preloadComplete_of_read hcur hphase hrun hlen haddr hfree]
    exact ⟨fun hpoison => congrArg _ (if_pos hpoison), fun hclean => congrArg _ (if_neg (by simp [q, hclean]))⟩
  case write =>
    intro s r hcur hphase hrun hquiet l
    exact ⟨exec_swapWriteStart_of_quiet hcur hrun hphase hquiet, exec_swapWriteStart_of_quiet hcur hrun hphase hquiet⟩

end Sys2Proof.Machine
end


section
/-! PROOFS. Full loads, repair, scrubbing, and the test port as a source (R358 to R360, R367 to R369). -/

namespace Sys2Proof.Machine

section FabricLoads

variable {s : State}

/-- The host's request for a full load from a source that the device has (R358). -/
theorem exec_fullLoad_of_mayWrite {v : Word} (hmay : s.mayWrite Reg.CFG_LOAD_CTRL_GO 0 0 = true) (hidle : flag s Reg.CFG_LOAD_CTRL_GO = false)
    (hsource : bits v.toNat 1 0 < 3) :
    exec (.fullLoad v) s = .next ((setF (setF s Reg.CFG_LOAD_CTRL_SRC (bits v.toNat 1 0)) Reg.CFG_LOAD_CTRL_GO 1).ask
      ⟨4, 1, bits v.toNat 1 0 + 1, getF s Reg.CFG_LOAD_ADDR_LO_VALUE + getF s Reg.CFG_LOAD_ADDR_HI_VALUE * 2 ^ 32,
       getF s Reg.CFG_LOAD_LEN_VALUE, none⟩) := by
  have hlegal : bits v.toNat 1 0 ≠ 3 := by omega
  simp only [exec_fullLoad, execFullLoad, State.hostWrite_ok hmay, hidle, hlegal, Bool.false_eq_true, if_false]

/-- A full load ends where its image has come: with the image in place, or with the golden one asked for, or blank (R360). -/
theorem exec_fullLoadEnd_of_image {t : State} {r : EngReq} {l : List Byte} (hcur : s.cfg.cur = some r) (hphase : s.cfg.phase = 4)
    (hrun : s.arrayFrozen = false) (hquiet : (List.range 48).all s.patchQuiet = true) (himage : s.fullImage r = some (t, .ok l)) :
    exec .fullLoadEnd s = .next (match t.fullCheck l with
      | .error c =>
        let u := (t.blankAll.allClocks).fullRecord r.buf c
        if r.buf = 3 then u.fullEnd r c 4
        else setF ((u.dropTap r).modCfg (fun x => { x with cur := some { r with buf := 3 } })) Reg.CFG_STATUS_LAST_CODE c
      | .ok w => ((t.fullWritten l w).fullRecord r.buf 0).fullEnd r 0 (if r.buf = 3 then 3 else 2)) := by
  simp only [exec_fullLoadEnd, execFullLoadEnd, hcur, hphase, State.engineRuns, hrun, hquiet, himage, ne_eq, Bool.not_false, not_true_eq_false,
    or_self, if_false]
  generalize t.fullCheck l = checked
  cases checked <;> rfl

/-- Firmware repeats the swap of the lowest faulted patch from its repair address (R368). -/
theorem exec_patchRepair_of_faulted {p : Nat} (hprofile : s.availability = true) (hfirmware : s.firmware = true)
    (hfaulted : (List.range 48).find? s.toRepair = some p) :
    let a := getF s Reg.CFG_REPAIR_ADDR_LO_ADDR p + getF s Reg.CFG_REPAIR_ADDR_HI_ADDR p * 2 ^ 32
    exec .patchRepair s = .next (s.ask ⟨5, p, 0, a, imTotal (s.hbmBytes a 64), none⟩) := by
  simp only [exec_patchRepair, execPatchRepair, hprofile, hfirmware, hfaulted, Bool.not_true, Bool.or_self, Bool.false_eq_true, if_false]

/-- The scrubber checks a frame that no upset and no parity error has met, and goes on with the next (R367, R369). -/
theorem exec_scrubFrameRead_of_clean {r : Nat} (hfreeze : getF s Reg.OBS_FRZ_STATUS_STATE ≠ 3) (hpowered : s.shutdown = false)
    (hload : s.fullLoading = false) (hregion : faRegion (getF s Reg.CFG_SCRUB_STATUS_FRAME) = some r) :
    let f := getF s Reg.CFG_SCRUB_STATUS_FRAME
    let u := s.setFrame f ((s.frame f).upset [])
    flag u Reg.CFG_SCRUB_CFG_EN = true → u.engaged r = false →
    exec (.scrubFrameRead [] false false) s = .next (setF (u.scrubFrame f r) Reg.CFG_SCRUB_STATUS_FRAME ((f + 1) % 114688)) := by
  intro f u hon hseam
  have hgo : ¬ (getF s Reg.OBS_FRZ_STATUS_STATE = 3 ∨ s.shutdown = true ∨ s.fullLoading = true) := by simp [hfreeze, hpowered, hload]
  simp only [exec_scrubFrameRead, execScrubFrameRead, if_neg hgo, hregion, Option.getD_some, and_false, Bool.false_eq_true, if_false]
  exact congrArg Host.Outcome.next ((if_neg (not_not_intro hon)).trans (by simp only [u, f] at hseam; simp only [hseam]; rfl))

theorem exec_scrubberWatchdog_of_firmware (h : s.firmware = true) :
    exec .scrubberWatchdog s = .next (bumpF s Reg.CFG_SCRUB_STATUS_RESTARTS) := by
  rw [exec_scrubberWatchdog, execScrubberWatchdog, if_pos h]

theorem exec_testPortCfgLoad_of_none_asked (h : (s.cfg.queue ++ s.cfg.cur.toList).all (fun r => !decide (r.op = 4 ∧ r.buf = 4)) = true) :
    exec .testPortCfgLoad s = .next ((({ s with tapIr := 0x2C } : State).modCfg (fun c => { c with tapBytes := [] })).ask ⟨4, 0, 4, 0, 0, none⟩) := by
  have hnone : ¬ (s.cfg.queue ++ s.cfg.cur.toList).any (fun r => decide (r.op = 4 ∧ r.buf = 4)) = true := by
    rw [Bool.not_eq_true, List.any_eq_not_all_not, h, Bool.not_true]
  rw [exec_testPortCfgLoad]
  exact congrArg Host.Outcome.next (if_neg hnone)

theorem exec_testPortImageWord_of_selected {w : Word} (h : s.tapIr = 0x2C) :
    exec (.testPortImageWord w) s = .next (s.modCfg (fun c => { c with tapBytes := c.tapBytes ++ leBytes 4 w.toNat })) := by
  rw [exec_testPortImageWord, execTestPortImageWord, if_pos h]

end FabricLoads

/-- Settles O37: a full load's request and its end, a repair, the scrubber, and the test port. -/
theorem fabricLoadsComplete : Obligations.FabricLoadsComplete := by
  unfold Obligations.FabricLoadsComplete
  refine ⟨fun _ _ => exec_fullLoad_of_mayWrite, ?loadEnd, fun _ _ => exec_patchRepair_of_faulted, fun _ _ => exec_scrubFrameRead_of_clean,
    fun _ => exec_scrubberWatchdog_of_firmware, fun _ => exec_testPortCfgLoad_of_none_asked, fun _ _ => exec_testPortImageWord_of_selected⟩
  intro s t r l hcur hphase hrun hquiet himage fullEnd
  rw [exec_fullLoadEnd_of_image hcur hphase hrun hquiet himage]
  generalize t.fullCheck l = checked
  cases checked <;> rfl

end Sys2Proof.Machine
end


section
/-! PROOFS. A `signal`'s message (R382) and refused accesses (R405, R406). -/

namespace Sys2Proof.Machine

section Signals

variable {s : State}

/-- The message of an unmasked vector is sent at once (R379). -/
theorem State.sendVector_of_unmasked {v : Nat} (hen : s.msixEn = true) (hrun : s.endpointStopped = false) (hmask : s.masked v = false) :
    s.sendVector v = s.emit .msix (s.vectorArgs v) := by
  simp only [State.sendVector, hen, hrun, hmask, Bool.not_false, Bool.and_self, Bool.false_eq_true, if_true, if_false]

/-- That of a masked vector is held in its pending bit (R379). -/
theorem State.sendVector_of_masked {v : Nat} (hen : s.msixEn = true) (hrun : s.endpointStopped = false) (hmask : s.masked v = true) :
    s.sendVector v = { s with pba := SMap.set false s.pba v true } := by
  simp only [State.sendVector, hen, hrun, hmask, Bool.not_false, Bool.and_self, if_true]

theorem State.getF_sendVector (v : Nat) (f : Fld) (i j : Nat) : getF (s.sendVector v) f i j = getF s f i j := by
  simp only [getF, State.sendVector_regs]

/-- The endpoint goes on through a write of any field but the freeze's STATE (R436). -/
theorem State.endpointStopped_setF {f : Fld} {v i j : Nat} (h : Reg.OBS_FRZ_STATUS_STATE.key 0 0 ≠ f.key i j) :
    (setF s f v i j).endpointStopped = s.endpointStopped := by
  rw [State.endpointStopped, getF_setF_ne s f _ v i j 0 0 h]
  rfl

/-- What a signal of panel n shows before its message leaves: VALUE and SEQ, with the command gone from its queue (R241). -/
def State.signalled (s : State) (n : Nat) (c : QCmd) : State :=
  setF (setF (s.popCmd n 0 c.ord) Reg.CMD_SIGNAL_VAL_VALUE (c.word 0) n) Reg.CMD_SIGNAL_SEQ_VALUE c.seq n

theorem State.signalled_shows (hwf : s.memWf = true) (n : Nat) (c : QCmd) :
    getF (s.signalled n c) Reg.CMD_SIGNAL_VAL_VALUE n = c.word 0 % 2 ^ 32 ∧ getF (s.signalled n c) Reg.CMD_SIGNAL_SEQ_VALUE n = c.seq % 2 ^ 32 := by
  have hpop : SMap.rising none (s.popCmd n 0 c.ord).regs = true := State.memWf_regs hwf
  have hkey : Reg.CMD_SIGNAL_VAL_VALUE.key n 0 ≠ Reg.CMD_SIGNAL_SEQ_VALUE.key n 0 := by
    simp only [Fld.key, Fld.addr, Reg.CMD_SIGNAL_VAL_VALUE, Reg.CMD_SIGNAL_SEQ_VALUE]
    omega
  constructor
  · rw [State.signalled, getF_setF_ne _ _ _ _ _ _ _ _ hkey]
    exact getF_setF_self _ _ _ _ _ hpop
  · exact getF_setF_self _ _ _ _ _ (rising_setF _ _ _ _ _ hpop)

theorem State.signalled_endpointStopped (p : PanelNo) (c : QCmd) : (s.signalled p.toNat c).endpointStopped = s.endpointStopped := by
  have hkey (f : Fld) (hbase : f.base < 0x300000) (hstep : f.s1 = 0x10000) (hsecond : f.s2 = 0) (hlo : f.lo = 0) :
      Reg.OBS_FRZ_STATUS_STATE.key 0 0 ≠ f.key p.toNat 0 := by
    have hp := p.isLt
    simp only [Fld.key, Fld.addr, Reg.OBS_FRZ_STATUS_STATE, hstep, hsecond, hlo]
    omega
  rw [State.signalled, State.endpointStopped_setF (hkey _ (by decide) rfl rfl rfl), State.endpointStopped_setF (hkey _ (by decide) rfl rfl rfl)]
  rfl

end Signals

/-- Settles O9: VALUE and SEQ are written, and the message leaves or waits in its pending bit. -/
theorem signalsSendOneMessage : Obligations.SignalsSendOneMessage := by
  unfold Obligations.SignalsSendOneMessage
  intro s p c hwf hhead v
  obtain ⟨hvalue, hseq⟩ := State.signalled_shows hwf p.toNat c
  have hstopped := State.signalled_endpointStopped (s := s) p c
  refine ⟨_, exec_signal_of_head hhead, ?_, ?_, fun hen hrun hmask => ?_, fun hen hrun hmask => ?_⟩
  · rw [State.getF_sendVector]
    exact hvalue
  · rw [State.getF_sendVector]
    exact hseq
  · have hsent := State.sendVector_of_unmasked (s := s.signalled p.toNat c) (v := v) hen (hstopped.trans hrun) hmask
    have hout := congrArg State.out hsent
    have hpba := congrArg State.pba hsent
    exact ⟨hout, hpba⟩
  · have hheld := State.sendVector_of_masked (s := s.signalled p.toNat c) (v := v) hen (hstopped.trans hrun) hmask
    have hout := congrArg State.out hheld
    have hpba := congrArg State.pba hheld
    exact ⟨hout, hpba⟩

section Violations

variable {s : State}

/-- No freezing of a master shows in the count of violations (R405). -/
theorem State.frozenMaster_counted {m : Nat} (hm : m < 256) : (bumpF s Reg.MGT_VIOL_CNT_VALUE).frozenMaster m = s.frozenMaster m := by
  have hkey : Reg.MGT_FROZEN_FROZEN.key (m / 32) 0 ≠ Reg.MGT_VIOL_CNT_VALUE.key 0 0 := by
    simp only [Fld.key, Fld.addr, Reg.MGT_FROZEN_FROZEN, Reg.MGT_VIOL_CNT_VALUE]
    omega
  rw [State.frozenMaster, fbit, bumpF, getF_setF_ne _ _ _ _ _ _ _ _ hkey]
  rfl

theorem State.violation_of_frozen {v : Violation} (hm : v.master < 256) (hfrozen : s.frozenMaster v.master = true) :
    s.violation v = bumpF s Reg.MGT_VIOL_CNT_VALUE :=
  if_pos ((State.frozenMaster_counted hm).trans hfrozen)

theorem State.violation_of_first {v : Violation} (hm : v.master < 256) (hfree : s.frozenMaster v.master = false) :
    let u := setFbit (bumpF s Reg.MGT_VIOL_CNT_VALUE) Reg.MGT_FROZEN_FROZEN (v.master % 32) true (v.master / 32)
    s.violation v = ((u.report 2 (masterUnit v.master) v.payload).raise 29).armFreeze 0 v.master :=
  if_neg (by rw [State.frozenMaster_counted hm, hfree]; decide)

theorem exec_hbmRequestAccept_of_refused {r : HbmReq} (hrun : s.hbmRuns = true)
    (hrefused : s.hbmGranted r.master.toNat r.write (r.addr.toNat / 64 * 64) (r.addr.toNat / 64 * 64 + 63) = false) :
    exec (.hbmRequestAccept r) s =
      .next (s.violation { master := r.master.toNat, kind := bit r.write, reason := 1, addr := r.addr.toNat / 64 * 64, len := 64 }) := by
  simp only [exec_hbmRequestAccept, execHbmRequestAccept, hrun, hrefused, not_true_eq_false, Bool.not_false, if_false, if_true]

end Violations

/-- Settles O10: what a violation does to a frozen and to another master, and a refused request of HBM as one. -/
theorem refusedAccesses : Obligations.RefusedAccesses := by
  unfold Obligations.RefusedAccesses
  exact ⟨fun _ _ => State.violation_of_frozen, fun _ _ => State.violation_of_first, fun _ _ => exec_hbmRequestAccept_of_refused⟩

end Sys2Proof.Machine
end


section
/-! PROOFS. The endpoint: requests of the host, and translation, link and power events (R371 to R389, R448, R455). -/

namespace Sys2Proof.Machine

section Configuration

variable {s : State}

theorem exec_configRequest_of_read {off : BitVec 12} {be : BitVec 4} {v : Word} (hserved : s.cfgServed = true) :
    exec (.configRequest false off be v) s =
      .next (s.emit .completion [off.toNat / 4 * 4, 0, 3] (leBytes 4 (s.cfgRead (off.toNat / 4 * 4)))) := by
  simp only [exec_configRequest, execConfigRequest, hserved, Bool.not_true, Bool.false_eq_true, if_false]

theorem exec_configRequest_of_write {off : BitVec 12} {be : BitVec 4} {v : Word} (hserved : s.cfgServed = true) :
    let o := off.toNat / 4 * 4
    exec (.configRequest true off be v) s = .next ((s.cfgWrite o ((v.toNat &&& beMask be) |||
      (if cfgClears o then 0 else s.cfgBits o &&& (2 ^ 32 - 1 - beMask be)))).emit .completion [o, 0, 3]) := by
  simp only [exec_configRequest, execConfigRequest, hserved, Bool.not_true, Bool.false_eq_true, if_false, if_true]

end Configuration

section Memory

variable {s : State}

/-- An access of BAR0 of a size or alignment that R7 does not allow is counted. -/
theorem exec_bar0InvalidAccess_of_served {a : Bar0Addr} {write : Bool} (hserved : s.hostServed = true) (hblock : s.blockServed a.toNat = true)
    (hwarm : s.warmServed a.toNat = true) : exec (.bar0InvalidAccess a write) s = .next (s.badSize a.toNat write) := by
  simp only [exec_bar0InvalidAccess, execBar0InvalidAccess, hserved, hblock, hwarm, Bool.and_self, if_true]

/-- A request of BAR2 that meets no refusal is served. -/
theorem State.bar2Check_of_granted {write : Bool} {a n : Nat} (hwarm : s.warming = none) (hfree : s.frozenMaster idHost = false)
    (hgranted : s.hbmGranted idHost write a (a + n - 1) = true) (hserved : s.hbmRefused idHost a (a + n - 1) = false) :
    s.bar2Check write a n = 0 := by
  simp only [State.bar2Check, hwarm, hfree, hgranted, hserved, Option.isSome_none, Bool.not_true, Bool.false_eq_true, if_false]

/-- A granted read of BAR2 returns its parts, unit by unit. -/
theorem exec_bar2Read_of_granted {addr : HbmAddr} {len : Nat} (hserved : s.bar2Served addr.toNat len = true) (hlen : len ≠ 0)
    (hcheck : s.bar2Check false (s.bar2Addr addr.toNat) len = 0) (hfree : s.hbmBusy (s.bar2Addr addr.toNat) len = false) :
    let a := s.bar2Addr addr.toNat
    exec (.bar2Read addr len []) s = .next (((hbmParts a len).zipIdx).foldl (fun (u : State) p =>
      let q := u.hbmRead p.1.1 p.1.2
      q.1.emit .completion [addr.toNat + (p.1.1 - a), 0, 2, bit q.2.2] q.2.1) (s.hbmTaken idHost a)) := by
  simp only [exec_bar2Read, execBar2Read, State.bar2Answer, hserved, hlen, hcheck, hfree, List.contains_nil, Bool.false_or, Bool.not_true,
    Bool.false_eq_true, false_and, if_false]

/-- A granted write of BAR2 stores its enabled bytes. -/
theorem exec_bar2Write_of_granted {addr : HbmAddr} {bs : List (Option Byte)} (hserved : s.bar2Served addr.toNat bs.length = true) (hbytes : bs ≠ [])
    (hcheck : s.bar2Check true (s.bar2Addr addr.toNat) bs.length = 0) (hfree : s.hbmBusy (s.bar2Addr addr.toNat) bs.length = false) :
    let a := s.bar2Addr addr.toNat
    exec (.bar2Write addr bs false) s = .next ((s.hbmAccept a bs.length).storeEnabled a [] bs) := by
  have hlen : bs.length ≠ 0 := mt List.length_eq_zero_iff.mp hbytes
  simp only [exec_bar2Write, execBar2Write, hserved, hlen, hcheck, hfree, Bool.not_true, Bool.false_eq_true, or_self, if_false]

/-- Unmasking a vector whose pending bit is set sends its message (R379). -/
theorem exec_msixUnmask_of_pending {v : Byte} (hmay : s.hostMay (0x15000C + 16 * v.toNat) true false = true) (hen : s.msixEn = true)
    (hall : s.msixMaskAll = false) (hpending : SMap.get false s.pba v.toNat = true) :
    let u : State := { s with msix := SMap.set 0 s.msix (4 * v.toNat + 3) 1 }
    exec (.msixUnmask v) s = .next (({ u with pba := SMap.set false u.pba v.toNat false } : State).emit .msix (u.vectorArgs v.toNat)) := by
  simp only [exec_msixUnmask, execMsixUnmask, State.hostAccess_ok hmay, State.unmask, hen, hall, hpending, Bool.not_false, Bool.and_self, if_true]

end Memory

section Translation

variable {s : State}

theorem exec_atsInvalidate_of_served {a : DWord} {n : Nat} (hserved : s.cfgServed = true) (hn : n ≠ 0) :
    exec (.atsInvalidate a n) s = .next { s with
      atc := s.atc.filter (fun pg => !inPages (a.toNat % 2 ^ 57) n pg)
      invalidating := s.invalidating ++ [(a.toNat % 2 ^ 57, n)] } := by
  simp only [exec_atsInvalidate, execAtsInvalidate, hserved, hn, Bool.not_true, Bool.false_eq_true, or_self, if_false]

theorem exec_invalidateComplete_of_idle {i : Nat × Nat} {r : List (Nat × Nat)} (hfirst : s.invalidating = i :: r) (hserved : s.cfgServed = true)
    (hidle : s.readsRange i.1 i.2 = false) :
    exec .invalidateComplete s = .next (({ s with invalidating := r } : State).emit .invalidateDone [i.1, i.2]) := by
  simp only [exec_invalidateComplete, execInvalidateComplete, hfirst, hserved, hidle, Bool.not_true, Bool.or_self, Bool.false_eq_true, if_false]

end Translation

section Link

variable {s : State}

theorem exec_pcieLinkUp_of_down {speed width : Nat} {flit rev : Bool} (hdown : s.pcieUp = false) (hperst : s.perst = false)
    (hruns : s.endpointStopped = false) (hslow : 1 ≤ speed) (hfast : speed ≤ 6) (hwidth : width = 1 ∨ width = 2 ∨ width = 4 ∨ width = 8) :
    exec (.pcieLinkUp speed width flit rev) s = .next { setF (setF (setF (setF s Reg.PCI_LINK_STATUS_SPEED speed) Reg.PCI_LINK_STATUS_WIDTH width)
      Reg.PCI_LINK_STATUS_FLIT (bit (flit || decide (speed = 6)))) Reg.PCI_LINK_STATUS_REV (bit rev) with pcieUp := true } := by
  have hlegal : ¬ (speed = 0 ∨ 6 < speed ∨ ¬ (width = 1 ∨ width = 2 ∨ width = 4 ∨ width = 8)) := by omega
  simp only [exec_pcieLinkUp, execPcieLinkUp, hdown, hperst, hruns, hlegal, Bool.or_self, decide_false, Bool.false_eq_true, if_false]

/-- DL_Down and a hot reset have one effect (R448). -/
theorem State.hotBy_of_up (hup : s.pcieUp = true) (hlive : s.deadlocked = false) : s.hotBy = s.hotReset := by
  simp only [State.hotBy, hup, hlive, Bool.not_true, Bool.or_self, Bool.false_eq_true, if_false]

theorem exec_d3hotEntry_of_d0 (hserved : s.cfgServed = true) (hstate : s.powerState ≠ 3) (hauto : flag s Reg.PWR_STBY_D3_AUTO = false) :
    exec .d3hotEntry s = .next (s.setCfgBits (capPM + 4) (s.cfgBits (capPM + 4) / 4 * 4 + 3)) := by
  have hauto' : flag (s.setCfgBits (capPM + 4) (s.cfgBits (capPM + 4) / 4 * 4 + 3)) Reg.PWR_STBY_D3_AUTO = false := hauto
  simp only [exec_d3hotEntry, execD3hotEntry, State.enterD3, hserved, hstate, hauto', Bool.false_eq_true, if_false, if_true]

theorem exec_d0Transition_of_d3 (hserved : s.cfgServed = true) (hstate : s.powerState ≠ 0) :
    exec .d0Transition s = .next ((s.setCfgBits (capPM + 4) (s.cfgBits (capPM + 4) / 4 * 4)).standbyLeave) := by
  simp only [exec_d0Transition, execD0Transition, State.enterD0, hserved, hstate, if_false, if_true]

end Link

/-- Settles O47: each clause is one request of the host that the endpoint serves. -/
theorem hostRequestsComplete : Obligations.HostRequestsComplete := by
  unfold Obligations.HostRequestsComplete
  refine ⟨?config, ?bar0, ?read, ?write, ?unmask⟩
  case config => exact fun _ _ _ _ hserved => ⟨exec_configRequest_of_read hserved, exec_configRequest_of_write hserved⟩
  case bar0 =>
    exact fun _ _ hserved hblock hwarm =>
      ⟨exec_bar0InvalidAccess_of_served hserved hblock hwarm, exec_bar0InvalidAccess_of_served hserved hblock hwarm⟩
  case read =>
    exact fun _ _ _ hserved hlen hwarm hfree hgranted hrefused hbusy =>
      exec_bar2Read_of_granted hserved hlen (State.bar2Check_of_granted hwarm hfree hgranted hrefused) hbusy
  case write =>
    exact fun _ _ _ hserved hbytes hwarm hfree hgranted hrefused hbusy =>
      exec_bar2Write_of_granted hserved hbytes (State.bar2Check_of_granted hwarm hfree hgranted hrefused) hbusy
  case unmask => exact fun _ _ => exec_msixUnmask_of_pending

/-- Settles O48: an invalidation and its answer, the link coming up and going down, and the power states. -/
theorem endpointEventsComplete : Obligations.EndpointEventsComplete := by
  unfold Obligations.EndpointEventsComplete
  refine ⟨?invalidate, ?answer, ?up, ?reset, ?d3, ?d0⟩
  case invalidate => exact fun _ _ _ => exec_atsInvalidate_of_served
  case answer => exact fun _ _ _ => exec_invalidateComplete_of_idle
  case up => exact fun _ _ _ _ _ => exec_pcieLinkUp_of_down
  case reset =>
    intro s hup hlive
    have hhot : (.next s.hotBy : Res) = .next s.hotReset := congrArg _ (State.hotBy_of_up hup hlive)
    exact ⟨hhot, hhot⟩
  case d3 => exact fun _ => exec_d3hotEntry_of_d0
  case d0 => exact fun _ => exec_d0Transition_of_d3

end Sys2Proof.Machine
end


section
/-! PROOFS. The SPDM responder and its mailbox (R387, R388). -/

namespace Sys2Proof.Machine

section Mailbox

variable {s : State}

/-- While firmware runs and the mailbox is free, a request is served as it arrives. -/
theorem State.doeTake_of_free (c : Instr) (f : State → State) (hserved : s.cfgServed = true) (hfree : s.doeHeld = none)
    (hfirmware : s.firmware = true) : s.doeTake c f = f s := by
  simp only [State.doeTake, hserved, hfree, hfirmware, Bool.not_true, Option.isSome_none, Bool.or_self, Bool.false_eq_true, if_false, if_true]

/-- One block of measurements is answered by itself, without a signature. -/
theorem State.doMeasurements_of_block {i : Nat} (hlow : 1 ≤ i) (hhigh : i ≤ 5) (nonce : List Byte) :
    s.doMeasurements i false nonce = s.emit .doe [7, 1, i, 1] (s.measurement i) := by
  have hall : i ≠ 0xFF := by omega
  have hlegal : ¬ (5 < i ∧ i ≠ 0xFF) := by omega
  have hcount : i ≠ 0 := by omega
  simp only [State.doMeasurements, hlegal, hall, hcount, List.flatMap_singleton, List.length_singleton, Bool.false_eq_true, if_false]

/-- One block of measurements, whose signature is a free value. -/
theorem State.doMeasurements_of_signed_block {i : Nat} (hlow : 1 ≤ i) (hhigh : i ≤ 5) (nonce : List Byte) :
    s.doMeasurements i true nonce = s.drawn.emit .doe [7, 1, i, 1]
      (s.measurement i ++ Config.sm2Sign s.draws s.aliasKey (nonce ++ s.measurement i)) := by
  have hall : i ≠ 0xFF := by omega
  have hlegal : ¬ (5 < i ∧ i ≠ 0xFF) := by omega
  have hcount : i ≠ 0 := by omega
  simp only [State.doMeasurements, State.sign, hlegal, hall, hcount, List.flatMap_singleton, List.length_singleton, if_false, if_true]

theorem exec_doeAbort_of_served (hserved : s.cfgServed = true) : exec .doeAbort s = .next { s with doeHeld := none } :=
  congrArg Host.Outcome.next (if_pos hserved)

end Mailbox

/-- Settles O49: each request is served at once by its own answer of R388. -/
theorem spdmRequestsComplete : Obligations.SpdmRequestsComplete := by
  unfold Obligations.SpdmRequestsComplete
  refine ⟨fun s hserved hfree hfirmware => ?answers, fun _ => exec_doeAbort_of_served⟩
  have htake (c : Instr) (f : State → State) : Host.Outcome.next (s.doeTake c f) = (.next (f s) : Res) :=
    congrArg _ (State.doeTake_of_free c f hserved hfree hfirmware)
  refine ⟨htake _ _, htake _ _, fun _ _ => htake _ _, htake _ _, fun _ _ => htake _ _, fun _ => htake _ _, fun i nonce hlow hhigh => ⟨?block, ?signed⟩,
    fun _ => htake _ _⟩
  case block => exact (htake _ _).trans (congrArg _ (State.doMeasurements_of_block hlow hhigh nonce))
  case signed => exact (htake _ _).trans (congrArg _ (State.doMeasurements_of_signed_block hlow hhigh nonce))

end Sys2Proof.Machine
end


section
/-! PROOFS. Resets, device standby, supplies, stretch and the power cap (R444 to R459). -/

namespace Sys2Proof.Machine

section Resets

variable {s : State}

theorem exec_perstNAssert_of_high (hhigh : s.perst = false) (hcool : s.shutdown = false) :
    exec .perstNAssert s = .next { s.coldReset.senseBanks with perst := true } := by
  simp only [exec_perstNAssert, execPerstNAssert, hhigh, hcool, Bool.false_eq_true, if_false]

/-- A cold reset that the pin began writes its cause when the pin is negated. -/
theorem exec_perstNNegate_of_low (hlow : s.perst = true) (hcool : s.shutdown = false) :
    exec .perstNNegate s = .next (if getF s Reg.PWR_RST_CAUSE_CAUSE = 0
      then setF { s with perst := false } Reg.PWR_RST_CAUSE_CAUSE 2 else { s with perst := false }) := by
  by_cases hcause : getF s Reg.PWR_RST_CAUSE_CAUSE = 0 <;>
    simp [exec_perstNNegate, execPerstNNegate, hlow, hcool, hcause]

/-- A warm reset begins unless one is in progress. -/
theorem State.plainWarm_of_idle (hidle : s.warming = none) (cause : Nat) : s.plainWarm cause = s.warmStart cause supplyFlds id := by
  simp only [State.plainWarm, hidle, Option.isSome_none, Bool.false_eq_true, if_false]

theorem exec_deviceWarmReset_of_host (hidle : s.warming = none) (hmay : s.mayWrite Reg.PWR_RST_WARM 0 0 = true)
    (hwarm : flag s Reg.PWR_RST_WARM = false) : exec (.deviceWarmReset false) s = .next (s.warmStart 4 supplyFlds id) := by
  simp only [exec_deviceWarmReset, execDeviceWarmReset, State.hostWrite_ok hmay, hwarm, State.plainWarm_of_idle hidle, Bool.false_eq_true, if_false]

theorem exec_deviceWarmReset_of_firmware (hidle : s.warming = none) (hruns : s.firmware = true) (hlive : s.deadlocked = false) :
    exec (.deviceWarmReset true) s = .next (s.warmStart 5 supplyFlds id) := by
  simp only [exec_deviceWarmReset, execDeviceWarmReset, hruns, hlive, State.plainWarm_of_idle hidle, Bool.not_false, Bool.and_self, if_true]

/-- The idle step of a warm reset in progress ends it (log entry 23). -/
theorem step_of_warming {c : Nat} (hqueue : s.pending = []) (hwarm : s.warming = some c) : step s = .next (s.warmEnd c) := by
  simp only [step, State.idle, hqueue, hwarm]

end Resets

section Standby

variable {s : State}

theorem State.standbyAsk_of_active (hwarm : s.warming = none) (hactive : getF s Reg.PWR_STBY_STATE = 0)
    (hrun : getF s Reg.OBS_FRZ_STATUS_STATE = 0) (hidle : s.cfg.cur = none) : s.standbyAsk = s.standbyNow := by
  simp only [State.standbyAsk, hwarm, hactive, hrun, hidle, ne_eq, not_true_eq_false, Option.isSome_none, Bool.false_eq_true, if_false]

theorem exec_standbyEnter_of_active (hmay : s.mayWrite Reg.PWR_STBY_ENTER 0 0 = true) (hwarm : s.warming = none)
    (hactive : getF s Reg.PWR_STBY_STATE = 0) (hrun : getF s Reg.OBS_FRZ_STATUS_STATE = 0) (hidle : s.cfg.cur = none) :
    exec .standbyEnter s = .next s.standbyNow := by
  simp only [exec_standbyEnter, execStandbyEnter, State.hostWrite_ok hmay, State.standbyAsk_of_active hwarm hactive hrun hidle]

theorem exec_standbyExit_of_standby (hmay : s.mayWrite Reg.PWR_STBY_EXIT 0 0 = true) (hstandby : getF s Reg.PWR_STBY_STATE = 2) :
    exec .standbyExit s = .next ((setF (setF s Reg.PWR_STBY_STATE 3) Reg.PWR_STBY_EXIT 1).emit .pin [pinSTBY, 1]) := by
  simp only [exec_standbyExit, execStandbyExit, State.hostWrite_ok hmay, State.standbyLeave, hstandby, if_true]

theorem exec_standbyExitComplete_of_leaving (hleaving : getF s Reg.PWR_STBY_STATE = 3) (hcool : s.shutdown = false) :
    exec .standbyExitComplete s = .next
      (setF (setF ((s.selfRefresh false).resetCounters.senseBanks) Reg.PWR_STBY_EXIT 0) Reg.PWR_STBY_STATE 0) := by
  simp only [exec_standbyExitComplete, execStandbyExitComplete, hleaving, hcool, ne_eq, not_true_eq_false, Bool.false_eq_true, or_self, if_false]

theorem State.coldBy_of_live (hlive : s.deadlocked = false) : s.coldBy = s.coldDone 2 := by
  simp only [State.coldBy, hlive, Bool.false_eq_true, if_false]

theorem exec_standbyExitTimeout_of_leaving (hleaving : getF s Reg.PWR_STBY_STATE = 3) (hlive : s.deadlocked = false) :
    exec .standbyExitTimeout s = .next (s.coldDone 2) := by
  simp only [exec_standbyExitTimeout, execStandbyExitTimeout, hleaving, State.coldBy_of_live hlive, ne_eq, not_true_eq_false, if_false]

end Standby

section Warning

variable {s : State} {r mv : Nat} (hr : r ≤ 2) (hmonitored : s.railMasked r = false) (hhigh : s.perst = false) (hcool : s.shutdown = false)
include hr hmonitored hhigh hcool

/-- The monitor of a rail sees a reading: the first branch of the command does not hold. -/
theorem exec_supplyWarning_of_monitored : exec (.supplyWarning r mv) s = .next
    (if warnLevel r + 10 ≤ mv then setF s (warnFlag r) 0
    else if warnLevel r ≤ mv then s
    else if r < 2 then (setF s (warnFlag r) 1).startEpisode
    else if flag s (warnFlag r) then s
    else ((setF s (warnFlag r) 1).report 0x0A (unitNo blkPWR 2) (brownPayload mv 0)).raise 30) := by
  simp only [exec_supplyWarning, execSupplyWarning, Nat.not_lt.mpr hr, hmonitored, hhigh, hcool, Bool.false_eq_true, or_self, if_false]

theorem exec_supplyWarning_of_good (hgood : warnLevel r + 10 ≤ mv) : exec (.supplyWarning r mv) s = .next (setF s (warnFlag r) 0) := by
  rw [exec_supplyWarning_of_monitored hr hmonitored hhigh hcool, if_pos hgood]

theorem exec_supplyWarning_of_low_core (hlow : mv < warnLevel r) (hcore : r < 2) :
    exec (.supplyWarning r mv) s = .next ((setF s (warnFlag r) 1).startEpisode) := by
  rw [exec_supplyWarning_of_monitored hr hmonitored hhigh hcool, if_neg (by omega), if_neg (by omega), if_pos hcore]

theorem exec_supplyWarning_of_low_fabric (hlow : mv < warnLevel r) (hfabric : r = 2) (hnew : flag s (warnFlag r) = false) :
    exec (.supplyWarning r mv) s = .next
      (((setF s (warnFlag r) 1).report 0x0A (unitNo blkPWR 2) (leBytes 2 mv ++ leBytes 2 0)).raise 30) := by
  rw [exec_supplyWarning_of_monitored hr hmonitored hhigh hcool, if_neg (by omega), if_neg (by omega), if_neg (by omega),
    if_neg (ne_true_of_eq_false hnew)]
  rfl

end Warning

section Faults

variable {s : State} {r us : Nat}

theorem exec_supplyFault_of_management (hrail : r = 3 ∨ r = 6) : exec (.supplyFault r us) s = .next s.powerOn :=
  congrArg Host.Outcome.next (if_pos hrail)

section Monitored
variable (hmonitored : s.railMasked r = false) (hlive : s.deadlocked = false)
include hmonitored hlive

theorem exec_supplyFault_of_core (hrail : r < 2) : exec (.supplyFault r us) s = .next (s.coreReset r us) := by
  have hmanagement : ¬ (r = 3 ∨ r = 6) := by omega
  have hknown : ¬ 6 < r := by omega
  simp only [exec_supplyFault, execSupplyFault, hmanagement, hknown, hmonitored, hlive, hrail, Bool.false_eq_true, or_self, if_false, if_true]

theorem exec_supplyFault_of_other (hrail : r = 2 ∨ r = 4 ∨ r = 5) : exec (.supplyFault r us) s = .next (s.coldDone 2) := by
  have hmanagement : ¬ (r = 3 ∨ r = 6) := by omega
  have hknown : ¬ 6 < r := by omega
  have hcore : ¬ r < 2 := by omega
  simp only [exec_supplyFault, execSupplyFault, hmanagement, hknown, hmonitored, hlive, hcore, State.coldBy_of_live hlive, Bool.false_eq_true,
    or_self, if_false]

end Monitored

theorem exec_localDroop_of_low {u mv k : Nat} (hlow : 30 < mv) (hunit : u < 2074) :
    exec (.localDroop u mv k) s = .next { s with droop := SMap.set 0 s.droop u (min k 16) } :=
  congrArg Host.Outcome.next (if_neg (by omega))

end Faults

section Cap

variable {s : State} {w k : Nat} (hruns : s.firmware = true) (hcool : s.shutdown = false)
include hruns hcool

theorem exec_powerCapUpdate_of_disabled (hoff : flag s Reg.PWR_CAP_EN = false) :
    exec (.powerCapUpdate w k) s = .next (setF { s with capOver := 0 } Reg.PWR_CAP_STATUS_STRETCH 0) := by
  simp only [exec_powerCapUpdate, execPowerCapUpdate, hruns, hcool, hoff, Bool.not_true, Bool.or_self, Bool.false_eq_true, not_false_eq_true,
    if_false, if_true]

/-- Over the limit, a stretch between its ends grows by at least one. -/
theorem exec_powerCapUpdate_of_over :
    let u := setF s Reg.PWR_CAP_STATUS_POWER (min w 2047)
    let old := getF s Reg.PWR_CAP_STATUS_STRETCH
    flag s Reg.PWR_CAP_EN = true → u.capLimit < w → 0 < old → old < 64 →
      exec (.powerCapUpdate w k) s = .next (setF { u with capOver := 0 } Reg.PWR_CAP_STATUS_STRETCH (min 64 (old + max 1 k))) := by
  intro u old hon hover hlow hhigh
  have htop : ¬ old = 64 := by omega
  have hrising : ¬ old = 0 := by omega
  simp only [u, old] at hover htop hrising
  simp only [exec_powerCapUpdate, execPowerCapUpdate, hruns, hcool, hon, hover, htop, hrising, u, old, Bool.not_true, Bool.or_self,
    Bool.false_eq_true, not_true_eq_false, if_false, if_true]

end Cap

/-- Settles O50: power-on, the PERST_N pin, and both steps of a device warm reset. -/
theorem resetsComplete : Obligations.ResetsComplete := by
  unfold Obligations.ResetsComplete
  refine ⟨?power, ?assert, ?negate, ?warm, ?ends⟩
  case power => exact fun _ => rfl
  case assert => exact fun _ => exec_perstNAssert_of_high
  case negate => exact fun _ => exec_perstNNegate_of_low
  case warm => exact fun _ hidle => ⟨exec_deviceWarmReset_of_host hidle, exec_deviceWarmReset_of_firmware hidle⟩
  case ends => exact fun _ _ => step_of_warming

/-- Settles O51: standby is entered, left, and either ended or turned into a cold reset. -/
theorem standbyCompletes : Obligations.StandbyCompletes := by
  unfold Obligations.StandbyCompletes
  refine ⟨?enter, ?exit, ?complete, ?timeout⟩
  case enter => exact fun _ => exec_standbyEnter_of_active
  case exit => exact fun _ => exec_standbyExit_of_standby
  case complete => exact fun _ => exec_standbyExitComplete_of_leaving
  case timeout => exact fun _ => exec_standbyExitTimeout_of_leaving

/-- Settles O52: the monitors' readings, the faults of each rail, the end of an episode, droops and the power cap. -/
theorem supplyEventsComplete : Obligations.SupplyEventsComplete := by
  unfold Obligations.SupplyEventsComplete
  refine ⟨?warning, ?fault, ?ended, ?droop, ?withdrawn, ?cap⟩
  case warning =>
    exact fun _ _ _ hr hmonitored hhigh hcool =>
      ⟨exec_supplyWarning_of_good hr hmonitored hhigh hcool, exec_supplyWarning_of_low_core hr hmonitored hhigh hcool,
        exec_supplyWarning_of_low_fabric hr hmonitored hhigh hcool⟩
  case fault =>
    exact fun _ _ _ => ⟨exec_supplyFault_of_management, fun hcore hmonitored hlive => exec_supplyFault_of_core hmonitored hlive hcore,
      fun hother hmonitored hlive => exec_supplyFault_of_other hmonitored hlive hother⟩
  case ended => exact fun _ _ _ hepisode => congrArg _ (if_pos hepisode)
  case droop => exact fun _ _ _ _ => exec_localDroop_of_low
  case withdrawn => exact fun _ _ => rfl
  case cap =>
    exact fun _ _ _ hruns hcool => ⟨exec_powerCapUpdate_of_disabled hruns hcool, exec_powerCapUpdate_of_over hruns hcool⟩

end Sys2Proof.Machine
end


section
/-! PROOFS. The management controller: boot, restart and recovery (R391 to R399), narrowing and the black box (R404, R411 to R417). -/

namespace Sys2Proof.Machine

section Boot

variable {s : State} {l : List Byte}

theorem exec_boot_of_bad_fuses (hrom : s.atRom = true) (hbad : s.fusesBad = true) : exec (.boot l) s = .next (setF s Reg.MGT_BOOT_STATUS_STATE 3) := by
  simp only [exec_boot, execBoot, hrom, hbad, Bool.not_true, Bool.false_eq_true, if_false, if_true]

/-- With good fuses the ROM recovers the black box and starts the first image whose checks pass. -/
theorem exec_boot_of_good_fuses (hrom : s.atRom = true) (hgood : s.fusesBad = false) :
    exec (.boot l) s = .next ((s.recoverBlackBox.bootImages (l.map (·.toNat))).resume) := by
  simp only [exec_boot, execBoot, chanList, hrom, hgood, Bool.not_true, Bool.false_eq_true, if_false]

theorem exec_managementReset_of_host (hmay : s.mayWrite Reg.MGT_CTRL_MRESET 0 0 = true) : exec .managementReset s = .next s.mgmtReset := by
  simp only [exec_managementReset, execManagementReset, State.hostWrite_ok hmay]

theorem exec_managementWatchdog_of_firmware (hruns : s.firmware = true) : exec .managementWatchdog s = .next s.mgmtReset := by
  simp only [exec_managementWatchdog, execManagementWatchdog, hruns, if_true]

/-- In recovery the buffer's image starts when its checks pass, and otherwise gives its code. -/
theorem exec_recover_of_recovery (hmay : s.mayWrite Reg.MGT_CTRL_RECOVER 0 0 = true) (hrecovery : s.mgmtState = 2) :
    exec (.recover l) s = .next (if s.fwCode s.fwBuffer = 0 then (s.startFirmware 2 s.fwBuffer (l.map (·.toNat))).resume
      else setF s Reg.MGT_BOOT_STATUS_CODE (s.fwCode s.fwBuffer)) := by
  simp only [exec_recover, execRecover, State.hostWrite_ok hmay, hrecovery, chanList, ne_eq, not_true_eq_false, if_false]
  generalize s.fwCode s.fwBuffer = code
  cases code <;> rfl

end Boot

section Narrowing

variable {s : State}

theorem exec_charterNarrowing_of_narrowing {a : Bar0Addr} {v : Word}
    (hfield : (fieldsAt a.toNat).any (fun x => narrowFlds.contains x.fld && decide (x.fld ≠ Reg.MGT_FROZEN_FROZEN)) = true)
    (hmay : s.hostMay a.toNat true (expertAt a.toNat) = true) :
    exec (.charterNarrowing a v) s = .next ((s.narrow a.toNat v.toNat).checkRings) := by
  simp only [exec_charterNarrowing, execCharterNarrowing, hfield, State.hostAccess_ok hmay, if_true]

/-- A narrowing write of a register of one field clears the bits written as 1. -/
theorem State.narrow_of_one_field {a v : Nat} {f : Fld} {i j : Nat} (hfields : fieldsAt a = [⟨f, i, j⟩]) (hwindow : f ≠ Reg.MGT_CHN_WIN_BASE)
    (hbit : narrowBit f = true) : s.narrow a v = setF s f (getF s f i - (getF s f i &&& bits v (f.lo + f.width - 1) f.lo)) i := by
  have hfind : [(⟨f, i, j⟩ : FldAt)].find? (fun x => decide (x.fld = Reg.MGT_CHN_WIN_BASE)) = none := by
    simp only [List.find?_cons, hwindow, decide_false, List.find?_nil]
  simp only [State.narrow, hfields, hfind, List.foldl_cons, List.foldl_nil, hbit, if_true]

end Narrowing

section Records

variable {s : State}

theorem exec_hostRecord_of_host {v : Word} (hmay : s.mayWrite Reg.MGT_BB_HOST_DATA 6 0 = true) :
    exec (.hostRecord v) s =
      .next (s.mgmtRecord 0x0E ((List.range 6).flatMap (fun i => leBytes 4 (SMap.get 0 s.bbHost i)) ++ leBytes 4 v.toNat)) := by
  simp only [exec_hostRecord, execHostRecord, State.hostWrite_ok hmay]

/-- The oldest queued record is committed with the next SEQ; one that reports a fault raises vector 29. -/
theorem State.commitNext_of_queued {r : FaultRec} {q : List FaultRec} (hnone : s.lostPend = 0) (hqueue : s.faultQ = r :: q) (htype : r.typ ≠ 0) :
    let u := ({ s with faultQ := q } : State).bbCommit r.typ r.unit r.payload
    s.commitNext = if faultType r.typ then u.raise 29 else u := by
  have hfirst : s.faultQ.dropWhile (fun r => decide (r.typ = 0)) = r :: q := by
    simp only [hqueue, List.dropWhile_cons, htype, decide_false, Bool.false_eq_true, if_false]
  simp only [State.commitNext, hnone, hfirst, ne_eq, not_true_eq_false, if_false]

theorem exec_blackBoxCommit_of_firmware (hruns : s.firmware = true) : exec .blackBoxCommit s = .next s.commitNext := by
  simp only [exec_blackBoxCommit, execBlackBoxCommit, hruns, if_true]

theorem exec_retirementSummary_of_due (hruns : s.firmware = true) (hdue : 4096 ≤ s.sinceSum) :
    exec .retirementSummary s = .next (s.writeSummaries s.namedTiles s.listedSects s.listedLanes) := by
  simp only [exec_retirementSummary, execRetirementSummary, hruns, hdue, and_self, if_true]

end Records

/-- Settles O54: the boot by its fuses and images, the two management resets, and recovery. -/
theorem bootCommandsComplete : Obligations.BootCommandsComplete := by
  unfold Obligations.BootCommandsComplete
  refine ⟨?boot, ?reset, ?recover⟩
  case boot => exact fun _ _ hrom => ⟨exec_boot_of_bad_fuses hrom, exec_boot_of_good_fuses hrom⟩
  case reset => exact fun _ => ⟨exec_managementReset_of_host, exec_managementWatchdog_of_firmware⟩
  case recover => exact fun _ _ => exec_recover_of_recovery

/-- Settles O56: a narrowing write, the host's record, a commit and the retirement summaries. -/
theorem managementRecordsComplete : Obligations.ManagementRecordsComplete := by
  unfold Obligations.ManagementRecordsComplete
  refine ⟨?narrowing, ?bits, ?host, ?commit, ?summary⟩
  case narrowing => exact fun _ _ _ => exec_charterNarrowing_of_narrowing
  case bits => exact fun _ _ _ _ _ _ => State.narrow_of_one_field
  case host => exact fun _ _ => exec_hostRecord_of_host
  case commit =>
    exact fun _ _ _ hruns hnone hqueue htype =>
      (exec_blackBoxCommit_of_firmware hruns).trans (congrArg _ (State.commitNext_of_queued hnone hqueue htype))
  case summary => exact fun _ => exec_retirementSummary_of_due

end Sys2Proof.Machine
end


section
/-! PROOFS. Snapshots, counters and trace (R424 to R434). -/

namespace Sys2Proof.Machine

section Snapshots

variable {s : State}

/-- A marker's copy in a tile that runs under a panel (R426). -/
theorem exec_snapMarkerCopyTile_of_marked {t : TileNo} {p : Nat} {m : SnapSt} (hrun : s.tileFrozen t.toNat = false)
    (hpanel : s.panelOf t.toNat = some p) (hmark : s.tileMark p t.toNat = some m) :
    exec (.snapMarkerCopyTile t) s = .next (s.copyMark p t.toNat m) := by
  simp only [exec_snapMarkerCopyTile, execSnapMarkerCopyTile, hrun, hpanel, hmark, Bool.false_eq_true, if_false]

/-- A marker's copy in a channel once nothing is ahead of it (R426). -/
theorem exec_snapMarkerCopyChannel_of_reached {k : Fin 9} {n : BitVec 6} {m : ChanMark} {r : List ChanMark}
    (hmarks : (s.chan k n.toNat).marks = m :: r) (hahead : m.ahead = 0) (hrun : s.chanHeld k n.toNat = false) :
    let b := ctrChan k n.toNat
    let u := ((s.copyCtr b 4 0 4).setCtr (b + 12) (markHeader m.num m.layer m.oper)).modChan k n.toNat (fun c => { c with marks := r })
    exec (.snapMarkerCopyChannel k n) s = .next ((u.modPanel m.panel (fun x => { x with snaps := x.snaps.map (fun q =>
      if q.ord = m.ord then { q with chans := q.chans.erase (k.val, n.toNat) } else q) })).finishSnaps m.panel) := by
  simp only [exec_snapMarkerCopyChannel, execSnapMarkerCopyChannel, hmarks, hahead, hrun, ne_eq, not_true_eq_false, Bool.false_eq_true, or_self,
    if_false]

/-- A broadcast copies every running unit and leaves the stopped ones to copy late (R429). -/
theorem exec_broadcastSnapshot_of_idle (hmay : s.mayWrite Reg.OBS_BSNAP_GO 0 0 = true) (hidle : flag s Reg.OBS_BSNAP_GO = false) :
    let late := allUnits.filter s.unitStopped
    let u := (allUnits.filter (fun x => !s.unitStopped x)).foldl (State.copyBroadcast false) s
    exec .broadcastSnapshot s =
      .next (setF (setF { u with bsnap := late } Reg.OBS_BSNAP_GO (bit (decide (late ≠ [])))) Reg.OBS_BSNAP_LATE 0) :=
  congrArg Host.Outcome.next ((State.hostWrite_ok hmay).trans (if_neg (ne_true_of_eq_false hidle)))

/-- A unit that owes a late copy makes it once its island runs again; the last one ends the broadcast. -/
theorem exec_broadcastLateCopy_of_due {x : Nat} (hdue : s.bsnap.contains x = true) (hrun : s.unitStopped x = false) :
    let u := bumpF (s.copyBroadcast true x) Reg.OBS_BSNAP_LATE
    let left := u.bsnap.filter (· ≠ x)
    exec (.broadcastLateCopy x) s = .next (if left = [] then setF { u with bsnap := left } Reg.OBS_BSNAP_GO 0 else { u with bsnap := left }) :=
  congrArg Host.Outcome.next (if_pos ⟨hdue, ne_true_of_eq_false hrun⟩)

theorem exec_counterReset_of_running (hmay : s.mayWrite Reg.OBS_CTR_CLR_ALL 0 0 = true) (hrun : s.arrayFrozen = false) :
    exec .counterReset s = .next s.resetCounters :=
  congrArg Host.Outcome.next ((State.hostWrite_ok hmay).trans (if_neg (ne_true_of_eq_false hrun)))

end Snapshots

section Trace

variable {s : State}

theorem exec_traceChunkDrain_of_full {t : TileNo} (hrun : s.tileFrozen t.toNat = false) (hfull : 128 ≤ s.unsent t.toNat) :
    exec (.traceChunkDrain t) s = .next (s.sendChunk t.toNat 128 false) := by
  simp only [exec_traceChunkDrain, execTraceChunkDrain, hrun, Nat.not_lt.mpr hfull, Bool.false_eq_true, or_self, if_false]

/-- The cluster writes its next chunk at WP of its ring, and WP advances (R434). -/
theorem exec_traceChunkWrite_of_enabled {k : BitVec 3} {c : Nat × Nat × Bool} (hnext : s.nextChunk k.toNat = some c) (hrun : s.arrayFrozen = false)
    (hen : flag s Reg.OBS_TRACE_LEN_EN k.toNat = true) (hstop : flag s Reg.OBS_TRACE_CFG_STOP = false) :
    let wp := getF s Reg.OBS_TRACE_WP_VALUE k.toNat
    let a := s.ringBase k.toNat + 2048 * (wp % s.ringLen k.toNat)
    s.hbmRefused (idMover k.toNat) a (a + 2047) = false → s.hbmBusy a 2048 = false →
    exec (.traceChunkWrite k) s = .next (setF ((s.hbmWrite a (s.chunkBytes c.1 c.2.1)).chunkDone c) Reg.OBS_TRACE_WP_VALUE (wp + 1) k.toNat) := by
  intro wp a hserved hfree
  simp only [a, wp] at hserved hfree
  simp only [exec_traceChunkWrite, execTraceChunkWrite, hnext, hrun, hen, hstop, hserved, hfree, a, wp, not_true_eq_false, Bool.false_eq_true,
    false_and, if_false]

/-- A flush sends every waiting record of every tile (R433). -/
theorem exec_traceFlush_of_idle (hmay : s.mayWrite Reg.OBS_TRACE_CTRL_FLUSH 0 0 = true) (hidle : flag s Reg.OBS_TRACE_CTRL_FLUSH = false) :
    let u := (s.tiles.map (·.1)).foldl (fun u t => u.flushTile t) s
    exec .traceFlush s = .next (setF u Reg.OBS_TRACE_CTRL_FLUSH (bit (u.chunks.any (fun c => c.2.2)))) :=
  congrArg Host.Outcome.next ((State.hostWrite_ok hmay).trans (if_neg (ne_true_of_eq_false hidle)))

/-- A ring within the cluster's windows is enabled (R434). -/
theorem exec_traceRingEnable_of_granted {k : BitVec 3} {v : Word} (hmay : s.mayWrite Reg.OBS_TRACE_LEN_EN k.toNat 0 = true)
    (hoff : flag s Reg.OBS_TRACE_LEN_EN k.toNat = false) (hon : bitAt v.toNat 31 = true) (hlen : bits v.toNat 23 0 ≠ 0)
    (hgranted : s.ringGranted k.toNat (bits v.toNat 23 0) = true) :
    exec (.traceRingEnable k v) s = .next (setF (setF s Reg.OBS_TRACE_LEN_LEN (bits v.toNat 23 0) k.toNat) Reg.OBS_TRACE_LEN_EN 1 k.toNat) := by
  simp only [exec_traceRingEnable, execTraceRingEnable, State.hostWrite_ok hmay, hoff, hon, hlen, hgranted, not_true_eq_false, Bool.false_eq_true,
    or_self, if_false]

end Trace

/-- Settles O57: the copies of a marker, of a broadcast and of a late unit, and the counter reset. -/
theorem snapshotCommandsComplete : Obligations.SnapshotCommandsComplete := by
  unfold Obligations.SnapshotCommandsComplete
  refine ⟨?tile, ?channel, ?broadcast, ?late, ?reset⟩
  case tile => exact fun _ _ _ _ => exec_snapMarkerCopyTile_of_marked
  case channel => exact fun _ _ _ _ _ => exec_snapMarkerCopyChannel_of_reached
  case broadcast => exact fun _ => exec_broadcastSnapshot_of_idle
  case late => exact fun _ _ => exec_broadcastLateCopy_of_due
  case reset => exact fun _ => exec_counterReset_of_running

/-- Settles O58: a chunk leaves its tile, is written to its ring, is flushed, and a ring is enabled. -/
theorem traceCommandsComplete : Obligations.TraceCommandsComplete := by
  unfold Obligations.TraceCommandsComplete
  refine ⟨?drain, ?write, ?flush, ?enable⟩
  case drain => exact fun _ _ => exec_traceChunkDrain_of_full
  case write => exact fun _ _ _ => exec_traceChunkWrite_of_enabled
  case flush => exact fun _ => exec_traceFlush_of_idle
  case enable => exact fun _ _ _ => exec_traceRingEnable_of_granted

end Sys2Proof.Machine
end


section
/-! PROOFS. The device freeze and the test port (R418, R435 to R442, R472). -/

namespace Sys2Proof.Machine

section Requests

variable {s : State}

/-- Outside standby and warm reset a request is queued (R435). -/
theorem State.requestFreeze_of_active (hactive : getF s Reg.PWR_STBY_STATE = 0) (hwarm : s.warming = none) (source : Nat) (full : Bool) :
    s.requestFreeze source full = { s with frzReq := s.frzReq ++ [(source, full, 0)] } := by
  simp only [State.requestFreeze, hactive, hwarm, ne_eq, not_true_eq_false, Option.isSome_none, Bool.false_eq_true, if_false]

theorem exec_freezePin_of_asserted (hactive : getF s Reg.PWR_STBY_STATE = 0) (hwarm : s.warming = none) (hhigh : s.frzPin = false)
    (hbooted : s.booted = true) (hen : flag s Reg.OBS_FRZ_CFG_PIN_EN = true) (hown : s.drivesPin = false) :
    exec (.freezePin true) s = .next { s with frzPin := true, frzReq := s.frzReq ++ [(1, flag s Reg.OBS_FRZ_CFG_PIN_SCOPE, 0)] } := by
  have hrequest := State.requestFreeze_of_active (s := { s with frzPin := true }) hactive hwarm
  have hask : (true && !s.frzPin && s.booted && flag s Reg.OBS_FRZ_CFG_PIN_EN && !s.drivesPin) = true := by
    rw [hhigh, hbooted, hen, hown]; rfl
  exact congrArg Host.Outcome.next ((if_pos hask).trans (hrequest 1 (flag s Reg.OBS_FRZ_CFG_PIN_SCOPE)))

theorem exec_freezePin_of_released : exec (.freezePin false) s = .next { s with frzPin := false } := by
  simp only [exec_freezePin, execFreezePin, Bool.false_and, Bool.false_eq_true, if_false]

theorem exec_frz_of_active (hactive : getF s Reg.PWR_STBY_STATE = 0) (hwarm : s.warming = none) :
    exec .frz s = .next { s with tapIr := 0x31, frzReq := s.frzReq ++ [(4, true, 0)] } := by
  have hrequest := State.requestFreeze_of_active (s := s.selectIr 0x31) hactive hwarm
  rw [exec_frz, execFrz, hrequest]
  rfl

theorem exec_freezePartialRequest_of_host (hwarm : s.warming = none) :
    let u := setF s Reg.OBS_FRZ_CTRL_PARTIAL 1
    s.mayWrite Reg.OBS_FRZ_CTRL_PARTIAL 0 0 = true → flag s Reg.OBS_FRZ_CTRL_PARTIAL = false → getF u Reg.PWR_STBY_STATE = 0 →
    exec .freezePartialRequest s = .next { u with frzReq := s.frzReq ++ [(2, false, 0)] } :=
  fun hmay hnew hactive =>
    congrArg Host.Outcome.next ((State.hostWrite_ok hmay).trans ((if_neg (ne_true_of_eq_false hnew)).trans
      (State.requestFreeze_of_active hactive hwarm 2 false)))

theorem exec_freezeFullRequest_of_host (hwarm : s.warming = none) :
    let u := setF s Reg.OBS_FRZ_CTRL_FULL 1
    s.mayWrite Reg.OBS_FRZ_CTRL_FULL 0 0 = true → flag s Reg.OBS_FRZ_CTRL_FULL = false → getF u Reg.PWR_STBY_STATE = 0 →
    exec .freezeFullRequest s = .next { u with frzReq := s.frzReq ++ [(2, true, 0)] } :=
  fun hmay hnew hactive =>
    congrArg Host.Outcome.next ((State.hostWrite_ok hmay).trans ((if_neg (ne_true_of_eq_false hnew)).trans
      (State.requestFreeze_of_active hactive hwarm 2 true)))

end Requests

section Freeze

variable {s : State}

/-- The oldest request decides, with its source and master (R437). -/
theorem exec_freezeDecision_of_running {src m : Nat} {full : Bool} {r : List (Nat × Bool × Nat)} (hfirst : s.frzReq = (src, full, m) :: r)
    (hrun : getF s Reg.OBS_FRZ_STATUS_STATE = 0) (hcool : s.shutdown = false) :
    let u := bumpF { s with frzReq := r, frzFull := full, frzHeld := false } Reg.OBS_FRZ_STATUS_COUNT
    exec .freezeDecision s = .next
      (setF (setF (setF u Reg.OBS_FRZ_STATUS_STATE 1) Reg.OBS_FRZ_STATUS_SOURCE src) Reg.OBS_FRZ_STATUS_MASTER m) := by
  simp only [exec_freezeDecision, execFreezeDecision, hfirst]
  exact congrArg Host.Outcome.next (if_pos ⟨hrun, ne_true_of_eq_false hcool⟩)

section Stopped
variable (hbegun : getF s Reg.OBS_FRZ_STATUS_STATE = 1)
include hbegun

/-- A partial freeze is recorded and raises vector 29 (R436). -/
theorem exec_freezeStopped_of_partial (hscope : s.frzFull = false) :
    let u := ((s.drivePin true).report 3 (unitNo blkOBS 0) (s.freezePayload 1)).raise 29
    exec .freezeStopped s = .next (setF (setF { u with frzHeld := false } Reg.OBS_FRZ_STATUS_STATE 2) Reg.OBS_FRZ_CTRL_PARTIAL 0) := by
  simp only [exec_freezeStopped, execFreezeStopped, State.endRequest, hbegun, hscope, ne_eq, not_true_eq_false, Bool.false_eq_true, if_false]

/-- A full freeze drains HBM into self-refresh, and its record is committed before the controller stops (R436). -/
theorem exec_freezeStopped_of_full (hscope : s.frzFull = true) :
    let u := (s.hbmDrain.selfRefresh true).sendFreezes.drivePin true
    let u := if u.mgmtState = 1 then u.bbCommit 3 (unitNo blkOBS 0) (u.freezePayload 2) else u
    exec .freezeStopped s = .next (setF (setF (setF { u with frzHeld := false } Reg.OBS_FRZ_STATUS_STATE 3) Reg.OBS_FRZ_CTRL_FULL 0)
      Reg.OBS_FRZ_CTRL_PARTIAL 0) := by
  simp only [exec_freezeStopped, execFreezeStopped, State.endRequest, hbegun, hscope, ne_eq, not_true_eq_false, Bool.false_eq_true, if_false, if_true]

end Stopped

/-- A partial freeze that its pin did not cause thaws when asked (R442). -/
theorem exec_freezeThaw_of_partial (hmay : s.mayWrite Reg.OBS_FRZ_CTRL_THAW 0 0 = true) (hfrozen : getF s Reg.OBS_FRZ_STATUS_STATE = 2)
    (hsource : getF s Reg.OBS_FRZ_STATUS_SOURCE ≠ 1) :
    exec .freezeThaw s = .next ((setF (((s.drivePin false).report 3 (unitNo blkOBS 0) (s.freezePayload 0)).raise 29)
      Reg.OBS_FRZ_STATUS_STATE 0).restartIslands) := by
  simp only [exec_freezeThaw, execFreezeThaw, State.hostWrite_ok hmay, hfrozen, hsource, false_and, if_false]

end Freeze

section TestPort

variable {s : State}

theorem exec_bypass_of_unlisted {c : Byte} {l : List Bool} (hcode : irListed c.toNat = false) :
    exec (.bypass c l) s = .next (({ s with tapIr := c } : State).emit .testData (0xFF :: ((false :: l).take l.length).map bit)) :=
  congrArg Host.Outcome.next (if_neg (ne_true_of_eq_false hcode))

/-- Words of a stopped unit are shifted out from the offset that CAP_SEL and the words before have reached (R441). -/
theorem exec_capRead_of_stopped {n : Nat} {l : List Byte}
    (hbytes : ({ s with tapIr := 0x2F } : State).capBytes s.tapUnit s.tapOffset (8 * n) = some l) :
    exec (.capRead n) s = .next { ({ s with tapIr := 0x2F } : State).emit .testData [0x2F] l with tapNext := s.tapNext + n } := by
  have hbytes' : (s.selectIr 0x2F).capBytes (s.selectIr 0x2F).tapUnit (s.selectIr 0x2F).tapOffset (8 * n) = some l := hbytes
  simp only [exec_capRead, execCapRead, hbytes']
  rfl

/-- FRZ_EXIT ends a full freeze with a warm reset (R442). -/
theorem exec_frzExit_of_full (hfrozen : getF s Reg.OBS_FRZ_STATUS_STATE = 3) (hcool : s.shutdown = false) (hidle : s.warming = none) :
    exec .frzExit s = .next (({ s with tapIr := 0x30 } : State).warmStart 6 supplyFlds id) := by
  have hwarm : ¬ (s.selectIr 0x30).warming.isSome = true := by simp [State.selectIr, hidle]
  exact congrArg Host.Outcome.next ((if_pos ⟨hfrozen, hcool⟩).trans (if_neg hwarm))

end TestPort

/-- Settles O59: requests, the decision, the stop of both scopes, and the thaw. -/
theorem freezeCommandsComplete : Obligations.FreezeCommandsComplete := by
  unfold Obligations.FreezeCommandsComplete
  refine ⟨?pins, ?host, ?decision, ?stopped, ?thaw⟩
  case pins =>
    exact fun _ hactive hwarm => ⟨exec_freezePin_of_asserted hactive hwarm, exec_freezePin_of_released, exec_frz_of_active hactive hwarm⟩
  case host => exact fun _ hwarm => ⟨exec_freezePartialRequest_of_host hwarm, exec_freezeFullRequest_of_host hwarm⟩
  case decision => exact fun _ _ _ _ _ => exec_freezeDecision_of_running
  case stopped => exact fun _ hbegun => ⟨exec_freezeStopped_of_partial hbegun, exec_freezeStopped_of_full hbegun⟩
  case thaw => exact fun _ => exec_freezeThaw_of_partial

/-- Settles O60: each instruction of the test port by its own command. -/
theorem testPortCommandsComplete : Obligations.TestPortCommandsComplete := by
  unfold Obligations.TestPortCommandsComplete
  intro s
  refine ⟨?idcode, fun _ _ => exec_bypass_of_unlisted, ?sample, rfl, fun _ => rfl, fun _ _ => exec_capRead_of_stopped, rfl, exec_frzExit_of_full⟩
  case idcode => rfl
  case sample => exact fun _ => rfl

end Sys2Proof.Machine
end


section
/-! PROOFS. What the step lemma of the canonical form rests on: folds, an outcome's state, and the rules that the laws of memory leave open. -/

namespace Sys2Proof.Machine

section CanonicalRules

open State

variable {s u : State}

/-- The state that an outcome goes on with, if any, is in canonical form. -/
def Res.memWf (r : Res) : Prop := ∀ u, r = .next u → u.memWf = true

theorem Res.memWf_next (h : s.memWf = true) : Res.memWf (.next s) := fun _ he => Host.Outcome.next.inj he ▸ h

theorem State.memWf_foldl {α : Type} {f : State → α → State} (hf : ∀ u a, u.memWf = true → (f u a).memWf = true) {l : List α} (h : s.memWf = true) :
    (l.foldl f s).memWf = true := foldl_keeps (p := fun u : State => u.memWf = true) hf l h

/-- A fold that carries a state beside something else. -/
theorem State.memWf_foldl_fst {α β : Type} {f : State × β → α → State × β} (hf : ∀ u a, u.1.memWf = true → (f u a).1.memWf = true) {l : List α}
    {q : State × β} (h : q.1.memWf = true) : (l.foldl f q).1.memWf = true := foldl_keeps (p := fun q : State × β => q.1.memWf = true) hf l h

theorem Tile.memWf_foldl {α : Type} {f : Tile → α → Tile} (hf : ∀ x a, x.memWf = true → (f x a).memWf = true) {l : List α} {x : Tile}
    (h : x.memWf = true) : (l.foldl f x).memWf = true := foldl_keeps (p := fun x : Tile => x.memWf = true) hf l h

theorem State.memWf_of_fst {β : Type} {p : State × β} {b : β} (h : p.1.memWf = true) (he : p = (u, b)) : u.memWf = true := by
  subst he
  exact h

/-- Of two states in canonical form, either. -/
theorem State.memWf_ite {c : Prop} [Decidable c] (hs : s.memWf = true) (hu : u.memWf = true) : (if c then s else u).memWf = true := by
  split
  · exact hs
  · exact hu

theorem State.memWf_ite_fst {β : Type} {c : Prop} [Decidable c] {p q : State × β} (hp : p.1.memWf = true) (hq : q.1.memWf = true) :
    (if c then p else q).1.memWf = true := by
  split
  · exact hp
  · exact hq

theorem Tile.memWf_ite {c : Prop} [Decidable c] {x y : Tile} (hx : x.memWf = true) (hy : y.memWf = true) : (if c then x else y).memWf = true := by
  split
  · exact hx
  · exact hy

theorem Res.memWf_ite {c : Prop} [Decidable c] {p q : Res} (hp : Res.memWf p) (hq : Res.memWf q) : Res.memWf (if c then p else q) := by
  split
  · exact hp
  · exact hq

/-- The state in which an instruction faults or issues is in canonical form. -/
def Issue.memWf : Issue → Prop
  | .fault s _ _ => s.memWf = true
  | .wait _ => True
  | .go e => e.st.memWf = true

theorem Issue.memWf_fault {code word : Nat} (h : s.memWf = true) : Issue.memWf (.fault s code word) := h
theorem Issue.memWf_wait {ctr : Nat} : Issue.memWf (.wait ctr) := trivial
theorem Issue.memWf_go {own : List PWrite} {later : List PEntry} {ctl : Ctl} {swap : Option Swap} (h : s.memWf = true) :
    Issue.memWf (.go ⟨s, own, later, ctl, swap⟩) := h

theorem Issue.memWf_ite {c : Prop} [Decidable c] {p q : Issue} (hp : Issue.memWf p) (hq : Issue.memWf q) : Issue.memWf (if c then p else q) := by
  split
  · exact hp
  · exact hq

theorem Res.memWf_refused {r : Refusal} : Res.memWf (.refused r) := by
  intro u he
  injection he

end CanonicalRules

section StateOperations

/-! The test port's instruction register. -/

open State

variable {s : State}

theorem State.memWf_selectIr {code : Byte} (h : s.memWf = true) : (s.selectIr code).memWf = true := memWf_congr h rfl rfl rfl rfl

end StateOperations

section TileOperands

/-! Loop status and special registers of a tile. -/

open State

variable {s : State}

theorem Tile.memWf_setLst {x : Tile} {d : Nat} {lcv : Bool} (h : x.memWf = true) : (x.setLst d lcv).memWf = true := Tile.memWf_setSprRaw h _ _

theorem Tile.memWf_setSpr {x : Tile} {code : Nat} {v : Word} (h : x.memWf = true) : (x.setSpr code v).memWf = true :=
  Tile.memWf_checkLcv (Tile.memWf_setSprRaw h _ _)

end TileOperands

section Containment

/-! Queues, stitches, and what a panel fault does (R245, R249, R250). -/

open State

variable {s : State}

theorem State.memWf_setPanel {p : Nat} {x : Panel} (h : s.memWf = true) : (s.setPanel p x).memWf = true := memWf_congr h rfl rfl rfl rfl
theorem State.memWf_modPanel {p : Nat} {f : Panel → Panel} (h : s.memWf = true) : (s.modPanel p f).memWf = true := memWf_setPanel h
theorem State.memWf_popCmd {p q ord : Nat} (h : s.memWf = true) : (s.popCmd p q ord).memWf = true := memWf_modPanel h

theorem State.memWf_launchIssued {t : Nat} (h : s.memWf = true) : (s.launchIssued t).memWf = true := by
  unfold State.launchIssued
  extract_lets s1
  have hs1 : s1.memWf = true := memWf_modTile h _ (fun _ hu => Tile.memWf_congr hu rfl rfl rfl rfl rfl rfl)
  refine memWf_ite h ?_
  split
  · exact hs1
  · split
    · exact hs1
    · exact memWf_ite (memWf_popCmd hs1) hs1

theorem State.memWf_postIrq {t k : Nat} (h : s.memWf = true) : (s.postIrq t k).memWf = true :=
  memWf_modTile h _ (fun _ hu => Tile.memWf_ite (Tile.memWf_setSprRaw hu _ _) hu)

theorem State.memWf_setStitch {n : Nat} {st : Option Stitch} (h : s.memWf = true) : (s.setStitch n st).memWf = true := memWf_congr h rfl rfl rfl rfl

theorem State.memWf_markBroken {n k : Nat} (h : s.memWf = true) : (s.markBroken n k).memWf = true := by
  unfold State.markBroken
  split
  · exact h
  · exact memWf_setF (memWf_setStitch h) _ _ _ _

theorem State.memWf_freezePanelWith {fault : State → Nat → State} {p : Nat} (hfault : ∀ (u : State) (v : Nat), u.memWf = true → (fault u v).memWf =
    true) (h : s.memWf = true) :
    (State.freezePanelWith fault s p).memWf = true := by
  unfold State.freezePanelWith
  extract_lets s1
  have hs1 : s1.memWf = true := memWf_drawn (memWf_modPanel (memWf_setF h _ _ _ _))
  exact memWf_foldl (fun _ _ hu => hfault _ _ (memWf_markBroken hu)) hs1

theorem State.memWf_panelFaultN {n p : Nat} (h : s.memWf = true) : (State.panelFaultN n s p).memWf = true := by
  induction n generalizing s p with
  | zero => exact h
  | succ n ih =>
    have hfault : ((((setF s Reg.CMD_PANEL_STATUS_FAULT 1 p).report 0 (unitNo blkCMD p) []).raise p).armFreeze 1).memWf = true :=
      memWf_armFreeze (memWf_raise (memWf_report (memWf_setF h _ _ _ _) _ _ _) _) _ _
    unfold State.panelFaultN
    refine memWf_ite h (memWf_ite hfault (memWf_ite (memWf_modPanel hfault) ?_))
    split
    · exact hfault
    · exact memWf_modPanel hfault
    · exact memWf_freezePanelWith (fun _ _ hu => ih hu) hfault

theorem State.memWf_panelFault {p : Nat} (h : s.memWf = true) : (s.panelFault p).memWf = true := memWf_panelFaultN h

theorem State.memWf_freezePanel {p : Nat} (h : s.memWf = true) : (s.freezePanel p).memWf = true :=
  memWf_ite (memWf_freezePanelWith (fun _ _ hu => memWf_panelFault hu) h) h

theorem State.memWf_faultAction {p : Nat} (h : s.memWf = true) : (s.faultAction p).memWf = true := by
  unfold State.faultAction
  split
  · exact h
  · exact memWf_modPanel h
  · exact memWf_freezePanel h

theorem State.memWf_breakStitch {n k : Nat} (h : s.memWf = true) : (s.breakStitch n k).memWf = true :=
  memWf_ite (memWf_panelFault (memWf_markBroken h)) h

theorem State.memWf_tilePanelFault {t : Nat} (h : s.memWf = true) : (s.tilePanelFault t).memWf = true := by
  unfold State.tilePanelFault
  split
  · exact memWf_panelFault h
  · exact h

theorem State.memWf_retireFreeze {t : Nat} (h : s.memWf = true) : (s.retireFreeze t).memWf = true := by
  unfold State.retireFreeze
  split
  · exact memWf_freezePanel (memWf_panelFault h)
  · exact h

end Containment

section CharterRefusals

/-! Violations and the host's accesses (R377, R403 to R406). -/

open State

variable {s : State}

theorem State.memWf_violation {v : Violation} (h : s.memWf = true) : (s.violation v).memWf = true := by
  unfold State.violation
  extract_lets s1
  have hs1 : s1.memWf = true := memWf_bumpF h _ _ _ _
  exact memWf_ite hs1 (memWf_armFreeze (memWf_raise (memWf_report (memWf_setFbit hs1 _ _ _ _ _) _ _ _) _) _ _)

theorem State.memWf_hostAccess {a len : Nat} {write expert : Bool} {f : State → State} (h : s.memWf = true)
    (hf : ∀ (u : State), u.memWf = true → (f u).memWf = true) :
    (s.hostAccess a len write expert f).memWf = true := memWf_ite h (memWf_ite (memWf_bumpF h _ _ _ _) (memWf_ite (hf _ h) (memWf_violation h)))

theorem State.memWf_hostWrite {f : Fld} {i j : Nat} {k : State → State} (h : s.memWf = true) (hk : ∀ (u : State), u.memWf = true → (k u).memWf = true)
    :
    (s.hostWrite f i j k).memWf = true := memWf_hostAccess h (fun _ hu => hk _ hu)

theorem State.memWf_discard {a v : Nat} (h : s.memWf = true) : (s.discard a v).memWf = true := memWf_logErr h _ _ _ _

end CharterRefusals

section HbmRequests

/-! Requests of HBM that wait, drains, channels and error marks. -/

open State

variable {s : State}

theorem State.memWf_setChF {f : Fld} {c v : Nat} (h : s.memWf = true) : (s.setChF f c v).memWf = true := memWf_setF h _ _ _ _
theorem State.memWf_showChannel {c : Nat} (h : s.memWf = true) : (s.showChannel c).memWf = true := memWf_setChF (memWf_setChF h)
theorem State.memWf_showStack {k : Nat} (h : s.memWf = true) : (s.showStack k).memWf = true := memWf_setF h _ _ _ _

theorem State.memWf_hbmLate {i a n : Nat} (h : s.memWf = true) : (s.hbmLate i a n).memWf = true :=
  memWf_ite h (memWf_foldl (fun _ _ hu => memWf_bumpChF hu _ _) (memWf_congr h rfl rfl rfl rfl))

theorem State.memWf_hbmTaken {i a : Nat} (h : s.memWf = true) : (s.hbmTaken i a).memWf = true := memWf_ite (memWf_sameMem h rfl) h

theorem State.memWf_trkLate {c : Nat} (h : s.memWf = true) : (s.trkLate c).memWf = true :=
  memWf_ite (memWf_foldl (fun _ _ hu => memWf_bumpChF hu _ _) (memWf_setTrk h _ _)) h

theorem State.memWf_setMp {p : Nat} {x : MpSt} (h : s.memWf = true) : (s.setMp p x).memWf = true := memWf_congr h rfl rfl rfl rfl
theorem State.memWf_mpAddr {p : Nat} (h : s.memWf = true) : (s.mpAddr p).memWf = true := memWf_bumpF h _ _ _ _
theorem State.memWf_setReq {p i : Nat} {r : MpReq} (h : s.memWf = true) : (s.setReq p i r).memWf = true := memWf_setMp h
theorem State.memWf_mpRefuse {p : Nat} (h : s.memWf = true) : (s.mpRefuse p).memWf = true := memWf_mpAddr (memWf_setF h _ _ _ _)

end HbmRequests

section MatrixStreams

/-! What a matrix stream reads in each ic. -/

open State

variable {s : State}

theorem State.memWf_readALine {t : Nat} {st : StreamSt} {c : Nat} (h : s.memWf = true) : (s.readALine t st c).1.memWf = true :=
  memWf_ite_fst h (memWf_osStreamLine h _ _)

theorem State.memWf_readARecs {t : Nat} {st : StreamSt} (h : s.memWf = true) : (s.readARecs t st).1.memWf = true := by
  unfold State.readARecs
  extract_lets c q1
  have hq1 : q1.1.memWf = true := memWf_readALine h
  exact hq1

theorem State.memWf_readB {t : Nat} {st : StreamSt} {l : Nat} {data : Bool} (h : s.memWf = true) : (s.readB t st l data).1.memWf = true :=
  memWf_ite_fst (memWf_osStreamLine h _ _) (memWf_linPLine h _ _ _)

theorem State.memWf_takeB {t : Nat} {st : StreamSt} {l : Option Nat} {data : Bool} (h : s.memWf = true) : (s.takeB t st l data).1.memWf = true := by
  unfold State.takeB
  split
  · exact h
  · extract_lets q1
    have hq1 : q1.1.memWf = true := memWf_readB h
    exact memWf_ite_fst h hq1

theorem State.memWf_chainPut {l : Nat} {v : PLine} {q : Nat} (h : s.memWf = true) : (State.chainPut l v s q).memWf = true :=
  memWf_modTile h _ (fun _ hu => Tile.memWf_congr hu rfl rfl rfl rfl rfl rfl)

theorem State.memWf_chainSend {t : Nat} {st : StreamSt} {o : Option Nat} (h : s.memWf = true) : (s.chainSend t st o).memWf = true := by
  unfold State.chainSend
  split
  · exact h
  · exact memWf_ite (memWf_foldl (fun _ _ hu => memWf_chainPut hu) h) h

theorem State.memWf_chainTake {t : Nat} {st : StreamSt} {o : Option Nat} (h : s.memWf = true) : (s.chainTake t st o).1.memWf = true := by
  unfold State.chainTake
  split
  · exact h
  · exact memWf_ite_fst (memWf_foldl (fun _ _ hu => memWf_chainPut hu) (memWf_hwEvent (memWf_bumpF (memWf_setF h _ _ _ _) _ _ _ _) _ _))
      (memWf_ite_fst h h)

theorem State.memWf_readBs {t : Nat} {o : Tile} {st : StreamSt} (h : s.memWf = true) : (s.readBs t o st).1.memWf = true := by
  unfold State.readBs
  extract_lets p q1 sc q2 q3
  have hq1 : q1.1.memWf = true := memWf_chainTake h
  have hq2 : q2.1.memWf = true := memWf_takeB h
  have hq3 : q3.1.memWf = true := memWf_takeB hq2
  exact memWf_ite_fst (memWf_chainTake hq1) (memWf_chainSend (memWf_chainSend hq3))

theorem State.memWf_readLate {t : Nat} {o : Tile} {st : StreamSt} (h : s.memWf = true) : (s.readLate t o st).1.memWf = true :=
  memWf_foldl_fst (fun _ _ hu => memWf_takeB hu) h

end MatrixStreams

section Ticks

/-! One ic of a tile: trees, streams, swaps, the back bank, results in flight. -/

open State

variable {s : State}

theorem Tile.memWf_setFront {x : Tile} {b : SMap AccRec} (h : x.memWf = true) : (x.setFront b).memWf = true :=
  Tile.memWf_ite (Tile.memWf_congr h rfl rfl rfl rfl rfl rfl) (Tile.memWf_congr h rfl rfl rfl rfl rfl rfl)

theorem Tile.memWf_setBack {x : Tile} {b : SMap AccRec} (h : x.memWf = true) : (x.setBack b).memWf = true :=
  Tile.memWf_ite (Tile.memWf_congr h rfl rfl rfl rfl rfl rfl) (Tile.memWf_congr h rfl rfl rfl rfl rfl rfl)

theorem State.memWf_matFlag {t : Nat} {f : Fld} {b : Bool} (h : s.memWf = true) : (s.matFlag t f b).memWf = true := memWf_ite (memWf_setF h _ _ _ _) h

theorem State.memWf_recFor {t : Nat} {st : StreamSt} {b i : Nat} (h : s.memWf = true) : (s.recFor t st b i).1.memWf = true := by
  unfold State.recFor
  extract_lets c q1
  have hq1 : q1.1.memWf = true := memWf_readALine h
  split
  · exact h
  · exact hq1

theorem State.memWf_cellAdd {t : Nat} {st : StreamSt} {b i : Nat} {a : ARec} {j : Nat} (h : s.memWf = true) :
    (State.cellAdd t st b i a s j).memWf = true := by
  unfold State.cellAdd
  extract_lets x1 q1
  have hx1 : x1.memWf = true := memWf_tile h _
  exact memWf_matFlag (memWf_setTile h _ (Tile.memWf_setFront hx1))

theorem State.memWf_rowAdd {t : Nat} {st : StreamSt} {i : Nat} (h : s.memWf = true) : (State.rowAdd t st s i).memWf = true := by
  unfold State.rowAdd
  refine memWf_foldl (fun u a hu => ?_) h
  extract_lets q1
  have hq1 : q1.1.memWf = true := memWf_recFor hu
  exact memWf_cellAdd hq1

theorem State.memWf_streamCells {t : Nat} {st : StreamSt} (h : s.memWf = true) : (State.streamCells t s st).memWf = true :=
  memWf_foldl (fun _ _ hu => memWf_rowAdd hu) h

theorem State.memWf_aRead {t : Nat} (h : s.memWf = true) : (s.aRead t).memWf = true := by
  unfold State.aRead
  dsimp only
  split
  · exact h
  · split
    · exact h
    · exact memWf_modTile (memWf_readARecs h) _ (fun _ hu => Tile.memWf_ite (Tile.memWf_congr hu rfl rfl rfl rfl rfl rfl)
        (Tile.memWf_congr hu rfl rfl rfl rfl rfl rfl))

theorem State.memWf_eachStream {t : Nat} {k : State → StreamSt → State × StreamSt} (h : s.memWf = true)
    (hk : ∀ (u : State) (v : StreamSt), u.memWf = true → (k u v).1.memWf = true) :
    (s.eachStream t k).memWf = true := by
  unfold State.eachStream
  extract_lets q1
  have hq1 : q1.1.memWf = true := by
    refine memWf_foldl_fst (fun a a1 hu => ?_) h
    extract_lets q2
    have hq2 : q2.1.memWf = true := hk _ _ hu
    exact hq2
  exact memWf_modTile hq1 _ (fun _ hu => Tile.memWf_congr hu rfl rfl rfl rfl rfl rfl)

theorem State.memWf_bRead {t : Nat} {o : Tile} (h : s.memWf = true) : (s.bRead t o).memWf = true :=
  memWf_eachStream h (fun _ _ hu => memWf_readBs hu)

theorem State.memWf_lateRead {t : Nat} (h : s.memWf = true) : (s.lateRead t).memWf = true :=
  memWf_ite (memWf_eachStream h (fun _ _ hu => memWf_readLate hu)) h

theorem State.memWf_latchForce {t : Nat} (h : s.memWf = true) : (s.latchForce t).memWf = true :=
  memWf_modTile h _ (fun _ hu => Tile.memWf_congr hu rfl rfl rfl rfl rfl rfl)

theorem State.memWf_streamTick {t : Nat} (h : s.memWf = true) : (s.streamTick t).memWf = true := by
  unfold State.streamTick
  extract_lets s1 x1 s2 ran s3 s4 s5
  have hs1 : s1.memWf = true := memWf_ite h (memWf_latchForce h)
  have hs2 : s2.memWf = true := memWf_ite (memWf_countTile hs1 _ _ _) hs1
  have hs3 : s3.memWf = true := memWf_modTile hs2 _ (fun _ hu => Tile.memWf_congr hu rfl rfl rfl rfl rfl rfl)
  have hs4 : s4.memWf = true := memWf_lateRead hs3
  have hs5 : s5.memWf = true := memWf_foldl (fun _ _ hu => memWf_streamCells hu) hs4
  exact memWf_ite hs1 (memWf_bRead (memWf_aRead hs5))

theorem State.memWf_parErrors {t n : Nat} (h : s.memWf = true) : (s.parErrors t n).memWf = true :=
  memWf_ite h (memWf_foldl (fun _ _ hu => memWf_report hu _ _ _) (memWf_hwEvent (memWf_bumpF (memWf_setF h _ _ _ _) _ _ _ _) _ _))

theorem State.memWf_convertRow {t ofmt : Nat} {recs : List AccRec} (h : s.memWf = true) : (s.convertRow t ofmt recs).1.memWf = true := by
  unfold State.convertRow
  extract_lets c s1
  have hs1 : s1.memWf = true := memWf_matFlag h
  exact memWf_matFlag hs1

theorem Tile.memWf_putLine {x : Tile} {toStore : Bool} {dst : Nat} {v : Line} (h : x.memWf = true) : (x.putLine toStore dst v).memWf = true :=
  Tile.memWf_ite (Tile.memWf_osStoreLine h _ _) (Tile.memWf_setVec h _ _)

theorem State.memWf_drainRow {t r ofmt : Nat} {toStore : Bool} {dst : Nat} {bias : Option Line} (h : s.memWf = true) :
    (s.drainRow t r ofmt toStore dst bias).memWf = true := by
  unfold State.drainRow
  extract_lets x1 recs s1 q1 row
  have hs1 : s1.memWf = true := memWf_parErrors h
  have hq1 : q1.1.memWf = true := memWf_convertRow hs1
  exact memWf_modTile hq1 _ (fun _ hu => Tile.memWf_putLine (Tile.memWf_setBack hu))

theorem State.memWf_drainRawPart {t k : Nat} {toStore : Bool} {dst : Nat} (h : s.memWf = true) : (s.drainRawPart t k toStore dst).memWf = true := by
  unfold State.drainRawPart
  extract_lets recs s1
  have hs1 : s1.memWf = true := memWf_parErrors h
  exact memWf_modTile hs1 _ (fun _ hu => Tile.memWf_putLine hu)

theorem State.memWf_loadRawPart {t row k : Nat} {fromStore : Bool} {src : Nat} (h : s.memWf = true) :
    (s.loadRawPart t row k fromStore src).memWf = true := by
  unfold State.loadRawPart
  extract_lets q1
  have hq1 : q1.1.memWf = true := memWf_osStreamLine h _ _
  exact memWf_ite (memWf_modTile hq1 _ (fun _ hu => Tile.memWf_setBack hu)) (memWf_ite (memWf_modTile h _ (fun _ hu => Tile.memWf_setBack hu)) h)

theorem State.memWf_bbStep {t : Nat} {op : BBOp} {k : Nat} (h : s.memWf = true) : (s.bbStep t op k).memWf = true := by
  unfold State.bbStep
  split
  · exact memWf_drainRow h
  · exact memWf_drainRawPart h
  · exact memWf_modTile h _ (fun _ hu => Tile.memWf_setBack hu)
  · exact memWf_modTile h _ (fun _ hu => Tile.memWf_setBack hu)
  · exact memWf_loadRawPart h
  · exact memWf_modTile h _ (fun _ hu => Tile.memWf_setBack hu)
  · exact h

theorem State.memWf_bbTick {t : Nat} {o : Tile} (h : s.memWf = true) : (s.bbTick t o).memWf = true := by
  unfold State.bbTick
  dsimp only
  refine memWf_ite ?_ h
  split
  · exact memWf_modTile (memWf_bbStep h) _ (fun _ hu => Tile.memWf_congr hu rfl rfl rfl rfl rfl rfl)
  · exact h

theorem State.memWf_treeCapture {t : Nat} {r : TreeSt} (h : s.memWf = true) : (s.treeCapture t r).1.memWf = true := by
  unfold State.treeCapture
  extract_lets b rows s1 cols
  have hs1 : s1.memWf = true := memWf_parErrors h
  exact memWf_modTile hs1 _ (fun _ hu => Tile.memWf_setBack hu)

theorem State.memWf_treeTick {t : Nat} (h : s.memWf = true) : (s.treeTick t).memWf = true := by
  unfold State.treeTick
  refine memWf_foldl (fun u a hu => ?_) (memWf_modTile h _ (fun _ hu => Tile.memWf_congr hu rfl rfl rfl rfl rfl rfl))
  extract_lets q1
  have hq1 : q1.1.memWf = true := memWf_ite_fst (memWf_treeCapture hu) hu
  exact memWf_modTile hq1 _ (fun _ hu1 => Tile.memWf_congr hu1 rfl rfl rfl rfl rfl rfl)

theorem State.memWf_doSwap {t : Nat} {w : Option Swap} (h : s.memWf = true) : (s.doSwap t w).memWf = true := by
  unfold State.doSwap
  split
  · exact h
  · extract_lets s1
    have hs1 : s1.memWf = true := memWf_matFlag h
    exact memWf_modTile hs1 _ (fun _ hu => Tile.memWf_congr hu rfl rfl rfl rfl rfl rfl)

theorem State.memWf_heldSwap {t : Nat} {o : State} (h : s.memWf = true) : (s.heldSwap t o).memWf = true := by
  unfold State.heldSwap
  refine memWf_ite ?_ (memWf_ite (memWf_countTile h _ _ _) h)
  split
  · exact memWf_doSwap (memWf_modTile h _ (fun _ hu => Tile.memWf_congr hu rfl rfl rfl rfl rfl rfl))
  · exact h

theorem State.memWf_fltWindow {t : Nat} (h : s.memWf = true) : (s.fltWindow t).memWf = true :=
  memWf_ite (memWf_setTile h _ (Tile.memWf_congr (memWf_tile h _) rfl rfl rfl rfl rfl rfl)) h

theorem State.memWf_tick {t : Nat} (h : s.memWf = true) : (s.tick t).memWf = true := by
  unfold State.tick
  extract_lets s1 s2 s3 s4 s5 s6 s7
  have hs2 : s2.memWf = true := memWf_treeTick h
  have hs3 : s3.memWf = true := memWf_streamTick hs2
  have hs4 : s4.memWf = true := memWf_heldSwap (memWf_bbTick hs3)
  have hs5 : s5.memWf = true := memWf_ite (memWf_countTile hs4 _ _ _) hs4
  have hs6 : s6.memWf = true := memWf_ite (memWf_countTile hs5 _ _ _) hs5
  have hs7 : s7.memWf = true := memWf_fltWindow hs6
  exact memWf_modTile hs7 _ (fun _ hu => Tile.memWf_congr hu rfl rfl rfl rfl rfl rfl)

end Ticks

section NetworkOperations

/-! Flights, links and what a message counts on its way. -/

open State

variable {s : State}

theorem State.memWf_modLink {t port : Nat} {f : LinkSt → LinkSt} (h : s.memWf = true) : (s.modLink t port f).memWf = true :=
  memWf_congr h rfl rfl rfl rfl

theorem State.memWf_countPath {cls : Nat} {path : List (Nat × Nat)} (h : s.memWf = true) : (s.countPath cls path).memWf = true :=
  memWf_foldl (fun _ _ hu => memWf_countRouter hu _ _ _) h

theorem Tile.memWf_setQueue {x : Tile} {c : Nat} {q : List Msg} (h : x.memWf = true) : (x.setQueue c q).memWf = true := by
  unfold Tile.setQueue
  split
  · exact Tile.memWf_congr h rfl rfl rfl rfl rfl rfl
  · exact Tile.memWf_congr h rfl rfl rfl rfl rfl rfl
  · exact Tile.memWf_congr h rfl rfl rfl rfl rfl rfl
  · exact Tile.memWf_congr h rfl rfl rfl rfl rfl rfl

theorem State.memWf_enqueue {t c : Nat} {m : Msg} (h : s.memWf = true) : (s.enqueue t c m).memWf = true :=
  memWf_countTile (memWf_modTile h _ (fun _ hu => Tile.memWf_setQueue hu)) _ _ _

theorem State.memWf_badRoute {t : Nat} (h : s.memWf = true) : (s.badRoute t).memWf = true := memWf_bumpF (memWf_setF h _ _ _ _) _ _ _ _

theorem State.memWf_launchMsg {o : Origin} {entry : Nat} {m : Msg} (h : s.memWf = true) : (s.launchMsg o entry m).memWf = true :=
  memWf_congr h rfl rfl rfl rfl

theorem State.memWf_stitchSend {n : Nat} {src : Nat × Nat} {ic : Nat} {data : Line} {trl : DWord} (h : s.memWf = true) :
    (s.stitchSend n src ic data trl).memWf = true := by
  unfold State.stitchSend
  split
  · exact h
  · extract_lets h2 m s1
    have hs1 : s1.memWf = true := memWf_setStitch h
    exact memWf_ite (memWf_setF hs1 _ _ _ _) hs1

theorem State.memWf_injectTile {t cls : Nat} {route : Word} {data : Line} (h : s.memWf = true) : (s.injectTile t cls route data).memWf = true :=
  memWf_ite (memWf_ite (memWf_stitchSend h) (memWf_postIrq (memWf_badRoute h))) (memWf_ite (memWf_launchMsg h) (memWf_postIrq (memWf_badRoute h)))

end NetworkOperations

section EndpointOperations

/-! Reads of host memory and page requests. -/

open State

variable {s : State}

theorem State.memWf_setCfgBits {o v : Nat} (h : s.memWf = true) : (s.setCfgBits o v).memWf = true := memWf_congr h rfl rfl rfl rfl
theorem State.memWf_aerStatus {off b : Nat} (h : s.memWf = true) : (s.aerStatus off b).memWf = true := memWf_setCfgBits h

theorem State.memWf_aerUncorr {b : Nat} (h : s.memWf = true) : (s.aerUncorr b).memWf = true :=
  memWf_report (memWf_bumpF (memWf_aerStatus h) _ _ _ _) _ _ _

theorem State.memWf_cachePage {a : Nat} (h : s.memWf = true) : (s.cachePage a).memWf = true := memWf_ite h (memWf_congr h rfl rfl rfl rfl)

end EndpointOperations

section MoverOperations

/-! Channels of the movers: state, announcements, aborts. -/

open State

variable {s : State}

theorem State.memWf_setChan {k n : Nat} {c : Chan} (h : s.memWf = true) : (s.setChan k n c).memWf = true :=
  memWf_setF (memWf_congr h rfl rfl rfl rfl) _ _ _ _

theorem State.memWf_modChan {k n : Nat} {f : Chan → Chan} (h : s.memWf = true) : (s.modChan k n f).memWf = true := memWf_setChan h
theorem State.memWf_setChanState {k n v : Nat} (h : s.memWf = true) : (s.setChanState k n v).memWf = true := memWf_setF h _ _ _ _
theorem State.memWf_chanDone {k n : Nat} (h : s.memWf = true) : (s.chanDone k n).memWf = true := memWf_raise (memWf_setFbit h _ _ _ _ _) _
theorem State.memWf_chanErr {k n : Nat} (h : s.memWf = true) : (s.chanErr k n).memWf = true := memWf_raise (memWf_setFbit h _ _ _ _ _) _

theorem State.memWf_moveDone {m : Option MoveRef} (h : s.memWf = true) : (s.moveDone m).memWf = true := by
  unfold State.moveDone
  split
  · exact h
  · exact memWf_modPanel h

theorem State.memWf_setCursor {k n : Nat} {d : Desc} {done : Nat} (h : s.memWf = true) : (s.setCursor k n d done).memWf = true := by
  unfold State.setCursor
  extract_lets left at' s1 s2 s3 s4
  have hs1 : s1.memWf = true := memWf_ite h (memWf_drawn h)
  have hs2 : s2.memWf = true := memWf_setF (memWf_setF hs1 _ _ _ _) _ _ _ _
  have hs3 : s3.memWf = true := memWf_setF hs2 _ _ _ _
  have hs4 : s4.memWf = true := memWf_setF (memWf_setF hs3 _ _ _ _) _ _ _ _
  exact memWf_setF (memWf_setF hs4 _ _ _ _) _ _ _ _

theorem State.memWf_countEnd {k n : Nat} (h : s.memWf = true) : (s.countEnd k n).memWf = true := memWf_modChan (memWf_count h _ _)

theorem State.memWf_endDesc {k n status : Nat} (h : s.memWf = true) : (s.endDesc k n status).memWf = true := by
  unfold State.endDesc
  extract_lets s1
  have hs1 : s1.memWf = true := memWf_setF h _ _ _ _
  split
  · exact h
  · extract_lets s2 s3 s4
    have hs2 : s2.memWf = true := memWf_ite hs1 (memWf_setF (memWf_setF (memWf_setF hs1 _ _ _ _) _ _ _ _) _ _ _ _)
    have hs3 : s3.memWf = true := memWf_modChan hs2
    have hs4 : s4.memWf = true := memWf_setChanState (memWf_moveDone (memWf_countEnd hs3))
    exact memWf_ite (memWf_ite (memWf_chanDone hs4) hs4) (memWf_chanErr hs4)

theorem State.memWf_failDesc {k n st addr : Nat} (h : s.memWf = true) : (s.failDesc k n st addr).memWf = true := by
  unfold State.failDesc
  split
  · exact h
  · extract_lets s1 s2 s3 s4 s5
    have hs1 : s1.memWf = true := memWf_setCursor h
    have hs2 : s2.memWf = true := memWf_setF (memWf_setF hs1 _ _ _ _) _ _ _ _
    have hs3 : s3.memWf = true := memWf_reportHard hs2 _ _
    have hs4 : s4.memWf = true := by
      dsimp only [s4]
      split
      · exact memWf_foldl (fun _ _ hu => memWf_postIrq hu) hs3
      · exact hs3
    have hs5 : s5.memWf = true := memWf_modChan hs4
    exact memWf_ite (memWf_chanErr (memWf_setChanState (memWf_modChan hs5))) (memWf_endDesc hs5)

theorem State.memWf_announce {k n : Nat} {d : Desc} (h : s.memWf = true) : (s.announce k n d).memWf = true := by
  unfold State.announce
  extract_lets done s1
  have hs1 : s1.memWf = true := memWf_modChan h
  exact memWf_setF (memWf_setCursor (memWf_count hs1 _ _)) _ _ _ _

theorem State.memWf_announceIf {k n : Nat} {d : Desc} (h : s.memWf = true) : (s.announceIf k n d).1.memWf = true :=
  memWf_ite_fst h (memWf_ite_fst (memWf_ite_fst (memWf_announce (memWf_drawn h)) (memWf_drawn h)) (memWf_announce h))

theorem State.memWf_needPage {k n : Nat} {d : Desc} {addr : Nat} (h : s.memWf = true) : (s.needPage k n d addr).memWf = true := by
  unfold State.needPage
  extract_lets s1
  have hs1 : s1.memWf = true := memWf_modChan (memWf_setCursor h)
  exact memWf_ite (memWf_emit (memWf_setChanState hs1) _ _ _) (memWf_failDesc h)

theorem State.memWf_settleChan {k n : Nat} (h : s.memWf = true) : (s.settleChan k n).memWf = true := by
  unfold State.settleChan
  split
  · extract_lets s1
    have hs1 : s1.memWf = true := memWf_announceIf h
    exact memWf_ite h (memWf_ite (memWf_needPage hs1) (memWf_failDesc hs1))
  · exact h

theorem State.memWf_settleMovers (h : s.memWf = true) : s.settleMovers.memWf = true := memWf_foldl (fun _ _ hu => memWf_settleChan hu) h

theorem State.memWf_stopDesc {k n st addr : Nat} (h : s.memWf = true) : (s.stopDesc k n st addr).memWf = true :=
  memWf_ite h (memWf_settleChan (memWf_modChan h))

theorem State.memWf_chanBusError {k n addr : Nat} (h : s.memWf = true) : (s.chanBusError k n addr).memWf = true :=
  memWf_ite (memWf_stopDesc (memWf_modChan h)) h

theorem State.memWf_startAbort {k n : Nat} (h : s.memWf = true) : (s.startAbort k n).memWf = true :=
  memWf_ite h (memWf_setChanState (memWf_setF h _ _ _ _))

theorem State.memWf_abortWaiting {k n : Nat} (h : s.memWf = true) : (s.abortWaiting k n).memWf = true := by
  unfold State.abortWaiting
  refine memWf_foldl (fun u a hu => ?_) (memWf_modChan h)
  extract_lets s1
  have hs1 : s1.memWf = true := memWf_setCursor (memWf_setF (memWf_setF (memWf_setF (memWf_setF hu _ _ _ _) _ _ _ _) _ _ _ _) _ _ _ _)
  exact memWf_moveDone (memWf_setF (memWf_countEnd hs1) _ _ _ _)

theorem State.memWf_finishAbort {k n : Nat} (h : s.memWf = true) : (s.finishAbort k n).memWf = true := by
  unfold State.finishAbort
  extract_lets s1 c s2 s3 s4
  have hs1 : s1.memWf = true := by
    dsimp only [s1]
    split
    · exact memWf_announceIf h
    · exact h
  have hs2 : s2.memWf = true := by
    dsimp only [s2]
    split
    · exact memWf_endDesc (memWf_setCursor hs1)
    · exact memWf_chanErr hs1
  have hs3 : s3.memWf = true := memWf_setF hs2 _ _ _ _
  have hs4 : s4.memWf = true := memWf_modChan (memWf_abortWaiting hs3)
  exact memWf_ite h (memWf_setChanState (memWf_setF hs4 _ _ _ _))

end MoverOperations

section LaneOperations

/-! Links: blocks, codewords, flits, replay and class 0 messages. -/

open State

variable {s : State}

theorem State.memWf_setLnk {d : Nat} {x : LaneLink} (h : s.memWf = true) : (s.setLnk d x).memWf = true := memWf_congr h rfl rfl rfl rfl
theorem State.memWf_modLnk {d : Nat} {f : LaneLink → LaneLink} (h : s.memWf = true) : (s.modLnk d f).memWf = true := memWf_setLnk h
theorem State.memWf_modLane {l : Nat} {f : LaneSt → LaneSt} (h : s.memWf = true) : (s.modLane l f).memWf = true := memWf_congr h rfl rfl rfl rfl
theorem State.memWf_setLaneState {l v : Nat} (h : s.memWf = true) : (s.setLaneState l v).memWf = true := memWf_setF h _ _ _ _
theorem State.memWf_showMasks {d : Nat} (h : s.memWf = true) : (s.showMasks d).memWf = true := memWf_setF (memWf_setF h _ _ _ _) _ _ _ _
theorem State.memWf_breakOnLink {d : Nat} (h : s.memWf = true) : (s.breakOnLink d).memWf = true := memWf_foldl (fun _ _ hu => memWf_breakStitch hu) h
theorem State.memWf_countDrop {d : Nat} {n : Nat} (h : s.memWf = true) : (s.countDrop d n).memWf = true := memWf_bumpF h _ _ _ _

theorem State.memWf_setLnkState {d v : Nat} (h : s.memWf = true) : (s.setLnkState d v).memWf = true :=
  memWf_ite h (memWf_raise (memWf_setF h _ _ _ _) _)

theorem State.memWf_dropQueue {d : Nat} (h : s.memWf = true) : (s.dropQueue d).memWf = true := by
  unfold State.dropQueue
  extract_lets x q src s1
  have hs1 : s1.memWf = true := memWf_countDrop (memWf_setLnk h)
  refine memWf_foldl (fun u a hu => ?_) hs1
  split
  · exact memWf_chanBusError hu
  · exact hu

theorem State.memWf_lnkOff {d v cause : Nat} (h : s.memWf = true) : (s.lnkOff d v cause).memWf = true := by
  unfold State.lnkOff
  extract_lets s1 s2
  have hs1 : s1.memWf = true := memWf_foldl (fun _ _ hu => memWf_ite hu (memWf_setF (memWf_setLaneState hu) _ _ _ _)) h
  have hs2 : s2.memWf = true := memWf_setF (memWf_setF (memWf_setF (memWf_setF hs1 _ _ _ _) _ _ _ _) _ _ _ _) _ _ _ _
  exact memWf_breakOnLink (memWf_dropQueue (memWf_setLnkState (memWf_showMasks hs2)))

theorem State.memWf_sendCodewords {d : Nat} (h : s.memWf = true) : (s.sendCodewords d).memWf = true := by
  unfold State.sendCodewords
  extract_lets l w x share map s1
  have hs1 : s1.memWf = true := by
    refine memWf_foldl (fun u a hu => ?_) h
    extract_lets q1
    exact memWf_emit (memWf_modLane hu) _ _ _
  exact memWf_setLnk hs1

theorem State.memWf_fillN {d n : Nat} (h : s.memWf = true) : (State.fillN d n s).memWf = true := by
  induction n generalizing s with
  | zero => exact h
  | succ n ih => exact memWf_ite h (ih (memWf_sendCodewords h))

theorem State.memWf_dealBlocks {d : Nat} {bs : List Block} (h : s.memWf = true) : (s.dealBlocks d bs).memWf = true := by
  unfold State.dealBlocks
  extract_lets s1
  have hs1 : s1.memWf = true := memWf_modLnk h
  exact memWf_fillN hs1

theorem State.memWf_flushLane {d : Nat} (h : s.memWf = true) : (s.flushLane d).memWf = true := memWf_ite h (memWf_sendCodewords h)
theorem State.memWf_sendCtl {d : Nat} {l : List Nat} (h : s.memWf = true) : (s.sendCtl d l).memWf = true := memWf_dealBlocks (memWf_emit h _ _ _)

theorem State.memWf_applyMask {d m : Nat} (h : s.memWf = true) : (s.applyMask d m).memWf = true := by
  unfold State.applyMask
  extract_lets w s1 s2
  have hs1 : s1.memWf = true := memWf_showMasks (memWf_setF (memWf_setF h _ _ _ _) _ _ _ _)
  have hs2 : s2.memWf = true := memWf_ite (memWf_breakOnLink hs1) hs1
  exact memWf_ite (memWf_lnkOff hs2) (memWf_setLnkState hs2)

theorem State.memWf_sendMask {d m : Nat} (h : s.memWf = true) : (s.sendMask d m).memWf = true := memWf_sendCtl (memWf_modLnk h)

theorem State.memWf_showEther {d : Nat} (h : s.memWf = true) : (s.showEther d).memWf = true := by
  unfold State.showEther
  extract_lets m some1 s1
  have hs1 : s1.memWf = true := memWf_showMasks (memWf_setF (memWf_setF h _ _ _ _) _ _ _ _)
  exact memWf_setLnkState (memWf_setF hs1 _ _ _ _)

theorem State.memWf_removeLane {l : Nat} (h : s.memWf = true) : (s.removeLane l).memWf = true :=
  memWf_ite (memWf_showEther h) (memWf_ite (memWf_showMasks h) (memWf_ite (memWf_breakOnLink
    (memWf_setLnkState (memWf_showMasks (memWf_setF (memWf_setF (memWf_modLnk h) _ _ _ _) _ _ _ _)))) (memWf_showMasks (memWf_sendMask h))))

theorem State.memWf_joinLane {l : Nat} (h : s.memWf = true) : (s.joinLane l).memWf = true := by
  unfold State.joinLane
  extract_lets d s1
  have hs1 : s1.memWf = true := memWf_showMasks (memWf_setF (memWf_modLane (memWf_setLaneState h)) _ _ _ _)
  exact memWf_ite (memWf_showEther hs1) (memWf_ite (memWf_sendMask hs1) (memWf_applyMask hs1))

theorem State.memWf_laneEvent {l : Nat} (h : s.memWf = true) : (s.laneEvent l).memWf = true := memWf_modLane (memWf_bumpF h _ _ _ _)

theorem State.memWf_retireLane {l : Nat} (h : s.memWf = true) : (s.retireLane l).memWf = true := by
  unfold State.retireLane
  extract_lets d was s1 s2 s3
  have hs1 : s1.memWf = true := memWf_armFreeze (memWf_report (memWf_setLaneState h) _ _ _) _ _
  have hs2 : s2.memWf = true := memWf_raise hs1 _
  have hs3 : s3.memWf = true := memWf_foldl (fun _ _ hu => memWf_setLaneState hu) hs2
  exact memWf_ite h (memWf_ite (memWf_ite (memWf_showEther hs3) (memWf_lnkOff hs3))
    (memWf_ite (memWf_ite (memWf_lnkOff hs2) (memWf_removeLane hs2)) (memWf_ite (memWf_lnkOff hs2) (memWf_showMasks hs2))))

theorem State.memWf_sendFlit {d cls vc port seq : Nat} {tail : Bool} {m : Msg} (h : s.memWf = true) :
    (s.sendFlit d cls vc port seq tail m).memWf = true := by
  unfold State.sendFlit
  extract_lets h2 q1 v c0
  exact memWf_dealBlocks (memWf_emit (memWf_count h _ _) _ _ _)

theorem State.memWf_pumpN {d n : Nat} (h : s.memWf = true) : (State.pumpN d n s).memWf = true := by
  induction n generalizing s with
  | zero => exact h
  | succ n ih =>
    unfold State.pumpN
    refine memWf_ite h ?_
    split
    · exact h
    · exact ih (memWf_sendFlit (memWf_sendFlit (memWf_setLnk h)))

theorem State.memWf_emit0 {d port : Nat} {m : Msg} (h : s.memWf = true) : (s.emit0 d port m).memWf = true :=
  memWf_sendFlit (memWf_sendFlit (memWf_count h _ _))

theorem State.memWf_pump {d : Nat} (h : s.memWf = true) : (s.pump d).memWf = true := by
  unfold State.pump
  extract_lets q s1
  have hs1 : s1.memWf = true := memWf_ite h (memWf_foldl (fun _ _ hu => memWf_emit0 hu) (memWf_modLnk h))
  exact memWf_pumpN hs1

theorem State.memWf_laneSend {d port vc : Nat} {m : Msg} {mover : Option (Nat × Nat)} (h : s.memWf = true) :
    (s.laneSend d port vc m mover).memWf = true := memWf_pump (memWf_modLnk h)

theorem State.memWf_laneSend0 {d port : Nat} {m : Msg} (h : s.memWf = true) : (s.laneSend0 d port m).memWf = true :=
  memWf_ite (memWf_emit0 h) (memWf_ite (memWf_modLnk h) (memWf_countDrop h))

theorem State.memWf_enter0 {k : Nat} {st : Stitch} {m : Msg} {lost : Bool} (h : s.memWf = true) : (s.enter0 k st m lost).memWf = true := by
  unfold State.enter0
  extract_lets s1
  have hs1 : s1.memWf = true := memWf_stitchSend h
  split
  · exact memWf_setStitch hs1
  · exact hs1

theorem State.memWf_drainN {d n : Nat} (h : s.memWf = true) : (State.drainN d n s).memWf = true := by
  induction n generalizing s with
  | zero => exact h
  | succ n ih =>
    unfold State.drainN
    split
    · exact h
    · dsimp only
      split
      · exact ih (memWf_countDrop (memWf_modLnk h))
      · exact memWf_ite h (ih (memWf_enter0 (memWf_modLnk h)))

theorem State.memWf_drain0 {d : Nat} (h : s.memWf = true) : (s.drain0 d).memWf = true := memWf_drainN h
theorem State.memWf_drainAll0 (h : s.memWf = true) : s.drainAll0.memWf = true := memWf_foldl (fun _ _ hu => memWf_drain0 hu) h

theorem State.memWf_laneEnter0 {n : Nat} {m : Msg} {lost : Bool} (h : s.memWf = true) : (s.laneEnter0 n m lost).memWf = true := by
  unfold State.laneEnter0
  dsimp only
  split
  · exact memWf_countDrop h
  · exact memWf_drain0 (memWf_modLnk h)

theorem State.memWf_lose0 {d : Nat} (h : s.memWf = true) : (s.lose0 d).memWf = true := by
  unfold State.lose0
  split
  · exact memWf_laneEnter0 h
  · exact memWf_countDrop h

end LaneOperations

section HemOperations

/-! Hem ports and what they inject. -/

open State

variable {s : State}

theorem State.memWf_setHem {n : Nat} {x : Hem} (h : s.memWf = true) : (s.setHem n x).memWf = true := memWf_congr h rfl rfl rfl rfl
theorem State.memWf_modHem {n : Nat} {f : Hem → Hem} (h : s.memWf = true) : (s.modHem n f).memWf = true := memWf_setHem h
theorem State.memWf_hemDrop {k : Nat} {n : Nat} (h : s.memWf = true) : (s.hemDrop k n).memWf = true := memWf_bumpF h _ _ _ _

theorem State.memWf_hemTake {n c : Nat} {m : Msg} (h : s.memWf = true) : (s.hemTake n c m).memWf = true :=
  memWf_ite (memWf_modHem h) (memWf_hemDrop h)

theorem State.memWf_extWrite {t : Nat} {port : Option Nat} (h : s.memWf = true) : (s.extWrite t port).memWf = true :=
  memWf_modTile (memWf_takePort h _) _ (fun _ hu => Tile.memWf_congr hu rfl rfl rfl rfl rfl rfl)

theorem State.memWf_extWait {t : Nat} (h : s.memWf = true) : (s.extWait t).memWf = true :=
  memWf_modTile h _ (fun _ hu => Tile.memWf_congr hu rfl rfl rfl rfl rfl rfl)

theorem State.memWf_noteVoid {t : Nat} {m : Msg} (h : s.memWf = true) : (s.noteVoid t m).memWf = true := memWf_ite (memWf_setF h _ _ _ _) h

theorem State.memWf_noteTorn {t : Nat} (h : s.memWf = true) : (s.noteTorn t).memWf = true :=
  memWf_postIrq (memWf_bumpF (memWf_setF h _ _ _ _) _ _ _ _)

theorem State.memWf_noteLoss {t n : Nat} (h : s.memWf = true) : (s.noteLoss t n).memWf = true :=
  memWf_bumpF (memWf_postIrq (memWf_bumpF (memWf_setF h _ _ _ _) _ _ _ _)) _ _ _ _

theorem State.memWf_deliver {t : Nat} {m : Msg} (h : s.memWf = true) : (s.deliver t m).memWf = true := by
  unfold State.deliver
  extract_lets h2 s1 s2
  have hs1 : s1.memWf = true := memWf_noteVoid h
  have hs2 : s2.memWf = true := memWf_noteTorn hs1
  refine memWf_ite ?_ ?_
  · refine memWf_ite ?_ hs2
    split
    · exact memWf_hemTake (memWf_setF hs2 _ _ _ _)
    · exact memWf_enqueue hs2
  · split
    · split
      · exact memWf_hemTake hs1
      · exact memWf_enqueue hs1
    · exact memWf_modTile (memWf_countTile (memWf_extWrite hs1) _ _ _) _ (fun _ hu => Tile.memWf_osStoreLine hu _ _)
    · exact memWf_linStoreLine (memWf_countTile (memWf_extWrite hs1) _ _ _) _ _ _

theorem State.memWf_giveBack {n : Nat} (h : s.memWf = true) : (s.giveBack n).memWf = true := by
  unfold State.giveBack
  split
  · exact memWf_ite (memWf_setF h _ _ _ _) h
  · exact h

theorem State.memWf_hemBadRoute {n : Nat} (h : s.memWf = true) : (s.hemBadRoute n).memWf = true := memWf_bumpF (memWf_setF h _ _ _ _) _ _ _ _

theorem State.memWf_hemInject {n : Nat} {m : Bool × Msg} (h : s.memWf = true) : (s.hemInject n m).memWf = true :=
  memWf_ite (memWf_ite (memWf_stitchSend (memWf_ite (memWf_giveBack h) h)) (memWf_hemBadRoute h)) (memWf_launchMsg h)

theorem State.memWf_pumpHem {n : Nat} (h : s.memWf = true) : (s.pumpHem n).memWf = true :=
  memWf_ite h (memWf_foldl (fun _ _ hu => memWf_ite (memWf_modHem hu) (memWf_hemInject hu)) (memWf_modHem h))

theorem State.memWf_pumpHems (h : s.memWf = true) : s.pumpHems.memWf = true := memWf_foldl (fun _ _ hu => memWf_pumpHem hu) h

end HemOperations

section MoverEngines

/-! The read and write engines of a mover cluster. -/

open State

variable {s u : State}

theorem State.memWf_noteWait {k a len : Nat} (h : s.memWf = true) : (s.noteWait k a len).memWf = true := by
  unfold State.noteWait
  split
  · exact memWf_hbmLate h
  · exact memWf_ite h (memWf_extWait h)
  · exact h

theorem State.memWf_countMover {k t len : Nat} (h : s.memWf = true) : (s.countMover k t len).memWf = true := by
  unfold State.countMover
  split
  · exact h
  · extract_lets s1
    have hs1 : s1.memWf = true := memWf_foldl (fun _ _ hu => memWf_countPath hu) h
    split
    · exact memWf_foldl (fun _ _ hu => memWf_countPath hu) hs1
    · exact hs1

theorem State.memWf_readTileLine {sp t a : Nat} (h : s.memWf = true) : (s.readTileLine sp t a).1.memWf = true := by
  unfold State.readTileLine
  extract_lets q1
  have hq1 : q1.1.memWf = true := memWf_ite_fst (memWf_osPLine h _ _) (memWf_linPLine h _ _ _)
  exact hq1

theorem State.memWf_readTile {sp t m a : Nat} (h : s.memWf = true) : (State.readTile sp t m a s).1.memWf = true := by
  induction m generalizing s a with
  | zero => exact h
  | succ m ih =>
    have hline : (s.readTileLine sp t a).1.memWf = true := memWf_readTileLine h
    unfold State.readTile
    dsimp only
    split
    · exact hline
    · exact ih hline

theorem State.memWf_addBurst {k n : Nat} {b : Burst} (h : s.memWf = true) : (s.addBurst k n b).memWf = true := memWf_modChan h

theorem State.memWf_readBurst {k n : Nat} {d : Desc} {a len : Nat} (h : s.memWf = true) : (s.readBurst k n d a len).memWf = true := by
  unfold State.readBurst
  extract_lets s1 q1 t s2 l ids
  have hs1 : s1.memWf = true := memWf_count h _ _
  have hq1 : q1.1.memWf = true := memWf_hbmRead (memWf_hbmTaken hs1) _ _
  have hs2 : s2.memWf = true := memWf_countMover hs1
  refine memWf_ite (memWf_chanBusError h) ?_
  split
  · exact memWf_ite (memWf_chanBusError hq1) (memWf_addBurst hq1)
  · exact memWf_foldl (fun _ _ hu => memWf_emit hu _ _ _) (memWf_addBurst hs1)
  · extract_lets q2
    have hq2 : q2.1.memWf = true := memWf_readTile (memWf_ite (memWf_extWrite hs2) hs2)
    refine memWf_ite ?_ (memWf_addBurst (memWf_foldl (fun _ _ hu => memWf_launchMsg hu) hs1))
    split
    · exact memWf_addBurst hq2
    · exact memWf_chanBusError hq2

theorem State.memWf_readStep {k : Nat} (h : s.memWf = true) (he : s.readStep k = some u) : u.memWf = true := by
  unfold State.readStep at he
  split at he
  · exact nomatch he
  · split at he
    · exact nomatch he
    · cases he
      refine memWf_readBurst ?_
      exact memWf_congr h rfl rfl rfl rfl

theorem State.memWf_readAll {k n : Nat} (h : s.memWf = true) : (State.readAll k n s).memWf = true := by
  induction n generalizing s with
  | zero => exact h
  | succ n ih =>
    unfold State.readAll
    split
    · exact h
    · next u hstep => exact ih (memWf_readStep h hstep)

theorem State.memWf_askHost {k n : Nat} (h : s.memWf = true) : (s.askHost k n).memWf = true := by
  unfold State.askHost
  split
  · exact h
  · exact memWf_ite (memWf_readAll h) h

theorem State.memWf_farData {k n : Nat} (h : s.memWf = true) : (s.farData k n).memWf = true := by
  unfold State.farData
  split
  · exact h
  · exact memWf_ite h (memWf_ite (memWf_modChan (memWf_drawn h)) (memWf_drawn h))

theorem State.memWf_bufWords {k : Nat} {b : Burst} (h : s.memWf = true) : (s.bufWords k b).1.memWf = true := by
  unfold State.bufWords
  refine memWf_foldl_fst (fun u e hu => ?_) h
  dsimp only
  split
  · exact memWf_bumpF hu _ _ _ _
  · exact hu
  · split
    · exact memWf_drawn hu
    · exact memWf_drawn hu
    · exact memWf_drawn (memWf_bumpF hu _ _ _ _)

theorem State.memWf_writeLine {k n : Nat} {d : Desc} {off a : Nat} {v : Line} (h : s.memWf = true) : (s.writeLine k n d off a v).memWf = true :=
  memWf_modChan (memWf_launchMsg h)

theorem State.memWf_writeBurst {k n : Nat} {d : Desc} {a : Nat} {bs : List Byte} (h : s.memWf = true) : (s.writeBurst k n d a bs).memWf = true := by
  unfold State.writeBurst
  extract_lets off s1
  have hs1 : s1.memWf = true := by
    dsimp only [s1]
    split
    · exact memWf_hbmWrite h _ _
    · exact memWf_emit (memWf_cachePage h) _ _ _
    · exact memWf_foldl (fun _ _ hu => memWf_writeLine hu) h
  exact memWf_modChan (memWf_count hs1 _ _)

theorem State.memWf_writeStep {k n : Nat} {d : Desc} (h : s.memWf = true) (he : s.writeStep k n d = some u) : u.memWf = true := by
  unfold State.writeStep at he
  dsimp only at he
  split at he
  · split at he
    · exact nomatch he
    · cases he
      exact memWf_ite (memWf_chanBusError (memWf_modChan (memWf_bufWords h))) (memWf_modChan (memWf_bufWords h))
  · split at he
    · exact nomatch he
    · split at he
      · cases he
        exact memWf_chanBusError h
      · split at he
        · exact nomatch he
        · cases he
          exact memWf_writeBurst h

theorem State.memWf_engines {k n m : Nat} {d : Desc} (h : s.memWf = true) : (State.engines k n d m s).memWf = true := by
  induction m generalizing s with
  | zero => exact h
  | succ m ih =>
    unfold State.engines
    refine memWf_ite h ?_
    split
    · next u hstep => exact ih (memWf_writeStep h hstep)
    · split
      · next u hstep => exact ih (memWf_readStep h hstep)
      · split
        · exact memWf_noteWait h
        · exact h

end MoverEngines

section IssueSlots

/-! The slot of a tile: loops, faults, waits and issue (R108 to R135). -/

open State

variable {s : State}

theorem State.memWf_applyWrite {t : Nat} {p : PWrite} (h : s.memWf = true) : (s.applyWrite t p).1.memWf = true := by
  unfold State.applyWrite
  split
  · exact memWf_modTile h _ (fun _ hu => Tile.memWf_setGen hu _ _)
  · exact memWf_modTile h _ (fun _ hu => Tile.memWf_setSprRaw (Tile.memWf_setGen hu _ _) _ _)
  · exact memWf_modTile h _ (fun _ hu => Tile.memWf_setSprRaw hu _ _)
  · exact memWf_modTile h _ (fun _ hu => Tile.memWf_setSpr hu)
  · exact memWf_modTile h _ (fun _ hu => Tile.memWf_setVec hu _ _)
  · exact memWf_modTile h _ (fun _ hu => Tile.memWf_setVec hu _ _)
  · exact memWf_osStoreWord h _ _ _
  · exact memWf_modTile h _ (fun _ hu => Tile.memWf_osStoreLine hu _ _)
  · extract_lets q1
    exact memWf_modTile h _ (fun _ hu => Tile.memWf_setVec hu _ _)
  · exact memWf_linStoreLine h _ _ _
  · exact memWf_injectTile h
  · exact memWf_modTile h _ (fun _ hu => Tile.memWf_congr hu rfl rfl rfl rfl rfl rfl)

theorem State.memWf_applyWrites {t : Nat} {l : List PWrite} (h : s.memWf = true) : (s.applyWrites t l).1.memWf = true := by
  unfold State.applyWrites
  refine memWf_foldl_fst (fun a a1 hu => ?_) h
  extract_lets q1
  have hq1 : q1.1.memWf = true := memWf_applyWrite hu
  exact hq1

theorem State.memWf_stickies {t : Nat} {m : Word} (h : s.memWf = true) : (s.stickies t m).memWf = true :=
  memWf_ite h (memWf_modTile h _ (fun _ hu => Tile.memWf_setSprRaw hu _ _))

theorem State.memWf_slotEnd {t : Nat} {own : List PWrite} (h : s.memWf = true) : (s.slotEnd t own).memWf = true := by
  unfold State.slotEnd
  extract_lets p s1 q1 q2
  have hs1 : s1.memWf = true := memWf_modTile h _ (fun _ hu => Tile.memWf_congr hu rfl rfl rfl rfl rfl rfl)
  have hq1 : q1.1.memWf = true := memWf_applyWrites hs1
  have hq2 : q2.1.memWf = true := memWf_applyWrites hq1
  exact memWf_stickies hq2

theorem State.memWf_emptySlot {t : Nat} (h : s.memWf = true) : (s.emptySlot t).memWf = true := memWf_slotEnd (memWf_tick h)

theorem State.memWf_heldIc {t c : Nat} {clash : Bool} (h : s.memWf = true) : (s.heldIc t c clash).memWf = true :=
  memWf_modTile (memWf_countTile (memWf_tick h) _ _ _) _ (fun _ hu => Tile.memWf_congr hu rfl rfl rfl rfl rfl rfl)

theorem State.memWf_passIc {t : Nat} (h : s.memWf = true) : (s.passIc t).memWf = true := by
  unfold State.passIc
  split
  · exact memWf_heldIc h
  · exact memWf_emptySlot h

theorem State.memWf_drainPipe {t n : Nat} (h : s.memWf = true) : (State.drainPipe t n s).memWf = true := by
  induction n generalizing s with
  | zero => exact h
  | succ n ih => exact memWf_ite h (ih (memWf_passIc h))

theorem State.memWf_tileFault {t code word : Nat} (h : s.memWf = true) : (s.tileFault t code word).memWf = true := by
  unfold State.tileFault
  extract_lets pc s1 s2 s3 s4 s5
  have hs1 : s1.memWf = true := memWf_drainPipe (memWf_modTile h _ (fun _ hu => Tile.memWf_congr hu rfl rfl rfl rfl rfl rfl))
  have hs2 : s2.memWf = true := memWf_modTile hs1 _ (fun _ hu => Tile.memWf_congr (Tile.memWf_setSprRaw hu _ _) rfl rfl rfl rfl rfl rfl)
  have hs3 : s3.memWf = true := memWf_setF (memWf_setF hs2 _ _ _ _) _ _ _ _
  have hs4 : s4.memWf = true := memWf_trace hs3 _ _ _ _
  have hs5 : s5.memWf = true := memWf_ite (memWf_hwUncorr hs4 _ _ _) (memWf_report hs4 _ _ _)
  exact memWf_tilePanelFault (memWf_launchIssued hs5)

theorem Tile.memWf_startFill {x : Tile} {ls le : Nat} (h : x.memWf = true) : (x.startFill ls le).memWf = true :=
  Tile.memWf_ite (Tile.memWf_congr h rfl rfl rfl rfl rfl rfl) h

theorem Tile.memWf_fillDone {x : Tile} (h : x.memWf = true) : x.fillDone.memWf = true :=
  Tile.memWf_ite (Tile.memWf_setLst (Tile.memWf_congr h rfl rfl rfl rfl rfl rfl)) h

theorem Tile.memWf_loopTurn {n pc : Nat} {x : Tile} (h : x.memWf = true) : (Tile.loopTurn n x pc).1.memWf = true := by
  induction n generalizing x with
  | zero => exact h
  | succ n ih =>
    have hcount (v : Word) : (x.setSprRaw (sprLC (x.depth - 1)) v).memWf = true := Tile.memWf_setSprRaw h _ _
    unfold Tile.loopTurn
    dsimp only
    split
    · split
      · exact Tile.memWf_ite (hcount _) (Tile.memWf_congr (Tile.memWf_startFill (hcount _)) rfl rfl rfl rfl rfl rfl)
      · exact ih (Tile.memWf_checkLcv (Tile.memWf_setLst h))
    · exact h

theorem Tile.memWf_loopStep {x : Tile} {pc : Nat} (h : x.memWf = true) : (x.loopStep pc).1.memWf = true := by
  unfold Tile.loopStep
  split
  · exact Tile.memWf_loopTurn (Tile.memWf_fillDone h)
  · exact h

theorem Tile.memWf_openLevel {x : Tile} {count : Word} {ls stop : BitVec 12} (h : x.memWf = true) : (x.openLevel count ls stop).memWf = true :=
  Tile.memWf_ite (Tile.memWf_setLst (Tile.memWf_setSprRaw (Tile.memWf_setSprRaw (Tile.memWf_setSprRaw h _ _) _ _) _ _))
    (Tile.memWf_setLst (Tile.memWf_startFill (Tile.memWf_setSprRaw (Tile.memWf_setSprRaw (Tile.memWf_setSprRaw h _ _) _ _) _ _)))

theorem Tile.memWf_closeLevels {x : Tile} {n : Nat} (h : x.memWf = true) : (x.closeLevels n).memWf = true := Tile.memWf_checkLcv (Tile.memWf_setLst h)

theorem Tile.memWf_advance {x : Tile} {back : Option (BitVec 12)} (h : x.memWf = true) : (x.advance back).memWf = true := by
  unfold Tile.advance
  dsimp only
  split
  · exact Tile.memWf_congr h rfl rfl rfl rfl rfl rfl
  · exact Tile.memWf_congr h rfl rfl rfl rfl rfl rfl
  · exact Tile.memWf_congr h rfl rfl rfl rfl rfl rfl
  · exact Tile.memWf_congr h rfl rfl rfl rfl rfl rfl

theorem Tile.memWf_loopDecide {x : Tile} {pc : BitVec 12} {c : Ctl} (h : x.memWf = true) : (x.loopDecide pc c).1.memWf = true := by
  unfold Tile.loopDecide
  split
  · exact h
  · exact Tile.memWf_loopStep (Tile.memWf_openLevel h)
  · exact Tile.memWf_loopStep (Tile.memWf_closeLevels h)
  · exact Tile.memWf_loopStep h

theorem Tile.memWf_keepLevel {x z : Tile} {d : Nat} (h : x.memWf = true) : (x.keepLevel z d).memWf = true :=
  Tile.memWf_setSprRaw (Tile.memWf_setSprRaw (Tile.memWf_setSprRaw (Tile.memWf_setSprRaw h _ _) _ _) _ _) _ _

theorem Tile.memWf_control {x z : Tile} {pc : BitVec 12} {c : Ctl} (h : x.memWf = true) : (x.control z pc c).memWf = true := by
  unfold Tile.control
  split
  · exact h
  · exact Tile.memWf_congr h rfl rfl rfl rfl rfl rfl
  · exact Tile.memWf_congr h rfl rfl rfl rfl rfl rfl
  · exact Tile.memWf_keepLevel h
  · exact Tile.memWf_setSprRaw h _ _
  · exact Tile.memWf_congr h rfl rfl rfl rfl rfl rfl
  · exact Tile.memWf_congr h rfl rfl rfl rfl rfl rfl

theorem State.memWf_issueSlot {t : Nat} {e : Eff} (h : e.st.memWf = true) : (s.issueSlot t e).memWf = true := by
  unfold State.issueSlot
  extract_lets pc s1 q1 s2 s3
  have hs1 : s1.memWf = true := memWf_tick h
  have hq1 : q1.1.memWf = true := Tile.memWf_loopDecide (memWf_tile hs1 t)
  have hs2 : s2.memWf = true := memWf_slotEnd (memWf_setTile hs1 t hq1)
  have hs3 : s3.memWf = true :=
    memWf_modTile hs2 t (fun _ hx => Tile.memWf_control (Tile.memWf_congr (Tile.memWf_advance hx) rfl rfl rfl rfl rfl rfl))
  exact memWf_launchIssued (memWf_countTile (memWf_doSwap hs3) _ _ _)

theorem State.memWf_consider {t : Nat} {i : Instr} {use : State → Use} {body : State → Issue} (h : s.memWf = true)
    (hbody : ∀ u : State, u.memWf = true → (body u).memWf) : (s.consider t i use body).memWf = true := by
  unfold State.consider
  dsimp only
  split
  · next u hfetch => exact memWf_tileFault (memWf_of_fst (memWf_pmemFetch h _ _) hfetch)
  · next u w hfetch =>
    have hu : u.memWf = true := memWf_of_fst (memWf_pmemFetch h _ _) hfetch
    have hissue := hbody u hu
    refine memWf_ite h (memWf_ite (memWf_tileFault hu) (memWf_ite (memWf_tileFault hu) ?_))
    split
    · exact memWf_ite h (memWf_heldIc h)
    · split
      · next hb =>
        rw [hb] at hissue
        exact memWf_tileFault hissue
      · exact memWf_ite h (memWf_countTile (memWf_emptySlot h) _ _ _)
      · next hb =>
        rw [hb] at hissue
        exact memWf_ite h (memWf_ite (memWf_countTile (memWf_emptySlot h) _ _ _) (memWf_issueSlot hissue))

theorem State.memWf_atSlot {n : Nat} {k : State → State} (h : s.memWf = true) (hk : ∀ (u : State), u.memWf = true → (k u).memWf = true) :
    (s.atSlot n k).memWf = true := by
  unfold State.atSlot
  extract_lets x1 s1
  have hs1 : s1.memWf = true := memWf_ite (memWf_modTile h _ (fun _ hu => Tile.memWf_congr (Tile.memWf_setSprRaw hu _ _) rfl rfl rfl rfl rfl rfl)) h
  refine memWf_ite h ?_
  refine memWf_ite (memWf_modTile (memWf_passIc h) _ (fun _ hu => Tile.memWf_congr hu rfl rfl rfl rfl rfl rfl)) ?_
  refine memWf_ite ?_ (hk _ hs1)
  split
  · exact memWf_heldIc hs1
  · exact memWf_modTile (memWf_countTile (memWf_emptySlot hs1) _ _ _) _ (fun _ hu => Tile.memWf_congr hu rfl rfl rfl rfl rfl rfl)

theorem State.memWf_issue {t : TileNo} {i : Instr} {use : State → Use} {body : State → Issue} (hbody : ∀ (u : State), u.memWf = true → (body u).memWf)
    (h : s.memWf = true) :
    (State.issue t i use body s).memWf = true := memWf_atSlot h (fun _ hu => memWf_consider hu (fun _ hu1 => hbody _ hu1))

end IssueSlots

section TileEventCommands

/-! Events of a tile that are no instruction. -/

open State

variable {s : State}

@[simp] theorem memWf_execMatForceWrite {t : TileNo} {col : Bool} {val : Word} (h : s.memWf = true) : (execMatForceWrite t col val s).memWf :=
  Res.memWf_next (memWf_hostWrite h (fun _ hu => memWf_setF hu _ _ _ _))

theorem State.memWf_completeTile {t : Nat} (h : s.memWf = true) : (s.completeTile t).memWf = true := by
  unfold State.completeTile
  extract_lets x1 s1 s2
  have hs1 : s1.memWf = true := memWf_trace h _ _ _ _
  have hs2 : s2.memWf = true := memWf_modTile hs1 _ (fun _ hu => Tile.memWf_congr (Tile.memWf_setSprRaw hu _ _) rfl rfl rfl rfl rfl rfl)
  refine memWf_ite ?_ hs2
  split
  · exact memWf_bumpF hs2 _ _ _ _
  · exact hs2

@[simp] theorem memWf_execTileCompletion {t : TileNo} (h : s.memWf = true) : (execTileCompletion t s).memWf :=
  Res.memWf_next (memWf_ite h (memWf_ite (memWf_completeTile h) (memWf_ite h (memWf_passIc h))))

theorem State.memWf_enterHandler {t cause : Nat} (h : s.memWf = true) : (s.enterHandler t cause).memWf = true := by
  unfold State.enterHandler
  extract_lets x1 x2 x3 x4 s1
  have hx1 : x1.memWf = true := memWf_tile h _
  have hx2 : x2.memWf = true := Tile.memWf_setSprRaw (Tile.memWf_setSprRaw hx1 _ _) _ _
  have hx3 : x3.memWf = true := Tile.memWf_setSprRaw (Tile.memWf_setSprRaw hx2 _ _) _ _
  have hx4 : x4.memWf = true := Tile.memWf_setSprRaw hx3 _ _
  have hs1 : s1.memWf = true := memWf_setTile h _ (Tile.memWf_congr hx4 rfl rfl rfl rfl rfl rfl)
  exact memWf_trace hs1 _ _ _ _

theorem State.memWf_retireTile {t : Nat} (h : s.memWf = true) : (s.retireTile t).memWf = true := by
  unfold State.retireTile
  extract_lets s1 s2 site s3 s4
  have hs1 : s1.memWf = true := memWf_modTile h _ (fun _ hu => Tile.memWf_congr hu rfl rfl rfl rfl rfl rfl)
  have hs2 : s2.memWf = true := memWf_launchIssued hs1
  have hs3 : s3.memWf = true := memWf_report (memWf_reportHard hs2 _ _) _ _ _
  have hs4 : s4.memWf = true := memWf_congr hs3 rfl rfl rfl rfl
  exact memWf_ite h (memWf_retireFreeze hs4)

@[simp] theorem memWf_execFaultLimitExceeded {t : TileNo} (h : s.memWf = true) : (execFaultLimitExceeded t s).memWf :=
  Res.memWf_next (memWf_ite (memWf_retireTile h) h)

@[simp] theorem memWf_execUncorrectableReplay {t : TileNo} {recurs : Bool} (h : s.memWf = true) : (execUncorrectableReplay t recurs s).memWf := by
  unfold execUncorrectableReplay
  dsimp only
  refine Res.memWf_next ?_
  split
  · exact h
  · next m w r _ =>
    have hx : ({ s.tile t.toNat with replay := r } : Tile).memWf = true := Tile.memWf_congr (memWf_tile h _) rfl rfl rfl rfl rfl rfl
    refine memWf_ite (memWf_retireTile (memWf_setTile h _ hx)) (memWf_drawn (memWf_setTile h _ ?_))
    split
    · exact Tile.memWf_pmemStore hx _ _
    · exact Tile.memWf_congr (Tile.memWf_withOs hx (Mem.wf_store 0 _ _ _ (Tile.memWf_parts.mp hx).2.1)) rfl rfl rfl rfl rfl rfl
    · exact Tile.memWf_congr (Tile.memWf_withLining hx (Mem.wf_store 0 _ _ _ (Tile.memWf_parts.mp hx).2.2.1)) rfl rfl rfl rfl rfl rfl

theorem State.memWf_resetFlds {l : List Fld} {i : Nat} (h : s.memWf = true) : (s.resetFlds l i).memWf = true :=
  memWf_foldl (fun _ _ hu => memWf_setF hu _ _ _ _) h

theorem State.memWf_tearChain {t : Nat} (h : s.memWf = true) : (s.tearChain t).memWf = true := by
  unfold State.tearChain
  dsimp only
  split
  · exact h
  · refine memWf_foldl (fun u q hu => memWf_ite ?_ hu) h
    refine memWf_postIrq (memWf_setF (memWf_modTile hu q (fun x hx => ?_)) _ _ _ _)
    exact Tile.memWf_congr hx rfl rfl rfl rfl rfl rfl

theorem Tile.memWf_afterReset {x : Tile} (h : x.memWf = true) : x.afterReset.memWf = true := by
  obtain ⟨hpmem, hos, hlining, -⟩ := Tile.memWf_parts.mp h
  exact Tile.memWf_parts.mpr ⟨hpmem, hos, hlining, rfl, rfl, rfl⟩

theorem State.memWf_refillCredits {t : Nat} (h : s.memWf = true) : (s.refillCredits t).memWf = true := by
  unfold State.refillCredits
  refine memWf_foldl (fun u a hu => ?_) h
  split
  · exact memWf_ite (memWf_setF (memWf_setStitch hu) _ _ _ _) hu
  · exact hu

theorem State.memWf_tileReset {t : Nat} (h : s.memWf = true) : (s.tileReset t).memWf = true :=
  memWf_refillCredits (memWf_resetFlds (memWf_modTile (memWf_launchIssued (memWf_tearChain h)) _ (fun _ hu => Tile.memWf_afterReset hu)))

@[simp] theorem memWf_execTileReset {t : TileNo} (h : s.memWf = true) : (execTileReset t s).memWf :=
  Res.memWf_next (memWf_hostWrite h (fun _ hu => memWf_ite hu (memWf_ite (memWf_setF hu _ _ _ _) (memWf_tileReset hu))))

@[simp] theorem memWf_execPatrolScrubRead {t : TileNo} (h : s.memWf = true) : (execPatrolScrubRead t s).memWf := by
  unfold execPatrolScrubRead
  extract_lets n q1
  have hq1 : q1.1.memWf = true := memWf_linPLine h _ _ _
  exact Res.memWf_next (memWf_ite (memWf_modTile hq1 _ (fun _ hu => Tile.memWf_congr hu rfl rfl rfl rfl rfl rfl)) h)

@[simp] theorem memWf_execCorrectedWriteBack {t : TileNo} {word : BitVec 18} (h : s.memWf = true) : (execCorrectedWriteBack t word s).memWf :=
  Res.memWf_next (memWf_ite (memWf_modTile h _ (fun _ hu => Tile.memWf_congr hu rfl rfl rfl rfl rfl rfl)) h)

theorem State.memWf_chainStart {t lead pos : Nat} (h : s.memWf = true) : (s.chainStart t lead pos).memWf = true := by
  unfold State.chainStart
  dsimp only
  split
  · exact h
  · exact memWf_setTile h _ (Tile.memWf_congr (memWf_tile h _) rfl rfl rfl rfl rfl rfl)

theorem State.memWf_chainDrop {m : Nat} (h : s.memWf = true) : (s.chainDrop m).memWf = true :=
  memWf_postIrq (memWf_ite (memWf_modTile h _ (fun _ hu => Tile.memWf_congr hu rfl rfl rfl rfl rfl rfl)) h)

@[simp] theorem memWf_execChainReady {t : TileNo} (h : s.memWf = true) : (execChainReady t s).memWf := by
  unfold execChainReady
  dsimp only
  refine Res.memWf_next ?_
  refine memWf_ite h ?_
  split
  · exact h
  · exact memWf_foldl (fun _ _ hu => memWf_chainDrop hu) (memWf_setF h _ _ _ _)
  · split
    · exact h
    · exact memWf_foldl (fun _ _ hu => memWf_chainStart hu) h

@[simp] theorem memWf_execReservedEncoding {t : TileNo} {w : DWord} (h : s.memWf = true) : (execReservedEncoding t w s).memWf := by
  unfold execReservedEncoding
  refine Res.memWf_next (memWf_atSlot h (fun u hu => ?_))
  dsimp only
  split
  · next v hfetch => exact memWf_tileFault (memWf_of_fst (memWf_pmemFetch hu _ _) hfetch)
  · next v _ hfetch =>
    have hv : v.memWf = true := memWf_of_fst (memWf_pmemFetch hu _ _) hfetch
    refine memWf_ite hu ?_
    split
    · exact memWf_tileFault hv
    · exact memWf_ite (memWf_tileFault hv) hu

end TileEventCommands

section NetworkCommands

/-! Messages under way: grants, crossings, deliveries, groups. -/

open State

variable {s u : State}

theorem State.memWf_unroutable {f : Flight} (h : s.memWf = true) : (s.unroutable f).memWf = true := by
  unfold State.unroutable
  split
  · exact memWf_badRoute h
  · exact memWf_bumpF (memWf_setF h _ _ _ _) _ _ _ _
  · exact memWf_chanBusError (memWf_modChan h)
  · exact memWf_chanBusError (memWf_modChan h)
  · exact h

theorem State.memWf_fenceDrop {r : Nat} (h : s.memWf = true) : (s.fenceDrop r).memWf = true := by
  unfold State.fenceDrop
  split
  · exact memWf_bumpF h _ _ _ _
  · exact h

theorem State.memWf_leave {f : Flight} {ds : List Nat} (h : s.memWf = true) : (s.leave f ds).memWf = true := memWf_congr h rfl rfl rfl rfl

theorem State.memWf_cross {f : Flight} {p : Hop} {ds : List Nat} (h : s.memWf = true) : (s.cross f p ds).1.memWf = true := by
  unfold State.cross
  extract_lets g s1 s2
  have hs1 : s1.memWf = true := memWf_countPath (memWf_leave h)
  have hs2 : s2.memWf = true := memWf_foldl (fun _ _ hu => memWf_ite (memWf_modLink hu) hu) hs1
  clear_value s2
  exact memWf_congr hs2 rfl rfl rfl rfl

theorem State.memWf_sendAck {f : Flight} (h : s.memWf = true) : (s.sendAck f).memWf = true := by
  unfold State.sendAck
  split
  · exact memWf_ite (memWf_congr h rfl rfl rfl rfl) h
  · exact h

theorem State.memWf_ackBack {f : Flight} (h : s.memWf = true) : (s.ackBack f).memWf = true := by
  unfold State.ackBack
  split
  · exact memWf_modChan h
  · exact h

theorem State.memWf_eject {f : Flight} {ds : List Nat} (h : s.memWf = true) : (s.eject f ds).memWf = true := by
  unfold State.eject
  extract_lets s1
  have hs1 : s1.memWf = true := memWf_leave h
  refine memWf_ite (memWf_ackBack hs1) ?_
  refine memWf_ite (memWf_sendAck (memWf_foldl (fun _ _ hu => memWf_deliver hu) hs1)) ?_
  split
  · exact memWf_laneSend hs1
  · exact hs1

theorem State.memWf_grantTurn {r o : Nat} (h : s.memWf = true) : (s.grantTurn r o).1.memWf = true := by
  unfold State.grantTurn
  dsimp only
  split
  · exact h
  · split
    · exact memWf_ite_fst (memWf_eject (memWf_ite h (memWf_modLink h))) (memWf_cross (memWf_ite h (memWf_modLink h)))
    · exact h

theorem State.memWf_cull {f : Flight} (h : s.memWf = true) : (s.cull f).1.memWf = true := by
  unfold State.cull
  extract_lets lost fenced s1 g s2
  have hs1 : s1.memWf = true := memWf_ite h (memWf_unroutable (memWf_leave h))
  have hs2 : s2.memWf = true := memWf_ite hs1 (memWf_fenceDrop (memWf_leave hs1))
  exact hs2

theorem State.memWf_waitsHere {f : Flight} (h : s.memWf = true) : (s.waitsHere f).memWf = true :=
  memWf_foldl (fun _ _ hu => memWf_ite (memWf_extWait hu) hu) h

theorem State.memWf_carry {n : Nat} {f : Flight} (h : s.memWf = true) : (State.carry n s f).memWf = true := by
  induction n generalizing s f with
  | zero => exact h
  | succ n ih =>
    have hcull (e : Flight) : (s.cull e).1.memWf = true := memWf_cull h
    unfold State.carry
    split
    · split
      · exact ih (memWf_grantTurn h)
      · exact memWf_ite h (ih (hcull _))
    · refine memWf_ite (hcull f) ?_
      split
      · exact memWf_waitsHere (hcull f)
      · split
        · next u _ hgrant =>
          have hu : u.memWf = true := memWf_of_fst (memWf_grantTurn (hcull f)) hgrant
          exact memWf_ite hu (ih hu)
        · next hgrant => exact ih (memWf_of_fst (memWf_grantTurn (hcull f)) hgrant)
        · next hgrant => exact memWf_of_fst (memWf_grantTurn (hcull f)) hgrant

theorem State.memWf_dropAway {f : Flight} (h : s.memWf = true) (he : s.dropAway f = some u) : u.memWf = true := by
  unfold State.dropAway at he
  dsimp only at he
  split at he
  · exact nomatch he
  · split at he
    · cases he
      exact memWf_unroutable (memWf_countDrop (memWf_leave h))
    · split at he
      · exact nomatch he
      · cases he
        exact memWf_ite (memWf_unroutable (memWf_countDrop (memWf_leave h))) (memWf_fenceDrop (memWf_leave h))

theorem State.memWf_settleLoads (h : s.memWf = true) : s.settleLoads.memWf = true := by
  unfold State.settleLoads
  refine memWf_foldl (fun u a hu => ?_) h
  split
  · exact memWf_ite (memWf_popCmd hu) hu
  · exact hu

@[simp] theorem memWf_execMessageDelivery {n : Nat} (h : s.memWf = true) : (execMessageDelivery n s).memWf := by
  unfold execMessageDelivery
  refine Res.memWf_next ?_
  split
  · exact h
  · refine memWf_ite h ?_
    split
    · next u haway => exact memWf_settleMovers (memWf_dropAway h haway)
    · exact memWf_settleMovers (memWf_settleLoads (memWf_carry h))

theorem State.memWf_deliver0 {n t : Nat} {m : CMsg} {lost : Bool} (h : s.memWf = true) : (s.deliver0 n t m lost).memWf = true := by
  unfold State.deliver0
  extract_lets s1 s2
  have hs1 : s1.memWf = true := memWf_noteVoid h
  have hs2 : s2.memWf = true := memWf_ite (memWf_noteLoss hs1) hs1
  exact memWf_ite (memWf_enqueue hs2) (memWf_ite hs2 (memWf_modTile (memWf_countTile hs2 _ _ _) _
    (fun _ hu => Tile.memWf_congr hu rfl rfl rfl rfl rfl rfl)))

theorem State.memWf_deliverEnd {n : Nat} {st : Stitch} {m : CMsg} {lost : Bool} (h : s.memWf = true) : (s.deliverEnd n st m lost).memWf = true := by
  unfold State.deliverEnd
  extract_lets s1
  have hs1 : s1.memWf = true := memWf_ite (memWf_bumpF (memWf_setF h _ _ _ _) _ _ _ _) h
  split
  · exact memWf_deliver0 h
  · exact memWf_hemTake hs1
  · exact memWf_ite (memWf_bumpF h _ _ _ _) (memWf_laneSend0 h)

theorem State.memWf_loseTurns {leg : List (Nat × Nat)} (h : s.memWf = true) : (s.loseTurns leg).memWf = true :=
  memWf_foldl (fun _ _ hu => memWf_ite hu (memWf_modLink hu)) h

theorem State.memWf_stitchArrive {n p : Nat} (h : s.memWf = true) : (s.stitchArrive n p).memWf = true := by
  unfold State.stitchArrive
  split
  · exact h
  · split
    · exact h
    · extract_lets prev leg t lost left fl m s1
      have hs1 : s1.memWf = true := memWf_loseTurns (memWf_countPath (memWf_setStitch h))
      exact memWf_ite h (memWf_ite h (memWf_ite h (memWf_ite (memWf_deliverEnd hs1) (memWf_deliver0 hs1))))

@[simp] theorem memWf_execStitchDelivery {n : BitVec 10} {point : Nat} (h : s.memWf = true) : (execStitchDelivery n point s).memWf :=
  Res.memWf_next (memWf_stitchArrive h)

theorem State.memWf_land {t : Nat} {l : Landed} (h : s.memWf = true) : (s.land t l).memWf = true :=
  memWf_modTile (memWf_takePort h _) _ (fun _ hu => Tile.memWf_osStoreLine (Tile.memWf_congr hu rfl rfl rfl rfl rfl rfl) _ _)

@[simp] theorem memWf_execLandingStageWrite {t : TileNo} (h : s.memWf = true) : (execLandingStageWrite t s).memWf := by
  unfold execLandingStageWrite
  dsimp only
  refine Res.memWf_next ?_
  refine memWf_ite h ?_
  split
  · exact h
  · split
    · exact memWf_land h
    · exact memWf_land (memWf_land h)

@[simp] theorem memWf_execCreditReturn {n : BitVec 10} (h : s.memWf = true) : (execCreditReturn n s).memWf := by
  unfold execCreditReturn
  dsimp only
  refine Res.memWf_next ?_
  split
  · exact h
  · exact memWf_ite h (memWf_ite (memWf_emit (memWf_setF (memWf_setStitch h) _ _ _ _) _ _ _)
      (memWf_ite (memWf_pumpHem (memWf_setF (memWf_setStitch h) _ _ _ _)) (memWf_setF (memWf_setStitch h) _ _ _ _)))

theorem State.memWf_linkEvent {t port : Nat} (h : s.memWf = true) : (s.linkEvent t port).memWf = true := by
  unfold State.linkEvent
  split
  · exact h
  · exact memWf_modLink h

theorem State.memWf_breakOver {l : List (Nat × Nat)} (h : s.memWf = true) : (s.breakOver l).memWf = true := by
  unfold State.breakOver
  refine memWf_foldl (fun u a hu => ?_) h
  split
  · split
    · exact memWf_breakStitch hu
    · exact hu
  · exact hu

theorem State.memWf_retireLink {t port : Nat} (h : s.memWf = true) : (s.retireLink t port).memWf = true := by
  unfold State.retireLink
  extract_lets w s1
  have hs1 : s1.memWf = true := memWf_foldl (fun _ _ hu => memWf_modLink hu) h
  exact memWf_ite h (memWf_breakOver (memWf_armFreeze (memWf_report hs1 _ _ _) _ _))

@[simp] theorem memWf_execClass0CrcFailure {n : BitVec 10} {hop : Nat} (h : s.memWf = true) : (execClass0CrcFailure n hop s).memWf := by
  unfold execClass0CrcFailure
  dsimp only
  refine Res.memWf_next ?_
  split
  · exact h
  · split
    · exact memWf_ite h (memWf_report (memWf_linkEvent (memWf_setStitch h)) _ _ _)
    · exact h

@[simp] theorem memWf_execLinkReplay {t : TileNo} {port : BitVec 3} {again : Bool} (h : s.memWf = true) : (execLinkReplay t port again s).memWf := by
  unfold execLinkReplay
  extract_lets n p l s1
  have hs1 : s1.memWf = true := memWf_ite h (memWf_modLink h)
  exact Res.memWf_next (memWf_ite h (memWf_ite (memWf_retireLink hs1) (memWf_linkEvent (memWf_modLink hs1))))

@[simp] theorem memWf_execLinkEventLimitExceeded {t : TileNo} {port : BitVec 3} (h : s.memWf = true) : (execLinkEventLimitExceeded t port s).memWf :=
  Res.memWf_next (memWf_ite (memWf_retireLink h) h)

theorem State.memWf_emptyHem {n : Nat} (h : s.memWf = true) : (s.emptyHem n).memWf = true := memWf_ite h (memWf_hemDrop (memWf_setHem h))

@[simp] theorem memWf_execRouterFault {t : TileNo} (h : s.memWf = true) : (execRouterFault t s).memWf := by
  unfold execRouterFault
  extract_lets n s1 s2 s3
  have hs1 : s1.memWf = true := memWf_foldl (fun _ _ hu => memWf_retireLink hu) h
  have hs2 : s2.memWf = true := memWf_modTile hs1 _ (fun _ hu => Tile.memWf_congr hu rfl rfl rfl rfl rfl rfl)
  have hs3 : s3.memWf = true := memWf_foldl (fun _ _ hu => memWf_emptyHem hu) hs2
  exact Res.memWf_next (memWf_ite h (memWf_retireTile hs3))

@[simp]
theorem memWf_execMulticastDetach {g : Byte} {t : TileNo} {port : BitVec 4} (h : s.memWf = true) : (execMulticastDetach g t port s).memWf := by
  unfold execMulticastDetach
  refine Res.memWf_next ?_
  refine memWf_ite h ?_
  split
  · exact h
  · extract_lets s1
    have hs1 : s1.memWf = true := memWf_leave h
    exact memWf_ite h (memWf_congr hs1 rfl rfl rfl rfl)

@[simp] theorem memWf_execTornMarker {t : TileNo} {port : BitVec 4} {g : Byte} (h : s.memWf = true) : (execTornMarker t port g s).memWf := by
  unfold execTornMarker
  dsimp only
  refine Res.memWf_next ?_
  split
  · exact h
  · exact memWf_ite (memWf_congr h rfl rfl rfl rfl) h

@[simp] theorem memWf_execLinkForceWrite {off : Bool} (h : s.memWf = true) : (execLinkForceWrite off s).memWf :=
  Res.memWf_next (memWf_hostWrite h (fun _ hu => memWf_ite (memWf_ite (memWf_discard hu) (memWf_foldl (fun _ _ hu1 => memWf_modLink hu1) hu))
    (memWf_foldl (fun _ _ hu1 => memWf_modLink hu1) hu)))

@[simp] theorem memWf_execMcastGroupWrite {g : Byte} {val : Word} (h : s.memWf = true) : (execMcastGroupWrite g val s).memWf :=
  Res.memWf_next (memWf_hostWrite h (fun _ hu => memWf_ite (memWf_ite (memWf_setF (memWf_setF
    (memWf_setF (memWf_setF (memWf_setF (memWf_setF hu _ _ _ _) _ _ _ _) _ _ _ _) _ _ _ _) _ _ _ _) _ _ _ _)
    (memWf_logErr (memWf_setF (memWf_setF (memWf_setF (memWf_setF (memWf_setF (memWf_setF hu _ _ _ _) _ _ _ _) _ _ _ _) _ _ _ _) _ _ _ _) _ _ _ _) _ _
    _ _)) (memWf_setF (memWf_setF (memWf_setF (memWf_setF (memWf_setF (memWf_setF hu _ _ _ _) _ _ _ _) _ _ _ _) _ _ _ _) _ _ _ _) _ _ _ _)))

end NetworkCommands

section PanelOperations

/-! Panel resets, sleep, wake and thaw. -/

open State

variable {s : State}

theorem State.memWf_markIssued {p q ord : Nat} (h : s.memWf = true) : (s.markIssued p q ord).memWf = true := memWf_modPanel h

theorem State.memWf_refuseCmd {p q : Nat} {c : QCmd} {cause detail : Nat} (h : s.memWf = true) : (s.refuseCmd p q c cause detail).memWf = true := by
  unfold State.refuseCmd
  extract_lets s1 s2 s3
  have hs1 : s1.memWf = true := memWf_popCmd h
  have hs2 : s2.memWf = true := memWf_setF (memWf_setF (memWf_setF (memWf_setF hs1 _ _ _ _) _ _ _ _) _ _ _ _) _ _ _ _
  have hs3 : s3.memWf = true := memWf_raise hs2 _
  exact memWf_ite (memWf_setF (memWf_modPanel hs3) _ _ _ _) hs3

theorem State.memWf_finishSnaps {p : Nat} (h : s.memWf = true) : (s.finishSnaps p).memWf = true :=
  memWf_foldl (fun _ _ hu => memWf_raise (memWf_setF hu _ _ _ _) _) (memWf_modPanel h)

theorem State.memWf_placeMarks {p : Nat} (h : s.memWf = true) : (s.placeMarks p).memWf = true := by
  unfold State.placeMarks
  extract_lets x go chans s1
  have hs1 : s1.memWf = true := memWf_foldl (fun _ _ hu => memWf_foldl (fun _ _ hu1 => memWf_modChan hu1) hu) h
  exact memWf_finishSnaps (memWf_modPanel hs1)

theorem State.memWf_freeStitch {n : Nat} (h : s.memWf = true) : (s.freeStitch n).memWf = true := by
  unfold State.freeStitch
  extract_lets s1
  have hs1 : s1.memWf = true := memWf_congr h rfl rfl rfl rfl
  exact memWf_setF (memWf_setF (memWf_setF (memWf_setStitch hs1) _ _ _ _) _ _ _ _) _ _ _ _

theorem State.memWf_resetPanelFlds {p : Nat} {keep : List Fld} (h : s.memWf = true) : (s.resetPanelFlds p keep).memWf = true :=
  memWf_foldl (fun _ _ hu => memWf_foldl (fun _ _ hu1 => memWf_setF hu1 _ _ _ _) hu) h

theorem State.memWf_forgetPatch {p : Nat} (h : s.memWf = true) : (s.forgetPatch p).memWf = true := memWf_congr h rfl rfl rfl rfl

theorem State.memWf_panelResetSteps {p : Nat} (h : s.memWf = true) : (s.panelResetSteps p).memWf = true := by
  unfold State.panelResetSteps
  extract_lets tiles s1 s2 s3 s4 s5 src s6
  have hs1 : s1.memWf = true := memWf_foldl (fun _ _ hu => memWf_modChan (memWf_startAbort hu)) h
  have hs2 : s2.memWf = true := memWf_foldl (fun _ _ hu => memWf_resetFlds (memWf_tileReset hu)) hs1
  have hs3 : s3.memWf = true := memWf_foldl (fun _ _ hu => memWf_setF (memWf_freeStitch hu) _ _ _ _) hs2
  have hs4 : s4.memWf = true := memWf_foldl (fun _ _ hu => memWf_ite (memWf_setF hu _ _ _ _) hu) hs3
  have hs5 : s5.memWf = true := by
    refine memWf_foldl (fun _ _ hu => ?_) hs4
    exact memWf_modTile hu _ (fun _ hu1 => Tile.memWf_congr hu1 rfl rfl rfl rfl rfl rfl)
  have hs6 : s6.memWf = true := memWf_setPanel (memWf_forgetPatch hs5)
  exact memWf_resetPanelFlds hs6

theorem State.memWf_startPanelReset {p : Nat} (h : s.memWf = true) : (s.startPanelReset p).memWf = true :=
  memWf_setF (memWf_panelResetSteps h) _ _ _ _

theorem State.memWf_removePanel {p : Nat} (h : s.memWf = true) : (s.removePanel p).memWf = true :=
  memWf_setF (memWf_setF (memWf_setPanel h) _ _ _ _) _ _ _ _

theorem State.memWf_wakeTile {t : Nat} (h : s.memWf = true) : (s.wakeTile t).memWf = true := by
  refine memWf_modTile (memWf_tileReset h) t (fun x hx => ?_)
  obtain ⟨-, -, hrest⟩ := Tile.memWf_parts.mp hx
  exact Tile.memWf_parts.mpr ⟨rfl, rfl, hrest⟩

theorem State.memWf_wakePanel {p : Nat} (h : s.memWf = true) : (s.wakePanel p).memWf = true := by
  unfold State.wakePanel
  extract_lets s1 late s2 s3
  have hs1 : s1.memWf = true := memWf_foldl (fun _ _ hu => memWf_wakeTile hu) h
  have hs2 : s2.memWf = true := memWf_setFbit (memWf_setFbit (memWf_setF hs1 _ _ _ _) _ _ _ _ _) _ _ _ _ _
  have hs3 : s3.memWf = true := memWf_modPanel hs2
  exact memWf_ite (memWf_faultAction hs3) hs3

theorem State.memWf_lateResets {tiles : List Nat} (h : s.memWf = true) : (s.lateResets tiles).memWf = true :=
  memWf_foldl (fun _ _ hu => memWf_ite (memWf_tileReset hu) hu) h

theorem State.memWf_lateResponse {respond : State → Nat → Nat → Nat → State} {c : Nat × Nat}
    (hrespond : ∀ (u : State) (v w a_3 : Nat), u.memWf = true → (respond u v w a_3).memWf = true) (h : s.memWf = true) :
    (State.lateResponse respond s c).memWf = true := by
  unfold State.lateResponse
  split
  · exact hrespond _ _ _ _ (memWf_modChan h)
  · exact h

theorem State.memWf_pageRespond {k n code : Nat} (h : s.memWf = true) : (s.pageRespond k n code).memWf = true := by
  unfold State.pageRespond
  refine memWf_ite h ?_
  refine memWf_ite (memWf_askHost (memWf_setChanState h)) ?_
  split
  · exact memWf_failDesc h
  · exact h

theorem State.memWf_thawPanel {p : Nat} (h : s.memWf = true) : (s.thawPanel p).memWf = true := by
  unfold State.thawPanel
  extract_lets s1 tiles s2 s3
  have hs1 : s1.memWf = true := memWf_setF h _ _ _ _
  have hs2 : s2.memWf = true := memWf_drainAll0 (memWf_pumpHems (memWf_lateResets hs1))
  have hs3 : s3.memWf = true := memWf_foldl (fun _ _ hu => memWf_lateResponse (fun _ _ _ _ hu1 => memWf_pageRespond hu1) hu) hs2
  exact memWf_ite (memWf_wakePanel hs3) hs3

end PanelOperations

section PanelCommands

/-! Commands of the panels. -/

open State

variable {s : State}

@[simp] theorem memWf_execPanelDefine {p : PanelNo} (h : s.memWf = true) : (execPanelDefine p s).memWf :=
  Res.memWf_next (memWf_hostWrite h (fun _ hu => memWf_ite hu (memWf_ite (memWf_modPanel (memWf_setF hu _ _ _ _))
    (memWf_setF (memWf_setF hu _ _ _ _) _ _ _ _))))

@[simp] theorem memWf_execPanelDefineComplete {p : PanelNo} (h : s.memWf = true) : (execPanelDefineComplete p s).memWf := by
  unfold execPanelDefineComplete
  extract_lets n src s1 s2 s3 s4 s5
  have hs1 : s1.memWf = true := memWf_setPanel h
  have hs2 : s2.memWf = true := memWf_setF (memWf_setF hs1 _ _ _ _) _ _ _ _
  have hs3 : s3.memWf = true := memWf_setF (memWf_setF (memWf_setF hs2 _ _ _ _) _ _ _ _) _ _ _ _
  have hs4 : s4.memWf = true := memWf_setF (memWf_setF (memWf_setF hs3 _ _ _ _) _ _ _ _) _ _ _ _
  have hs5 : s5.memWf = true := memWf_foldl (fun _ _ hu => memWf_setF hu _ _ _ _) hs4
  refine Res.memWf_next ?_
  refine memWf_ite ?_ h
  refine memWf_foldl (fun _ _ hu => ?_) hs5
  exact memWf_modTile hu _ (fun _ hu1 => Tile.memWf_congr hu1 rfl rfl rfl rfl rfl rfl)

theorem State.memWf_panelCtl {f : Fld} {p : Nat} {k : State → State} (h : s.memWf = true) (hk : ∀ (u : State), u.memWf = true → (k u).memWf = true) :
    (s.panelCtl f p k).memWf = true := memWf_hostWrite h (fun _ hu => memWf_ite (memWf_discard hu) (hk _ hu))

theorem State.memWf_readyForReset {p : Nat} (h : s.memWf = true) : (s.readyForReset p).memWf = true := by
  unfold State.readyForReset
  extract_lets s1
  have hs1 : s1.memWf = true := memWf_ite (memWf_thawPanel h) h
  exact memWf_ite (memWf_wakePanel hs1) hs1

@[simp] theorem memWf_execPanelUndefine {p : PanelNo} (h : s.memWf = true) : (execPanelUndefine p s).memWf :=
  Res.memWf_next (memWf_panelCtl h (fun _ hu => memWf_ite hu (memWf_ite (memWf_modPanel (memWf_setF hu _ _ _ _))
    (memWf_startPanelReset (memWf_readyForReset (memWf_modPanel (memWf_setF hu _ _ _ _)))))))

@[simp] theorem memWf_execPanelReset {p : PanelNo} (h : s.memWf = true) : (execPanelReset p s).memWf :=
  Res.memWf_next (memWf_panelCtl h (fun _ hu => memWf_ite (memWf_discard hu) (memWf_ite hu
    (memWf_startPanelReset (memWf_setF (memWf_readyForReset hu) _ _ _ _)))))

@[simp] theorem memWf_execPanelResetComplete {p : PanelNo} (h : s.memWf = true) : (execPanelResetComplete p s).memWf := by
  unfold execPanelResetComplete
  extract_lets n s1
  have hs1 : s1.memWf = true := memWf_setF h _ _ _ _
  exact Res.memWf_next (memWf_ite h (memWf_ite (memWf_removePanel hs1) (memWf_setF hs1 _ _ _ _)))

@[simp] theorem memWf_execPanelThaw {p : PanelNo} (h : s.memWf = true) : (execPanelThaw p s).memWf :=
  Res.memWf_next (memWf_panelCtl h (fun _ hu => memWf_ite (memWf_discard hu) (memWf_ite (memWf_thawPanel hu) (memWf_ite (memWf_discard hu) hu))))

@[simp] theorem memWf_execQueueResume {p : PanelNo} (h : s.memWf = true) : (execQueueResume p s).memWf :=
  Res.memWf_next (memWf_hostWrite h (fun _ hu => memWf_ite (memWf_discard hu) (memWf_setF (memWf_modPanel hu) _ _ _ _)))

@[simp] theorem memWf_execTileTakeover {t : TileNo} (h : s.memWf = true) : (execTileTakeover t s).memWf := by
  have hfresh (retired : Bool) : ({ Tile.init with routerRetired := retired } : Tile).memWf = true := rfl
  unfold execTileTakeover
  refine Res.memWf_next (memWf_ite h ?_)
  split
  · exact h
  · next r _ =>
    extract_lets dead old src s1 s2 s3 s4 s5 s6
    have hs1 : s1.memWf = true := memWf_setTile (memWf_resetFlds h) _ (hfresh dead)
    clear_value s1
    have hs2 : s2.memWf = true := memWf_congr hs1 rfl rfl rfl rfl
    have hs3 : s3.memWf = true := memWf_setF hs2 _ _ _ _
    have hs4 : s4.memWf = true := memWf_foldl (fun _ _ hu => memWf_breakStitch hu) hs3
    have hs5 : s5.memWf = true := memWf_foldl (fun _ _ hu => memWf_ite (memWf_setF hu _ _ _ _) hu) hs4
    have hs6 : s6.memWf = true := memWf_report hs5 _ _ _
    split
    · exact memWf_ite (memWf_thawPanel hs6) hs6
    · exact hs6

@[simp] theorem memWf_execPanelSleep {p : PanelNo} (h : s.memWf = true) : (execPanelSleep p s).memWf :=
  Res.memWf_next (memWf_hostWrite h (fun _ hu => memWf_ite hu (memWf_ite (memWf_setF (memWf_setFbit hu _ _ _ _ _) _ _ _ _)
    (memWf_discard (memWf_setFbit hu _ _ _ _ _)))))

@[simp] theorem memWf_execPanelWake {p : PanelNo} (h : s.memWf = true) : (execPanelWake p s).memWf :=
  Res.memWf_next (memWf_hostWrite h (fun _ hu => memWf_ite hu (memWf_ite (memWf_modPanel (memWf_setFbit hu _ _ _ _ _)) (memWf_wakePanel hu))))

theorem State.memWf_hostPost {p t k : Nat} (h : s.memWf = true) : (s.hostPost p t k).memWf = true :=
  memWf_ite h (memWf_ite (memWf_bumpF h _ _ _ _) (memWf_postIrq h))

theorem State.memWf_post {p k v : Nat} (h : s.memWf = true) : (s.post p k v).memWf = true := by
  unfold State.post
  refine memWf_hostWrite h (fun u hu => ?_)
  extract_lets a s1
  have hs1 : s1.memWf = true := memWf_setF (memWf_setF (memWf_setF hu _ _ _ _) _ _ _ _) _ _ _ _
  exact memWf_ite (memWf_discard hu) (memWf_foldl (fun _ _ hu1 => memWf_hostPost hu1) hs1)

@[simp]
theorem memWf_execPostPreempt {p : PanelNo} {val : Word} (h : s.memWf = true) : (execPostPreempt p val s).memWf := Res.memWf_next (memWf_post h)

@[simp] theorem memWf_execPostSnapshotRequest {p : PanelNo} {val : Word} (h : s.memWf = true) : (execPostSnapshotRequest p val s).memWf :=
  Res.memWf_next (memWf_post h)

end PanelCommands

section IntakeCommands

/-! The intake: records posted to the command queues. -/

open State

variable {s : State}

theorem State.memWf_intakeFlag {f : Fld} {p : Nat} (h : s.memWf = true) : (s.intakeFlag f p).memWf = true := memWf_raise (memWf_setF h _ _ _ _) _

theorem State.memWf_intakeWord {p off : Nat} {w : Word} {bad : Bool} (h : s.memWf = true) : (s.intakeWord p off w bad).memWf = true := by
  unfold State.intakeWord
  extract_lets shut s1 x x2 n u
  have hs1 : s1.memWf = true := memWf_ite (memWf_intakeFlag h) h
  exact memWf_ite (memWf_intakeFlag h) (memWf_ite h (memWf_ite (memWf_setF (memWf_setPanel hs1) _ _ _ _)
    (memWf_ite (memWf_setPanel hs1) (memWf_setPanel hs1))))

theorem State.memWf_intakeWords {bad : Bool} {off : Nat} {l : List Word} (h : s.memWf = true) : (State.intakeWords bad off l s).memWf = true := by
  induction l generalizing s off with
  | nil => exact h
  | cons w r ih => exact ih (memWf_ite h (memWf_intakeWord h))

@[simp] theorem memWf_execIntakeWrite {off : BitVec 22} {words : List Word} {partialBe poisoned : Bool} (h : s.memWf = true) :
    (execIntakeWrite off words partialBe poisoned s).memWf := by
  unfold execIntakeWrite
  extract_lets s1
  have hs1 : s1.memWf = true := memWf_ite (memWf_report (memWf_bumpF h _ _ _ _) _ _ _) h
  exact Res.memWf_next (memWf_ite h (memWf_ite (memWf_violation h) (memWf_intakeWords hs1)))

@[simp] theorem memWf_execIntakeResync {p : PanelNo} (h : s.memWf = true) : (execIntakeResync p s).memWf :=
  Res.memWf_next (memWf_hostWrite h (fun _ hu => memWf_setF (memWf_setF (memWf_modPanel hu) _ _ _ _) _ _ _ _))

@[simp] theorem memWf_execPacketDecision {p : PanelNo} (h : s.memWf = true) : (execPacketDecision p s).memWf := by
  unfold execPacketDecision
  dsimp only
  refine Res.memWf_next ?_
  split
  · exact h
  · exact memWf_ite h (memWf_ite (memWf_placeMarks (memWf_setF (memWf_modPanel (memWf_setF (memWf_modPanel h) _ _ _ _)) _ _ _ _))
      (memWf_intakeFlag (memWf_setF (memWf_setF (memWf_ite (memWf_setF (memWf_setF (memWf_modPanel h) _ _ _ _) _ _ _ _)
      (memWf_setF (memWf_modPanel h) _ _ _ _)) _ _ _ _) _ _ _ _)))

@[simp] theorem memWf_execPacketConsume {p : PanelNo} (h : s.memWf = true) : (execPacketConsume p s).memWf := by
  unfold execPacketConsume
  dsimp only
  refine Res.memWf_next ?_
  split
  · exact h
  · exact memWf_ite h (memWf_setF (memWf_setPanel h) _ _ _ _)

end IntakeCommands

section QueueCommands

/-! Commands at the head of a queue. -/

open State

variable {s : State}

@[simp] theorem memWf_execLaunch {p : PanelNo} (h : s.memWf = true) : (execLaunch p s).memWf := by
  unfold execLaunch
  dsimp only
  refine Res.memWf_next ?_
  split
  · exact h
  · refine memWf_ite h ?_
    split
    · exact memWf_foldl (fun _ _ hu => memWf_launchTile hu _ _) (memWf_markIssued h)
    · exact memWf_refuseCmd h

theorem State.memWf_loadProgram {t : Nat} {c : QCmd} (h : s.memWf = true) : (s.loadProgram t c).memWf = true :=
  memWf_foldl (fun _ _ hu => memWf_modTile hu _ (fun _ hu1 => Tile.memWf_pmemStore hu1 _ _)) h

theorem State.memWf_loadSend {p t : Nat} {c : QCmd} (h : s.memWf = true) : (s.loadSend p t c).memWf = true := by
  unfold State.loadSend
  split
  · exact h
  · exact memWf_foldl (fun _ _ hu => memWf_launchMsg hu) h

@[simp] theorem memWf_execLoad {p : PanelNo} (h : s.memWf = true) : (execLoad p s).memWf := by
  unfold execLoad
  dsimp only
  refine Res.memWf_next ?_
  split
  · exact h
  · refine memWf_ite h ?_
    split
    · exact memWf_ite (memWf_loadProgram (memWf_popCmd h)) (memWf_settleLoads (memWf_loadSend (memWf_markIssued h)))
    · exact memWf_violation (memWf_refuseCmd h)
    · exact memWf_refuseCmd h

@[simp] theorem memWf_execMoveIssue {p : PanelNo} {q : BitVec 3} (h : s.memWf = true) : (execMoveIssue p q s).memWf := by
  unfold execMoveIssue
  dsimp only
  refine Res.memWf_next ?_
  split
  · exact h
  · exact memWf_ite (memWf_markIssued h) h

@[simp] theorem memWf_execMove {p : PanelNo} {q : BitVec 3} (h : s.memWf = true) : (execMove p q s).memWf := by
  unfold execMove
  dsimp only
  refine Res.memWf_next ?_
  split
  · exact h
  · exact memWf_ite h (memWf_ite (memWf_placeMarks (memWf_refuseCmd h)) (memWf_ite h (memWf_placeMarks (memWf_modPanel (memWf_modChan h)))))

@[simp] theorem memWf_execMark {p : PanelNo} {q : BitVec 3} (h : s.memWf = true) : (execMark p q s).memWf := by
  unfold execMark
  refine Res.memWf_next ?_
  split
  · exact h
  · exact memWf_ite (memWf_placeMarks (memWf_markIssued h)) h

@[simp] theorem memWf_execMarkReached {p : PanelNo} {q : BitVec 3} (h : s.memWf = true) : (execMarkReached p q s).memWf := by
  unfold execMarkReached
  dsimp only
  refine Res.memWf_next ?_
  split
  · exact h
  · exact memWf_ite (memWf_setF (memWf_popCmd h) _ _ _ _) h

@[simp] theorem memWf_execWait {p : PanelNo} {q : BitVec 3} (h : s.memWf = true) : (execWait p q s).memWf := by
  unfold execWait
  refine Res.memWf_next ?_
  split
  · exact h
  · exact memWf_ite (memWf_placeMarks (memWf_markIssued h)) h

@[simp] theorem memWf_execWaitSatisfied {p : PanelNo} {q : BitVec 3} (h : s.memWf = true) : (execWaitSatisfied p q s).memWf := by
  unfold execWaitSatisfied
  dsimp only
  refine Res.memWf_next ?_
  split
  · exact h
  · exact memWf_ite (memWf_popCmd h) h

@[simp] theorem memWf_execBarrier {p : PanelNo} (h : s.memWf = true) : (execBarrier p s).memWf := by
  unfold execBarrier
  refine Res.memWf_next ?_
  split
  · exact h
  · exact memWf_markIssued h

@[simp] theorem memWf_execBarrierRelease {p : PanelNo} (h : s.memWf = true) : (execBarrierRelease p s).memWf := by
  unfold execBarrierRelease
  dsimp only
  refine Res.memWf_next ?_
  split
  · exact h
  · refine memWf_ite h ?_
    refine memWf_foldl (fun _ _ hu => ?_) (memWf_setF (memWf_popCmd h) _ _ _ _)
    exact memWf_enqueue (memWf_modTile hu _ (fun _ hu1 => Tile.memWf_congr hu1 rfl rfl rfl rfl rfl rfl))

theorem State.memWf_reserveStitch {p : Nat} {c : QCmd} (h : s.memWf = true) : (s.reserveStitch p c).memWf = true := by
  unfold State.reserveStitch
  split
  · exact h
  · extract_lets n st s1
    have hs1 : s1.memWf = true := memWf_foldl (fun _ _ hu => memWf_modLink hu) (memWf_setStitch h)
    exact memWf_setF (memWf_setF (memWf_setF hs1 _ _ _ _) _ _ _ _) _ _ _ _

theorem State.memWf_settleForced (h : s.memWf = true) : s.settleForced.memWf = true := memWf_congr h rfl rfl rfl rfl

@[simp] theorem memWf_execStitchReserve {p : PanelNo} (h : s.memWf = true) : (execStitchReserve p s).memWf := by
  unfold execStitchReserve
  dsimp only
  refine Res.memWf_next ?_
  split
  · exact h
  · refine memWf_ite h ?_
    split
    · exact memWf_settleForced (memWf_reserveStitch (memWf_popCmd h))
    · exact memWf_settleForced (memWf_refuseCmd h)

@[simp] theorem memWf_execStitchRelease {p : PanelNo} (h : s.memWf = true) : (execStitchRelease p s).memWf := by
  unfold execStitchRelease
  dsimp only
  refine Res.memWf_next ?_
  split
  · exact h
  · refine memWf_ite h ?_
    refine memWf_ite (memWf_refuseCmd h) ?_
    split
    · exact memWf_ite (memWf_refuseCmd h) (memWf_ite (memWf_setF (memWf_markIssued (memWf_setStitch h)) _ _ _ _)
        (memWf_markIssued (memWf_setStitch h)))
    · exact memWf_refuseCmd h

@[simp] theorem memWf_execStitchReleaseEffect {stitch : BitVec 10} (h : s.memWf = true) : (execStitchReleaseEffect stitch s).memWf := by
  unfold execStitchReleaseEffect
  extract_lets k p s1
  have hs1 : s1.memWf = true := memWf_freeStitch h
  refine Res.memWf_next ?_
  split
  · exact h
  · refine memWf_ite h ?_
    split
    · exact memWf_ite (memWf_popCmd hs1) hs1
    · exact hs1

@[simp] theorem memWf_execSnap {p : PanelNo} (h : s.memWf = true) : (execSnap p s).memWf := by
  unfold execSnap
  dsimp only
  refine Res.memWf_next ?_
  split
  · exact h
  · exact memWf_placeMarks (memWf_ite (memWf_foldl (fun _ _ hu => memWf_postIrq hu) (memWf_modPanel (memWf_popCmd h)))
      (memWf_modPanel (memWf_popCmd h)))

@[simp] theorem memWf_execTag {p : PanelNo} (h : s.memWf = true) : (execTag p s).memWf := by
  unfold execTag
  dsimp only
  refine Res.memWf_next ?_
  split
  · exact h
  · refine memWf_foldl (fun _ _ hu => ?_) (memWf_setF (memWf_setF (memWf_popCmd h) _ _ _ _) _ _ _ _)
    exact memWf_modTile hu _ (fun _ hu1 => Tile.memWf_congr hu1 rfl rfl rfl rfl rfl rfl)

@[simp] theorem memWf_execSignal {p : PanelNo} (h : s.memWf = true) : (execSignal p s).memWf := by
  unfold execSignal
  dsimp only
  refine Res.memWf_next ?_
  split
  · exact h
  · exact memWf_sendVector (memWf_setF (memWf_setF (memWf_popCmd h) _ _ _ _) _ _ _ _) _

end QueueCommands

section ManagementOperations

/-! Commits, summaries and what a reset substitutes. -/

open State

variable {s : State}

theorem State.memWf_commitNext (h : s.memWf = true) : s.commitNext.memWf = true := by
  unfold State.commitNext
  refine memWf_ite ?_ ?_
  · refine memWf_bbCommit ?_ _ _ _
    exact memWf_congr h rfl rfl rfl rfl
  · split
    · exact memWf_congr h rfl rfl rfl rfl
    · extract_lets s1
      have hs1 : s1.memWf = true := by
        refine memWf_bbCommit ?_ _ _ _
        exact memWf_congr h rfl rfl rfl rfl
      exact memWf_ite (memWf_raise hs1 _) hs1

theorem State.memWf_commitAll (h : s.memWf = true) : s.commitAll.memWf = true := memWf_foldl (fun _ _ hu => memWf_ite hu (memWf_commitNext hu)) h

theorem State.memWf_mgmtRecord {typ : Nat} {payload : List Byte} (h : s.memWf = true) : (s.mgmtRecord typ payload).memWf = true := by
  unfold State.mgmtRecord
  extract_lets s1
  have hs1 : s1.memWf = true := memWf_report h _ _ _
  exact memWf_congr hs1 rfl rfl rfl rfl

theorem State.memWf_writeSummaries {tiles sects lanes : List Nat} (h : s.memWf = true) : (s.writeSummaries tiles sects lanes).memWf = true := by
  unfold State.writeSummaries
  extract_lets s1
  have hs1 : s1.memWf = true := memWf_foldl (fun _ _ hu => memWf_bbCommit hu _ _ _) h
  clear_value s1
  exact memWf_congr hs1 rfl rfl rfl rfl

theorem State.memWf_applyRetirements (h : s.memWf = true) : s.applyRetirements.memWf = true := by
  unfold State.applyRetirements
  extract_lets s1 s2 bad dead rows
  have hs2 : s2.memWf = true := memWf_congr h rfl rfl rfl rfl
  refine memWf_foldl (fun u a hu => ?_) hs2
  extract_lets s3
  have hs3 : s3.memWf = true := memWf_ite (memWf_foldl (fun _ _ hu1 => memWf_modLink hu1) hu) hu
  exact memWf_ite (memWf_modTile hu _ (fun _ hu1 => Tile.memWf_congr hu1 rfl rfl rfl rfl rfl rfl))
    (memWf_ite hu (memWf_modTile hs3 _ (fun _ hu1 => Tile.memWf_congr hu1 rfl rfl rfl rfl rfl rfl)))

end ManagementOperations

section ConfigurationOperations

/-! The engine's registers, frames and requests. -/

open State

variable {s : State}

theorem State.memWf_setFrame {fa : Nat} {f : Frame} (h : s.memWf = true) : (s.setFrame fa f).memWf = true := memWf_congr h rfl rfl rfl rfl

theorem State.memWf_writeRegion {r : Nat} {w : List FrameWrite} (h : s.memWf = true) : (s.writeRegion r w).memWf = true := by
  unfold State.writeRegion
  extract_lets src s1
  have hs1 : s1.memWf = true := memWf_congr h rfl rfl rfl rfl
  exact memWf_foldl (fun _ _ hu => memWf_setFrame hu) hs1

theorem State.memWf_blankAll (h : s.memWf = true) : s.blankAll.memWf = true := by
  unfold State.blankAll
  extract_lets src src2 s1
  have hs1 : s1.memWf = true := memWf_congr h rfl rfl rfl rfl
  exact memWf_foldl (fun _ _ hu => memWf_setF hu _ _ _ _) hs1

theorem State.memWf_showMismatch {b : Nat} (h : s.memWf = true) : (s.showMismatch b).memWf = true := by
  unfold State.showMismatch
  extract_lets v s1
  have hs1 : s1.memWf = true := memWf_setFbit h _ _ _ _ _
  exact memWf_setFbit hs1 _ _ _ _ _

theorem State.memWf_takeClocks {p : Nat} (h : s.memWf = true) : (s.takeClocks p).memWf = true := by
  unfold State.takeClocks
  extract_lets s1 s2
  have hs1 : s1.memWf = true := memWf_foldl (fun _ _ hu => memWf_setF hu _ _ _ _) h
  have hs2 : s2.memWf = true := by
    dsimp only [s2]
    split
    · exact memWf_setF hs1 _ _ _ _
    · exact hs1
  exact memWf_showMismatch hs2

theorem State.memWf_newLoad {r rclk : Nat} (h : s.memWf = true) : (s.newLoad r rclk).memWf = true := by
  unfold State.newLoad
  extract_lets c s1
  have hs1 : s1.memWf = true := memWf_congr h rfl rfl rfl rfl
  exact memWf_ite (memWf_takeClocks hs1) hs1

theorem State.memWf_engage {p : Nat} (h : s.memWf = true) : (s.engage p).memWf = true := memWf_congr h rfl rfl rfl rfl
theorem State.memWf_release {p : Nat} (h : s.memWf = true) : (s.release p).memWf = true := memWf_congr h rfl rfl rfl rfl

end ConfigurationOperations

section FabricLogic

/-! One clock of the fabric's logic. -/

open State

variable {s : State}

theorem State.memWf_latchReset {r : Nat} (h : s.memWf = true) : (s.latchReset r).memWf = true := memWf_ite (memWf_congr h rfl rfl rfl rfl) h
theorem State.memWf_latchResets (h : s.memWf = true) : s.latchResets.memWf = true := memWf_foldl (fun _ _ hu => memWf_latchReset hu) h

theorem State.memWf_resetAfterLoad (h : s.memWf = true) : s.resetAfterLoad.memWf = true := by
  unfold State.resetAfterLoad
  refine memWf_foldl (fun u a hu => ?_) h
  refine memWf_ite ?_ hu
  exact memWf_congr hu rfl rfl rfl rfl

theorem State.memWf_initRegion {r : Nat} (h : s.memWf = true) : (s.initRegion r).memWf = true := memWf_congr h rfl rfl rfl rfl

theorem State.memWf_setRamBits {b : Nat} {v : BitVec 36864} (h : s.memWf = true) : (s.setRamBits b v).memWf = true :=
  memWf_foldl (fun _ _ hu => memWf_setFrame hu) h

theorem State.memWf_ramTick {v : State} {rise : BitVec 16} {b : Nat} {x : RamCfg} (h : s.memWf = true) :
    (s.ramTick v rise b x).memWf = true := by
  unfold State.ramTick
  extract_lets a c old chk edge s1
  have hs1 : s1.memWf = true := memWf_congr h rfl rfl rfl rfl
  exact memWf_ite (memWf_setRamBits hs1) hs1

theorem State.memWf_engageSeam {p : Nat} (h : s.memWf = true) : (s.engageSeam p).memWf = true := by
  unfold State.engageSeam
  extract_lets f s1
  have hs1 : s1.memWf = true := memWf_engage h
  exact memWf_ite h (memWf_congr hs1 rfl rfl rfl rfl)

theorem State.memWf_fabTick (h : s.memWf = true) : s.fabTick.memWf = true := by
  unfold State.fabTick
  extract_lets s1 lv rise fall ds f f2 f3 s2
  have hs1 : s1.memWf = true := memWf_latchResets h
  have hs2 : s2.memWf = true := memWf_congr hs1 rfl rfl rfl rfl
  exact memWf_ite h (memWf_foldl (fun _ _ hu => memWf_foldl (fun _ _ hu1 => memWf_ramTick hu1) hu) hs2)

end FabricLogic

section HbmCommands

/-! HBM: requests, refresh, retirement, retraining and training. -/

open State

variable {s : State}

@[simp] theorem memWf_execHbmRequestAccept {r : HbmReq} (h : s.memWf = true) : (execHbmRequestAccept r s).memWf := by
  unfold execHbmRequestAccept
  extract_lets i a g c s1 q1
  have hs1 : s1.memWf = true := memWf_hbmStore (memWf_hbmRequest h _ _) _ _
  have hq1 : q1.1.memWf = true := memWf_hbmRequest (memWf_hbmTaken h) _ _
  exact Res.memWf_next (memWf_ite h (memWf_ite (memWf_violation h) (memWf_ite h (memWf_ite (memWf_ite h (memWf_hbmLate h))
    (memWf_ite (memWf_setTrk hs1 _ _) (memWf_setTrk hq1 _ _))))))

@[simp] theorem memWf_execHbmReadData {ctl : Byte} {n : BitVec 6} {ecc : BitVec 2} (h : s.memWf = true) : (execHbmReadData ctl n ecc s).memWf := by
  unfold execHbmReadData
  dsimp only
  refine Res.memWf_next ?_
  split
  · exact h
  · refine memWf_ite h ?_
    split
    · exact memWf_hbmAnswer (memWf_hbmWords (memWf_setTrk h _ _) _ _) _ _
    · exact memWf_bumpChF (memWf_hbmAnswer (memWf_hbmWords (memWf_setTrk h _ _) _ _) _ _) _ _
    · exact memWf_congr (memWf_hbmUncorr (memWf_hbmAnswer (memWf_hbmWords (memWf_setTrk h _ _) _ _) _ _) _) rfl rfl rfl rfl
    · exact memWf_sectDue (memWf_hbmUncorr (memWf_hbmAnswer (memWf_hbmWords (memWf_setTrk h _ _) _ _) _ _) _) _

@[simp] theorem memWf_execHbmWriteCommit {ctl : Byte} {n : BitVec 6} (h : s.memWf = true) : (execHbmWriteCommit ctl n s).memWf := by
  unfold execHbmWriteCommit
  dsimp only
  refine Res.memWf_next ?_
  split
  · exact h
  · exact memWf_ite h (memWf_setTrk h _ _)

@[simp] theorem memWf_execHbmRefresh (h : s.memWf = true) : (execHbmRefresh s).memWf := Res.memWf_next h

@[simp]
theorem memWf_execHbmEventLimitExceeded {ctl : Byte} {sections : Nat} (h : s.memWf = true) : (execHbmEventLimitExceeded ctl sections s).memWf :=
  Res.memWf_next (memWf_ite h (memWf_ite (memWf_sectDue h _) (memWf_sectDue h _)))

theorem State.memWf_rebuildMap {l : List Nat} (h : s.memWf = true) : (s.rebuildMap l).memWf = true := by
  unfold State.rebuildMap
  extract_lets s1 n t s2 s3 src s4
  have hs1 : s1.memWf = true := memWf_foldl (fun _ _ hu => memWf_setFbit hu _ _ _ _ _) h
  have hs2 : s2.memWf = true := memWf_setF (memWf_setF hs1 _ _ _ _) _ _ _ _
  have hs3 : s3.memWf = true := memWf_hbmLose hs2 _
  have hs4 : s4.memWf = true := memWf_congr hs3 rfl rfl rfl rfl
  exact memWf_foldl (fun _ _ hu => memWf_showStack (memWf_showChannel hu)) hs4

theorem State.memWf_hbmOut (h : s.memWf = true) : s.hbmOut.memWf = true := by
  refine memWf_raise (memWf_reportHard ?_ _ _) _
  exact memWf_sameMem h rfl

theorem State.memWf_retrainResult {svc : Bool} {v : Nat} (h : s.memWf = true) : (s.retrainResult svc v).memWf = true :=
  memWf_ite (memWf_setF (memWf_setF h _ _ _ _) _ _ _ _) h

theorem State.memWf_abandonRetrain (h : s.memWf = true) : s.abandonRetrain.memWf = true := by
  unfold State.abandonRetrain
  split
  · exact h
  · refine memWf_retrainResult (memWf_showStack (memWf_showChannel ?_))
    exact memWf_sameMem h rfl

theorem State.memWf_refuseWrites {l : List Nat} (h : s.memWf = true) : (s.refuseWrites l).memWf = true := by
  unfold State.refuseWrites
  refine memWf_foldl (fun u a hu => ?_) h
  refine memWf_foldl (fun u1 a1 hu1 => ?_) hu
  split
  · exact hu1
  · exact memWf_ite (memWf_setReq (memWf_mpRefuse hu1)) hu1

@[simp] theorem memWf_execSectionRetirement (h : s.memWf = true) : (execSectionRetirement s).memWf := by
  unfold execSectionRetirement
  extract_lets g chan l s1 src s2
  have hs1 : s1.memWf = true := memWf_ite (memWf_abandonRetrain h) h
  have hs2 : s2.memWf = true := memWf_setF (memWf_congr hs1 rfl rfl rfl rfl) _ _ _ _
  exact Res.memWf_next (memWf_ite h (memWf_ite (memWf_hbmOut h) (memWf_refuseWrites (memWf_foldl (fun _ _ hu => memWf_trkLate hu) hs2))))

@[simp] theorem memWf_execMapRebuildComplete (h : s.memWf = true) : (execMapRebuildComplete s).memWf := by
  unfold execMapRebuildComplete
  extract_lets l src s1 s2
  have hs1 : s1.memWf = true := memWf_rebuildMap (memWf_congr h rfl rfl rfl rfl)
  have hs2 : s2.memWf = true := memWf_foldl (fun _ _ hu => memWf_report hu _ _ _) (memWf_setF hs1 _ _ _ _)
  exact Res.memWf_next (memWf_ite h (memWf_raise hs2 _))

theorem State.memWf_trainAll {failed : List Nat} (h : s.memWf = true) : (s.trainAll failed).memWf = true := by
  unfold State.trainAll
  extract_lets chans bad src s1 s2
  have hs1 : s1.memWf = true := memWf_congr h rfl rfl rfl rfl
  have hs2 : s2.memWf = true := memWf_foldl (fun _ _ hu => memWf_showChannel hu) (memWf_hbmLose hs1 _)
  exact memWf_foldl (fun _ _ hu => memWf_showStack hu) hs2

theorem State.memWf_retrain {c : Nat} {svc : Bool} (h : s.memWf = true) : (s.retrain c svc).memWf = true := by
  refine memWf_trkLate (memWf_setChF ?_)
  exact memWf_sameMem h rfl

theorem State.memWf_retrainEnd (h : s.memWf = true) : s.retrainEnd.memWf = true := by
  unfold State.retrainEnd
  split
  · exact h
  · extract_lets ok src src2 s1 src3
    have hs1 : s1.memWf = true := memWf_ite (memWf_sameMem h rfl) (memWf_sameMem h rfl)
    refine memWf_retrainResult (memWf_showStack (memWf_showChannel ?_))
    exact memWf_sameMem (memWf_drawn hs1) rfl

@[simp] theorem memWf_execBackgroundRetrain (h : s.memWf = true) : (execBackgroundRetrain s).memWf := by
  unfold execBackgroundRetrain
  extract_lets u c src s1
  have hs1 : s1.memWf = true := memWf_congr h rfl rfl rfl rfl
  exact Res.memWf_next (memWf_ite h (memWf_ite (memWf_retrain hs1) hs1))

@[simp] theorem memWf_execMapEnable {en : Bool} (h : s.memWf = true) : (execMapEnable en s).memWf :=
  Res.memWf_next (memWf_hostWrite h (fun _ hu => memWf_setF hu _ _ _ _))

theorem State.memWf_drainCtl {c : Nat} (h : s.memWf = true) : (s.drainCtl c).memWf = true :=
  memWf_setTrk (memWf_foldl (fun _ _ hu => memWf_hbmAnswer hu _ _) h) _ _

theorem State.memWf_disown {k : Nat} (h : s.memWf = true) : (s.disown k).memWf = true := memWf_ite (memWf_setF (memWf_showChannel h) _ _ _ _) h

@[simp] theorem memWf_execTrainingOwn {stack : BitVec 3} {val : Word} (h : s.memWf = true) : (execTrainingOwn stack val s).memWf := by
  unfold execTrainingOwn
  dsimp only
  refine Res.memWf_next ?_
  refine memWf_hostWrite h (fun u hu => ?_)
  refine memWf_ite ?_ ?_
  · refine memWf_setF ?_ _ _ _ _
    refine memWf_setChF ?_
    refine memWf_drainCtl ?_
    refine memWf_ite ?_ (memWf_setF (memWf_setF (memWf_setF (memWf_setF (memWf_ite hu (memWf_disown hu)) _ _ _ _) _ _ _ _) _ _ _ _) _ _ _ _)
    exact memWf_congr (memWf_setF (memWf_setF (memWf_setF (memWf_setF (memWf_ite hu (memWf_disown hu)) _ _ _ _) _ _ _ _) _ _ _ _) _ _ _ _) rfl rfl rfl
      rfl
  · refine memWf_ite ?_ (memWf_setF (memWf_setF (memWf_setF (memWf_setF (memWf_ite hu (memWf_disown hu)) _ _ _ _) _ _ _ _) _ _ _ _) _ _ _ _)
    exact memWf_congr (memWf_setF (memWf_setF (memWf_setF (memWf_setF (memWf_ite hu (memWf_disown hu)) _ _ _ _) _ _ _ _) _ _ _ _) _ _ _ _) rfl rfl rfl
      rfl

theorem State.memWf_trnStart {k op : Nat} (h : s.memWf = true) : (s.trnStart k op).memWf = true := by
  unfold State.trnStart
  refine memWf_hostWrite h (fun u hu => ?_)
  extract_lets s1 src s2 l
  have hs1 : s1.memWf = true := memWf_setF (memWf_setF (memWf_setF hu _ _ _ _) _ _ _ _) _ _ _ _
  have hs2 : s2.memWf = true := memWf_congr hs1 rfl rfl rfl rfl
  exact memWf_ite hu (memWf_ite (memWf_hbmLose hs2 _) hs2)

@[simp] theorem memWf_execTrainingWriteCompare {stack : BitVec 3} (h : s.memWf = true) : (execTrainingWriteCompare stack s).memWf :=
  Res.memWf_next (memWf_trnStart h)

@[simp] theorem memWf_execTrainingReadCompare {stack : BitVec 3} (h : s.memWf = true) : (execTrainingReadCompare stack s).memWf :=
  Res.memWf_next (memWf_trnStart h)

@[simp] theorem memWf_execTrainingCaLoopback {stack : BitVec 3} (h : s.memWf = true) : (execTrainingCaLoopback stack s).memWf :=
  Res.memWf_next (memWf_trnStart h)

@[simp] theorem memWf_execTrainingRunDone {stack : BitVec 3} {errs : Nat} (h : s.memWf = true) : (execTrainingRunDone stack errs s).memWf :=
  Res.memWf_next (memWf_ite h (memWf_setF (memWf_setF (memWf_setF h _ _ _ _) _ _ _ _) _ _ _ _))

end HbmCommands

section ObservationCommands

/-! Snapshots, counters, trace and the device freeze. -/

open State

variable {s : State}

theorem State.memWf_copyCtr {base n from_ to_ : Nat} (h : s.memWf = true) : (s.copyCtr base n from_ to_).memWf = true :=
  memWf_foldl (fun _ _ hu => memWf_setCtr hu _ _) h

theorem State.memWf_copyMark {p t : Nat} {m : SnapSt} (h : s.memWf = true) : (s.copyMark p t m).memWf = true := by
  unfold State.copyMark
  extract_lets b s1 s2
  have hs1 : s1.memWf = true := memWf_setCtr (memWf_copyCtr (memWf_copyCtr h)) _ _
  have hs2 : s2.memWf = true := by
    refine memWf_trace (memWf_modTile hs1 t (fun x hx => ?_)) _ _ _ _
    exact Tile.memWf_congr hx rfl rfl rfl rfl rfl rfl
  exact memWf_finishSnaps (memWf_modPanel hs2)

@[simp] theorem memWf_execSnapMarkerCopyTile {t : TileNo} (h : s.memWf = true) : (execSnapMarkerCopyTile t s).memWf := by
  unfold execSnapMarkerCopyTile
  dsimp only
  refine Res.memWf_next ?_
  refine memWf_ite h ?_
  split
  · exact h
  · split
    · exact h
    · exact memWf_copyMark h

@[simp] theorem memWf_execSnapMarkerCopyChannel {k : Fin 9} {n : BitVec 6} (h : s.memWf = true) : (execSnapMarkerCopyChannel k n s).memWf := by
  unfold execSnapMarkerCopyChannel
  dsimp only
  refine Res.memWf_next ?_
  split
  · exact h
  · exact memWf_ite h (memWf_finishSnaps (memWf_modPanel (memWf_modChan (memWf_setCtr (memWf_copyCtr h) _ _))))

theorem State.memWf_copyBroadcast {late : Bool} {n : Nat} (h : s.memWf = true) : (State.copyBroadcast late s n).memWf = true := by
  unfold State.copyBroadcast
  extract_lets b s1 b2
  have hs1 : s1.memWf = true := by
    dsimp only [s1]
    split
    · exact memWf_foldl (fun _ _ hu => memWf_setCtr hu _ _) h
    · exact memWf_copyCtr h
  exact memWf_ite (memWf_setCtr (memWf_copyCtr hs1) _ _) (memWf_setCtr (memWf_copyCtr h) _ _)

@[simp] theorem memWf_execBroadcastSnapshot (h : s.memWf = true) : (execBroadcastSnapshot s).memWf := by
  unfold execBroadcastSnapshot
  refine Res.memWf_next (memWf_hostWrite h (fun u hu => memWf_ite (memWf_discard hu) ?_))
  extract_lets late s1
  have hs1 : s1.memWf = true := memWf_foldl (fun _ _ hv => memWf_copyBroadcast hv) hu
  clear_value s1
  refine memWf_setF (memWf_setF ?_ _ _ _ _) _ _ _ _
  exact memWf_congr hs1 rfl rfl rfl rfl

@[simp] theorem memWf_execBroadcastLateCopy {unit : Nat} (h : s.memWf = true) : (execBroadcastLateCopy unit s).memWf := by
  unfold execBroadcastLateCopy
  extract_lets s1 left s2
  have hs1 : s1.memWf = true := memWf_bumpF (memWf_copyBroadcast h) _ _ _ _
  have hs2 : s2.memWf = true := memWf_congr hs1 rfl rfl rfl rfl
  exact Res.memWf_next (memWf_ite (memWf_ite (memWf_setF hs2 _ _ _ _) hs2) h)

theorem State.memWf_resetCounters (h : s.memWf = true) : s.resetCounters.memWf = true :=
  memWf_congr (memWf_mapTiles (f := fun _ x => { x with restart := none, snapNum := 0 }) h
    (fun _ _ hx => Tile.memWf_congr hx rfl rfl rfl rfl rfl rfl)) rfl rfl rfl rfl

@[simp] theorem memWf_execCounterReset (h : s.memWf = true) : (execCounterReset s).memWf :=
  Res.memWf_next (memWf_hostWrite h (fun _ hu => memWf_ite (memWf_discard hu) (memWf_resetCounters hu)))

theorem State.memWf_sendChunk {t n : Nat} {fl : Bool} (h : s.memWf = true) : (s.sendChunk t n fl).memWf = true := by
  unfold State.sendChunk
  split
  · exact h
  · split
    · exact h
    · extract_lets s1
      have hs1 : s1.memWf = true := memWf_foldl (fun _ _ hu => memWf_countPath hu) h
      exact memWf_congr hs1 rfl rfl rfl rfl

@[simp] theorem memWf_execTraceChunkDrain {t : TileNo} (h : s.memWf = true) : (execTraceChunkDrain t s).memWf :=
  Res.memWf_next (memWf_ite h (memWf_sendChunk h))

theorem State.memWf_chunkDone {c : Nat × Nat × Bool} (h : s.memWf = true) : (s.chunkDone c).memWf = true := by
  unfold State.chunkDone
  extract_lets s1 s2
  have hs1 : s1.memWf = true := memWf_modTile h _ (fun _ hu => Tile.memWf_congr hu rfl rfl rfl rfl rfl rfl)
  have hs2 : s2.memWf = true := memWf_congr hs1 rfl rfl rfl rfl
  exact memWf_ite hs2 (memWf_setF hs2 _ _ _ _)

@[simp] theorem memWf_execTraceChunkWrite {k : BitVec 3} (h : s.memWf = true) : (execTraceChunkWrite k s).memWf := by
  unfold execTraceChunkWrite
  dsimp only
  refine Res.memWf_next ?_
  split
  · exact h
  · exact memWf_ite h (memWf_ite (memWf_chunkDone (memWf_traceDrop h _ _)) (memWf_ite h
      (memWf_ite (memWf_chunkDone (memWf_traceDrop h _ _)) (memWf_ite h (memWf_setF (memWf_chunkDone (memWf_hbmWrite h _ _)) _ _ _ _)))))

theorem State.memWf_flushTile {t : Nat} (h : s.memWf = true) : (s.flushTile t).memWf = true := memWf_foldl (fun _ _ hu => memWf_sendChunk hu) h

@[simp] theorem memWf_execTraceFlush (h : s.memWf = true) : (execTraceFlush s).memWf := by
  unfold execTraceFlush
  refine Res.memWf_next ?_
  refine memWf_hostWrite h (fun u hu => ?_)
  extract_lets s1
  have hs1 : s1.memWf = true := memWf_foldl (fun _ _ hu1 => memWf_flushTile hu1) hu
  exact memWf_ite hu (memWf_setF hs1 _ _ _ _)

@[simp] theorem memWf_execTraceRingEnable {k : BitVec 3} {val : Word} (h : s.memWf = true) : (execTraceRingEnable k val s).memWf :=
  Res.memWf_next (memWf_hostWrite h (fun _ hu => memWf_ite (memWf_ite (memWf_ite hu (memWf_discard hu))
    (memWf_setF (memWf_ite hu (memWf_discard hu)) _ _ _ _)) (memWf_ite (memWf_setF hu _ _ _ _)
    (memWf_ite (memWf_discard hu) (memWf_setF (memWf_setF hu _ _ _ _) _ _ _ _)))))

theorem State.memWf_requestFreeze {source : Nat} {full : Bool} (h : s.memWf = true) : (s.requestFreeze source full).memWf = true :=
  memWf_ite (memWf_discard h) (memWf_ite h (memWf_congr h rfl rfl rfl rfl))

@[simp] theorem memWf_execFreezePin {low : Bool} (h : s.memWf = true) : (execFreezePin low s).memWf := by
  unfold execFreezePin
  extract_lets ask s1
  have hs1 : s1.memWf = true := memWf_congr h rfl rfl rfl rfl
  exact Res.memWf_next (memWf_ite (memWf_requestFreeze hs1) hs1)

@[simp] theorem memWf_execFreezePartialRequest (h : s.memWf = true) : (execFreezePartialRequest s).memWf :=
  Res.memWf_next (memWf_hostWrite h (fun _ hu => memWf_ite hu (memWf_requestFreeze (memWf_setF hu _ _ _ _))))

@[simp] theorem memWf_execFreezeFullRequest (h : s.memWf = true) : (execFreezeFullRequest s).memWf :=
  Res.memWf_next (memWf_hostWrite h (fun _ hu => memWf_ite hu (memWf_requestFreeze (memWf_setF hu _ _ _ _))))

@[simp] theorem memWf_execFrz (h : s.memWf = true) : (execFrz s).memWf := Res.memWf_next (memWf_requestFreeze (memWf_selectIr h))

theorem State.memWf_endRequest {full : Bool} (h : s.memWf = true) : (s.endRequest full).memWf = true :=
  memWf_ite (memWf_setF h _ _ _ _) (memWf_setF h _ _ _ _)

@[simp] theorem memWf_execFreezeDecision (h : s.memWf = true) : (execFreezeDecision s).memWf := by
  unfold execFreezeDecision
  refine Res.memWf_next ?_
  split
  · exact h
  · extract_lets s1 st s2 s3
    have hs1 : s1.memWf = true := memWf_congr h rfl rfl rfl rfl
    have hs2 : s2.memWf = true := memWf_bumpF (memWf_congr hs1 rfl rfl rfl rfl) _ _ _ _
    have hs3 : s3.memWf = true := memWf_congr hs1 rfl rfl rfl rfl
    exact memWf_ite (memWf_setF (memWf_setF (memWf_setF hs2 _ _ _ _) _ _ _ _) _ _ _ _)
      (memWf_ite (memWf_setF (memWf_setF (memWf_setF hs3 _ _ _ _) _ _ _ _) _ _ _ _) (memWf_endRequest hs1))

theorem State.memWf_drivePin {low : Bool} (h : s.memWf = true) : (s.drivePin low).memWf = true := memWf_ite (memWf_emit h _ _ _) h
theorem State.memWf_sendFreezes (h : s.memWf = true) : s.sendFreezes.memWf = true := memWf_foldl (fun _ _ hu => memWf_ite (memWf_emit hu _ _ _) hu) h

@[simp] theorem memWf_execFreezeStopped (h : s.memWf = true) : (execFreezeStopped s).memWf := by
  unfold execFreezeStopped
  extract_lets s1 s2 s3
  have hs1 : s1.memWf = true := memWf_drivePin (memWf_sendFreezes (memWf_selfRefresh (memWf_hbmDrain h) _))
  have hs2 : s2.memWf = true := memWf_ite (memWf_bbCommit hs1 _ _ _) hs1
  have hs3 : s3.memWf = true := memWf_raise (memWf_report (memWf_drivePin h) _ _ _) _
  clear_value s2 s3
  have hfull : ({ s2 with frzHeld := false } : State).memWf = true := memWf_congr hs2 rfl rfl rfl rfl
  have hpartial : ({ s3 with frzHeld := false } : State).memWf = true := memWf_congr hs3 rfl rfl rfl rfl
  exact Res.memWf_next (memWf_ite h (memWf_ite (memWf_endRequest (memWf_endRequest (memWf_setF hfull _ _ _ _)))
    (memWf_endRequest (memWf_setF hpartial _ _ _ _))))

theorem State.memWf_restartIslands (h : s.memWf = true) : s.restartIslands.memWf = true := by
  unfold State.restartIslands
  extract_lets tiles s1 s2 s3
  have hs1 : s1.memWf = true := memWf_pumpHems (memWf_lateResets h)
  have hs2 : s2.memWf = true := memWf_drainAll0 hs1
  have hs3 : s3.memWf = true := memWf_foldl (fun _ _ hu => memWf_lateResponse (fun _ _ _ _ hu1 => memWf_pageRespond hu1) hu) hs2
  exact memWf_foldl (fun _ _ hu => memWf_wakePanel hu) hs3

@[simp] theorem memWf_execFreezeThaw (h : s.memWf = true) : (execFreezeThaw s).memWf := by
  unfold execFreezeThaw
  dsimp only
  refine Res.memWf_next ?_
  refine memWf_hostWrite h (fun u hu => ?_)
  split
  · exact memWf_ite (memWf_discard hu) (memWf_restartIslands (memWf_setF (memWf_raise (memWf_report (memWf_drivePin hu) _ _ _) _) _ _ _ _))
  · exact memWf_ite (memWf_discard hu) hu
  · exact hu

end ObservationCommands

section ResetOperations

/-! What a reset and a low-power state take to its default: every store is cleared, filtered or kept. -/

open State

variable {s : State}

theorem State.memWf_keepFlds {keep : Fld → Bool} (h : s.memWf = true) : (s.keepFlds keep).memWf = true :=
  memWf_congr (memWf_withRegs h (SMap.rising_filter _ s.regs (memWf_regs h))) rfl rfl rfl rfl

theorem State.memWf_wakeSleepers (h : s.memWf = true) : s.wakeSleepers.memWf = true := memWf_foldl (fun _ _ hu => memWf_wakePanel hu) h

theorem State.memWf_settleHbm (h : s.memWf = true) : s.settleHbm.memWf = true :=
  memWf_hbmDrain (memWf_abandonRetrain (memWf_foldl (fun _ _ hu => memWf_disown hu) h))

theorem State.memWf_linksDown (h : s.memWf = true) : s.linksDown.memWf = true := memWf_ite (memWf_raise h _) h

theorem State.memWf_releasePins (h : s.memWf = true) : s.releasePins.memWf = true := by
  unfold State.releasePins
  extract_lets s1
  have hs1 : s1.memWf = true := memWf_ite (memWf_emit h _ _ _) h
  exact memWf_ite (memWf_emit hs1 _ _ _) hs1

theorem State.memWf_clearUnits (h : s.memWf = true) : s.clearUnits.memWf = true := by
  unfold State.clearUnits
  extract_lets s1
  have hs1 : s1.memWf = true := memWf_foldl (fun _ _ hu => memWf_forgetPatch hu) h
  clear_value s1
  exact memWf_congr hs1 rfl rfl rfl rfl

theorem Tile.memWf_afterWarm {x : Tile} (h : x.memWf = true) : x.afterWarm.memWf = true :=
  Tile.memWf_congr (Tile.memWf_afterReset h) rfl rfl rfl rfl rfl rfl

theorem Tile.memWf_clearCore {x : Tile} (h : x.memWf = true) : x.clearCore.memWf = true := by
  obtain ⟨-, -, hrest⟩ := Tile.memWf_parts.mp h
  exact Tile.memWf_parts.mpr ⟨rfl, rfl, hrest⟩

theorem Tile.memWf_clearLining {x : Tile} (h : x.memWf = true) : x.clearLining.memWf = true := by
  obtain ⟨hpmem, hos, -, hrest⟩ := Tile.memWf_parts.mp h
  exact Tile.memWf_parts.mpr ⟨hpmem, hos, rfl, hrest⟩

theorem State.memWf_mappedTiles {f : Tile → Tile} (h : s.memWf = true) (hf : ∀ x : Tile, x.memWf = true → (f x).memWf = true) :
    (s.mapTiles f).memWf = true := memWf_mapTiles h (fun _ => hf)

theorem State.memWf_resetHbmLogic (h : s.memWf = true) : s.resetHbmLogic.memWf = true := memWf_sameMem h rfl
theorem State.memWf_senseBanks (h : s.memWf = true) : s.senseBanks.memWf = true := memWf_foldl (fun _ _ hu => memWf_showMismatch hu) h
theorem State.memWf_dropStage (h : s.memWf = true) : s.dropStage.memWf = true := memWf_ite h (memWf_congr h rfl rfl rfl rfl)

theorem State.memWf_warmStart {cause : Nat} {supply : List Fld} {f : Tile → Tile} (h : s.memWf = true)
    (hf : ∀ x : Tile, x.memWf = true → (f x).memWf = true) : (s.warmStart cause supply f).memWf = true := by
  unfold State.warmStart
  extract_lets live s1 s2 s3 s4
  have hs1 : s1.memWf = true := memWf_releasePins (memWf_linksDown (memWf_settleHbm (memWf_wakeSleepers h)))
  have hs2 : s2.memWf = true := memWf_keepFlds (memWf_clearUnits hs1)
  have hs3 : s3.memWf = true := memWf_selfRefresh (memWf_senseBanks (memWf_dropStage (memWf_resetHbmLogic
    (memWf_mappedTiles hs2 (fun x hx => hf _ (Tile.memWf_afterWarm hx)))))) true
  clear_value s3
  have hs4 : s4.memWf = true := memWf_congr hs3 rfl rfl rfl rfl
  exact memWf_setF hs4 _ _ _ _

theorem State.memWf_warmEnd {cause : Nat} (h : s.memWf = true) : (s.warmEnd cause).memWf = true := by
  unfold State.warmEnd
  extract_lets s1 s2 s3 s4 s5
  have hs1 : s1.memWf = true := memWf_selfRefresh h _
  have hs2 : s2.memWf = true := memWf_congr hs1 rfl rfl rfl rfl
  have hs3 : s3.memWf = true := memWf_resetCounters (memWf_setF (memWf_setF hs2 _ _ _ _) _ _ _ _)
  have hs4 : s4.memWf = true := memWf_applyRetirements (memWf_ite (memWf_commitAll hs3) hs3)
  have hs5 : s5.memWf = true := memWf_setF (memWf_bumpF hs4 _ _ _ _) _ _ _ _
  exact memWf_mgmtRecord hs5

theorem State.memWf_plainWarm {cause : Nat} (h : s.memWf = true) : (s.plainWarm cause).memWf = true :=
  memWf_ite h (memWf_warmStart h (fun _ hx => hx))

theorem State.memWf_resetEndpoint (h : s.memWf = true) : s.resetEndpoint.memWf = true := by
  unfold State.resetEndpoint
  extract_lets s1
  have hs1 : s1.memWf = true := memWf_congr h rfl rfl rfl rfl
  exact memWf_keepFlds hs1

theorem State.memWf_resetNarrowing (h : s.memWf = true) : s.resetNarrowing.memWf = true := by
  unfold State.resetNarrowing
  extract_lets was s1
  have hs1 : s1.memWf = true := memWf_keepFlds h
  exact memWf_ite (memWf_mgmtRecord hs1) hs1

theorem State.memWf_hotReset (h : s.memWf = true) : s.hotReset.memWf = true :=
  memWf_resetNarrowing (memWf_resetEndpoint (memWf_warmEnd (memWf_warmStart h (fun _ hx => hx))))

theorem State.memWf_coldReset (h : s.memWf = true) : s.coldReset.memWf = true := by
  have hreset : State.reset.memWf = true := rfl
  exact memWf_congr (memWf_withBbox hreset (memWf_bbox h)) rfl rfl rfl rfl

theorem State.memWf_coldDone {cause : Nat} (h : s.memWf = true) : (s.coldDone cause).memWf = true :=
  memWf_setF (memWf_senseBanks (memWf_coldReset h)) _ _ _ _

theorem State.memWf_powerOn (h : s.memWf = true) : s.powerOn.memWf = true := by
  unfold State.powerOn
  extract_lets c s1
  have hs1 : s1.memWf = true := memWf_coldDone h
  clear_value s1
  exact memWf_congr hs1 rfl rfl rfl rfl

theorem State.memWf_coldBy (h : s.memWf = true) : s.coldBy.memWf = true := memWf_ite h (memWf_coldDone h)
theorem State.memWf_hotBy (h : s.memWf = true) : s.hotBy.memWf = true := memWf_ite h (memWf_hotReset h)

theorem State.memWf_standbyNow (h : s.memWf = true) : s.standbyNow.memWf = true := by
  unfold State.standbyNow
  extract_lets live s1 s2 s3
  have hs1 : s1.memWf = true := memWf_linksDown (memWf_settleHbm (memWf_wakeSleepers h))
  have hs2 : s2.memWf = true := memWf_keepFlds (memWf_clearUnits hs1)
  have hs3 : s3.memWf = true := memWf_selfRefresh (memWf_dropStage (memWf_resetHbmLogic
      (memWf_mappedTiles hs2 (fun _ hu => Tile.memWf_afterWarm hu)))) _
  exact memWf_emit (memWf_setF hs3 _ _ _ _) _ _ _

theorem State.memWf_standbyAsk (h : s.memWf = true) : s.standbyAsk.memWf = true := by
  unfold State.standbyAsk
  extract_lets s1
  have hs1 : s1.memWf = true := by
    dsimp only [s1]
    split
    · exact memWf_warmEnd h
    · exact h
  exact memWf_ite hs1 (memWf_ite (memWf_setF hs1 _ _ _ _) (memWf_ite (memWf_setF (memWf_setF hs1 _ _ _ _) _ _ _ _) (memWf_standbyNow hs1)))

theorem State.memWf_standbyDue (h : s.memWf = true) : s.standbyDue.memWf = true := memWf_ite (memWf_standbyNow h) h

theorem State.memWf_standbyLeave (h : s.memWf = true) : s.standbyLeave.memWf = true :=
  memWf_ite (memWf_emit (memWf_setF (memWf_setF h _ _ _ _) _ _ _ _) _ _ _) h

end ResetOperations

section ConfigurationCommands

/-! Patch commands, loads, swaps, scrubbing and the test port's image. -/

open State

variable {s u : State}

theorem State.memWf_modCfg {f : CfgSt → CfgSt} (h : s.memWf = true) : (s.modCfg f).memWf = true := memWf_congr h rfl rfl rfl rfl
theorem State.memWf_ask {r : EngReq} (h : s.memWf = true) : (s.ask r).memWf = true := memWf_modCfg h
theorem State.memWf_engineIdle (h : s.memWf = true) : s.engineIdle.memWf = true := memWf_standbyDue (memWf_setF (memWf_modCfg h) _ _ _ _)

theorem State.memWf_answerPatch {r : EngReq} {code : Nat} (h : s.memWf = true) : (s.answerPatch r code).memWf = true := by
  unfold State.answerPatch
  split
  · exact h
  · extract_lets s1
    have hs1 : s1.memWf = true := memWf_modPanel h
    split
    · exact h
    · exact memWf_ite (memWf_popCmd hs1) (memWf_refuseCmd hs1)

theorem State.memWf_patchFault {p v code : Nat} (h : s.memWf = true) : (s.patchFault p v code).memWf = true := by
  unfold State.patchFault
  extract_lets s1
  have hs1 : s1.memWf = true := memWf_reportHard (memWf_engageSeam h) _ _
  exact memWf_raise (memWf_report (memWf_setF hs1 _ _ _ _) _ _ _) _

theorem State.memWf_endRequestCfg {r : EngReq} {code : Nat} (h : s.memWf = true) : (s.endRequestCfg r code).memWf = true := by
  unfold State.endRequestCfg
  extract_lets s1
  have hs1 : s1.memWf = true := memWf_answerPatch (memWf_engineIdle h)
  exact memWf_ite (memWf_patchFault hs1) hs1

theorem State.memWf_lastCode {r : EngReq} {code : Nat} (h : s.memWf = true) : (s.lastCode r code).memWf = true := memWf_setF h _ _ _ _

theorem State.memWf_patchCmd {p op : Nat} (h : s.memWf = true) : (s.patchCmd p op).memWf = true := by
  unfold State.patchCmd
  split
  · exact h
  · dsimp only
    refine memWf_ite h ?_
    split
    · exact memWf_refuseCmd (memWf_violation h)
    · exact memWf_ask (memWf_modPanel (memWf_markIssued h))

@[simp] theorem memWf_execPatchPreload {p : PanelNo} (h : s.memWf = true) : (execPatchPreload p s).memWf := Res.memWf_next (memWf_patchCmd h)
@[simp] theorem memWf_execPatchSwap {p : PanelNo} (h : s.memWf = true) : (execPatchSwap p s).memWf := Res.memWf_next (memWf_patchCmd h)
@[simp] theorem memWf_execPatchLoad {p : PanelNo} (h : s.memWf = true) : (execPatchLoad p s).memWf := Res.memWf_next (memWf_patchCmd h)
@[simp] theorem memWf_execPatchScrub {p : PanelNo} (h : s.memWf = true) : (execPatchScrub p s).memWf := Res.memWf_next (memWf_patchCmd h)

theorem State.memWf_scrubFrame {f r : Nat} (h : s.memWf = true) : (s.scrubFrame f r).memWf = true := by
  unfold State.scrubFrame
  split
  · exact h
  · extract_lets s1
    have hs1 : s1.memWf = true := memWf_setFrame h
    exact memWf_ite (memWf_report h _ _ _) (memWf_ite (memWf_bumpF hs1 _ _ _ _) hs1)
  · exact memWf_ite (memWf_patchFault (memWf_bumpF h _ _ _ _)) (memWf_raise (memWf_reportHard (memWf_setF h _ _ _ _) _ _) _)

theorem State.memWf_scrubPatch {p : Nat} (h : s.memWf = true) : (s.scrubPatch p).memWf = true :=
  memWf_foldl (fun _ _ hu => memWf_ite hu (memWf_scrubFrame hu)) h

theorem State.memWf_startSwap {r : EngReq} (h : s.memWf = true) : (s.startSwap r).memWf = true :=
  memWf_ite (memWf_endRequestCfg (memWf_lastCode h)) (memWf_modCfg (memWf_setF (memWf_engageSeam h) _ _ _ _))

@[simp] theorem memWf_execEngineRequestStart (h : s.memWf = true) : (execEngineRequestStart s).memWf := by
  unfold execEngineRequestStart
  refine Res.memWf_next ?_
  split
  · extract_lets s1
    have hs1 : s1.memWf = true := memWf_setF (memWf_modCfg h) _ _ _ _
    refine memWf_ite h ?_
    split
    · exact memWf_startSwap hs1
    · exact memWf_endRequestCfg (memWf_scrubPatch hs1)
    · exact memWf_setF (memWf_modCfg hs1) _ _ _ _
    · exact hs1
  · exact h

theorem State.memWf_preloadFailed {r : EngReq} {code : Nat} (h : s.memWf = true) : (s.preloadFailed r code).memWf = true := by
  unfold State.preloadFailed
  extract_lets s1
  have hs1 : s1.memWf = true := memWf_setF h _ _ _ _
  exact memWf_endRequestCfg (memWf_ite hs1 (memWf_lastCode hs1))

@[simp] theorem memWf_execPreloadComplete (h : s.memWf = true) : (execPreloadComplete s).memWf := by
  unfold execPreloadComplete
  refine Res.memWf_next ?_
  split
  · exact h
  · extract_lets q1 b s1 s2
    have hq1 : q1.1.memWf = true := memWf_hbmRead h _ _
    have hs1 : s1.memWf = true := memWf_setF (memWf_setF hq1 _ _ _ _) _ _ _ _
    have hs2 : s2.memWf = true := memWf_modCfg hs1
    refine memWf_ite h ?_
    refine memWf_ite (memWf_preloadFailed h) ?_
    refine memWf_ite (memWf_preloadFailed h) ?_
    refine memWf_ite h ?_
    refine memWf_ite (memWf_preloadFailed hq1) ?_
    split
    · exact memWf_preloadFailed hq1
    · exact memWf_ite (memWf_endRequestCfg hs2) (memWf_startSwap hs2)

@[simp] theorem memWf_execSwapWriteStart {ok : Bool} (h : s.memWf = true) : (execSwapWriteStart ok s).memWf := by
  unfold execSwapWriteStart
  refine Res.memWf_next ?_
  split
  · exact h
  · dsimp only
    refine memWf_ite h ?_
    split
    · exact memWf_endRequestCfg (memWf_lastCode (memWf_setF h _ _ _ _))
    · exact memWf_ite (memWf_modCfg (memWf_writeRegion h)) (memWf_endRequestCfg (memWf_ite (memWf_lastCode (memWf_setF (memWf_writeRegion h) _ _ _ _))
        (memWf_patchFault (memWf_lastCode (memWf_setF (memWf_writeRegion h) _ _ _ _)))))

@[simp] theorem memWf_execSwapRelease (h : s.memWf = true) : (execSwapRelease s).memWf := by
  unfold execSwapRelease
  refine Res.memWf_next ?_
  split
  · exact h
  · extract_lets b a s1 s2 s3
    have hs1 : s1.memWf = true := memWf_release (memWf_initRegion (memWf_newLoad h))
    have hs2 : s2.memWf = true := memWf_setF (memWf_setF hs1 _ _ _ _) _ _ _ _
    have hs3 : s3.memWf = true := memWf_setF (memWf_setF hs2 _ _ _ _) _ _ _ _
    exact memWf_ite h (memWf_endRequestCfg (memWf_lastCode hs3))

@[simp] theorem memWf_execFullLoad {val : Word} (h : s.memWf = true) : (execFullLoad val s).memWf :=
  Res.memWf_next (memWf_hostWrite h (fun _ hu => memWf_ite hu (memWf_ite (memWf_logErr hu _ _ _ _)
    (memWf_ask (memWf_setF (memWf_setF hu _ _ _ _) _ _ _ _)))))

theorem State.memWf_fullImage {r : EngReq} {img : Except Nat (List Byte)} (h : s.memWf = true) (he : s.fullImage r = some (u, img)) :
    u.memWf = true := by
  unfold State.fullImage at he
  dsimp only at he
  split at he
  · split at he
    · cases he
      exact h
    · split at he
      · exact nomatch he
      · cases he
        exact memWf_hbmRead h _ _
  · cases he
    exact h
  · cases he
    exact h
  · split at he
    · exact nomatch he
    · cases he
      exact h

theorem State.memWf_dropTap {r : EngReq} (h : s.memWf = true) : (s.dropTap r).memWf = true := memWf_ite (memWf_modCfg h) h

theorem State.memWf_fullEnd {r : EngReq} {code state : Nat} (h : s.memWf = true) : (s.fullEnd r code state).memWf = true := by
  unfold State.fullEnd
  extract_lets s1 s2
  have hs1 : s1.memWf = true := memWf_setF (memWf_setF (memWf_setF h _ _ _ _) _ _ _ _) _ _ _ _
  have hs2 : s2.memWf = true := memWf_ite (memWf_setF hs1 _ _ _ _) hs1
  exact memWf_raise (memWf_dropTap (memWf_engineIdle (memWf_resetAfterLoad hs2))) _

theorem State.memWf_fullRecord {src code : Nat} (h : s.memWf = true) : (s.fullRecord src code).memWf = true := memWf_report h _ _ _
theorem State.memWf_allClocks (h : s.memWf = true) : s.allClocks.memWf = true := memWf_foldl (fun _ _ hu => memWf_takeClocks hu) h
theorem State.memWf_initAll (h : s.memWf = true) : s.initAll.memWf = true := memWf_foldl (fun _ _ hu => memWf_initRegion hu) h

theorem State.memWf_fullWritten {l : List Byte} {w : List FrameWrite} (h : s.memWf = true) : (s.fullWritten l w).memWf = true := by
  unfold State.fullWritten
  extract_lets s1 s2
  have hs1 : s1.memWf = true := memWf_foldl (fun _ _ hu => memWf_setFrame hu) (memWf_blankAll h)
  have hs2 : s2.memWf = true := by
    refine memWf_foldl (fun u a hu => ?_) hs1
    extract_lets s3
    have hs3 : s3.memWf = true := memWf_newLoad hu
    exact memWf_ite (memWf_setF hs3 _ _ _ _) hs3
  exact memWf_allClocks (memWf_initAll (memWf_modCfg hs2))

@[simp] theorem memWf_execFullLoadEnd (h : s.memWf = true) : (execFullLoadEnd s).memWf := by
  unfold execFullLoadEnd
  refine Res.memWf_next ?_
  split
  · exact h
  · next r _ =>
    refine memWf_ite h ?_
    split
    · exact h
    · next u img himage =>
      have hu : u.memWf = true := memWf_fullImage h himage
      extract_lets res
      clear_value res
      have hblank (c : Nat) : ((u.blankAll.allClocks).fullRecord r.buf c).memWf = true := memWf_fullRecord (memWf_allClocks (memWf_blankAll hu))
      split
      · exact memWf_fullEnd (memWf_fullRecord (memWf_fullWritten hu))
      · exact memWf_ite (memWf_fullEnd (hblank _)) (memWf_setF (memWf_modCfg (memWf_dropTap (hblank _))) _ _ _ _)

@[simp] theorem memWf_execPatchRepair (h : s.memWf = true) : (execPatchRepair s).memWf := by
  unfold execPatchRepair
  refine Res.memWf_next ?_
  refine memWf_ite h ?_
  split
  · exact h
  · exact memWf_ask h

@[simp]
theorem memWf_execScrubFrameRead {upset : List Nat} {rom setErr : Bool} (h : s.memWf = true) : (execScrubFrameRead upset rom setErr s).memWf := by
  unfold execScrubFrameRead
  extract_lets f r s1 s2 s3
  have hs1 : s1.memWf = true := memWf_setFrame h
  have hs2 : s2.memWf = true := memWf_ite (memWf_report (memWf_setF (memWf_setF (memWf_setF hs1 _ _ _ _) _ _ _ _) _ _ _ _) _ _ _) hs1
  have hs3 : s3.memWf = true := memWf_ite (memWf_report (memWf_setF hs2 _ _ _ _) _ _ _) (memWf_ite hs2 (memWf_scrubFrame hs2))
  exact Res.memWf_next (memWf_ite h (memWf_ite hs2 (memWf_setF hs3 _ _ _ _)))

@[simp]
theorem memWf_execScrubberWatchdog (h : s.memWf = true) : (execScrubberWatchdog s).memWf := Res.memWf_next (memWf_ite (memWf_bumpF h _ _ _ _) h)

@[simp] theorem memWf_execTestPortCfgLoad (h : s.memWf = true) : (execTestPortCfgLoad s).memWf := by
  unfold execTestPortCfgLoad
  extract_lets s1
  have hs1 : s1.memWf = true := memWf_selectIr h
  exact Res.memWf_next (memWf_ite hs1 (memWf_ask (memWf_modCfg hs1)))

@[simp] theorem memWf_execTestPortImageWord {word : Word} (h : s.memWf = true) : (execTestPortImageWord word s).memWf :=
  Res.memWf_next (memWf_ite (memWf_modCfg h) h)

end ConfigurationCommands

section FabricCommands

/-! Hem ports, memory ports, MAC and bridge, pins and probes. -/

open State

variable {s : State}

theorem State.memWf_macErr {k : Nat} (h : s.memWf = true) : (s.macErr k).memWf = true := memWf_bumpF h _ _ _ _

theorem State.memWf_macSend {k : Nat} (h : s.memWf = true) : (s.macSend k).memWf = true :=
  memWf_ite (memWf_foldl (fun _ _ hu => memWf_emit hu _ _ _) (memWf_congr h rfl rfl rfl rfl)) h

@[simp] theorem memWf_execMacTransmitFrame {k : BitVec 3} {bytes : List Byte} {abort : Bool} (h : s.memWf = true) :
    (execMacTransmitFrame k bytes abort s).memWf :=
  Res.memWf_next (memWf_ite h (memWf_ite (memWf_macErr h) (memWf_macSend (memWf_congr h rfl rfl rfl rfl))))

theorem State.memWf_macPresent {k : Nat} {f : Bool × Bool × List Byte} (h : s.memWf = true) : (s.macPresent k f).memWf = true :=
  memWf_foldl (fun _ _ hu => memWf_emit hu _ _ _) h

theorem State.memWf_setMacQueue {k : Nat} {l : List (Bool × Bool × List Byte)} (h : s.memWf = true) : (s.setMacQueue k l).memWf = true :=
  memWf_congr h rfl rfl rfl rfl

theorem State.memWf_macDeliver {k : Nat} (h : s.memWf = true) : (s.macDeliver k).memWf = true :=
  memWf_ite h (memWf_setMacQueue (memWf_foldl (fun _ _ hu => memWf_macPresent hu) h))

@[simp] theorem memWf_execMacReceiveFrame {k : BitVec 3} {bytes : List Byte} {ready : Bool} (h : s.memWf = true) :
    (execMacReceiveFrame k bytes ready s).memWf := by
  unfold execMacReceiveFrame
  extract_lets n q1 held s1 s2
  have hs1 : s1.memWf = true := memWf_congr h rfl rfl rfl rfl
  have hs2 : s2.memWf = true := memWf_ite (memWf_macErr hs1) hs1
  exact Res.memWf_next (memWf_ite h (memWf_ite (memWf_macDeliver (memWf_bumpF hs1 _ _ _ _)) (memWf_macDeliver (memWf_setMacQueue hs2))))

theorem State.memWf_macTick (h : s.memWf = true) : s.macTick.memWf = true :=
  memWf_ite h (memWf_foldl (fun _ _ hu => memWf_macDeliver (memWf_macSend hu)) h)

@[simp] theorem memWf_execBridgeTransmit {d : BitVec 2} {ctl : DWord} {data : Line} (h : s.memWf = true) : (execBridgeTransmit d ctl data s).memWf :=
  Res.memWf_next (memWf_ite h (memWf_pump (memWf_modLnk (memWf_drawn h))))

theorem State.memWf_headBack {d : HemHead} (h : s.memWf = true) : (s.headBack d).memWf = true := memWf_ite (memWf_giveBack h) h

theorem State.memWf_dropHead {n : Nat} (h : s.memWf = true) : (s.dropHead n).memWf = true := by
  unfold State.dropHead
  split
  · exact h
  · exact memWf_headBack (memWf_modHem h)

theorem State.memWf_dropTx {n : Nat} (h : s.memWf = true) : (s.dropTx n).memWf = true :=
  memWf_foldl (fun _ _ hu => memWf_ite (memWf_giveBack hu) hu) (memWf_modHem h)

theorem State.memWf_hemAccept {n cls route tags : Nat} {data : BitVec 512} {paid : Bool} (h : s.memWf = true) :
    (s.hemAccept n cls route tags data paid).memWf = true :=
  memWf_ite (memWf_modHem (memWf_hemBadRoute h)) (memWf_ite (memWf_modHem (memWf_violation h))
    (memWf_ite (memWf_modHem (memWf_setF h _ _ _ _)) (memWf_modHem h)))

theorem State.memWf_hemHeadBeat {n cls route tags : Nat} {data : BitVec 512} (h : s.memWf = true) :
    (s.hemHeadBeat n cls route tags data).memWf = true := by
  unfold State.hemHeadBeat
  extract_lets replaced s1 waits s2
  have hs1 : s1.memWf = true := memWf_dropHead h
  have hs2 : s2.memWf = true := memWf_ite (memWf_setF hs1 _ _ _ _) hs1
  exact memWf_ite (memWf_hemDrop h) (memWf_ite (memWf_hemDrop (memWf_violation h)) (memWf_ite h (memWf_hemAccept hs2)))

theorem State.memWf_hemTailBeat {n : Nat} {data : BitVec 512} (h : s.memWf = true) : (s.hemTailBeat n data).memWf = true := by
  unfold State.hemTailBeat
  split
  · exact h
  · exact memWf_ite (memWf_modHem h) (memWf_ite (memWf_hemDrop (memWf_dropHead h)) (memWf_pumpHem (memWf_modHem h)))

@[simp] theorem memWf_execHemTransmit {b : Byte} {head : Bool} {cls : BitVec 2} {route tags : Word} {data : BitVec 512} (h : s.memWf = true) :
    (execHemTransmit b head cls route tags data s).memWf :=
  Res.memWf_next (memWf_ite h (memWf_ite (memWf_ite h (memWf_hemHeadBeat h)) (memWf_hemTailBeat h)))

@[simp] theorem memWf_execHemTailTimeout {b : Byte} (h : s.memWf = true) : (execHemTailTimeout b s).memWf :=
  Res.memWf_next (memWf_ite (memWf_setF (memWf_dropHead h) _ _ _ _) h)

theorem State.memWf_hemPresent {n : Nat} {m : Msg} (h : s.memWf = true) : (s.hemPresent n m).memWf = true := by
  unfold State.hemPresent
  extract_lets q1 q2
  exact memWf_emit (memWf_emit h _ _ _) _ _ _

theorem State.memWf_hemCredit {m : Msg} (h : s.memWf = true) : (s.hemCredit m).memWf = true := by
  unfold State.hemCredit
  split
  · exact memWf_ite (memWf_setStitch h) h
  · exact h

@[simp] theorem memWf_execHemReceive {b : Byte} (h : s.memWf = true) : (execHemReceive b s).memWf := by
  unfold execHemReceive
  dsimp only
  refine Res.memWf_next ?_
  refine memWf_ite h ?_
  split
  · exact h
  · split
    · exact h
    · exact memWf_ite (memWf_hemCredit (memWf_hemPresent (memWf_setHem h))) (memWf_hemPresent (memWf_setHem h))

@[simp] theorem memWf_execHemEnable {b : Byte} {val : Word} (h : s.memWf = true) : (execHemEnable b val s).memWf :=
  Res.memWf_next (memWf_ite h (memWf_hostWrite h (fun _ hu => memWf_setF (memWf_ite
    (memWf_hemDrop (memWf_dropTx (memWf_dropHead (memWf_setF hu _ _ _ _)))) (memWf_setF hu _ _ _ _)) _ _ _ _)))

@[simp] theorem memWf_execMpRequest {p : BitVec 3} {write : Bool} {addr : HbmAddr} {len : BitVec 5} {id : Byte} (h : s.memWf = true) :
    (execMpRequest p write addr len id s).memWf :=
  Res.memWf_next (memWf_ite h (memWf_ite (memWf_setMp (memWf_violation h)) (memWf_ite (memWf_setMp (memWf_mpAddr (memWf_setF h _ _ _ _)))
    (memWf_ite (memWf_setMp (memWf_mpAddr (memWf_setF h _ _ _ _))) (memWf_setMp h)))))

@[simp] theorem memWf_execMpWriteData {p : BitVec 3} {bytes : List Byte} (h : s.memWf = true) : (execMpWriteData p bytes s).memWf := by
  unfold execMpWriteData
  dsimp only
  refine Res.memWf_next ?_
  refine memWf_ite h ?_
  split
  · exact h
  · exact memWf_ite (memWf_setReq h) (memWf_ite (memWf_setReq (memWf_mpRefuse h)) (memWf_ite h (memWf_setReq (memWf_hbmWrite h _ _))))

theorem State.memWf_mpAnswer {p : Nat} {r : MpReq} {status : Nat} {data : List Byte} (h : s.memWf = true) :
    (s.mpAnswer p r status data).memWf = true := memWf_emit h _ _ _

theorem State.memWf_mpBeatGone {p i : Nat} {r : MpReq} (h : s.memWf = true) : (s.mpBeatGone p i r).memWf = true :=
  memWf_ite (memWf_setMp h) (memWf_setReq h)

@[simp] theorem memWf_execMpReadResponse {p : BitVec 3} {poison : Bool} (h : s.memWf = true) : (execMpReadResponse p poison s).memWf := by
  unfold execMpReadResponse
  extract_lets n zero s1
  have hs1 : s1.memWf = true := memWf_mpRefuse h
  refine Res.memWf_next ?_
  refine memWf_ite h ?_
  split
  · exact h
  · extract_lets g q1 s2 s3
    have hq1 : q1.1.memWf = true := memWf_hbmRead (memWf_hbmTaken h) _ _
    have hs2 : s2.memWf = true := memWf_ite (memWf_sectDue (memWf_hbmUncorr hq1 _) _) hq1
    have hs3 : s3.memWf = true := memWf_bumpF (memWf_setF hs2 _ _ _ _) _ _ _ _
    exact memWf_ite (memWf_mpBeatGone (memWf_mpAnswer h)) (memWf_ite (memWf_mpBeatGone (memWf_mpAnswer hs1))
      (memWf_ite (memWf_hbmLate h) (memWf_ite (memWf_mpBeatGone (memWf_mpAnswer hs3)) (memWf_mpBeatGone (memWf_mpAnswer hs2)))))

@[simp] theorem memWf_execMpWriteResponse {p : BitVec 3} (h : s.memWf = true) : (execMpWriteResponse p s).memWf := by
  unfold execMpWriteResponse
  dsimp only
  refine Res.memWf_next ?_
  refine memWf_ite h ?_
  split
  · exact h
  · exact memWf_setMp (memWf_mpAnswer h)

@[simp] theorem memWf_execGlobalResetAssert {val : Word} (h : s.memWf = true) : (execGlobalResetAssert val s).memWf :=
  Res.memWf_next (memWf_hostWrite h (fun _ hu => memWf_setF (memWf_latchResets hu) _ _ _ _))

theorem State.memWf_showPin {b i : Nat} (h : s.memWf = true) : (s.showPin b i).memWf = true := memWf_emit h _ _ _

@[simp]
theorem memWf_execProbeEnable {bank : BitVec 3} {chan : BitVec 2} {val : Word} (h : s.memWf = true) : (execProbeEnable bank chan val s).memWf :=
  Res.memWf_next (memWf_hostWrite h (fun _ hu => memWf_ite (memWf_discard hu) (memWf_ite
    (memWf_showPin (memWf_ite (memWf_showPin (memWf_setF (memWf_setF (memWf_setF hu _ _ _ _) _ _ _ _) _ _ _ _))
    (memWf_setF (memWf_setF (memWf_setF hu _ _ _ _) _ _ _ _) _ _ _ _))) (memWf_ite (memWf_showPin
    (memWf_setF (memWf_setF (memWf_setF hu _ _ _ _) _ _ _ _) _ _ _ _)) (memWf_setF (memWf_setF (memWf_setF hu _ _ _ _) _ _ _ _) _ _ _ _)))))

@[simp] theorem memWf_execVccioChange {bank : BitVec 3} {mv : Nat} (h : s.memWf = true) : (execVccioChange bank mv s).memWf :=
  Res.memWf_next (memWf_showMismatch (memWf_congr h rfl rfl rfl rfl))

end FabricCommands

section MoverCommands

/-! Commands of the movers. -/

open State

variable {s : State}

theorem State.memWf_refuseDesc {k n : Nat} {d : Desc} {why : Nat × Bool × Int × Int} (h : s.memWf = true) : (s.refuseDesc k n d why).memWf = true := by
  unfold State.refuseDesc
  extract_lets s1 s2
  have hs1 : s1.memWf = true := memWf_violation h
  have hs2 : s2.memWf = true := by
    dsimp only [s2]
    split
    · exact memWf_refuseCmd hs1
    · exact hs1
  exact memWf_setChanState (memWf_modChan (memWf_endDesc hs2))

theorem State.memWf_startDesc {k n : Nat} (h : s.memWf = true) : (s.startDesc k n).memWf = true := by
  unfold State.startDesc
  split
  · exact h
  · extract_lets s1 s2 s3 q1
    have hs1 : s1.memWf = true := memWf_modChan h
    have hs2 : s2.memWf = true := memWf_setF (memWf_setF (memWf_setF hs1 _ _ _ _) _ _ _ _) _ _ _ _
    have hs3 : s3.memWf = true := memWf_setCursor hs2
    split
    · exact memWf_ite (memWf_endDesc hs3) (memWf_ite (memWf_refuseDesc hs3) (memWf_askHost (memWf_setChanState hs3)))
    · exact memWf_endDesc (memWf_logErr (memWf_setF hs3 _ _ _ _) _ _ _ _)

@[simp] theorem memWf_execDescriptorStart {k : Fin 9} {n : BitVec 6} (h : s.memWf = true) : (execDescriptorStart k n s).memWf :=
  Res.memWf_next (memWf_ite h (memWf_startDesc h))

@[simp] theorem memWf_execBlockAnnounce {k : Fin 9} {n : BitVec 6} (h : s.memWf = true) : (execBlockAnnounce k n s).memWf := by
  unfold execBlockAnnounce
  dsimp only
  refine Res.memWf_next ?_
  split
  · exact h
  · exact memWf_ite (memWf_settleChan (memWf_engines (memWf_farData h))) (memWf_ite
      (memWf_ite (memWf_endDesc (memWf_announceIf (memWf_engines (memWf_farData h))))
      (memWf_askHost (memWf_announceIf (memWf_engines (memWf_farData h))))) (memWf_announceIf (memWf_engines (memWf_farData h))))

@[simp] theorem memWf_execBusError {k : Fin 9} {n : BitVec 6} {addr : DWord} (h : s.memWf = true) : (execBusError k n addr s).memWf :=
  Res.memWf_next (memWf_chanBusError h)

@[simp] theorem memWf_execTranslationFault {n : PageFault} (h : s.memWf = true) : (execTranslationFault n s).memWf := by
  unfold execTranslationFault
  dsimp only
  refine Res.memWf_next ?_
  split
  · exact h
  · exact memWf_ite h (memWf_stopDesc (memWf_modChan h))

theorem State.memWf_respond {n code : Nat} (h : s.memWf = true) : (s.respond n code).memWf = true :=
  memWf_ite h (memWf_ite (memWf_modChan h) (memWf_pageRespond h))

@[simp] theorem memWf_execPageResponse {n : BitVec 6} {code : BitVec 4} (h : s.memWf = true) : (execPageResponse n code s).memWf :=
  Res.memWf_next (memWf_respond (memWf_ite (memWf_congr h rfl rfl rfl rfl) h))

@[simp] theorem memWf_execPriTimeout {n : BitVec 6} (h : s.memWf = true) : (execPriTimeout n s).memWf := Res.memWf_next (memWf_respond h)

@[simp] theorem memWf_execChannelAbort {k : Fin 9} {n : BitVec 6} (h : s.memWf = true) : (execChannelAbort k n s).memWf :=
  Res.memWf_next (memWf_hostWrite h (fun _ hu => memWf_startAbort hu))

@[simp] theorem memWf_execAbortComplete {k : Fin 9} {n : BitVec 6} (h : s.memWf = true) : (execAbortComplete k n s).memWf :=
  Res.memWf_next (memWf_ite h (memWf_finishAbort h))

@[simp] theorem memWf_execChannelRetry {k : Fin 9} {n : BitVec 6} {skipToo : Bool} (h : s.memWf = true) : (execChannelRetry k n skipToo s).memWf :=
  Res.memWf_next (memWf_hostWrite h (fun _ hu => memWf_ite (memWf_discard hu) (memWf_ite (memWf_askHost (memWf_setChanState (memWf_modChan hu))) hu)))

@[simp] theorem memWf_execChannelSkip {k : Fin 9} {n : BitVec 6} (h : s.memWf = true) : (execChannelSkip k n s).memWf :=
  Res.memWf_next (memWf_hostWrite h (fun _ hu => memWf_ite (memWf_endDesc hu) hu))

theorem State.memWf_directPost {k c val : Nat} (h : s.memWf = true) : (s.directPost k c val).memWf = true :=
  memWf_ite (memWf_discard h) (memWf_modChan h)

@[simp] theorem memWf_execDirectPost {k : Fin 9} {n : BitVec 6} {val : Word} (h : s.memWf = true) : (execDirectPost k n val s).memWf :=
  Res.memWf_next (memWf_hostWrite h (fun _ hu => memWf_directPost hu))

theorem State.memWf_hostLost {c i : Nat} {b : Burst} (h : s.memWf = true) : (s.hostLost c i b).memWf = true := memWf_chanBusError (memWf_modChan h)

@[simp] theorem memWf_execHostCompletion {n : BitVec 6} {status : BitVec 3} {bytes : List Byte} (h : s.memWf = true) :
    (execHostCompletion n status bytes s).memWf := by
  unfold execHostCompletion
  dsimp only
  refine Res.memWf_next ?_
  refine memWf_ite h ?_
  split
  · exact memWf_aerUncorr h
  · exact memWf_ite (memWf_settleChan (memWf_modChan (memWf_cachePage h))) (memWf_settleChan (memWf_hostLost h))

@[simp] theorem memWf_execCompletionTimeout {n : BitVec 6} (h : s.memWf = true) : (execCompletionTimeout n s).memWf := by
  unfold execCompletionTimeout
  dsimp only
  refine Res.memWf_next ?_
  split
  · exact h
  · exact memWf_settleChan (memWf_hostLost (memWf_aerUncorr h))

end MoverCommands

section HostRegisterCommands

/-! Register accesses of the host. -/

open State

variable {s : State}

theorem State.memWf_unassigned {a : Nat} {write : Bool} {v : Nat} (h : s.memWf = true) : (s.unassigned a write v).memWf = true :=
  memWf_logErr h _ _ _ _

theorem State.memWf_holdUpper {a v : Nat} (h : s.memWf = true) : (s.holdUpper a v).memWf = true := memWf_congr h rfl rfl rfl rfl

theorem State.memWf_takeUpper {a now : Nat} (h : s.memWf = true) : (s.takeUpper a now).1.memWf = true := by
  unfold State.takeUpper
  split
  · exact memWf_congr h rfl rfl rfl rfl
  · exact h

theorem State.memWf_windowRead {a n : Nat} (h : s.memWf = true) : (s.windowRead a n).1.memWf = true := by
  unfold State.windowRead
  refine memWf_ite_fst h ?_
  refine memWf_ite_fst ?_ (memWf_ite_fst (memWf_ite_fst (memWf_congr h rfl rfl rfl rfl) (memWf_ite_fst (memWf_holdUpper h) (memWf_takeUpper h)))
    (memWf_unassigned h))
  split
  · exact h
  · exact memWf_logErr h _ _ _ _

theorem State.memWf_clearRead {l : List FldAt} (h : s.memWf = true) : (s.clearRead l).memWf = true :=
  memWf_foldl (fun _ _ hu => memWf_ite (memWf_modLink hu) (memWf_ite (memWf_setF hu _ _ _ _) hu)) h

theorem State.memWf_regRead {a : Nat} (h : s.memWf = true) : (s.regRead a).1.memWf = true := by
  unfold State.regRead
  refine memWf_ite_fst h ?_
  refine memWf_ite_fst h ?_
  split
  · exact memWf_unassigned h
  · extract_lets v s1
    have hs1 : s1.memWf = true := memWf_ite (memWf_holdUpper h) h
    exact memWf_ite_fst (memWf_takeUpper h) (memWf_clearRead hs1)

theorem State.memWf_bar0Read {a n : Nat} (h : s.memWf = true) : (s.bar0Read a n).1.memWf = true := by
  unfold State.bar0Read
  extract_lets q1 q2
  have hq1 : q1.1.memWf = true := memWf_regRead h
  have hq2 : q2.1.memWf = true := memWf_regRead hq1
  exact memWf_ite_fst (memWf_windowRead h) (memWf_ite_fst hq2 hq1)

theorem State.memWf_abortRead {a : Nat} (h : s.memWf = true) : (s.abortRead a).memWf = true := memWf_emit (memWf_aerUncorr h) _ _ _

theorem State.memWf_badSize {a : Nat} {write : Bool} (h : s.memWf = true) : (s.badSize a write).memWf = true := by
  unfold State.badSize
  extract_lets s1
  have hs1 : s1.memWf = true := memWf_bumpF h _ _ _ _
  exact memWf_ite hs1 (memWf_abortRead hs1)

theorem State.memWf_hostRead {a n : Nat} (h : s.memWf = true) : (s.hostRead a n).memWf = true := by
  unfold State.hostRead
  extract_lets expert q1
  have hq1 : q1.1.memWf = true := memWf_bar0Read h
  exact memWf_ite h (memWf_ite (memWf_emit h _ _ _) (memWf_ite (memWf_badSize h) (memWf_ite (memWf_abortRead (memWf_bumpF h _ _ _ _))
    (memWf_ite (memWf_emit hq1 _ _ _) (memWf_abortRead (memWf_violation h))))))

theorem State.memWf_afterWrite {x : FldAt} {v : Nat} (h : s.memWf = true) : (s.afterWrite x v).memWf = true :=
  memWf_ite (memWf_ite h (memWf_modTile h _ (fun _ hu => Tile.memWf_congr hu rfl rfl rfl rfl rfl rfl)))
    (memWf_ite (memWf_ite h (memWf_modTile h _ (fun _ hu => Tile.memWf_congr hu rfl rfl rfl rfl rfl rfl)))
    (memWf_ite (memWf_ite (memWf_directPost h) (memWf_modChan h)) (memWf_ite (memWf_ite h (memWf_congr h rfl rfl rfl rfl))
    (memWf_ite (memWf_congr h rfl rfl rfl rfl) h))))

theorem State.memWf_fieldWrite {x : FldAt} {v : Nat} (h : s.memWf = true) : (s.fieldWrite x v).memWf = true := by
  unfold State.fieldWrite
  dsimp only
  split
  · exact memWf_setF h _ _ _ _
  · exact memWf_setF h _ _ _ _
  · exact memWf_setF h _ _ _ _
  · exact h

theorem State.memWf_badService {a word : Nat} (h : s.memWf = true) : (s.badService a word).memWf = true :=
  memWf_ite h (memWf_ite (memWf_discard h) (memWf_ite (memWf_setF h _ _ _ _) (memWf_setF (memWf_setF h _ _ _ _) _ _ _ _)))

theorem State.memWf_writeOne {a word : Nat} {x : FldAt} (h : s.memWf = true) : (s.writeOne a word x).memWf = true := by
  unfold State.writeOne
  dsimp only
  refine memWf_ite h ?_
  split
  · exact memWf_ite (memWf_badService (memWf_fieldWrite h)) (memWf_afterWrite (memWf_fieldWrite h))
  · exact h
  · exact memWf_logErr h _ _ _ _

theorem State.memWf_unmask {v : Nat} (h : s.memWf = true) : (s.unmask v).memWf = true := by
  unfold State.unmask
  extract_lets s1
  have hs1 : s1.memWf = true := by
    dsimp only [s1]
    exact memWf_congr h rfl rfl rfl rfl
  refine memWf_ite ?_ hs1
  refine memWf_emit ?_ _ _ _
  exact memWf_congr hs1 rfl rfl rfl rfl

theorem State.memWf_msixWrite {w v : Nat} (h : s.memWf = true) : (s.msixWrite w v).memWf = true :=
  memWf_ite (memWf_congr h rfl rfl rfl rfl) (memWf_ite (memWf_congr h rfl rfl rfl rfl) (memWf_unmask h))

theorem State.memWf_regWrite {a v : Nat} (h : s.memWf = true) : (s.regWrite a v).memWf = true := by
  unfold State.regWrite
  refine memWf_ite (memWf_msixWrite h) ?_
  refine memWf_ite h ?_
  split
  · exact memWf_unassigned h
  · extract_lets s1
    have hs1 : s1.memWf = true := memWf_foldl (fun _ _ hu => memWf_writeOne hu) h
    refine memWf_ite (memWf_discard h) ?_
    refine memWf_ite (memWf_congr h rfl rfl rfl rfl) ?_
    refine memWf_ite ?_ hs1
    split
    · exact hs1
    · exact memWf_foldl (fun _ _ hu => memWf_writeOne hu) (memWf_congr hs1 rfl rfl rfl rfl)

theorem State.memWf_windowWrite {a n v : Nat} (h : s.memWf = true) : (s.windowWrite a n v).memWf = true :=
  memWf_ite (memWf_ite (memWf_congr h rfl rfl rfl rfl) (memWf_discard h)) (memWf_ite (memWf_discard h) (memWf_unassigned h))

theorem State.memWf_bar0Write {a n v : Nat} (h : s.memWf = true) : (s.bar0Write a n v).memWf = true :=
  memWf_ite (memWf_windowWrite h) (memWf_ite (memWf_regWrite (memWf_regWrite h)) (memWf_regWrite h))

theorem State.memWf_hostStore {a n v : Nat} (h : s.memWf = true) : (s.hostStore a n v).memWf = true :=
  memWf_ite h (memWf_ite (memWf_badSize h) (memWf_hostAccess h (fun _ hu => memWf_bar0Write hu)))

@[simp]
theorem memWf_execRegisterWrite {addr : Bar0Addr} {wide : Bool} {val : DWord} (h : s.memWf = true) : (execRegisterWrite addr wide val s).memWf :=
  Res.memWf_next (memWf_hostStore h)

@[simp]
theorem memWf_execRcRead {addr : Bar0Addr} {wide : Bool} (h : s.memWf = true) : (execRcRead addr wide s).memWf := Res.memWf_next (memWf_hostRead h)

@[simp] theorem memWf_execLowerHalfRead {addr : Bar0Addr} (h : s.memWf = true) : (execLowerHalfRead addr s).memWf :=
  Res.memWf_next (memWf_ite (memWf_hostRead h) h)

@[simp] theorem memWf_execUpperHalfRead {addr : Bar0Addr} (h : s.memWf = true) : (execUpperHalfRead addr s).memWf :=
  Res.memWf_next (memWf_ite (memWf_hostRead h) h)

@[simp] theorem memWf_execLowerHalfWrite {addr : Bar0Addr} {val : Word} (h : s.memWf = true) : (execLowerHalfWrite addr val s).memWf :=
  Res.memWf_next (memWf_ite (memWf_hostStore h) h)

@[simp] theorem memWf_execUpperHalfWrite {addr : Bar0Addr} {val : Word} (h : s.memWf = true) : (execUpperHalfWrite addr val s).memWf :=
  Res.memWf_next (memWf_ite (memWf_hostStore h) h)

@[simp] theorem memWf_execUnassignedAccess {addr : Bar0Addr} {write : Bool} {val : Word} (h : s.memWf = true) :
    (execUnassignedAccess addr write val s).memWf := Res.memWf_next (memWf_ite h (memWf_ite (memWf_hostStore h) (memWf_hostRead h)))

@[simp] theorem memWf_execProfileWrite {val : Word} (h : s.memWf = true) : (execProfileWrite val s).memWf :=
  Res.memWf_next (memWf_hostWrite h (fun _ hu => memWf_ite (memWf_discard hu) (memWf_ite (memWf_congr hu rfl rfl rfl rfl)
    (memWf_congr (memWf_setF (memWf_setF hu _ _ _ _) _ _ _ _) rfl rfl rfl rfl))))

end HostRegisterCommands

section LaneCommands

/-! Bring-up, traffic and maintenance of the links. -/

open State

variable {s : State}

theorem State.memWf_setStep {l v : Nat} (h : s.memWf = true) : (s.setStep l v).memWf = true := memWf_setF h _ _ _ _

theorem State.memWf_sendTrain {d : Nat} {switch count : Nat} (h : s.memWf = true) : (s.sendTrain d switch count).memWf = true :=
  memWf_ite h (memWf_foldl (fun _ _ hu => memWf_emit hu _ _ _) h)

theorem State.memWf_sendParams {d : Nat} (h : s.memWf = true) : (s.sendParams d).memWf = true := memWf_foldl (fun _ _ hu => memWf_sendCtl hu) h

theorem State.memWf_startBringUp {d : Nat} {keep : LaneLink} (h : s.memWf = true) : (s.startBringUp d keep).memWf = true := by
  unfold State.startBringUp
  extract_lets out s1 s2 s3
  have hs1 : s1.memWf = true := by
    refine memWf_foldl (fun u a hu => ?_) (memWf_setLnk h)
    extract_lets s4
    have hs4 : s4.memWf = true := memWf_modLane hu
    exact memWf_ite (memWf_setLaneState hs4) (memWf_setStep (memWf_setLaneState hs4))
  have hs2 : s2.memWf = true := memWf_setF (memWf_setF (memWf_setF hs1 _ _ _ _) _ _ _ _) _ _ _ _
  have hs3 : s3.memWf = true := memWf_setF (memWf_setF (memWf_setF hs2 _ _ _ _) _ _ _ _) _ _ _ _
  exact memWf_sendTrain (memWf_setLnkState (memWf_showMasks (memWf_setF hs3 _ _ _ _)))

theorem State.memWf_etherAgain {d : Nat} (h : s.memWf = true) : (s.etherAgain d).memWf = true :=
  memWf_ite h (memWf_showMasks (memWf_setF (memWf_foldl (fun _ _ hu => memWf_setStep (memWf_setLaneState hu)) h) _ _ _ _))

theorem State.memWf_requestUp {d : Nat} (h : s.memWf = true) : (s.requestUp d).memWf = true :=
  memWf_ite h (memWf_ite (memWf_etherAgain h) (memWf_ite h (memWf_startBringUp h)))

@[simp] theorem memWf_execLinkUpRequest {d : BitVec 2} (h : s.memWf = true) : (execLinkUpRequest d s).memWf :=
  Res.memWf_next (memWf_hostWrite h (fun _ hu => memWf_requestUp hu))

@[simp] theorem memWf_execLinkDownRequest {d : BitVec 2} (h : s.memWf = true) : (execLinkDownRequest d s).memWf :=
  Res.memWf_next (memWf_hostWrite h (fun _ hu => memWf_ite hu (memWf_lnkOff hu)))

theorem State.memWf_trySwitch {d : Nat} (h : s.memWf = true) : (s.trySwitch d).memWf = true :=
  memWf_ite (memWf_foldl (fun _ _ hu => memWf_sendTrain hu) (memWf_setLnk h)) h

theorem State.memWf_linkComesUp {d m partner : Nat} (h : s.memWf = true) : (s.linkComesUp d m partner).memWf = true := by
  unfold State.linkComesUp
  extract_lets s1 s2 w
  have hs1 : s1.memWf = true := memWf_foldl (fun _ _ hu => memWf_ite hu (memWf_ite (memWf_setStep (memWf_setLaneState hu)) (memWf_setLaneState hu))) h
  have hs2 : s2.memWf = true := memWf_setF (memWf_setF (memWf_setF hs1 _ _ _ _) _ _ _ _) _ _ _ _
  exact memWf_pump (memWf_setLnkState (memWf_showMasks (memWf_setF hs2 _ _ _ _)))

theorem State.memWf_paramExchange {d : Nat} (h : s.memWf = true) : (s.paramExchange d).memWf = true :=
  memWf_ite h (memWf_ite (memWf_lnkOff h) (memWf_ite (memWf_lnkOff h) (memWf_linkComesUp h)))

theorem State.memWf_etherTrained {l : Nat} {inv : Bool} (h : s.memWf = true) : (s.etherTrained l inv).memWf = true := by
  unfold State.etherTrained
  extract_lets s1
  have hs1 : s1.memWf = true := memWf_setF (memWf_setStep (memWf_setLaneState h)) _ _ _ _
  exact memWf_ite hs1 (memWf_showEther (memWf_foldl (fun _ _ hu => memWf_ite (memWf_setLaneState hu) hu) hs1))

theorem State.memWf_stepDone {l : Nat} {inv : Bool} {skew : Nat} (h : s.memWf = true) : (s.stepDone l inv skew).memWf = true := by
  unfold State.stepDone
  extract_lets d s1 k s2
  have hs1 : s1.memWf = true := memWf_setStep h
  have hs2 : s2.memWf = true := memWf_setF (memWf_setF (memWf_setStep h) _ _ _ _) _ _ _ _
  split
  · exact memWf_setStep h
  · exact memWf_setF (memWf_setStep h) _ _ _ _
  · refine memWf_ite h ?_
    split
    · exact memWf_lnkOff h
    · extract_lets s3
      have hs3 : s3.memWf = true := memWf_setF h _ _ _ _
      exact memWf_foldl (fun _ _ hu => memWf_setF (memWf_setStep hu) _ _ _ _) hs3
  · exact memWf_trySwitch (memWf_ite (memWf_sendTrain hs1) hs1)
  · exact memWf_ite h (memWf_ite (memWf_sendParams hs2) hs2)
  · exact memWf_paramExchange h

theorem State.memWf_loneStep {l : Nat} {inv : Bool} {skew : Nat} (h : s.memWf = true) : (s.loneStep l inv skew).memWf = true := by
  unfold State.loneStep
  split
  · exact memWf_setF (memWf_setStep h) _ _ _ _
  · exact memWf_ite (memWf_setStep h) h
  · exact memWf_ite h (memWf_setF (memWf_setF (memWf_setStep h) _ _ _ _) _ _ _ _)
  · exact memWf_ite (memWf_setStep h) h

@[simp] theorem memWf_execBringUpStepComplete {lane : BitVec 5} {inv : Bool} {skew : BitVec 6} (h : s.memWf = true) :
    (execBringUpStepComplete lane inv skew s).memWf :=
  Res.memWf_next (memWf_ite h (memWf_ite (memWf_etherTrained h) (memWf_ite (memWf_loneStep h) (memWf_stepDone h))))

theorem State.memWf_etherFailed {l : Nat} (h : s.memWf = true) : (s.etherFailed l).memWf = true := by
  unfold State.etherFailed
  extract_lets d s1 o
  have hs1 : s1.memWf = true := memWf_foldl (fun _ _ hu => memWf_setLaneState hu) h
  exact memWf_ite (memWf_showEther hs1) (memWf_lnkOff hs1)

@[simp] theorem memWf_execBringUpStepTimeout {lane : BitVec 5} (h : s.memWf = true) : (execBringUpStepTimeout lane s).memWf := by
  unfold execBringUpStepTimeout
  extract_lets l d s1
  have hs1 : s1.memWf = true := memWf_setLaneState h
  exact Res.memWf_next (memWf_ite h (memWf_ite (memWf_etherFailed h) (memWf_ite h (memWf_ite h
    (memWf_ite (memWf_lnkOff h) (memWf_ite (memWf_lnkOff hs1) (memWf_trySwitch hs1)))))))

@[simp] theorem memWf_execTrainBlock {lane : BitVec 5} {logical : BitVec 3} {locked _switch : Bool} {_count : BitVec 4} (h : s.memWf = true) :
    (execTrainBlock lane logical locked _switch _count s).memWf := by
  unfold execTrainBlock
  extract_lets l d n s1
  have hs1 : s1.memWf = true := memWf_modLane h
  exact Res.memWf_next (memWf_ite h (memWf_ite (memWf_trySwitch (memWf_modLnk hs1)) hs1))

@[simp] theorem memWf_execParamBlock {d : BitVec 2} {index : BitVec 3} {value : Word} (h : s.memWf = true) : (execParamBlock d index value s).memWf :=
  Res.memWf_next (memWf_ite h (memWf_ite (memWf_sendParams (memWf_setLnk h)) (memWf_setLnk h)))

theorem State.memWf_codewordRound {d a q : Nat} {t : Option Nat} (h : s.memWf = true) : (s.codewordRound d a q t).memWf = true := by
  unfold State.codewordRound
  extract_lets x cws round s1 gone
  have hs1 : s1.memWf = true := memWf_setLnk h
  split
  · exact memWf_ite (memWf_lose0 (memWf_modLnk hs1)) hs1
  · refine memWf_ite ?_ hs1
    refine memWf_foldl (fun u a1 hu => ?_) hs1
    split
    · exact memWf_ite (memWf_breakStitch hu) hu
    · exact hu

@[simp]
theorem memWf_execCodeword {lane : BitVec 5} {blocks : BitVec 5082} {align : Half} {trailer : BitVec 42} {parity : BitVec 300} (h : s.memWf = true) :
    (execCodeword lane blocks align trailer parity s).memWf := by
  unfold execCodeword
  extract_lets l w d corr uncorr s1 q s2 x
  have hcorr : ∀ (s : State), s.memWf = true → (corr s).memWf = true := fun _ hu => memWf_bumpF hu _ _ _ _
  have huncorr : ∀ (s : State), s.memWf = true → (uncorr s).memWf = true := fun _ hu => memWf_laneEvent (memWf_bumpF hu _ _ _ _)
  have hs1 : s1.memWf = true := huncorr _ h
  have hs2 : s2.memWf = true := memWf_codewordRound (memWf_modLane hs1)
  refine Res.memWf_next ?_
  refine memWf_ite h ?_
  refine memWf_ite ?_ ?_
  · split
    · exact memWf_ite h (hcorr _ h)
    · exact hs1
  · split
    · extract_lets s3 q2
      have hs3 : s3.memWf = true := memWf_ite h (hcorr _ h)
      exact memWf_codewordRound (memWf_modLnk (memWf_modLane hs3))
    · exact memWf_ite (memWf_retireLane hs2) (memWf_setLnk hs2)

theorem State.memWf_sendReplay {d : Nat} (h : s.memWf = true) : (s.sendReplay d).memWf = true := by
  unfold State.sendReplay
  extract_lets x s1
  have hs1 : s1.memWf = true := memWf_sendCtl (memWf_setLnk h)
  exact memWf_foldl (fun _ _ hu => memWf_laneEvent hu) hs1

theorem State.memWf_flit0 {d port : Nat} {tail ok : Bool} {ctl : DWord} {data : BitVec 512} (h : s.memWf = true) :
    (s.flit0 d port tail ok ctl data).memWf = true := by
  unfold State.flit0
  dsimp only
  split
  · exact memWf_lose0 (memWf_setLnk h)
  · exact memWf_ite (memWf_setLnk h) (memWf_lose0 (memWf_setLnk h))
  · refine memWf_ite (memWf_setLnk h) ?_
    split
    · exact memWf_laneEnter0 (memWf_setLnk h)
    · exact memWf_setLnk h

theorem State.memWf_flitIn {d cls vc port : Nat} {tail : Bool} {ctl : DWord} {data : BitVec 512} (h : s.memWf = true) :
    (s.flitIn d cls vc port tail ctl data).memWf = true := by
  unfold State.flitIn
  dsimp only
  refine memWf_ite (memWf_setLnk h) ?_
  split
  · exact memWf_setLnk h
  · exact memWf_setLnk h

@[simp] theorem memWf_execFlit {d : BitVec 2} {head : BitVec 48} {ctl : DWord} {data : BitVec 512} {crc : Half} (h : s.memWf = true) :
    (execFlit d head ctl data crc s).memWf := by
  unfold execFlit
  extract_lets n v cls ok s1
  have hs1 : s1.memWf = true := memWf_count h _ _
  exact Res.memWf_next (memWf_ite h (memWf_ite (memWf_flit0 hs1) (memWf_ite (memWf_flitIn hs1) (memWf_ite hs1 (memWf_sendReplay hs1)))))

@[simp] theorem memWf_execAck {d : BitVec 2} {ackseq : BitVec 12} {cred1 cred2 cred3 : Byte} (h : s.memWf = true) :
    (execAck d ackseq cred1 cred2 cred3 s).memWf := Res.memWf_next (memWf_ite h (memWf_pump (memWf_setLnk h)))

@[simp]
theorem memWf_execAckDue {d : BitVec 2} (h : s.memWf = true) : (execAckDue d s).memWf := Res.memWf_next (memWf_ite h (memWf_sendCtl (memWf_setLnk h)))

@[simp] theorem memWf_execReplay {d : BitVec 2} {from_ : BitVec 12} (h : s.memWf = true) : (execReplay d from_ s).memWf := by
  unfold execReplay
  extract_lets n s1 x x2
  have hs1 : s1.memWf = true := memWf_bumpF h _ _ _ _
  refine Res.memWf_next ?_
  refine memWf_ite h ?_
  refine memWf_ite (memWf_lnkOff hs1) ?_
  split
  · exact memWf_setLnk hs1
  · exact memWf_foldl (fun _ _ hu => memWf_sendFlit (memWf_count hu _ _)) (memWf_setLnk hs1)

@[simp] theorem memWf_execLane {d : BitVec 2} {mask : Byte} {cw : Half} (h : s.memWf = true) : (execLane d mask cw s).memWf :=
  Res.memWf_next (memWf_ite h (memWf_modLnk h))

@[simp] theorem memWf_execLaneMaskApply {d : BitVec 2} (h : s.memWf = true) : (execLaneMaskApply d s).memWf := by
  unfold execLaneMaskApply
  dsimp only
  refine Res.memWf_next ?_
  refine memWf_ite h ?_
  split
  · exact h
  · exact memWf_applyMask (memWf_modLnk h)

@[simp]
theorem memWf_execFreezeBlock {d : BitVec 2} (h : s.memWf = true) : (execFreezeBlock d s).memWf := Res.memWf_next (memWf_ite (memWf_setLnkState h) h)

@[simp] theorem memWf_execLinkRetrainAfterPartnerReset {d : BitVec 2} (h : s.memWf = true) : (execLinkRetrainAfterPartnerReset d s).memWf :=
  Res.memWf_next (memWf_ite h (memWf_startBringUp (memWf_breakOnLink h)))

theorem State.memWf_takeArrived {d : Nat} {m : LMsg} (h : s.memWf = true) : (s.takeArrived d m).memWf = true := memWf_modLnk h

@[simp] theorem memWf_execLaneMessageArrival {d : BitVec 2} (h : s.memWf = true) : (execLaneMessageArrival d s).memWf := by
  unfold execLaneMessageArrival
  dsimp only
  refine Res.memWf_next ?_
  split
  · exact h
  · refine memWf_ite h ?_
    refine memWf_ite (memWf_emit (memWf_takeArrived h) _ _ _) ?_
    refine memWf_ite ?_ (memWf_ite (memWf_countDrop (memWf_takeArrived h)) (memWf_launchMsg (memWf_takeArrived h)))
    split
    · exact memWf_laneSend (memWf_takeArrived h)
    · exact memWf_countDrop (memWf_takeArrived h)

@[simp] theorem memWf_execBlockLockLoss {lane : BitVec 5} {found : Bool} {ofs : BitVec 6} (h : s.memWf = true) :
    (execBlockLockLoss lane found ofs s).memWf := by
  unfold execBlockLockLoss
  extract_lets l s1
  have hs1 : s1.memWf = true := memWf_setF (memWf_setF (memWf_laneEvent (memWf_setLaneState h)) _ _ _ _) _ _ _ _
  exact Res.memWf_next (memWf_ite h (memWf_removeLane (memWf_modLane hs1)))

theorem State.memWf_bitslip {l op count : Nat} {go : State → State} (h : s.memWf = true) (hgo : ∀ (u : State), u.memWf = true → (go u).memWf = true) :
    (s.bitslip l op count go).memWf = true := by
  unfold State.bitslip
  refine memWf_hostWrite h (fun u hu => ?_)
  extract_lets s1
  have hs1 : s1.memWf = true := memWf_setF (memWf_setF (memWf_setF hu _ _ _ _) _ _ _ _) _ _ _ _
  exact memWf_ite hu (memWf_ite (hgo _ (memWf_setF (memWf_setF hs1 _ _ _ _) _ _ _ _)) (memWf_setF hs1 _ _ _ _))

@[simp] theorem memWf_execBitslipSlip {lane : BitVec 5} {count : BitVec 6} (h : s.memWf = true) : (execBitslipSlip lane count s).memWf :=
  Res.memWf_next (memWf_bitslip h (fun _ hu => memWf_modLane hu))

@[simp] theorem memWf_execBitslipRetrain {lane : BitVec 5} (h : s.memWf = true) : (execBitslipRetrain lane s).memWf :=
  Res.memWf_next (memWf_bitslip h (fun _ hu => memWf_modLane (memWf_setStep (memWf_setLaneState hu))))

theorem State.memWf_bitslipEnd {r : Nat} (h : s.memWf = true) : (s.bitslipEnd r).memWf = true := memWf_setF (memWf_setF h _ _ _ _) _ _ _ _

@[simp] theorem memWf_execLaneRejoin {lane : BitVec 5} (h : s.memWf = true) : (execLaneRejoin lane s).memWf :=
  Res.memWf_next (memWf_ite h (memWf_bitslipEnd (memWf_joinLane h)))

@[simp] theorem memWf_execBitslipTimeout (h : s.memWf = true) : (execBitslipTimeout s).memWf :=
  Res.memWf_next (memWf_ite h (memWf_bitslipEnd (memWf_ite (memWf_showMasks (memWf_setLaneState h)) h)))

@[simp] theorem memWf_execLaneEventLimitExceeded {lane : BitVec 5} (h : s.memWf = true) : (execLaneEventLimitExceeded lane s).memWf :=
  Res.memWf_next (memWf_ite (memWf_retireLane (memWf_modLane h)) h)

@[simp] theorem memWf_execLoopModeWrite {lane : BitVec 5} {mode : BitVec 2} (h : s.memWf = true) : (execLoopModeWrite lane mode s).memWf :=
  Res.memWf_next (memWf_hostWrite h (fun _ hu => memWf_ite (memWf_ite (memWf_showMasks (memWf_setLaneState (memWf_setF hu _ _ _ _)))
    (memWf_setF hu _ _ _ _)) (memWf_ite (memWf_removeLane (memWf_modLane (memWf_setLaneState (memWf_setF hu _ _ _ _))))
    (memWf_ite (memWf_showMasks (memWf_modLane (memWf_setLaneState (memWf_setF hu _ _ _ _)))) (memWf_setF hu _ _ _ _)))))

@[simp] theorem memWf_execLoopRun {lane : BitVec 5} (h : s.memWf = true) : (execLoopRun lane s).memWf :=
  Res.memWf_next (memWf_hostWrite h (fun _ hu => memWf_ite hu (memWf_setF (memWf_setF hu _ _ _ _) _ _ _ _)))

@[simp] theorem memWf_execLoopRunDone {lane : BitVec 5} {errs : Nat} (h : s.memWf = true) : (execLoopRunDone lane errs s).memWf :=
  Res.memWf_next (memWf_ite h (memWf_setF (memWf_setF (memWf_setF h _ _ _ _) _ _ _ _) _ _ _ _))

end LaneCommands

section SpdmCommands

/-! The SPDM responder. -/

open State

variable {s : State}

theorem State.memWf_sign {m : List Byte} (h : s.memWf = true) : (s.sign m).1.memWf = true := memWf_drawn h
theorem State.memWf_spdmError {kind : Nat} (h : s.memWf = true) : (s.spdmError kind).memWf = true := memWf_emit h _ _ _
theorem State.memWf_doVersion (h : s.memWf = true) : s.doVersion.memWf = true := memWf_emit h _ _ _
theorem State.memWf_doCapabilities (h : s.memWf = true) : s.doCapabilities.memWf = true := memWf_emit h _ _ _
theorem State.memWf_doAlgorithms {sm2 sm3 : Bool} (h : s.memWf = true) : (s.doAlgorithms sm2 sm3).memWf = true := memWf_emit h _ _ _
theorem State.memWf_doDigests (h : s.memWf = true) : s.doDigests.memWf = true := memWf_emit h _ _ _

theorem State.memWf_doCertificate {slot off len : Nat} (h : s.memWf = true) : (s.doCertificate slot off len).memWf = true :=
  memWf_ite (memWf_spdmError h) (memWf_emit h _ _ _)

theorem State.memWf_doChallenge {slot : Nat} {nonce : List Byte} (h : s.memWf = true) : (s.doChallenge slot nonce).memWf = true := by
  unfold State.doChallenge
  extract_lets d q1
  have hq1 : q1.1.memWf = true := memWf_sign h
  exact memWf_ite (memWf_spdmError h) (memWf_emit hq1 _ _ _)

theorem State.memWf_doMeasurements {index : Nat} {sign : Bool} {nonce : List Byte} (h : s.memWf = true) :
    (s.doMeasurements index sign nonce).memWf = true := by
  unfold State.doMeasurements
  extract_lets blocks data q1
  have hq1 : q1.1.memWf = true := memWf_sign h
  exact memWf_ite (memWf_spdmError h) (memWf_ite (memWf_emit hq1 _ _ _) (memWf_emit h _ _ _))

theorem State.memWf_doOther {l : List Byte} (h : s.memWf = true) : (s.doOther l).memWf = true := memWf_emit (memWf_drawn h) _ _ _

theorem State.memWf_doeServe {i : Instr} (h : s.memWf = true) : (s.doeServe i).memWf = true := by
  unfold State.doeServe
  split
  · exact memWf_doOther h
  · exact memWf_doVersion h
  · exact memWf_doCapabilities h
  · exact memWf_doAlgorithms h
  · exact memWf_doDigests h
  · exact memWf_doCertificate h
  · exact memWf_doChallenge h
  · exact memWf_doMeasurements h
  · exact h

theorem State.memWf_doeTake {c : Instr} {f : State → State} (h : s.memWf = true) (hf : ∀ (u : State), u.memWf = true → (f u).memWf = true) :
    (s.doeTake c f).memWf = true := memWf_ite h (memWf_ite (hf _ h) (memWf_congr h rfl rfl rfl rfl))

theorem State.memWf_doeResume (h : s.memWf = true) : s.doeResume.memWf = true := by
  unfold State.doeResume
  split
  · exact h
  · exact memWf_doeServe (memWf_congr h rfl rfl rfl rfl)

@[simp] theorem memWf_execDoeRequest {bytes : List Byte} (h : s.memWf = true) : (execDoeRequest bytes s).memWf :=
  Res.memWf_next (memWf_doeTake h (fun _ hu => memWf_doOther hu))

@[simp] theorem memWf_execDoeAbort (h : s.memWf = true) : (execDoeAbort s).memWf := Res.memWf_next (memWf_ite (memWf_congr h rfl rfl rfl rfl) h)

@[simp]
theorem memWf_execGetVersion (h : s.memWf = true) : (execGetVersion s).memWf := Res.memWf_next (memWf_doeTake h (fun _ hu => memWf_doVersion hu))

@[simp] theorem memWf_execGetCapabilities (h : s.memWf = true) : (execGetCapabilities s).memWf :=
  Res.memWf_next (memWf_doeTake h (fun _ hu => memWf_doCapabilities hu))

@[simp] theorem memWf_execNegotiateAlgorithms {sm2 sm3 : Bool} (h : s.memWf = true) : (execNegotiateAlgorithms sm2 sm3 s).memWf :=
  Res.memWf_next (memWf_doeTake h (fun _ hu => memWf_doAlgorithms hu))

@[simp]
theorem memWf_execGetDigests (h : s.memWf = true) : (execGetDigests s).memWf := Res.memWf_next (memWf_doeTake h (fun _ hu => memWf_doDigests hu))

@[simp] theorem memWf_execGetCertificate {slot : BitVec 3} {off len : Nat} (h : s.memWf = true) : (execGetCertificate slot off len s).memWf :=
  Res.memWf_next (memWf_doeTake h (fun _ hu => memWf_doCertificate hu))

@[simp] theorem memWf_execChallenge {slot : BitVec 3} {nonce : List Byte} (h : s.memWf = true) : (execChallenge slot nonce s).memWf :=
  Res.memWf_next (memWf_doeTake h (fun _ hu => memWf_doChallenge hu))

@[simp] theorem memWf_execGetMeasurements {index : Byte} {sign : Bool} {nonce : List Byte} (h : s.memWf = true) :
    (execGetMeasurements index sign nonce s).memWf := Res.memWf_next (memWf_doeTake h (fun _ hu => memWf_doMeasurements hu))

end SpdmCommands

section ManagementCommands

/-! Boot, services, narrowing and the black box. -/

open State

variable {s : State}

theorem State.memWf_recoverBlackBox (h : s.memWf = true) : s.recoverBlackBox.memWf = true := by
  unfold State.recoverBlackBox
  extract_lets s1 j slot s2 q s3
  have hheader : SMap.wf [] [(0, bbHeader)] = true := rfl
  have hs1 : s1.memWf = true := memWf_ite h (memWf_congr (memWf_withBbox h hheader) rfl rfl rfl rfl)
  have hs2 : s2.memWf = true := memWf_ite (memWf_withBbox hs1 (SMap.wf_set _ _ _ _ (memWf_bbox hs1))) hs1
  have hs3 : s3.memWf = true := memWf_congr hs2 rfl rfl rfl rfl
  exact memWf_setF (memWf_setF (memWf_setF hs3 _ _ _ _) _ _ _ _) _ _ _ _

theorem State.memWf_retireAll {l : List Nat} (h : s.memWf = true) : (s.retireAll l).memWf = true :=
  memWf_ite h (memWf_ite (memWf_hbmOut h) (memWf_rebuildMap h))

theorem State.memWf_bootHbm {failed : List Nat} (h : s.memWf = true) : (s.bootHbm failed).memWf = true := by
  unfold State.bootHbm
  extract_lets s1 new s2 s3
  have hs1 : s1.memWf = true := memWf_trainAll h
  have hs2 : s2.memWf = true := memWf_retireAll hs1
  have hs3 : s3.memWf = true := memWf_foldl (fun _ _ hu => memWf_report hu _ _ _) hs2
  exact memWf_raise (memWf_setF hs3 _ _ _ _) _

theorem State.memWf_bootFabric (h : s.memWf = true) : s.bootFabric.memWf = true := memWf_ite h (memWf_congr h rfl rfl rfl rfl)

theorem State.memWf_startFirmware {slot : Nat} {l : List Byte} {failed : List Nat} (h : s.memWf = true) :
    (s.startFirmware slot l failed).memWf = true := by
  unfold State.startFirmware
  extract_lets m2 s1 s2 s3 cold s4 s5 s6
  have hs1 : s1.memWf = true := memWf_congr h rfl rfl rfl rfl
  have hs2 : s2.memWf = true := memWf_setF (memWf_setF hs1 _ _ _ _) _ _ _ _
  have hs3 : s3.memWf = true := memWf_commitAll (memWf_mgmtRecord hs2)
  have hs4 : s4.memWf = true := memWf_ite (memWf_applyRetirements hs3) hs3
  have hs5 : s5.memWf = true := memWf_writeSummaries hs4
  clear_value s5
  have hs6 : s6.memWf = true := memWf_congr hs5 rfl rfl rfl rfl
  exact memWf_ite (memWf_bootFabric (memWf_bootHbm hs6)) hs6

theorem State.memWf_bootImages {failed : List Nat} (h : s.memWf = true) : (s.bootImages failed).memWf = true := by
  unfold State.bootImages
  extract_lets p b s1 s2
  have hs1 : s1.memWf = true := memWf_setF h _ _ _ _
  have hs2 : s2.memWf = true := memWf_setF (memWf_setF hs1 _ _ _ _) _ _ _ _
  exact memWf_ite (memWf_startFirmware h) (memWf_ite (memWf_startFirmware hs1) (memWf_congr hs2 rfl rfl rfl rfl))

theorem State.memWf_thawChans {k : Nat} (h : s.memWf = true) : (s.thawChans k).memWf = true := by
  unfold State.thawChans
  refine memWf_foldl (fun u a hu => ?_) h
  extract_lets s1
  have hs1 : s1.memWf = true := memWf_modChan hu
  exact memWf_ite (memWf_setChanState hs1) hs1

theorem State.memWf_runThaw (h : s.memWf = true) : s.runThaw.1.memWf = true := by
  unfold State.runThaw
  extract_lets id s1 s2
  have hs1 : s1.memWf = true := memWf_mgmtRecord (memWf_setFbit (memWf_commitAll h) _ _ _ _ _)
  have hs2 : s2.memWf = true := by
    dsimp only [s2]
    split
    · exact memWf_thawChans hs1
    · exact hs1
  exact memWf_ite_fst h (memWf_raise hs2 _)

theorem State.memWf_runTrain {failed : List Nat} (h : s.memWf = true) : (s.runTrain failed).1.memWf = true := by
  unfold State.runTrain
  extract_lets s1 new s2
  have hs1 : s1.memWf = true := memWf_trainAll (memWf_hbmDrain (memWf_abandonRetrain h))
  have hs2 : s2.memWf = true := memWf_retireAll hs1
  exact memWf_ite_fst h (memWf_foldl (fun _ _ hu => memWf_report hu _ _ _) hs2)

theorem State.memWf_runRetrain (h : s.memWf = true) : s.runRetrain.1.memWf = true := memWf_ite_fst h (memWf_retrain h)
theorem State.memWf_runLink (h : s.memWf = true) : s.runLink.1.memWf = true := memWf_ite_fst h (memWf_requestUp h)
theorem State.memWf_runRepair (h : s.memWf = true) : s.runRepair.1.memWf = true := memWf_ite_fst h (memWf_hbmLose (memWf_congr h rfl rfl rfl rfl) _)
theorem State.memWf_orFuse {w v : Nat} (h : s.memWf = true) : (s.orFuse w v).memWf = true := memWf_congr h rfl rfl rfl rfl
theorem State.memWf_putFuse {w lo n v : Nat} (h : s.memWf = true) : (s.putFuse w lo n v).memWf = true := memWf_congr h rfl rfl rfl rfl

theorem State.memWf_harvestSite {site : Nat} (h : s.memWf = true) : (s.harvestSite site).memWf = true := by
  unfold State.harvestSite
  extract_lets y c base s1 s2
  have hs1 : s1.memWf = true := memWf_ite (memWf_orFuse h) (memWf_orFuse h)
  have hs2 : s2.memWf = true := memWf_putFuse hs1
  exact memWf_congr hs2 rfl rfl rfl rfl

theorem State.memWf_runCommit (h : s.memWf = true) : s.runCommit.1.memWf = true := by
  unfold State.runCommit
  extract_lets l s1 s2
  have hs1 : s1.memWf = true := memWf_foldl (fun _ _ hu => memWf_harvestSite hu) h
  have hs2 : s2.memWf = true := memWf_foldl (fun _ _ hu => memWf_orFuse hu) hs1
  exact memWf_ite (memWf_orFuse hs2) hs2

theorem State.memWf_advance {w n k : Nat} (h : s.memWf = true) : (State.advance w n k s).memWf = true := by
  induction k generalizing s with
  | zero => exact h
  | succ k ih =>
    unfold State.advance
    refine memWf_ite h ?_
    dsimp only
    split
    · exact h
    · exact ih (memWf_orFuse (memWf_orFuse (memWf_orFuse h)))

theorem State.memWf_runAdvance (h : s.memWf = true) : s.runAdvance.1.memWf = true := memWf_ite_fst h (memWf_advance h)
theorem State.memWf_runRevoke (h : s.memWf = true) : s.runRevoke.1.memWf = true := memWf_ite_fst h (memWf_orFuse (memWf_orFuse (memWf_orFuse h)))

theorem State.memWf_fuseService {code : Nat} {f : State → State × Nat} (h : s.memWf = true)
    (hf : ∀ (u : State), u.memWf = true → (f u).1.memWf = true) :
    (s.fuseService code f).1.memWf = true := by
  unfold State.fuseService
  extract_lets q1
  have hq1 : q1.1.memWf = true := memWf_ite_fst (hf _ h) h
  exact memWf_mgmtRecord hq1

theorem State.memWf_svcDone {q : State × Nat} (h : q.1.memWf = true) : (State.svcDone q).memWf = true := by
  unfold State.svcDone
  extract_lets s1
  exact memWf_setF (memWf_setF (memWf_congr h rfl rfl rfl rfl) _ _ _ _) _ _ _ _

theorem State.memWf_service {code : Nat} {found : List Nat} {f : State → State × Nat} (h : s.memWf = true)
    (hf : ∀ (u : State), u.memWf = true → (f u).1.memWf = true) :
    (s.service code found f).memWf = true :=
  memWf_hostWrite h (fun _ hu => memWf_ite (memWf_discard hu) (memWf_ite (memWf_svcDone (hf _ (memWf_setF (memWf_setF hu _ _ _ _) _ _ _ _)))
    (memWf_congr (memWf_setF (memWf_setF (memWf_setF hu _ _ _ _) _ _ _ _) _ _ _ _) rfl rfl rfl rfl)))

theorem State.memWf_svcServe (h : s.memWf = true) : s.svcServe.1.memWf = true := by
  unfold State.svcServe
  split
  · exact memWf_runThaw h
  · exact memWf_runTrain h
  · exact memWf_runRetrain h
  · exact memWf_runLink h
  · exact memWf_runRepair h
  · exact memWf_fuseService h (fun _ hu => memWf_runCommit hu)
  · exact memWf_fuseService h (fun _ hu => memWf_runAdvance hu)
  · exact memWf_fuseService h (fun _ hu => memWf_runRevoke hu)
  · exact h

theorem State.memWf_resume (h : s.memWf = true) : s.resume.memWf = true := by
  unfold State.resume
  extract_lets s1
  have hs1 : s1.memWf = true := memWf_ite (memWf_svcDone (memWf_svcServe h)) h
  exact memWf_ite (memWf_doeResume hs1) hs1

@[simp] theorem memWf_execSvcThaw (h : s.memWf = true) : (execSvcThaw s).memWf := Res.memWf_next (memWf_service h (fun _ hu => memWf_runThaw hu))

@[simp] theorem memWf_execSvcTrainHbm {failed : List Byte} (h : s.memWf = true) : (execSvcTrainHbm failed s).memWf :=
  Res.memWf_next (memWf_service h (fun _ hu => memWf_runTrain hu))

@[simp] theorem memWf_execSvcRetrainChannel (h : s.memWf = true) : (execSvcRetrainChannel s).memWf :=
  Res.memWf_next (memWf_service h (fun _ hu => memWf_runRetrain hu))

@[simp] theorem memWf_execSvcLinkBringUp (h : s.memWf = true) : (execSvcLinkBringUp s).memWf :=
  Res.memWf_next (memWf_service h (fun _ hu => memWf_runLink hu))

@[simp] theorem memWf_execSvcSoftRepair (h : s.memWf = true) : (execSvcSoftRepair s).memWf :=
  Res.memWf_next (memWf_service h (fun _ hu => memWf_runRepair hu))

@[simp] theorem memWf_execSvcCommitRetirements (h : s.memWf = true) : (execSvcCommitRetirements s).memWf :=
  Res.memWf_next (memWf_service h (fun _ hu => memWf_fuseService hu (fun _ hu1 => memWf_runCommit hu1)))

@[simp] theorem memWf_execSvcAdvanceRollback (h : s.memWf = true) : (execSvcAdvanceRollback s).memWf :=
  Res.memWf_next (memWf_service h (fun _ hu => memWf_fuseService hu (fun _ hu1 => memWf_runAdvance hu1)))

@[simp] theorem memWf_execSvcRevokeKey (h : s.memWf = true) : (execSvcRevokeKey s).memWf :=
  Res.memWf_next (memWf_service h (fun _ hu => memWf_fuseService hu (fun _ hu1 => memWf_runRevoke hu1)))

@[simp] theorem memWf_execBoot {failed : List Byte} (h : s.memWf = true) : (execBoot failed s).memWf :=
  Res.memWf_next (memWf_ite h (memWf_ite (memWf_setF h _ _ _ _) (memWf_resume (memWf_bootImages (memWf_recoverBlackBox h)))))

theorem State.memWf_mgmtReset (h : s.memWf = true) : s.mgmtReset.memWf = true := by
  unfold State.mgmtReset
  extract_lets s1
  have hs1 : s1.memWf = true := memWf_setF h _ _ _ _
  exact memWf_congr hs1 rfl rfl rfl rfl

@[simp] theorem memWf_execManagementReset (h : s.memWf = true) : (execManagementReset s).memWf :=
  Res.memWf_next (memWf_hostWrite h (fun _ hu => memWf_mgmtReset hu))

@[simp]
theorem memWf_execManagementWatchdog (h : s.memWf = true) : (execManagementWatchdog s).memWf := Res.memWf_next (memWf_ite (memWf_mgmtReset h) h)

@[simp] theorem memWf_execRecover {failed : List Byte} (h : s.memWf = true) : (execRecover failed s).memWf := by
  unfold execRecover
  refine Res.memWf_next ?_
  refine memWf_hostWrite h (fun u hu => ?_)
  dsimp only
  refine memWf_ite hu ?_
  split
  · exact memWf_resume (memWf_startFirmware hu)
  · exact memWf_setF hu _ _ _ _

theorem State.memWf_checkRings (h : s.memWf = true) : s.checkRings.memWf = true := memWf_foldl (fun _ _ hu => memWf_ite (memWf_setF hu _ _ _ _) hu) h

theorem State.memWf_narrow {a v : Nat} (h : s.memWf = true) : (s.narrow a v).memWf = true := by
  unfold State.narrow
  dsimp only
  split
  · exact memWf_ite (memWf_discard h) (memWf_setF (memWf_setF h _ _ _ _) _ _ _ _)
  · exact memWf_foldl (fun _ _ hu => memWf_ite (memWf_setF hu _ _ _ _) hu) h

@[simp] theorem memWf_execCharterNarrowing {addr : Bar0Addr} {val : Word} (h : s.memWf = true) : (execCharterNarrowing addr val s).memWf :=
  Res.memWf_next (memWf_ite (memWf_hostAccess h (fun _ hu => memWf_checkRings (memWf_narrow hu))) h)

@[simp] theorem memWf_execHostRecord {val : Word} (h : s.memWf = true) : (execHostRecord val s).memWf :=
  Res.memWf_next (memWf_hostWrite h (fun _ hu => memWf_mgmtRecord hu))

@[simp] theorem memWf_execBlackBoxCommit (h : s.memWf = true) : (execBlackBoxCommit s).memWf := Res.memWf_next (memWf_ite (memWf_commitNext h) h)

@[simp]
theorem memWf_execRetirementSummary (h : s.memWf = true) : (execRetirementSummary s).memWf := Res.memWf_next (memWf_ite (memWf_writeSummaries h) h)

end ManagementCommands

section EndpointCommands

/-! The PCIe endpoint. -/

open State

variable {s : State}

theorem State.memWf_flushPba (h : s.memWf = true) : s.flushPba.memWf = true := by
  unfold State.flushPba
  refine memWf_foldl (fun u a hu => ?_) h
  refine memWf_emit ?_ _ _ _
  exact memWf_congr hu rfl rfl rfl rfl

theorem State.memWf_enterD3 (h : s.memWf = true) : s.enterD3.memWf = true := by
  unfold State.enterD3
  extract_lets s1
  have hs1 : s1.memWf = true := memWf_setCfgBits h
  exact memWf_ite h (memWf_ite (memWf_standbyAsk hs1) hs1)

theorem State.memWf_enterD0 (h : s.memWf = true) : s.enterD0.memWf = true := memWf_ite h (memWf_standbyLeave (memWf_setCfgBits h))

theorem State.memWf_cfgWrite {o v : Nat} (h : s.memWf = true) : (s.cfgWrite o v).memWf = true := by
  unfold State.cfgWrite
  extract_lets old new s1 s2
  have hs1 : s1.memWf = true := memWf_setCfgBits h
  have hs2 : s2.memWf = true := memWf_setCfgBits h
  refine memWf_ite (memWf_setCfgBits h) ?_
  split
  · exact memWf_ite (memWf_enterD3 hs1) (memWf_ite (memWf_enterD0 hs1) hs1)
  · exact memWf_flushPba (memWf_congr hs2 rfl rfl rfl rfl)
  · exact memWf_ite hs2 h
  · exact memWf_ite (memWf_congr hs2 rfl rfl rfl rfl) hs2
  · exact hs2

@[simp] theorem memWf_execConfigRequest {write : Bool} {off : BitVec 12} {be : BitVec 4} {val : Word} (h : s.memWf = true) :
    (execConfigRequest write off be val s).memWf :=
  Res.memWf_next (memWf_ite h (memWf_ite (memWf_emit (memWf_cfgWrite h) _ _ _) (memWf_emit h _ _ _)))

@[simp] theorem memWf_execBar0InvalidAccess {addr : Bar0Addr} {write : Bool} (h : s.memWf = true) : (execBar0InvalidAccess addr write s).memWf :=
  Res.memWf_next (memWf_ite (memWf_badSize h) h)

theorem State.memWf_bar2Answer {o status : Nat} {ep : Bool} {l : List Byte} (h : s.memWf = true) : (s.bar2Answer o status ep l).memWf = true :=
  memWf_emit h _ _ _

theorem State.memWf_bar2Abort {o : Nat} (h : s.memWf = true) : (s.bar2Abort o).memWf = true := memWf_bar2Answer (memWf_aerUncorr h)
theorem State.memWf_bar2Poison {a : Nat} (h : s.memWf = true) : (s.bar2Poison a).memWf = true := memWf_sectDue (memWf_hbmUncorr h _) _

@[simp] theorem memWf_execBar2Read {addr : HbmAddr} {len : Nat} {bad : List Nat} (h : s.memWf = true) : (execBar2Read addr len bad s).memWf := by
  unfold execBar2Read
  dsimp only
  refine Res.memWf_next ?_
  refine memWf_ite h ?_
  refine memWf_ite (memWf_bar2Answer h) ?_
  split
  · exact memWf_bar2Abort (memWf_bumpF h _ _ _ _)
  · exact memWf_bar2Abort (memWf_violation h)
  · exact memWf_bar2Abort h
  · exact memWf_ite (memWf_hbmLate h) (memWf_foldl (fun _ _ hu => memWf_bar2Answer (memWf_ite (memWf_bar2Poison (memWf_hbmRead hu _ _))
      (memWf_hbmRead hu _ _))) (memWf_hbmTaken h))

theorem State.memWf_storeEnabled {a : Nat} {got : List Byte} {l : List (Option Byte)} (h : s.memWf = true) : (s.storeEnabled a got l).memWf = true := by
  have hrun (u : State) (hu : u.memWf = true) (a : Nat) (got : List Byte) :
      (if got = [] then u else u.hbmStore (a - got.length) got.reverse).memWf = true := memWf_ite hu (memWf_hbmStore hu _ _)
  induction l generalizing s a got with
  | nil => exact hrun s h a got
  | cons b r ih => cases b with
    | none => exact ih (hrun s h a got)
    | some b => exact ih h

@[simp] theorem memWf_execBar2Write {addr : HbmAddr} {bytes : List (Option Byte)} {poisoned : Bool} (h : s.memWf = true) :
    (execBar2Write addr bytes poisoned s).memWf := by
  unfold execBar2Write
  dsimp only
  refine Res.memWf_next ?_
  refine memWf_ite h ?_
  refine memWf_ite (memWf_aerUncorr h) ?_
  split
  · exact memWf_bumpF h _ _ _ _
  · exact memWf_violation h
  · exact memWf_aerUncorr h
  · exact memWf_ite h (memWf_storeEnabled (memWf_hbmAccept h _ _))

@[simp] theorem memWf_execMsixUnmask {v : Byte} (h : s.memWf = true) : (execMsixUnmask v s).memWf :=
  Res.memWf_next (memWf_hostAccess h (fun _ hu => memWf_unmask hu))

@[simp] theorem memWf_execAtsInvalidate {addr : DWord} {len : Nat} (h : s.memWf = true) : (execAtsInvalidate addr len s).memWf :=
  Res.memWf_next (memWf_ite h (memWf_congr h rfl rfl rfl rfl))

@[simp] theorem memWf_execInvalidateComplete (h : s.memWf = true) : (execInvalidateComplete s).memWf := by
  unfold execInvalidateComplete
  refine Res.memWf_next ?_
  split
  · exact h
  · refine memWf_ite h ?_
    refine memWf_emit ?_ _ _ _
    exact memWf_congr h rfl rfl rfl rfl

@[simp] theorem memWf_execPcieLinkUp {speed width : Nat} {flit rev : Bool} (h : s.memWf = true) : (execPcieLinkUp speed width flit rev s).memWf := by
  unfold execPcieLinkUp
  extract_lets s1 s2
  have hs1 : s1.memWf = true := memWf_setF (memWf_setF h _ _ _ _) _ _ _ _
  have hs2 : s2.memWf = true := memWf_setF (memWf_setF hs1 _ _ _ _) _ _ _ _
  exact Res.memWf_next (memWf_ite h (memWf_congr hs2 rfl rfl rfl rfl))

@[simp] theorem memWf_execPcieHotReset (h : s.memWf = true) : (execPcieHotReset s).memWf := Res.memWf_next (memWf_hotBy h)
@[simp] theorem memWf_execDlDown (h : s.memWf = true) : (execDlDown s).memWf := Res.memWf_next (memWf_hotBy h)
@[simp] theorem memWf_execD3hotEntry (h : s.memWf = true) : (execD3hotEntry s).memWf := Res.memWf_next (memWf_ite (memWf_enterD3 h) h)
@[simp] theorem memWf_execD0Transition (h : s.memWf = true) : (execD0Transition s).memWf := Res.memWf_next (memWf_ite (memWf_enterD0 h) h)

end EndpointCommands

section PowerCommands

/-! Resets, supplies, the power cap, temperature and standby. -/

open State

variable {s : State}

@[simp] theorem memWf_execPowerOn (h : s.memWf = true) : (execPowerOn s).memWf := Res.memWf_next (memWf_powerOn h)

@[simp] theorem memWf_execPerstNAssert (h : s.memWf = true) : (execPerstNAssert s).memWf := by
  unfold execPerstNAssert
  extract_lets s1
  have hs1 : s1.memWf = true := memWf_ite h (memWf_senseBanks (memWf_coldReset h))
  exact Res.memWf_next (memWf_ite h (memWf_congr hs1 rfl rfl rfl rfl))

@[simp] theorem memWf_execPerstNNegate (h : s.memWf = true) : (execPerstNNegate s).memWf := by
  unfold execPerstNNegate
  extract_lets s1
  have hs1 : s1.memWf = true := memWf_congr h rfl rfl rfl rfl
  exact Res.memWf_next (memWf_ite hs1 (memWf_setF hs1 _ _ _ _))

@[simp] theorem memWf_execDeviceWarmReset {firmware : Bool} (h : s.memWf = true) : (execDeviceWarmReset firmware s).memWf :=
  Res.memWf_next (memWf_ite (memWf_ite (memWf_plainWarm h) h) (memWf_hostWrite h (fun _ hu => memWf_ite (memWf_discard hu) (memWf_plainWarm hu))))

theorem State.memWf_startEpisode (h : s.memWf = true) : s.startEpisode.memWf = true := by
  unfold State.startEpisode
  refine memWf_ite h ?_
  refine memWf_raise ?_ _
  refine memWf_setF ?_ _ _ _ _
  exact memWf_congr h rfl rfl rfl rfl

theorem State.memWf_endEpisode {lowest micros : Nat} (h : s.memWf = true) : (s.endEpisode lowest micros).memWf = true := by
  unfold State.endEpisode
  extract_lets d s1 s2
  have hs1 : s1.memWf = true := memWf_setF (memWf_setF (memWf_setF h _ _ _ _) _ _ _ _) _ _ _ _
  have hs2 : s2.memWf = true := memWf_setF (memWf_setF (memWf_bumpF hs1 _ _ _ _) _ _ _ _) _ _ _ _
  exact memWf_report hs2 _ _ _

@[simp] theorem memWf_execSupplyWarning {rail mv : Nat} (h : s.memWf = true) : (execSupplyWarning rail mv s).memWf :=
  Res.memWf_next (memWf_ite h (memWf_ite (memWf_setF h _ _ _ _) (memWf_ite h (memWf_ite (memWf_startEpisode (memWf_setF h _ _ _ _))
    (memWf_ite h (memWf_raise (memWf_report (memWf_setF h _ _ _ _) _ _ _) _))))))

theorem State.memWf_coreReset {rail micros : Nat} (h : s.memWf = true) : (s.coreReset rail micros).memWf = true := by
  unfold State.coreReset
  extract_lets s1
  have hs1 : s1.memWf = true := memWf_ite (memWf_endEpisode h) h
  exact memWf_warmStart hs1 (fun _ hu => Tile.memWf_ite (Tile.memWf_clearLining (Tile.memWf_clearCore hu)) (Tile.memWf_clearCore hu))

@[simp] theorem memWf_execSupplyFault {rail micros : Nat} (h : s.memWf = true) : (execSupplyFault rail micros s).memWf :=
  Res.memWf_next (memWf_ite (memWf_powerOn h) (memWf_ite h (memWf_ite (memWf_coreReset h) (memWf_coldBy h))))

@[simp] theorem memWf_execBrownoutEnd {lowest micros : Nat} (h : s.memWf = true) : (execBrownoutEnd lowest micros s).memWf :=
  Res.memWf_next (memWf_ite (memWf_endEpisode h) h)

@[simp] theorem memWf_execLocalDroop {unit mv stretch : Nat} (h : s.memWf = true) : (execLocalDroop unit mv stretch s).memWf :=
  Res.memWf_next (memWf_ite h (memWf_congr h rfl rfl rfl rfl))

@[simp] theorem memWf_execDroopEnd {unit : Nat} (h : s.memWf = true) : (execDroopEnd unit s).memWf := Res.memWf_next (memWf_congr h rfl rfl rfl rfl)

@[simp] theorem memWf_execPowerCapUpdate {watts step : Nat} (h : s.memWf = true) : (execPowerCapUpdate watts step s).memWf := by
  unfold execPowerCapUpdate
  extract_lets old n s1 k s2 s3 s4
  have hs1 : s1.memWf = true := memWf_setF h _ _ _ _
  have hs2 : s2.memWf = true := memWf_congr hs1 rfl rfl rfl rfl
  have hs3 : s3.memWf = true := memWf_setF (memWf_congr hs1 rfl rfl rfl rfl) _ _ _ _
  have hs4 : s4.memWf = true := memWf_congr hs1 rfl rfl rfl rfl
  exact Res.memWf_next (memWf_ite h (memWf_ite (memWf_setF (memWf_congr h rfl rfl rfl rfl) _ _ _ _)
    (memWf_ite (memWf_ite (memWf_ite (memWf_raise (memWf_setF hs2 _ _ _ _) _) hs2) (memWf_ite (memWf_raise hs3 _) hs3))
    (memWf_ite (memWf_setF hs4 _ _ _ _) hs4))))

theorem State.memWf_thermalShutdown {sensor temp : Nat} (h : s.memWf = true) : (s.thermalShutdown sensor temp).memWf = true := by
  unfold State.thermalShutdown
  extract_lets s1
  have hs1 : s1.memWf = true := memWf_bbCommit (memWf_sendFreezes (memWf_selfRefresh (memWf_hbmDrain h) _)) _ _ _
  clear_value s1
  exact memWf_ite h (memWf_congr hs1 rfl rfl rfl rfl)

theorem State.memWf_thermWarn {t n : Nat} (h : s.memWf = true) : (s.thermWarn t n).memWf = true :=
  memWf_ite (memWf_ite h (memWf_armFreeze (memWf_raise (memWf_report (memWf_setF (memWf_setF h _ _ _ _) _ _ _ _) _ _ _) _) _ _))
    (memWf_ite (memWf_setF h _ _ _ _) h)

theorem State.memWf_thermThrottle {t : Nat} (h : s.memWf = true) : (s.thermThrottle t).memWf = true :=
  memWf_ite (memWf_setF h _ _ _ _) (memWf_ite (memWf_setF h _ _ _ _) h)

@[simp] theorem memWf_execThermalSensorRead {temps : List Int} (h : s.memWf = true) : (execThermalSensorRead temps s).memWf := by
  unfold execThermalSensorRead
  extract_lets q1 s1 s2 s3
  have hs1 : s1.memWf = true := memWf_setF (memWf_setF h _ _ _ _) _ _ _ _
  have hs2 : s2.memWf = true := memWf_thermThrottle (memWf_thermWarn hs1)
  have hs3 : s3.memWf = true := memWf_congr hs2 rfl rfl rfl rfl
  exact Res.memWf_next (memWf_ite h (memWf_ite (memWf_thermalShutdown hs3) hs3))

@[simp]
theorem memWf_execHbmStackTemperature {stack : BitVec 3} {temp : Nat} (h : s.memWf = true) : (execHbmStackTemperature stack temp s).memWf := by
  unfold execHbmStackTemperature
  extract_lets k old s1 s2 s3
  have hs1 : s1.memWf = true := memWf_setF h _ _ _ _
  have hs2 : s2.memWf = true := memWf_setF hs1 _ _ _ _
  have hs3 : s3.memWf = true := memWf_ite (memWf_report hs2 _ _ _) hs2
  exact Res.memWf_next (memWf_ite h (memWf_ite (memWf_thermalShutdown hs3) hs3))

@[simp] theorem memWf_execStandbyEnter (h : s.memWf = true) : (execStandbyEnter s).memWf :=
  Res.memWf_next (memWf_hostWrite h (fun _ hu => memWf_standbyAsk hu))

@[simp] theorem memWf_execStandbyExit (h : s.memWf = true) : (execStandbyExit s).memWf :=
  Res.memWf_next (memWf_hostWrite h (fun _ hu => memWf_standbyLeave hu))

@[simp] theorem memWf_execStandbyExitComplete (h : s.memWf = true) : (execStandbyExitComplete s).memWf :=
  Res.memWf_next (memWf_ite h (memWf_setF (memWf_setF (memWf_senseBanks (memWf_resetCounters (memWf_selfRefresh h _))) _ _ _ _) _ _ _ _))

@[simp] theorem memWf_execStandbyExitTimeout (h : s.memWf = true) : (execStandbyExitTimeout s).memWf := Res.memWf_next (memWf_ite h (memWf_coldBy h))

end PowerCommands

section TestPortCommands

/-! The test port. -/

open State

variable {s : State}

@[simp] theorem memWf_execFrzExit (h : s.memWf = true) : (execFrzExit s).memWf := by
  unfold execFrzExit
  extract_lets s1
  have hs1 : s1.memWf = true := memWf_selectIr h
  exact Res.memWf_next (memWf_ite (memWf_plainWarm hs1) hs1)

@[simp] theorem memWf_execCapSel {val : DWord} (h : s.memWf = true) : (execCapSel val s).memWf := by
  unfold execCapSel
  extract_lets s1
  have hs1 : s1.memWf = true := memWf_selectIr h
  exact Res.memWf_next (memWf_congr hs1 rfl rfl rfl rfl)

@[simp] theorem memWf_execCapRead {n : Nat} (h : s.memWf = true) : (execCapRead n s).memWf := by
  unfold execCapRead
  extract_lets s1 s2
  have hs1 : s1.memWf = true := memWf_selectIr h
  have hs2 : s2.memWf = true := by
    dsimp only [s2]
    split
    · exact memWf_emit hs1 _ _ _
    · exact memWf_emit hs1 _ _ _
  exact Res.memWf_next (memWf_congr hs2 rfl rfl rfl rfl)

@[simp] theorem memWf_execBbRead (h : s.memWf = true) : (execBbRead s).memWf := Res.memWf_next (memWf_emit (memWf_selectIr h) _ _ _)
@[simp] theorem memWf_execIdcode (h : s.memWf = true) : (execIdcode s).memWf := Res.memWf_next (memWf_emit (memWf_selectIr h) _ _ _)

@[simp] theorem memWf_execBypass {code : Byte} {bits : List Bool} (h : s.memWf = true) : (execBypass code bits s).memWf :=
  Res.memWf_next (memWf_ite h (memWf_emit (memWf_selectIr h) _ _ _))

@[simp] theorem memWf_execSamplePreload {bits : List Bool} (h : s.memWf = true) : (execSamplePreload bits s).memWf := by
  unfold execSamplePreload
  extract_lets s1
  have hs1 : s1.memWf = true := memWf_emit (memWf_selectIr h) _ _ _
  exact Res.memWf_next (memWf_congr hs1 rfl rfl rfl rfl)

@[simp] theorem memWf_execExtest (h : s.memWf = true) : (execExtest s).memWf := Res.memWf_next (memWf_emit (memWf_selectIr h) _ _ _)

end TestPortCommands

section ControlInstructions

/-! Control instructions. -/

open State

variable {s : State}

theorem memWf_ctlOnly {c : Ctl} (h : s.memWf = true) : (ctlOnly s c).memWf := Issue.memWf_go h
@[simp] theorem memWf_execNop {t : TileNo} (h : s.memWf = true) : (execNop t s).memWf := Res.memWf_next (memWf_issue (fun _ hu => memWf_ctlOnly hu) h)

@[simp]
theorem memWf_execHalt {t : TileNo} (h : s.memWf = true) : (execHalt t s).memWf := Res.memWf_next (memWf_issue (fun _ hu => memWf_ctlOnly hu) h)

@[simp] theorem memWf_execRti {t : TileNo} (h : s.memWf = true) : (execRti t s).memWf := Res.memWf_next (memWf_issue (fun _ hu => memWf_ctlOnly hu) h)

@[simp] theorem memWf_execBr {t : TileNo} {cond : BitVec 4} {target : BitVec 12} (h : s.memWf = true) : (execBr t cond target s).memWf :=
  Res.memWf_next (memWf_issue (fun _ hu => memWf_ctlOnly hu) h)

@[simp] theorem memWf_execBal {t : TileNo} {d : Reg6} {target : BitVec 12} (h : s.memWf = true) : (execBal t d target s).memWf :=
  Res.memWf_next (memWf_issue (fun _ hu => Issue.memWf_go hu) h)

@[simp] theorem memWf_execJr {t : TileNo} {a : Reg6} (h : s.memWf = true) : (execJr t a s).memWf :=
  Res.memWf_next (memWf_issue (fun _ hu => memWf_ctlOnly hu) h)

theorem memWf_repBody {n : Nat} {cs : Bool} {sreg : BitVec 4} {stop : BitVec 12} {imm : Word} (h : s.memWf = true) :
    (repBody n cs sreg stop imm s).memWf := Issue.memWf_ite (Issue.memWf_fault h) (Issue.memWf_ite (memWf_ctlOnly h) (memWf_ctlOnly h))

@[simp] theorem memWf_execRep {t : TileNo} {cs : Bool} {sreg : BitVec 4} {stop : BitVec 12} {imm : Word} (h : s.memWf = true) :
    (execRep t cs sreg stop imm s).memWf := Res.memWf_next (memWf_issue (fun _ hu => memWf_repBody hu) h)

@[simp] theorem memWf_execRbrk {t : TileNo} {n : BitVec 3} (h : s.memWf = true) : (execRbrk t n s).memWf :=
  Res.memWf_next (memWf_issue (fun _ hu => Issue.memWf_ite (Issue.memWf_fault hu) (memWf_ctlOnly hu)) h)

@[simp] theorem memWf_execSetf {t : TileNo} {mask : BitVec 18} (h : s.memWf = true) : (execSetf t mask s).memWf :=
  Res.memWf_next (memWf_issue (fun _ hu => Issue.memWf_go hu) h)

@[simp] theorem memWf_execClrf {t : TileNo} {mask : BitVec 18} (h : s.memWf = true) : (execClrf t mask s).memWf :=
  Res.memWf_next (memWf_issue (fun _ hu => Issue.memWf_go hu) h)

end ControlInstructions

section LoadStoreInstructions

/-! Loads, stores and messages of a tile. -/

open State

variable {s : State}

theorem memWf_loadWord {t : TileNo} {m : MAddr} {k : State → Word → List PWrite → Issue} (h : s.memWf = true)
    (hk : ∀ (u : State) (v : Word) (l : List PWrite), u.memWf = true → (k u v l).memWf) : (loadWord s t m k).memWf := by
  unfold loadWord
  dsimp only
  split
  · exact Issue.memWf_fault h
  · split
    · next hread => exact Issue.memWf_fault (memWf_of_fst (memWf_osWord h _ _) hread)
    · next hread => exact hk _ _ _ (memWf_of_fst (memWf_osWord h _ _) hread)

theorem memWf_storeWord {t : TileNo} {m : MAddr} {v : Word} (h : s.memWf = true) : (storeWord s t m v).memWf := by
  unfold storeWord
  extract_lets q1
  split
  · exact Issue.memWf_fault h
  · exact Issue.memWf_go h

@[simp] theorem memWf_execLd {t : TileNo} {d : Reg6} {m : MAddr} (h : s.memWf = true) : (execLd t d m s).memWf :=
  Res.memWf_next (memWf_issue (fun _ hu => memWf_loadWord hu (fun _ _ _ hu1 => Issue.memWf_go hu1)) h)

@[simp] theorem memWf_execSt {t : TileNo} {r : Reg6} {m : MAddr} (h : s.memWf = true) : (execSt t r m s).memWf :=
  Res.memWf_next (memWf_issue (fun _ hu => memWf_storeWord hu) h)

@[simp] theorem memWf_execLdsp {t : TileNo} {spr : Reg6} {m : MAddr} (h : s.memWf = true) : (execLdsp t spr m s).memWf :=
  Res.memWf_next (memWf_issue (fun _ hu => memWf_loadWord hu (fun _ _ _ hu1 => Issue.memWf_ite (Issue.memWf_fault hu1) (Issue.memWf_go hu1))) h)

@[simp] theorem memWf_execStsp {t : TileNo} {spr : Reg6} {m : MAddr} (h : s.memWf = true) : (execStsp t spr m s).memWf :=
  Res.memWf_next (memWf_issue (fun _ hu => memWf_storeWord hu) h)

@[simp] theorem memWf_execVld {t : TileNo} {d : Reg6} {bus : Bool} {m : MAddr} (h : s.memWf = true) : (execVld t d bus m s).memWf := by
  refine Res.memWf_next (memWf_issue (fun u hu => ?_) h)
  dsimp only
  split
  · exact Issue.memWf_fault hu
  · split
    · next hread => exact Issue.memWf_fault (memWf_of_fst (memWf_osLine hu _ _) hread)
    · next hread => exact Issue.memWf_go (memWf_of_fst (memWf_osLine hu _ _) hread)

@[simp] theorem memWf_execVst {t : TileNo} {r : Reg6} {m : MAddr} (h : s.memWf = true) : (execVst t r m s).memWf := by
  unfold execVst
  refine Res.memWf_next ?_
  refine memWf_issue (fun u hu => ?_) h
  extract_lets x1 q1
  split
  · exact Issue.memWf_fault hu
  · exact Issue.memWf_go hu

@[simp] theorem memWf_execLnld {t : TileNo} {d : Reg6} {m : MAddr} (h : s.memWf = true) : (execLnld t d m s).memWf := by
  unfold execLnld
  refine Res.memWf_next ?_
  refine memWf_issue (fun u hu => ?_) h
  extract_lets q1 q2 s1
  have hq2 : q2.1.memWf = true := memWf_linPLine hu _ _ _
  have hs1 : s1.memWf = true := memWf_ite hq2 (memWf_postIrq hq2)
  split
  · exact Issue.memWf_fault hu
  · exact Issue.memWf_go hs1

@[simp] theorem memWf_execLnst {t : TileNo} {r : Reg6} {m : MAddr} (h : s.memWf = true) : (execLnst t r m s).memWf := by
  unfold execLnst
  refine Res.memWf_next ?_
  refine memWf_issue (fun u hu => ?_) h
  extract_lets x1 q1
  split
  · exact Issue.memWf_fault hu
  · exact Issue.memWf_go hu

theorem memWf_nsendBody {n : Nat} {a : Reg6} {cls : Nat} {sb : BitVec 4} (h : s.memWf = true) : (nsendBody n a cls sb s).memWf :=
  Issue.memWf_ite (Issue.memWf_ite Issue.memWf_wait (Issue.memWf_go h)) (Issue.memWf_ite Issue.memWf_wait
    (Issue.memWf_ite Issue.memWf_wait (Issue.memWf_go h)))

@[simp] theorem memWf_execNsend {t : TileNo} {a : Reg6} {cls : BitVec 2} {sb : BitVec 4} (h : s.memWf = true) : (execNsend t a cls sb s).memWf :=
  Res.memWf_next (memWf_issue (fun _ hu => memWf_nsendBody hu) h)

theorem State.memWf_freeCredit {m : Msg} (h : s.memWf = true) : (s.freeCredit m).memWf = true := by
  unfold State.freeCredit
  dsimp only
  split
  · exact memWf_ite (memWf_setStitch h) h
  · exact h

theorem State.memWf_takeMsg {n cls : Nat} {m : Msg} (h : s.memWf = true) : (s.takeMsg n cls m).memWf = true := by
  unfold State.takeMsg
  extract_lets s1
  have hs1 : s1.memWf = true := memWf_modTile h _ (fun _ hu => Tile.memWf_setQueue hu)
  exact memWf_ite (memWf_freeCredit hs1) (memWf_ite (memWf_trace hs1 _ _ _ _) hs1)

@[simp] theorem memWf_execNrecv {t : TileNo} {d : Reg6} {cls : BitVec 2} (h : s.memWf = true) : (execNrecv t d cls s).memWf := by
  unfold execNrecv
  refine Res.memWf_next ?_
  refine memWf_issue (fun u hu => ?_) h
  split
  · exact Issue.memWf_wait
  · exact Issue.memWf_go (memWf_takeMsg hu)

@[simp] theorem memWf_execTrc {t : TileNo} {a : Reg6} {code : Half} (h : s.memWf = true) : (execTrc t a code s).memWf :=
  Res.memWf_next (memWf_issue (fun _ hu => Issue.memWf_go (memWf_trace hu _ _ _ _)) h)

@[simp] theorem memWf_execRdctr {t : TileNo} {d : Reg6} {n : BitVec 4} {hi : Bool} (h : s.memWf = true) : (execRdctr t d n hi s).memWf :=
  Res.memWf_next (memWf_issue (fun _ hu => Issue.memWf_go hu) h)

@[simp] theorem memWf_execRdsnap {t : TileNo} {d : Reg6} (h : s.memWf = true) : (execRdsnap t d s).memWf :=
  Res.memWf_next (memWf_issue (fun _ hu => Issue.memWf_go hu) h)

end LoadStoreInstructions

section MatrixInstructions

/-! Matrix instructions. -/

open State

variable {s : State}

theorem memWf_streamBody {n : Nat} {fold : Bool} {w : StreamOps} (h : s.memWf = true) : (streamBody n fold w s).memWf := by
  unfold streamBody
  dsimp only
  refine Issue.memWf_ite Issue.memWf_wait ?_
  refine Issue.memWf_ite (Issue.memWf_fault (memWf_setF h _ _ _ _)) ?_
  split
  · exact Issue.memWf_fault h
  · exact Issue.memWf_go (memWf_setTile h _ (Tile.memWf_congr (memWf_tile h _) rfl rfl rfl rfl rfl rfl))

@[simp] theorem memWf_execMstream {t : TileNo} {w : StreamOps} (h : s.memWf = true) : (execMstream t w s).memWf :=
  Res.memWf_next (memWf_issue (fun _ hu => memWf_streamBody hu) h)

@[simp] theorem memWf_execMfold {t : TileNo} {w : StreamOps} (h : s.memWf = true) : (execMfold t w s).memWf :=
  Res.memWf_next (memWf_issue (fun _ hu => memWf_streamBody hu) h)

@[simp] theorem memWf_execStreamStart {t : TileNo} (h : s.memWf = true) : (execStreamStart t s).memWf := by
  unfold execStreamStart
  dsimp only
  refine Res.memWf_next ?_
  split
  · exact h
  · exact memWf_ite (memWf_setTile h _ (Tile.memWf_congr (memWf_tile h _) rfl rfl rfl rfl rfl rfl)) h

theorem Tile.memWf_bbQueue {x : Tile} {op : BBOp} (h : x.memWf = true) : (x.bbQueue op).memWf = true := Tile.memWf_congr h rfl rfl rfl rfl rfl rfl

theorem memWf_swapBody {n : Nat} {red : Option (Nat × Bool × Nat)} (h : s.memWf = true) : (swapBody n s red).memWf :=
  Issue.memWf_ite (Issue.memWf_go (memWf_setTile h _ (Tile.memWf_bbQueue (memWf_tile h _)))) (Issue.memWf_go h)

@[simp]
theorem memWf_execMswap {t : TileNo} (h : s.memWf = true) : (execMswap t s).memWf := Res.memWf_next (memWf_issue (fun _ hu => memWf_swapBody hu) h)

@[simp] theorem memWf_execMswapReduce {t : TileNo} {ofmt : BitVec 2} {odst : Bool} {oreg : BitVec 4} (h : s.memWf = true) :
    (execMswapReduce t ofmt odst oreg s).memWf := by
  unfold execMswapReduce
  refine Res.memWf_next ?_
  refine memWf_issue (fun u hu => ?_) h
  dsimp only
  split
  · exact Issue.memWf_fault hu
  · exact memWf_swapBody hu

@[simp] theorem memWf_execTreeResultWrite {t : TileNo} (h : s.memWf = true) : (execTreeResultWrite t s).memWf := by
  unfold execTreeResultWrite
  dsimp only
  refine Res.memWf_next ?_
  split
  · exact h
  · exact memWf_ite h (memWf_modTile (memWf_convertRow (memWf_matFlag h)) _ (fun _ hu => Tile.memWf_congr (Tile.memWf_putLine hu) rfl rfl rfl rfl rfl
      rfl))

theorem memWf_bbBody {n : Nat} {op : Nat ⊕ Nat} {mk : Nat → BBOp} (h : s.memWf = true) : (bbBody n s op mk).memWf := by
  unfold bbBody
  dsimp only
  refine Issue.memWf_ite Issue.memWf_wait ?_
  split
  · exact Issue.memWf_fault h
  · exact Issue.memWf_go (memWf_setTile h _ (Tile.memWf_bbQueue (memWf_tile h _)))

@[simp]
theorem memWf_execMdrainConverted {t : TileNo} {rowsm1 : BitVec 5} {ofmt : BitVec 2} {odst : Bool} {oreg : BitVec 4} {bias : Bool} {breg : BitVec 4}
    (h : s.memWf = true) :
    (execMdrainConverted t rowsm1 ofmt odst oreg bias breg s).memWf := Res.memWf_next (memWf_issue (fun _ hu => memWf_bbBody hu) h)

@[simp] theorem memWf_execMdrainRaw {t : TileNo} {rowsm1 : BitVec 5} {odst : Bool} {oreg : BitVec 4} (h : s.memWf = true) :
    (execMdrainRaw t rowsm1 odst oreg s).memWf := Res.memWf_next (memWf_issue (fun _ hu => memWf_bbBody hu) h)

@[simp] theorem memWf_execMloadRow {t : TileNo} {row : BitVec 5} {sreg : BitVec 4} (h : s.memWf = true) : (execMloadRow t row sreg s).memWf :=
  Res.memWf_next (memWf_issue (fun _ hu => memWf_bbBody hu) h)

@[simp] theorem memWf_execMloadBroadcast {t : TileNo} {sreg : BitVec 4} (h : s.memWf = true) : (execMloadBroadcast t sreg s).memWf :=
  Res.memWf_next (memWf_issue (fun _ hu => memWf_bbBody hu) h)

@[simp] theorem memWf_execMloadRaw {t : TileNo} {row rowsm1 : BitVec 5} {src : Bool} {sreg : BitVec 4} (h : s.memWf = true) :
    (execMloadRaw t row rowsm1 src sreg s).memWf := Res.memWf_next (memWf_issue (fun _ hu => memWf_bbBody hu) h)

@[simp]
theorem memWf_execMclr {t : TileNo} (h : s.memWf = true) : (execMclr t s).memWf := Res.memWf_next (memWf_issue (fun _ hu => memWf_bbBody hu) h)

@[simp] theorem memWf_execBackBankOpStart {t : TileNo} (h : s.memWf = true) : (execBackBankOpStart t s).memWf := by
  unfold execBackBankOpStart
  dsimp only
  refine Res.memWf_next ?_
  split
  · exact memWf_ite h (memWf_setTile h _ (Tile.memWf_congr (memWf_tile h _) rfl rfl rfl rfl rfl rfl))
  · exact h

@[simp] theorem memWf_execBackBankOpComplete {t : TileNo} (h : s.memWf = true) : (execBackBankOpComplete t s).memWf :=
  Res.memWf_next (memWf_ite (memWf_setTile h _ (Tile.memWf_congr (memWf_tile h _) rfl rfl rfl rfl rfl rfl)) h)

@[simp] theorem memWf_execMwait {t : TileNo} {bb tr st : Bool} (h : s.memWf = true) : (execMwait t bb tr st s).memWf :=
  Res.memWf_next (memWf_issue (fun _ hu => Issue.memWf_ite (Issue.memWf_go hu) Issue.memWf_wait) h)

end MatrixInstructions

section ScalarInstructions

/-! Scalar instructions. -/

open State

variable {s : State}

theorem memWf_aluOut {d : Reg6} {r m cv : Word} (h : s.memWf = true) : (aluOut s d r m cv).memWf := Issue.memWf_go h

theorem memWf_aluZN {t : TileNo} {i : Instr} {o : ScalarOps} {f : Word → Word → Word} (h : s.memWf = true) : (aluZN t i o f s).memWf :=
  Res.memWf_next (memWf_issue (fun _ hu => memWf_aluOut hu) h)

@[simp] theorem memWf_execAdd {t : TileNo} {o : ScalarOps} (h : s.memWf = true) : (execAdd t o s).memWf :=
  Res.memWf_next (memWf_issue (fun _ hu => memWf_aluOut hu) h)

@[simp] theorem memWf_execSub {t : TileNo} {o : ScalarOps} (h : s.memWf = true) : (execSub t o s).memWf :=
  Res.memWf_next (memWf_issue (fun _ hu => memWf_aluOut hu) h)

@[simp] theorem memWf_execAnd {t : TileNo} {o : ScalarOps} (h : s.memWf = true) : (execAnd t o s).memWf := memWf_aluZN h
@[simp] theorem memWf_execOr {t : TileNo} {o : ScalarOps} (h : s.memWf = true) : (execOr t o s).memWf := memWf_aluZN h
@[simp] theorem memWf_execXor {t : TileNo} {o : ScalarOps} (h : s.memWf = true) : (execXor t o s).memWf := memWf_aluZN h
@[simp] theorem memWf_execShl {t : TileNo} {o : ScalarOps} (h : s.memWf = true) : (execShl t o s).memWf := memWf_aluZN h
@[simp] theorem memWf_execShr {t : TileNo} {o : ScalarOps} (h : s.memWf = true) : (execShr t o s).memWf := memWf_aluZN h
@[simp] theorem memWf_execSra {t : TileNo} {o : ScalarOps} (h : s.memWf = true) : (execSra t o s).memWf := memWf_aluZN h
@[simp] theorem memWf_execMin {t : TileNo} {o : ScalarOps} (h : s.memWf = true) : (execMin t o s).memWf := memWf_aluZN h
@[simp] theorem memWf_execMax {t : TileNo} {o : ScalarOps} (h : s.memWf = true) : (execMax t o s).memWf := memWf_aluZN h

@[simp] theorem memWf_execMov {t : TileNo} {d b : Reg6} {i : Bool} {imm : Word} (h : s.memWf = true) : (execMov t d b i imm s).memWf :=
  Res.memWf_next (memWf_issue (fun _ hu => memWf_aluOut hu) h)

@[simp] theorem memWf_execCmp {t : TileNo} {a b : Reg6} {i : Bool} {imm : Word} (h : s.memWf = true) : (execCmp t a b i imm s).memWf :=
  Res.memWf_next (memWf_issue (fun _ hu => Issue.memWf_go hu) h)

@[simp] theorem memWf_execMul {t : TileNo} {o : ScalarOps} (h : s.memWf = true) : (execMul t o s).memWf :=
  Res.memWf_next (memWf_issue (fun _ hu => Issue.memWf_go hu) h)

@[simp] theorem memWf_execPmod {t : TileNo} {d b : Reg6} {i : Bool} {imm : Word} (h : s.memWf = true) : (execPmod t d b i imm s).memWf :=
  Res.memWf_next (memWf_issue (fun _ hu => Issue.memWf_go hu) h)

theorem memWf_sprOut {r : Reg6} {v : Word} (h : s.memWf = true) : (sprOut s r v).memWf := Issue.memWf_ite (Issue.memWf_fault h) (Issue.memWf_go h)

@[simp] theorem memWf_execMvs {t : TileNo} {dir : Bool} {gen spr : Reg6} (h : s.memWf = true) : (execMvs t dir gen spr s).memWf :=
  Res.memWf_next (memWf_issue (fun _ hu => Issue.memWf_ite (memWf_sprOut hu) (Issue.memWf_go hu)) h)

@[simp] theorem memWf_execSetsp {t : TileNo} {spr : Reg6} {imm : Word} (h : s.memWf = true) : (execSetsp t spr imm s).memWf :=
  Res.memWf_next (memWf_issue (fun _ hu => memWf_sprOut hu) h)

end ScalarInstructions

section VectorInstructions

/-! Vector instructions. -/

open State

variable {s : State}

theorem memWf_vecLanes {l : Nat} {d : Reg6} {f : Nat → Word × Exc} (h : s.memWf = true) : (vecLanes s l d f).memWf := Issue.memWf_go h
theorem memWf_vecPlain {d : Reg6} {f : Nat → Word} (h : s.memWf = true) : (vecPlain s d f).memWf := memWf_vecLanes h

theorem memWf_intOp {t : TileNo} {i : Instr} {d a b : Reg6} {f : Word → Word → Word} (h : s.memWf = true) : (intOp t i d a b f s).memWf :=
  Res.memWf_next (memWf_issue (fun _ hu => memWf_vecPlain hu) h)

theorem memWf_fpOp {t : TileNo} {i : Instr} {d a b : Reg6} {f : Rnd → Word → Word → Word × Exc} (h : s.memWf = true) : (fpOp t i d a b f s).memWf :=
  Res.memWf_next (memWf_issue (fun _ hu => memWf_vecLanes hu) h)

@[simp] theorem memWf_execVadd {t : TileNo} {ty : BitVec 4} {d a b : Reg6} (h : s.memWf = true) : (execVadd t ty d a b s).memWf := memWf_fpOp h
@[simp] theorem memWf_execVsub {t : TileNo} {ty : BitVec 4} {d a b : Reg6} (h : s.memWf = true) : (execVsub t ty d a b s).memWf := memWf_fpOp h
@[simp] theorem memWf_execVmul {t : TileNo} {ty : BitVec 4} {d a b : Reg6} (h : s.memWf = true) : (execVmul t ty d a b s).memWf := memWf_fpOp h

@[simp] theorem memWf_execVfma {t : TileNo} {ty : BitVec 4} {d a b c : Reg6} (h : s.memWf = true) : (execVfma t ty d a b c s).memWf :=
  Res.memWf_next (memWf_issue (fun _ hu => memWf_vecLanes hu) h)

@[simp] theorem memWf_execVmin {t : TileNo} {ty : BitVec 4} {d a b : Reg6} (h : s.memWf = true) : (execVmin t ty d a b s).memWf :=
  Res.memWf_next (memWf_issue (fun _ hu => memWf_vecLanes hu) h)

@[simp] theorem memWf_execVmax {t : TileNo} {ty : BitVec 4} {d a b : Reg6} (h : s.memWf = true) : (execVmax t ty d a b s).memWf :=
  Res.memWf_next (memWf_issue (fun _ hu => memWf_vecLanes hu) h)

@[simp] theorem memWf_execViadd {t : TileNo} {d a b : Reg6} (h : s.memWf = true) : (execViadd t d a b s).memWf := memWf_intOp h
@[simp] theorem memWf_execVisub {t : TileNo} {d a b : Reg6} (h : s.memWf = true) : (execVisub t d a b s).memWf := memWf_intOp h
@[simp] theorem memWf_execVand {t : TileNo} {d a b : Reg6} (h : s.memWf = true) : (execVand t d a b s).memWf := memWf_intOp h
@[simp] theorem memWf_execVor {t : TileNo} {d a b : Reg6} (h : s.memWf = true) : (execVor t d a b s).memWf := memWf_intOp h
@[simp] theorem memWf_execVxor {t : TileNo} {d a b : Reg6} (h : s.memWf = true) : (execVxor t d a b s).memWf := memWf_intOp h
@[simp] theorem memWf_execVshl {t : TileNo} {d a b : Reg6} (h : s.memWf = true) : (execVshl t d a b s).memWf := memWf_intOp h
@[simp] theorem memWf_execVshr {t : TileNo} {arith : Bool} {d a b : Reg6} (h : s.memWf = true) : (execVshr t arith d a b s).memWf := memWf_intOp h

@[simp] theorem memWf_execVcmp {t : TileNo} {ty rel : BitVec 4} {d a b : Reg6} (h : s.memWf = true) : (execVcmp t ty rel d a b s).memWf :=
  Res.memWf_next (memWf_issue (fun _ hu => memWf_vecLanes hu) h)

@[simp] theorem memWf_execVmov {t : TileNo} {d a : Reg6} (h : s.memWf = true) : (execVmov t d a s).memWf :=
  Res.memWf_next (memWf_issue (fun _ hu => memWf_vecPlain hu) h)

@[simp] theorem memWf_execVsel {t : TileNo} {d a b c : Reg6} (h : s.memWf = true) : (execVsel t d a b c s).memWf :=
  Res.memWf_next (memWf_issue (fun _ hu => memWf_vecPlain hu) h)

@[simp] theorem memWf_execVbcast {t : TileNo} {d a : Reg6} (h : s.memWf = true) : (execVbcast t d a s).memWf :=
  Res.memWf_next (memWf_issue (fun _ hu => memWf_vecPlain hu) h)

@[simp] theorem memWf_execVget {t : TileNo} {d a : Reg6} {ln : BitVec 5} (h : s.memWf = true) : (execVget t d a ln s).memWf :=
  Res.memWf_next (memWf_issue (fun _ hu => Issue.memWf_go hu) h)

@[simp] theorem memWf_execVrot {t : TileNo} {d a b : Reg6} {k : BitVec 5} (h : s.memWf = true) : (execVrot t d a b k s).memWf :=
  Res.memWf_next (memWf_issue (fun _ hu => memWf_vecPlain hu) h)

@[simp]
theorem memWf_execVcvt {t : TileNo} {src dst : BitVec 4} {scl : BitVec 8} {d a : Reg6} (h : s.memWf = true) : (execVcvt t src dst scl d a s).memWf :=
  Res.memWf_next (memWf_issue (fun _ hu => memWf_vecLanes hu) h)

@[simp] theorem memWf_execVqb {t : TileNo} {d a : Reg6} {q : QbOps} (h : s.memWf = true) : (execVqb t d a q s).memWf := by
  unfold execVqb
  refine Res.memWf_next ?_
  refine memWf_issue (fun u hu => ?_) h
  extract_lets n r s1 s2
  have hs1 : s1.memWf = true := memWf_bumpF (memWf_bumpF hu _ _ _ _) _ _ _ _
  have hs2 : s2.memWf = true := memWf_bumpF (memWf_bumpF hs1 _ _ _ _) _ _ _ _
  exact Issue.memWf_go hs2

@[simp] theorem memWf_execVtack {t : TileNo} {d a b : Reg6} {py my : BitVec 3} (h : s.memWf = true) : (execVtack t d a b py my s).memWf := by
  refine Res.memWf_next (memWf_issue (fun u hu => ?_) h)
  dsimp only
  split
  · exact Issue.memWf_fault hu
  · split
    · next hread => exact Issue.memWf_fault (memWf_of_fst (memWf_osLine hu _ _) hread)
    · next hread => exact Issue.memWf_go (memWf_of_fst (memWf_osLine hu _ _) hread)

@[simp] theorem memWf_execVtap {t : TileNo} {ty : BitVec 4} {d : Reg6} {px mx py my : BitVec 3} (h : s.memWf = true) :
    (execVtap t ty d px mx py my s).memWf := by
  refine Res.memWf_next (memWf_issue (fun u hu => ?_) h)
  dsimp only
  split
  · exact Issue.memWf_fault hu
  · split
    · next hread => exact Issue.memWf_fault (memWf_of_fst (memWf_osLine hu _ _) hread)
    · next v _ hread =>
      have hv : v.memWf = true := memWf_of_fst (memWf_osLine hu _ _) hread
      split
      · next hread => exact Issue.memWf_fault (memWf_of_fst (memWf_osLine hv _ _) hread)
      · next hread => exact Issue.memWf_go (memWf_of_fst (memWf_osLine hv _ _) hread)

end VectorInstructions

section InterruptEntry

/-! Interrupt entry, which looks at the instruction at the program counter first. -/

open State

variable {s : State}

theorem memWf_tileInstr {i : Instr} (h : s.memWf = true) : (tileInstr i s).memWf := by
  unfold tileInstr
  split <;> simp [h, Res.memWf_next]

@[simp] theorem memWf_execInterruptEntry {t : TileNo} (h : s.memWf = true) : (execInterruptEntry t s).memWf := by
  unfold execInterruptEntry
  dsimp only
  refine Res.memWf_next ?_
  refine memWf_ite h ?_
  split
  · exact memWf_ite (memWf_enterHandler h) (memWf_passIc h)
  · refine memWf_ite h ?_
    split
    · exact memWf_heldIc h
    · exact memWf_ite h (memWf_ite (memWf_enterHandler h) (memWf_emptySlot (memWf_setTile h _
        (Tile.memWf_congr (memWf_tile h _) rfl rfl rfl rfl rfl rfl))))

end InterruptEntry

section IdleStep

/-! The idle step. -/

open State

variable {s : State}

theorem State.memWf_idleTile {t : Nat} (h : s.memWf = true) : (s.idleTile t).memWf = true := memWf_ite h (memWf_passIc h)

theorem State.memWf_idle (h : s.memWf = true) : s.idle.memWf = true := by
  unfold State.idle
  extract_lets s1 s2 s3 s4
  have hs1 : s1.memWf = true := memWf_ite (memWf_retrainEnd h) h
  have hs2 : s2.memWf = true := memWf_ite hs1 (memWf_foldl (fun _ _ hu => memWf_flushLane (memWf_drain0 hu)) hs1)
  have hs3 : s3.memWf = true := memWf_macTick (memWf_pumpHems hs2)
  have hs4 : s4.memWf = true := memWf_ite hs3 (memWf_fabTick hs3)
  split
  · exact memWf_warmEnd h
  · exact memWf_foldl (fun _ _ hu => memWf_idleTile hu) (memWf_congr hs4 rfl rfl rfl rfl)

end IdleStep

section CanonicalStep

variable {s : State}

/-- Each command keeps the canonical form: its own lemma says why. -/
theorem memWf_exec (h : s.memWf = true) (c : Instr) : Res.memWf (exec c s) := by
  cases c <;> simp [h]

theorem memWf_step (h : s.memWf = true) : Res.memWf (step s) := by
  unfold step
  split
  · exact Res.memWf_next (State.memWf_idle h)
  · refine memWf_exec ?_ _
    exact State.memWf_congr h rfl rfl rfl rfl

end CanonicalStep

/-- Settles O3: the step runs one command or idles, and each keeps the canonical form. -/
theorem memoryStaysCanonical : Obligations.MemoryStaysCanonical := by
  unfold Obligations.MemoryStaysCanonical
  exact fun _ s' h hstep => memWf_step h s' hstep

end Sys2Proof.Machine
end
